-- ==== Sys2Proof/Word.lean ====
section
/-! DEFINITION. Word: the words and the sparse tables that every other file uses. -/

namespace Sys2Proof

/-- A register or memory word: every register is 64 bits wide (R11). -/
abbrev Word := BitVec 64

/-- A byte of memory, of a packet or of an image. -/
abbrev Byte := BitVec 8

/-- Sparse data by number: entries in strictly rising order of their key. A key that is not listed
reads as the table's default (for a register its reset value, for memory zero). -/
abbrev Table (α : Type) := List (Nat × α)

end Sys2Proof
end

