-- ==== Sys2Proof/Syntax.lean ====
section
/-! DEFINITION. Syntax: the commands of the block, one constructor per row of the command table, and
the shapes of their operands (packets, descriptors, link control records, register accesses). -/

namespace Sys2Proof

/-- The sender of a register access: host link `n` or the sideband port (R71). -/
inductive Requester where
  | host (link : Fin 4)
  | sideband
deriving DecidableEq, Repr

/-- The register view that an access reaches: PF0 BAR0 (R21) or VF BAR0 of VF `vf` of the link,
one tenant page (R28). -/
inductive RegSpace where
  | pf0
  | vf (vf : Nat)
deriving DecidableEq, Repr

/-- One register access: R11 and R573 give the effect of its size. `write` false is a read. -/
structure RegAccess where
  req : Requester
  space : RegSpace
  write : Bool
  off : Nat
  size : Nat
  value : Word
deriving DecidableEq, Repr

/-- The registers that hold RWL fields (R69). -/
inductive LockReg where
  | fault
  | exch
  | host (n : Fin 4)
  | coll
deriving DecidableEq, Repr

/-- The blocks that have an `expert` bit (R72): the register that holds it is named by the block's chapter. -/
inductive ExpertBlock where
  | fault | exch | lane (n : Fin 19) | link (n : Fin 19) | route | xport | rae (e : Fin 17)
  | host (n : Fin 4) | instGlobal | inst (i : Fin 4096) | matching | coll | hand | coh | lock | xlat | shape
  | perf | sens
deriving DecidableEq, Repr

/-- What started a cold reset (R551, R569). -/
inductive ColdCause where
  | powerOn | pin | sideband | register
deriving DecidableEq, Repr

/-- What started a warm reset (R551, R569). -/
inductive WarmCause where
  | pin | sideband | register
deriving DecidableEq, Repr

/-- The strap pins as sampled (R554). -/
structure Straps where
  smbAddr : Fin 8
  boot : Fin 4
  hrefMode : Bool
  testEn : Bool
deriving DecidableEq, Repr

/-- The largest echo measured at a first detect (R97): distance in cm, return loss in 0.25 dB. -/
structure Echo where
  cm : Nat
  db : Nat
deriving DecidableEq, Repr

/-- A received alignment marker (R81): whether the fixed pattern matched, the marker count, the lane
position, and the skew against the port's other lane in ns (R84). -/
structure Marker where
  patternOk : Bool
  count : BitVec 16
  pos : Fin 2
  skewNs : Nat
deriving DecidableEq, Repr

/-- The capability record of a CAP block (R92). -/
structure CapRec where
  part : BitVec 16
  step : BitVec 8
  pelong : BitVec 8
  fid : BitVec 18
  port : BitVec 8
  laneA : Bool
  laneB : Bool
  precode : Bool
  profile : BitVec 8
  role : BitVec 2
  classVc : BitVec 8
  groups : BitVec 16
  serial : BitVec 64
deriving DecidableEq, Repr

/-- A received flit (R113): its 64 bytes, and the block position at which it came, counted on its lanes from the marker
that began their grid (R80, R85). -/
structure RxFlit where
  bytes : List Byte
  blk : Nat
deriving DecidableEq, Repr

/-- A frame record of a SEAL (R114). -/
structure SealRec where
  seq : BitVec 16
  crc : BitVec 32
  hmap : BitVec 8
  smap : BitVec 8
  nflits : BitVec 4
  abort : Bool
deriving DecidableEq, Repr

/-- A record of a CREDIT (R118). -/
structure CreditRec where
  vc : BitVec 5
  shared : Bool
  flits : BitVec 16
deriving DecidableEq, Repr

/-- The route word of a packet header (R190). In a multicast copy `mask` holds bits [47:32]. -/
structure RouteWord where
  dst : Nat
  via : Nat
  nonmin : Bool
  stage : Nat
  order : Nat
  segTgt : Nat
  segPort : Nat
  hops : Nat
  vc : Nat
  mcast : Bool
  mdim : Bool
deriving DecidableEq, Repr

/-- A packet: the header flit's fields (R222) and the payload bytes. -/
structure Packet where
  op : Nat
  tc : Nat
  locked : Bool
  de : Bool
  final : Bool
  ackv : Bool
  seqd : Bool
  plen : Nat
  src : Nat
  sInst : Nat
  route : RouteWord
  seq : Nat
  attempt : Nat
  inc : Nat
  tInst : Nat
  xid : Nat
  pidx : Nat
  base : Nat
  xlen : Nat
  ackNext : Nat
  limit : Nat
  key : Nat
  aux : Nat
  crc : Nat
  payload : List Byte
deriving DecidableEq, Repr

/-- The key of an open transfer record (R240). -/
structure XferKey where
  src : Nat
  sInst : Nat
  xid : Nat
deriving DecidableEq, Repr

/-- How the placement of a packet ended (R371, R381): placed, or failed with a reason code of R237 or R381. -/
inductive PlaceResult where
  | placed
  | failed (reason : BitVec 8)
deriving DecidableEq, Repr

/-- The high-water marks that have a read-clear alias (R250, R256, R258). -/
inductive HwmMark where
  | shaper (inst : Fin 4096) (tc : Fin 8)
  | cls (tc : Fin 8)
  | port (p : Fin 144) (tc : Fin 8)
deriving DecidableEq, Repr

/-- A beacon's payload (R200). -/
structure BeaconRec where
  fid : BitVec 18
  bseq : BitVec 8
  rows : List (BitVec 4)
  cols : List (BitVec 4)
  ports : List (BitVec 4)
deriving DecidableEq, Repr

/-- A directed discovery query in transit (R211): the originator, the epoch, the remaining and the
whole path of egress ports, and the arrival ports recorded so far. -/
structure DiscQuery where
  origin : BitVec 18
  epoch : BitVec 32
  path : List (BitVec 8)
  arrived : List (BitVec 8)
deriving DecidableEq, Repr

/-- A discovery answer on its way back (R211, R214): the ports still to take, the status and the words. -/
structure DiscAnswer where
  back : List (BitVec 8)
  status : BitVec 4
  words : List Word
deriving DecidableEq, Repr

/-- A configuration request (R279): a read, or a write of `size` bytes of `value` at `off`. -/
inductive CfgReq where
  | read (off : Nat)
  | write (off size : Nat) (value : BitVec 32)
deriving DecidableEq, Repr

/-- A host access through PF0 BAR2 (R267) or VF BAR2; the Basil tiles complete no AtomicOp (R383). -/
inductive BarReq where
  | read (len : Nat)
  | write (data : List Byte)
  | atomic (len : Nat)
deriving DecidableEq, Repr

/-- Such an access with the offset of its first byte in the BAR. -/
structure BarAccess where
  off : Nat
  req : BarReq
deriving DecidableEq, Repr

/-- A poisoned TLP received (R278): the completion of an outstanding read, or a write to a function. -/
inductive BadTlp where
  | completion (tag : Nat)
  | write (fn : Nat)
deriving DecidableEq, Repr

/-- The status of a completion from the host (R273). -/
inductive CplStatus where
  | ok | ur | ca
deriving DecidableEq, Repr

/-- The result of a table read (R345 kind 5): the entry, or a failed read. -/
inductive ReadRes where
  | entry (w : Word)
  | failed
deriving DecidableEq, Repr

/-- A descriptor: eight 64-bit words (R295). -/
structure Desc where
  w0 : Word
  w1 : Word
  w2 : Word
  w3 : Word
  w4 : Word
  w5 : Word
  w6 : Word
  w7 : Word
deriving DecidableEq, Repr

/-- The kind of a memory access (R338). -/
inductive AccKind where
  | rd | wr | atm
deriving DecidableEq, Repr

/-- Who waits for a translation (R346): the local side of operation `op`, or the target side of a
packet, named by its transfer and packet index, the next read of a far submission ring, or the completion entry of
operation `op`. -/
inductive XlatFor where
  | probe
  | ring (r : Nat)
  | entry (op : Nat)
  | loc (op : Nat) (pidx : Nat)
  | target (key : XferKey) (pidx : Nat)
deriving DecidableEq, Repr

/-- A request to the translation unit (R335): stage 1 applies when `stage1`. -/
structure XlatReq where
  addr : Word
  acc : AccKind
  stage1 : Bool
  who : XlatFor
deriving DecidableEq, Repr

/-- A caching agent of the coherent region (R466): Sorrel core, Dill engine or Fennel engine, physical number. -/
inductive CohAgent where
  | core (c : Fin 68)
  | dill (e : Fin 34)
  | fennel (e : Fin 17)
deriving DecidableEq, Repr

/-- A restart point of a walk of matching lists (R403): before the entry numbered `n` of the list walked, after the unlink, or after
the delivery has been handed over or the entry filed. -/
inductive WalkStop where
  | entry (n : Nat)
  | commit
  | handed
deriving DecidableEq, Repr

/-- A restart point of a context's walk. -/
structure WalkPoint where
  ctx : Fin 65536
  stop : WalkStop
deriving DecidableEq, Repr

/-- A codeword as a lane receives it (R82, R85): its symbol errors, and the blocks that it completes. -/
structure RxCodeword where
  errs : Nat
  blocks : List (BitVec 257)
deriving DecidableEq, Repr

/-- A coded message (R492). -/
structure CodedMsg where
  src : Fin 640
  kind : BitVec 6
  cls : Fin 4
  addr : BitVec 52
deriving DecidableEq, Repr

/-- The reference clock inputs (R549). -/
inductive RefInput where
  | lref (q : Fin 4)
  | href (n : Fin 4)
  | xtal
deriving DecidableEq, Repr

/-- The commands: one constructor per row of the command table. -/
inductive Instr where
  /-- REGISTER_WRITE (R573). -/
  | registerWrite (acc : RegAccess)
  /-- LOCK_SET (R69). -/
  | lockSet (reg : LockReg) (value : BitVec 64)
  /-- EXPERT_CHANGE (R73). -/
  | expertChange (blk : ExpertBlock) (on : Bool)
  /-- ISLAND_CHANNELS_OPEN (R17). -/
  | islandChannelsOpen (isl : Fin 74)
  /-- STAGING_WRITE (R53). -/
  | stagingWrite (off : Nat) (data : List Byte)
  /-- LOAD (R55). -/
  | load
  /-- LOAD_END (R55). -/
  | loadEnd (hbmOk : Bool)
  /-- APPLY (R579). -/
  | apply
  /-- APPLY_END (R64). -/
  | applyEnd (hbmOk : Bool)
  /-- ENABLE (R38). -/
  | enable
  /-- FLASH_LOAD (R58). -/
  | flashLoad (secondary : Bool)
  /-- FLASH_FETCH_END (R54). -/
  | flashFetchEnd (readOk : Bool)
  /-- FUSE_PROGRAM (R51). -/
  | fuseProgram (confirm : BitVec 16) (slot : Fin 4)
  /-- FUSE_REVOKE (R52). -/
  | fuseRevoke (confirm : BitVec 16) (slot : Fin 4)
  /-- FUSE_REQ_CUST (R52). -/
  | fuseReqCust (confirm : BitVec 16)
  /-- FUSE_END (R51). -/
  | fuseEnd (readback : Bool)
  /-- COLD_RESET (R551). -/
  | coldReset (cause : ColdCause) (straps : Straps)
  /-- WARM_RESET (R40). -/
  | warmReset (cause : WarmCause)
  /-- BAY_RESET_WARM (R569). -/
  | bayResetWarm (confirm : BitVec 16)
  /-- BAY_RESET_COLD (R569). -/
  | bayResetCold (confirm : BitVec 16) (straps : Straps)
  /-- DETECT_TRY (R87). -/
  | detectTry (p : Fin 144) (hitA : Bool) (hitB : Bool) (echoA : Echo) (echoB : Echo)
  /-- TRAINING_FRAMES_VALID (R87). -/
  | trainingFramesValid (p : Fin 144)
  /-- ADAPT_READY (R87). -/
  | adaptReady (p : Fin 144) (lossA : Nat) (lossB : Nat)
  /-- ALIGNMENT_MARKER (R84). -/
  | alignmentMarker (lane : Fin 288) (m : Marker)
  /-- CODEWORD (R85). -/
  | codeword (lane : Fin 288) (word : RxCodeword)
  /-- LOSS_OF_SIGNAL (R89). -/
  | lossOfSignal (lane : Fin 288)
  /-- STATE_TIMEOUT (R88). -/
  | stateTimeout (p : Fin 144)
  /-- CAP_TIMER (R87). -/
  | capTimer (p : Fin 144)
  /-- CAP (R93). -/
  | cap (p : Fin 144) (c : CapRec)
  /-- CAP_ACK (R93). -/
  | capAck (p : Fin 144) (crc : BitVec 16)
  /-- ECHO_REQ (R86). -/
  | echoReq (p : Fin 144) (num : BitVec 16) (stamp : BitVec 64) (turn : BitVec 32)
  /-- ECHO_RSP (R95). -/
  | echoRsp (p : Fin 144) (num : BitVec 16) (elapsed : Nat) (turn : BitVec 32)
  /-- ECHO_TIMEOUT (R95). -/
  | echoTimeout (p : Fin 144)
  /-- MEASURE_END (R95). -/
  | measureEnd (p : Fin 144)
  /-- ADAPT (R99). -/
  | adapt (p : Fin 144) (lane : Fin 288) (coeff : BitVec 48)
  /-- ADAPT_REFINE (R99). -/
  | adaptRefine (lane : Fin 288) (coeff : BitVec 18)
  /-- LOAD_SAMPLE (R100). -/
  | loadSample (m : Fin 36) (load : Nat)
  /-- REMEASURE_END (R100). -/
  | remeasureEnd (m : Fin 36) (margins : List Nat) (target : Nat)
  /-- DEGRADE (R102). -/
  | degrade (p : Fin 144) (pos : Fin 2)
  /-- DEGRADE_ACK (R102). -/
  | degradeAck (p : Fin 144) (pos : Fin 2)
  /-- RETRAIN (R90). -/
  | retrain (p : Fin 144)
  /-- LANE_RESTART (R105). -/
  | laneRestart (p : Fin 144)
  /-- LANE_RETRAIN (R90). -/
  | laneRetrain (p : Fin 144)
  /-- LANE_HOLD (R105). -/
  | laneHold (p : Fin 144) (hold : Bool)
  /-- LANE_RELANE (R91). -/
  | laneRelane (p : Fin 144)
  /-- LANE_RECAL (R101). -/
  | laneRecal (n : Fin 19)
  /-- SLIP (R111). -/
  | slip (n : Fin 19) (k : Fin 16) (bits : BitVec 12)
  /-- BLOCK_POSITION (R119). -/
  | blockPosition (p : Fin 144)
  /-- SEAL (R116). -/
  | seal (p : Fin 144) (flits : List RxFlit) (recs : List SealRec) (ack : BitVec 16) (blk : Nat)
  /-- CREDIT (R126). -/
  | credit (p : Fin 144) (recs : List CreditRec) (ack : BitVec 16)
  /-- NAK (R134). -/
  | nak (p : Fin 144) (nums : List (BitVec 16)) (ack : BitVec 16)
  /-- REPLAY (R137). -/
  | replay (p : Fin 144) (first : BitVec 16) (ack : BitVec 16)
  /-- KEEPALIVE (R139). -/
  | keepalive (p : Fin 144) (next : BitVec 16) (ack : BitVec 16) (empty : Bool)
  /-- INIT (R129). -/
  | init (p : Fin 144) (part : Fin 2) (reserve : List Nat) (shared : Nat) (cap : Nat) (next : BitVec 16)
  /-- INIT_ACK (R129). -/
  | initAck (p : Fin 144) (parts : BitVec 2)
  /-- INIT_REPEAT (R129). -/
  | initRepeat (p : Fin 144)
  /-- INIT_TIMEOUT (R129). -/
  | initTimeout (p : Fin 144)
  /-- KEEPALIVE_TIMER (R139). -/
  | keepaliveTimer (p : Fin 144)
  /-- CREDIT_DUE (R121). -/
  | creditDue (p : Fin 144)
  /-- NAK_TIMEOUT (R136). -/
  | nakTimeout (p : Fin 144) (num : BitVec 16)
  /-- REPLAY_TIMEOUT (R136). -/
  | replayTimeout (p : Fin 144)
  /-- REPLAY_ESCALATION (R138). -/
  | replayEscalation (p : Fin 144)
  /-- LINK_DOWN_TIMEOUT (R141). -/
  | linkDownTimeout (p : Fin 144)
  /-- QUIET_MOMENT (R142). -/
  | quietMoment (p : Fin 144)
  /-- LEAK_IDLE (R143). -/
  | leakIdle (p : Fin 144)
  /-- LEAK_FORCE (R143). -/
  | leakForce (p : Fin 144)
  /-- GRACE_EXPIRY (R145). -/
  | graceExpiry (id : Nat)
  /-- REQUEST (R159). -/
  | request (o : Fin 152) (ep : Fin 27) (cls : Fin 4)
  /-- COUNT_UPDATE (R173). -/
  | countUpdate (o : Fin 152) (ep : Fin 27) (cls : Fin 4)
  /-- CREDIT_ANNOUNCE (R157). -/
  | creditAnnounce (p : Fin 144) (vc : Fin 24)
  /-- GRANT_OPPORTUNITY (R166). -/
  | grantOpportunity (o : Fin 152)
  /-- DECLINE_PAUSE_END (R166). -/
  | declinePauseEnd (o : Fin 152)
  /-- REQUEST_RETRY (R160). -/
  | requestRetry (o : Fin 152) (ep : Fin 27) (cls : Fin 4)
  /-- GRANT_END (R167). -/
  | grantEnd (o : Fin 152) (lane : Fin 8)
  /-- HANDSHAKE_TIMEOUT (R175). -/
  | handshakeTimeout (o : Fin 152) (ep : Fin 27)
  /-- ROUTE_HOP (R203). -/
  | routeHop (p : Fin 144)
  /-- BEACON_PERIOD (R199). -/
  | beaconPeriod
  /-- BEACON (R199). -/
  | beacon (p : Fin 144) (b : BeaconRec)
  /-- BEACON_STALE (R199). -/
  | beaconStale (i : Fin 32)
  /-- GROUP_TABLE_WRITE (R208). -/
  | groupTableWrite (off : Nat) (data : List Byte)
  /-- ROUTE_COMMIT (R209). -/
  | routeCommit
  /-- ROUTE_COPY (R210). -/
  | routeCopy
  /-- BANK_OP_END (R209). -/
  | bankOpEnd
  /-- DISC_GO (R219). -/
  | discGo
  /-- DISC_Q (R211). -/
  | discQ (p : Fin 144) (q : DiscQuery)
  /-- DISC_A (R211). -/
  | discA (p : Fin 144) (a : DiscAnswer)
  /-- DISC_TIMEOUT (R211). -/
  | discTimeout
  /-- SHAPER_RELEASE (R243). -/
  | shaperRelease (inst : Fin 4096) (tc : Fin 8)
  /-- POLICER_BACKOFF_END (R246). -/
  | policerBackoffEnd (inst : Fin 4096) (tc : Fin 8)
  /-- PEER_FETCH_DONE (R227). -/
  | peerFetchDone (idx : Fin 1048576)
  /-- PEER_EVICTABLE (R227). -/
  | peerEvictable (idx : Fin 1048576)
  /-- WINDOW_SEND (R229). -/
  | windowSend (idx : Fin 1048576)
  /-- PUT (R368). -/
  | put (pkt : Packet)
  /-- GET_REQ (R369). -/
  | getReq (pkt : Packet)
  /-- GET_RSP (R370). -/
  | getRsp (pkt : Packet)
  /-- ATOMIC (R374). -/
  | atomic (pkt : Packet)
  /-- ATOMIC_RSP (R374). -/
  | atomicRsp (pkt : Packet)
  /-- SEND (R392). -/
  | send (pkt : Packet)
  /-- SEND_RDV (R390). -/
  | sendRdv (pkt : Packet)
  /-- COMP (R241). -/
  | comp (pkt : Packet)
  /-- NCOMP (R238). -/
  | ncomp (pkt : Packet)
  /-- ACK (R233). -/
  | ack (pkt : Packet)
  /-- SYNC (R230). -/
  | sync (pkt : Packet)
  /-- ACK_TIMER (R232). -/
  | ackTimer (idx : Fin 1048576)
  /-- RETRY_TIMEOUT (R236). -/
  | retryTimeout (idx : Fin 1048576) (seq : BitVec 24)
  /-- NACK_RESEND (R238). -/
  | nackResend (idx : Fin 1048576) (seq : BitVec 24)
  /-- WINDOW_UPDATE (R235). -/
  | windowUpdate
  /-- XFER_IDLE (R240). -/
  | xferIdle (key : XferKey)
  /-- PLACEMENT_DONE (R379). -/
  | placementDone (key : XferKey) (pidx : BitVec 20) (ok : PlaceResult)
  /-- RESPONSE_TIMEOUT (R376). -/
  | responseTimeout (xid : BitVec 32)
  /-- HWM_READ_CLEAR (R250). -/
  | hwmReadClear (mark : HwmMark)
  /-- CONFIG_REQUEST (R279). -/
  | configRequest (link : Fin 4) (fn : Nat) (req : CfgReq)
  /-- READ_TIMEOUT (R280). -/
  | readTimeout (link : Fin 4) (fn : Nat)
  /-- PF0_BAR2_ACCESS (R267). -/
  | pf0Bar2Access (link : Fin 4) (acc : BarAccess)
  /-- NEAR_RING_WRITE (R29): a host access of VF BAR2. The table has no row for the read of this window, and gives it to this one
  (log 142). -/
  | nearRingWrite (link : Fin 4) (vf : Nat) (off : Nat) (req : BarReq)
  /-- DL_DOWN (R287). -/
  | dlDown (link : Fin 4)
  /-- PERST (R286). -/
  | perst (link : Fin 4)
  /-- HOT_RESET (R286). -/
  | hotReset (link : Fin 4)
  /-- LINK_TRAINED (R288). -/
  | linkTrained (link : Fin 4) (speed : Fin 8) (width : Fin 17) (flit : Bool)
  /-- HGRACE_EXPIRY (R287). -/
  | hgraceExpiry (id : Nat)
  /-- FLR_VF (R283). -/
  | flrVf (link : Fin 4) (vf : Nat)
  /-- FLR_PF0 (R284). -/
  | flrPf0 (link : Fin 4)
  /-- FLR_END (R283). -/
  | flrEnd (link : Fin 4) (fn : Nat)
  /-- D3HOT_ENTRY (R285). -/
  | d3hotEntry (link : Fin 4)
  /-- D0_RETURN (R285). -/
  | d0Return (link : Fin 4)
  /-- COMPLETION_TIMEOUT (R271). -/
  | completionTimeout (link : Fin 4) (tag : Nat)
  /-- POISONED_TLP (R278). -/
  | poisonedTlp (link : Fin 4) (what : BadTlp)
  /-- ECRC_ERROR (R278). -/
  | ecrcError (link : Fin 4) (fn : Nat)
  /-- ATOMICOP_COMPLETION (R273). -/
  | atomicopCompletion (link : Fin 4) (tag : Nat) (status : CplStatus) (old : List Byte)
  /-- ATOMIC_RETRY (R273). -/
  | atomicRetry (link : Fin 4)
  /-- RING_POLL (R305). -/
  | ringPoll (inst : Fin 4096) (ring : Fin 64)
  /-- KICK (R306). -/
  | kick (inst : Fin 4096) (ring : Fin 64)
  /-- SQ_ENABLE (R308). -/
  | sqEnable (inst : Fin 4096) (ring : Fin 64) (value : BitVec 64)
  /-- SQ_DISABLE (R308). -/
  | sqDisable (inst : Fin 4096) (ring : Fin 64)
  /-- NEAR_RING_ZEROED (R300). -/
  | nearRingZeroed (inst : Fin 4096) (ring : Fin 64)
  /-- CQ_ENABLE (R334). -/
  | cqEnable (inst : Fin 4096) (ring : Fin 64) (value : BitVec 64)
  /-- CQ_DISABLE (R334). -/
  | cqDisable (inst : Fin 4096) (ring : Fin 64)
  /-- CQ_HEAD_WRITE (R311). -/
  | cqHeadWrite (inst : Fin 4096) (ring : Fin 64) (head : BitVec 16)
  /-- JOB_COMPLETE (R311). -/
  | jobComplete (job : Nat)
  /-- PUT_JOB (R367). -/
  | putJob (job : Nat)
  /-- GET_JOB (R362). -/
  | getJob (job : Nat)
  /-- PUT_INL (R30). -/
  | putInl (job : Nat)
  /-- ATOMIC_JOB (R365). -/
  | atomicJob (job : Nat)
  /-- SEND_JOB (R390). -/
  | sendJob (job : Nat)
  /-- RECV (R394). -/
  | recv (job : Nat)
  /-- LOCK_JOB (R473). -/
  | lockJob (job : Nat)
  /-- BARRIER (R431). -/
  | barrier (job : Nat)
  /-- BROADCAST (R432). -/
  | broadcast (job : Nat)
  /-- REDUCE (R432). -/
  | reduce (job : Nat)
  /-- ALLREDUCE (R431). -/
  | allreduce (job : Nat)
  /-- NOP (R297). -/
  | nop (job : Nat)
  /-- SEG (R301). -/
  | seg (inst : Fin 4096) (ring : Fin 64) (d : Desc)
  /-- CREATE (R315). -/
  | create (inst : Fin 4096)
  /-- QUIESCE (R317). -/
  | quiesce (inst : Fin 4096)
  /-- QUIESCE_END (R319). -/
  | quiesceEnd (inst : Fin 4096) (drained : Bool)
  /-- RESUME (R319). -/
  | resume (inst : Fin 4096)
  /-- RESET (R320). -/
  | reset (inst : Fin 4096)
  /-- REMOVE (R320). -/
  | remove (inst : Fin 4096)
  /-- MOVE (R321). -/
  | move (inst : Fin 4096)
  /-- INST_CMD_END (R328). -/
  | instCmdEnd (inst : Fin 4096)
  /-- TO_MGR_SET (R323). -/
  | toMgrSet (inst : Fin 4096)
  /-- TO_MGR_CLEAR (R323). -/
  | toMgrClear (inst : Fin 4096)
  /-- TO_TENANT_SET (R323). -/
  | toTenantSet (inst : Fin 4096)
  /-- TO_TENANT_CLEAR (R323). -/
  | toTenantClear (inst : Fin 4096)
  /-- DLOG_FLIP (R325). -/
  | dlogFlip (inst : Fin 4096)
  /-- DLOG_FLIP_END (R325). -/
  | dlogFlipEnd (inst : Fin 4096)
  /-- TRANSLATE (R338). -/
  | translate (inst : Fin 4096) (acc : XlatReq)
  /-- WALK_READ_DONE (R339). -/
  | walkReadDone (walk : Nat) (res : ReadRes)
  /-- MARK_CAS_DONE (R340). -/
  | markCasDone (walk : Nat) (old : BitVec 64) (ok : Bool)
  /-- XLAT_INV (R343). -/
  | xlatInv
  /-- XL_INV (R361). -/
  | xlInv (inst : Fin 4096)
  /-- INV_DONE (R343). -/
  | invDone (tenant : Option (Fin 4096))
  /-- FAULTQ_HEAD_WRITE (R358). -/
  | faultqHeadWrite (head : BitVec 6)
  /-- WINDOW_WRITE (R351). -/
  | windowWrite (inst : Fin 4096) (w : Fin 128) (reg : Fin 4) (value : BitVec 64)
  /-- DM_GRANT_WRITE (R359). -/
  | dmGrantWrite (inst : Fin 4096) (value : BitVec 64)
  /-- MATCH_HANDOVER (R392). -/
  | matchHandover (inst : Fin 4096) (idx : Fin 1048576) (seq : BitVec 24)
  /-- ARRIVE (R395). -/
  | arrive (d : Fin 65536)
  /-- POST (R395). -/
  | post (d : Fin 65536)
  /-- WALK_INTERRUPT (R402). -/
  | walkInterrupt (point : WalkPoint)
  /-- WALK_RESUME (R404). -/
  | walkResume (d : Fin 65536)
  /-- UNPIN (R400). -/
  | unpin (d : Fin 65536)
  /-- MIGRATE (R405). -/
  | migrate (d : Fin 65536) (migTo : Fin 32)
  /-- MIGRATE_END (R405). -/
  | migrateEnd (d : Fin 65536)
  /-- CTX_RESET (R410). -/
  | ctxReset (d : Fin 65536)
  /-- CTX_RESET_END (R410). -/
  | ctxResetEnd (d : Fin 65536)
  /-- ENTRY_READ (R417). -/
  | entryRead (list : Bool) (index : Nat)
  /-- POOL_WRITE (R414). -/
  | poolWrite (value : BitVec 64)
  /-- COMM_VALID (R422). -/
  | commValid (c : Fin 4096)
  /-- COMM_ABORT (R440). -/
  | commAbort (c : Fin 4096)
  /-- COLL_UP (R431). -/
  | collUp (pkt : Packet)
  /-- COLL_DOWN (R431). -/
  | collDown (pkt : Packet)
  /-- SEGMENT_ADMIT (R433). -/
  | segmentAdmit (e : Fin 16)
  /-- FAIL_PACKET (R439). -/
  | failPacket (pkt : Packet)
  /-- SNAPSHOT_GO (R442). -/
  | snapshotGo (value : BitVec 64)
  /-- WAVE_ABORT_GO (R443). -/
  | waveAbortGo (value : BitVec 64)
  /-- WAVE_CLEAR_GO (R443). -/
  | waveClearGo (value : BitVec 64)
  /-- WAVE_SAFE_GO (R443). -/
  | waveSafeGo (value : BitVec 64)
  /-- ARM_PACKET (R442). -/
  | armPacket (pkt : Packet)
  /-- SNAPSHOT_UP (R442). -/
  | snapshotUp (pkt : Packet)
  /-- FREEZE_PACKET (R529). -/
  | freezePacket (pkt : Packet)
  /-- SNAPSHOT_RECORD (R442). -/
  | snapshotRecord (pkt : Packet)
  /-- WAVE_PACKET (R443). -/
  | wavePacket (pkt : Packet)
  /-- ARM_DISCARD (R444). -/
  | armDiscard
  /-- TRIGGER_TIMER (R459). -/
  | triggerTimer (t : Fin 4096)
  /-- HANDLER_DISPATCH (R461). -/
  | handlerDispatch (c : Fin 68)
  /-- FRAME_TICK (R461). -/
  | frameTick
  /-- TRIG_ENABLE (R485). -/
  | trigEnable (t : Fin 4096)
  /-- TRIG_DISABLE (R464). -/
  | trigDisable (t : Fin 4096)
  /-- CORE_HOLD (R464). -/
  | coreHold (c : Fin 68) (hold : Bool) (holdStop : Bool)
  /-- IMEM_WRITE (R483). -/
  | imemWrite (c : Fin 68) (loc : Bool) (off : Nat) (data : List Byte)
  /-- BUDGET_TRAP (R454). -/
  | budgetTrap (c : Fin 68)
  /-- STOP_REQUEST (R455). -/
  | stopRequest (c : Fin 68)
  /-- ALU (R457). -/
  | alu (c : Fin 68) (rd : BitVec 5) (ra : BitVec 5) (rb : BitVec 5) (fn : BitVec 11)
  /-- ADDI (R457). -/
  | addi (c : Fin 68) (rd : BitVec 5) (ra : BitVec 5) (imm : BitVec 16)
  /-- ANDI (R457). -/
  | andi (c : Fin 68) (rd : BitVec 5) (ra : BitVec 5) (imm : BitVec 16)
  /-- ORI (R457). -/
  | ori (c : Fin 68) (rd : BitVec 5) (ra : BitVec 5) (imm : BitVec 16)
  /-- XORI (R457). -/
  | xori (c : Fin 68) (rd : BitVec 5) (ra : BitVec 5) (imm : BitVec 16)
  /-- LUI (R457). -/
  | lui (c : Fin 68) (rd : BitVec 5) (ra : BitVec 5) (imm : BitVec 16)
  /-- INSH (R457). -/
  | insh (c : Fin 68) (rd : BitVec 5) (ra : BitVec 5) (imm : BitVec 16)
  /-- LD1 (R458). -/
  | ld1 (c : Fin 68) (rd : BitVec 5) (ra : BitVec 5) (imm : BitVec 16)
  /-- LD2 (R458). -/
  | ld2 (c : Fin 68) (rd : BitVec 5) (ra : BitVec 5) (imm : BitVec 16)
  /-- LD4 (R458). -/
  | ld4 (c : Fin 68) (rd : BitVec 5) (ra : BitVec 5) (imm : BitVec 16)
  /-- LD8 (R458). -/
  | ld8 (c : Fin 68) (rd : BitVec 5) (ra : BitVec 5) (imm : BitVec 16)
  /-- ST1 (R458). -/
  | st1 (c : Fin 68) (rd : BitVec 5) (ra : BitVec 5) (imm : BitVec 16)
  /-- ST2 (R458). -/
  | st2 (c : Fin 68) (rd : BitVec 5) (ra : BitVec 5) (imm : BitVec 16)
  /-- ST4 (R458). -/
  | st4 (c : Fin 68) (rd : BitVec 5) (ra : BitVec 5) (imm : BitVec 16)
  /-- ST8 (R458). -/
  | st8 (c : Fin 68) (rd : BitVec 5) (ra : BitVec 5) (imm : BitVec 16)
  /-- AMO (R457). -/
  | amo (c : Fin 68) (rd : BitVec 5) (ra : BitVec 5) (rb : BitVec 5) (fn : BitVec 11)
  /-- BEQ (R457). -/
  | beq (c : Fin 68) (ra : BitVec 5) (rb : BitVec 5) (off : BitVec 16)
  /-- BNE (R457). -/
  | bne (c : Fin 68) (ra : BitVec 5) (rb : BitVec 5) (off : BitVec 16)
  /-- BLT (R457). -/
  | blt (c : Fin 68) (ra : BitVec 5) (rb : BitVec 5) (off : BitVec 16)
  /-- BGE (R457). -/
  | bge (c : Fin 68) (ra : BitVec 5) (rb : BitVec 5) (off : BitVec 16)
  /-- BLTU (R457). -/
  | bltu (c : Fin 68) (ra : BitVec 5) (rb : BitVec 5) (off : BitVec 16)
  /-- BGEU (R457). -/
  | bgeu (c : Fin 68) (ra : BitVec 5) (rb : BitVec 5) (off : BitVec 16)
  /-- CALL (R452). -/
  | call (c : Fin 68) (n : BitVec 4) (off : BitVec 22)
  /-- RET (R452). -/
  | ret (c : Fin 68) (n : BitVec 4) (off : BitVec 22)
  /-- J (R457). -/
  | j (c : Fin 68) (off : BitVec 26)
  /-- JR (R457). -/
  | jr (c : Fin 68) (ra : BitVec 5) (rd : BitVec 5) (rb : BitVec 5) (fn : BitVec 11)
  /-- CSR (R457). -/
  | csr (c : Fin 68) (rd : BitVec 5) (ra : BitVec 5) (rb : BitVec 5) (fn : BitVec 11)
  /-- DESC (R460). -/
  | desc (c : Fin 68) (rd : BitVec 5) (ra : BitVec 5) (rb : BitVec 5) (fn : BitVec 11)
  /-- LKACQ (R474). -/
  | lkacq (c : Fin 68) (rd : BitVec 5) (ra : BitVec 5) (rb : BitVec 5) (fn : BitVec 11)
  /-- LKREL (R474). -/
  | lkrel (c : Fin 68) (rd : BitVec 5) (ra : BitVec 5) (rb : BitVec 5) (fn : BitVec 11)
  /-- FENCE (R457). -/
  | fence (c : Fin 68) (rd : BitVec 5) (ra : BitVec 5) (rb : BitVec 5) (fn : BitVec 11)
  /-- DONE (R463). -/
  | done (c : Fin 68) (rd : BitVec 5) (ra : BitVec 5) (imm : BitVec 16)
  /-- GETS (R467). -/
  | gets (a : CohAgent) (line : Nat)
  /-- GETM (R467). -/
  | getm (a : CohAgent) (line : Nat)
  /-- UPGRADE (R467). -/
  | upgrade (a : CohAgent) (line : Nat)
  /-- PUTM (R467). -/
  | putm (a : CohAgent) (line : Nat) (data : List Byte)
  /-- PUTE (R467). -/
  | pute (a : CohAgent) (line : Nat)
  /-- READNA (R467). -/
  | readna (line : Nat)
  /-- WRITENA (R467). -/
  | writena (addr : Nat) (data : List Byte)
  /-- ATOMICNA (R467). -/
  | atomicna (addr : Nat) (op : Fin 8) (wide : Bool) (op1 : Nat) (op2 : Nat)
  /-- FORWARD (R470). -/
  | forward (a : CohAgent) (line : Nat)
  /-- INVALIDATION (R470). -/
  | invalidation (a : CohAgent) (line : Nat)
  /-- COHERENT_RESPONSE (R469). -/
  | coherentResponse (a : CohAgent) (line : Nat)
  /-- DIR_READ (R488). -/
  | dirRead (line : Nat)
  /-- LOCK_ARM (R474). -/
  | lockArm (pkt : Packet)
  /-- LOCK_ACQUIRE (R475). -/
  | lockAcquire (pkt : Packet)
  /-- LOCK_RELEASE (R475). -/
  | lockRelease (pkt : Packet)
  /-- LOCK_DISARM (R474). -/
  | lockDisarm (pkt : Packet)
  /-- LOCK_CANCEL (R477). -/
  | lockCancel (pkt : Packet)
  /-- FORCED_HANDOVER (R478). -/
  | forcedHandover (value : BitVec 64)
  /-- CODED_MESSAGE (R497). -/
  | codedMessage (m : CodedMsg)
  /-- COUNT_WINDOW_END (R497). -/
  | countWindowEnd (src : Fin 640)
  /-- FORCE (R499). -/
  | force (src : Fin 640)
  /-- SEV_CLR (R504). -/
  | sevClr (src : Fin 640)
  /-- RECORD_RELEASE (R503). -/
  | recordRelease (src : Fin 640)
  /-- INFO_HEAD_WRITE (R520). -/
  | infoHeadWrite (head : BitVec 8)
  /-- HEARTBEAT (R507). -/
  | heartbeat (core : Fin 2)
  /-- HEARTBEAT_MISS (R507). -/
  | heartbeatMiss
  /-- TAKEOVER_END (R508). -/
  | takeoverEnd
  /-- FW_LOAD (R510). -/
  | fwLoad
  /-- FW_LOAD_END (R510). -/
  | fwLoadEnd (sameFormat : Bool)
  /-- SWAP (R510). -/
  | swap
  /-- RESTART (R509). -/
  | restart
  /-- DRAIN (R512). -/
  | drain (slot : Fin 18)
  /-- DRAIN_WAIT_END (R512). -/
  | drainWaitEnd
  /-- DRAINED (R512). -/
  | drained
  /-- DRAIN_CLEAR (R512). -/
  | drainClear
  /-- SPARE_GO (R513). -/
  | spareGo (value : BitVec 64)
  /-- SPARE_END (R513). -/
  | spareEnd
  /-- RETIRE (R514). -/
  | retire (n : Fin 4) (page : BitVec 25)
  /-- RETIRE_END (R514). -/
  | retireEnd (n : Fin 4) (bad : List Nat)
  /-- FORCE_SAFE (R516). -/
  | forceSafe (confirm : BitVec 16)
  /-- FORCE_LANES (R516). -/
  | forceLanes (confirm : BitVec 16) (on : Bool)
  /-- THERMAL_TRIP (R517). -/
  | thermalTrip (sensor : Fin 64)
  /-- CNT_SEL_WRITE (R527). -/
  | cntSelWrite (k : Fin 1024) (value : BitVec 64)
  /-- FREEZE (R529). -/
  | freeze
  /-- CLEAR (R530). -/
  | clear
  /-- SAMP_ENABLE (R533). -/
  | sampEnable (value : BitVec 64)
  /-- SAMP_RD_WRITE (R532). -/
  | sampRdWrite (rd : BitVec 21)
  /-- BW_WINDOW_END (R534). -/
  | bwWindowEnd
  /-- RAIL_SAMPLE (R547). -/
  | railSample (r : Fin 24) (reading : BitVec 16) (bad : Bool)
  /-- TEMP_SAMPLE (R535). -/
  | tempSample (t : Fin 64) (reading : BitVec 16)
  /-- DROOP (R536). -/
  | droop (i : Fin 74) (depth : Nat)
  /-- MM_CLR (R541). -/
  | mmClr (temp : Bool) (i : Nat)
  /-- REF_CHECK (R550). -/
  | refCheck (clk : RefInput) (present : Bool) (ppm : Nat)
  /-- AVS_TIMEOUT (R544). -/
  | avsTimeout
  /-- VSB_LOSS (R547). -/
  | vsbLoss
  /-- READ_IDENT (R557). -/
  | readIdent
  /-- READ_FLOG (R557). -/
  | readFlog (first : BitVec 8)
  /-- READ_SENSOR (R557). -/
  | readSensor (temp : Bool) (i : BitVec 8)
  /-- SAFE (R557). -/
  | safe (confirm : BitVec 16)
  /-- LANES (R557). -/
  | lanes (on : BitVec 8) (confirm : BitVec 16)
  /-- SIDEBAND_RESET (R557). -/
  | sidebandReset (code : BitVec 8) (confirm : BitVec 16) (straps : Straps)
  /-- READ_REG (R557). -/
  | readReg (off : BitVec 32)
  /-- WRITE_REG (R557). -/
  | writeReg (off : BitVec 32) (value : BitVec 64)
  /-- FLASH_WRITE (R558). -/
  | flashWrite (off : Nat) (data : List Byte)
  /-- FLASH_ERASE (R558). -/
  | flashErase (sector : Nat)
  /-- SET_ENDPOINT_ID (R556). -/
  | setEndpointId (eid : BitVec 8)
  /-- GET_ENDPOINT_ID (R556). -/
  | getEndpointId
  /-- GET_MCTP_VERSION_SUPPORT (R556). -/
  | getMctpVersionSupport
  /-- GET_MESSAGE_TYPE_SUPPORT (R556). -/
  | getMessageTypeSupport
  /-- GET_VENDOR_DEFINED_MESSAGE_SUPPORT (R556). -/
  | getVendorDefinedMessageSupport
  /-- ARB_LOST (R560). -/
  | arbLost (k : Fin 8)
  /-- ARB_RETRY (R560). -/
  | arbRetry (k : Fin 8)
  /-- SMB_POLL (R561). -/
  | smbPoll (data : List (BitVec 16))
  /-- BYPASS (R563). -/
  | bypass
  /-- IDCODE (R562). -/
  | idcode
  /-- SAMPLE_PRELOAD (R563). -/
  | samplePreload (pins : List Bool)
  /-- EXTEST (R563). -/
  | extest
  /-- HIGHZ (R563). -/
  | highz
  /-- CLAMP (R563). -/
  | clamp
  /-- EXTEST_PULSE (R562). -/
  | extestPulse
  /-- EXTEST_TRAIN (R562). -/
  | extestTrain
  /-- DMA_READ_COMPLETION (R271). -/
  | dmaReadCompletion (link : Fin 4) (tag : Nat) (data : List Byte)
  /-- PLL_UNLOCK (R496). -/
  | pllUnlock (isl : Fin 74)
  /-- AVSBUS_ACKNOWLEDGE (R543). -/
  | avsbusAcknowledge
  /-- SMBUS_CLOCK_LOW_TIMEOUT (R555). -/
  | smbusClockLowTimeout
  /-- TRST_ASSERT (R562). -/
  | trstAssert
deriving DecidableEq, Repr

end Sys2Proof
end

