-- ==== Sys2Proof/Decode.lean ====
section
/-! DEFINITION. Decode: the command that a word of the command table spells, and the words of the Sorrel core's instructions with
their decoder (R456, R457). -/

namespace Sys2Proof

/-- The command that a word of `nbits` bits spells. No row of the command table gives bits: a command is
an event and its operands, so no word spells one. -/
def decodeTableWord (_nbits _w : Nat) : Option Instr := none

/-! ## The formats of the Sorrel core's instructions (R456) -/

/-- Format A: `op` [31:26], `rd` [25:21], `ra` [20:16], `rb` [15:11], `fn` [10:0]. -/
def fmtA (op : BitVec 6) (rd ra rb : BitVec 5) (fn : BitVec 11) : BitVec 32 := op ++ rd ++ ra ++ rb ++ fn

/-- Format I: `op`, `rd`, `ra`, `imm` [15:0]. -/
def fmtI (op : BitVec 6) (rd ra : BitVec 5) (imm : BitVec 16) : BitVec 32 := op ++ rd ++ ra ++ imm

/-- Format B: `op`, `ra` [25:21], `rb` [20:16], `off` [15:0]. -/
def fmtB (op : BitVec 6) (ra rb : BitVec 5) (off : BitVec 16) : BitVec 32 := op ++ ra ++ rb ++ off

/-- Format J: `op`, `off` [25:0]. -/
def fmtJ (op : BitVec 6) (off : BitVec 26) : BitVec 32 := op ++ off

/-- Format C: `op`, `n` [25:22], `off` [21:0]. -/
def fmtC (op : BitVec 6) (n : BitVec 4) (off : BitVec 22) : BitVec 32 := op ++ n ++ off

/-- The core and the word of an instruction of a Sorrel core; none for any other command. -/
def coreWord : Instr → Option (Fin 68 × BitVec 32)
  | .alu c rd ra rb fn => some (c, fmtA 0x00 rd ra rb fn)
  | .addi c rd ra imm => some (c, fmtI 0x01 rd ra imm)
  | .andi c rd ra imm => some (c, fmtI 0x02 rd ra imm)
  | .ori c rd ra imm => some (c, fmtI 0x03 rd ra imm)
  | .xori c rd ra imm => some (c, fmtI 0x04 rd ra imm)
  | .lui c rd ra imm => some (c, fmtI 0x05 rd ra imm)
  | .insh c rd ra imm => some (c, fmtI 0x06 rd ra imm)
  | .ld1 c rd ra imm => some (c, fmtI 0x08 rd ra imm)
  | .ld2 c rd ra imm => some (c, fmtI 0x09 rd ra imm)
  | .ld4 c rd ra imm => some (c, fmtI 0x0A rd ra imm)
  | .ld8 c rd ra imm => some (c, fmtI 0x0B rd ra imm)
  | .st1 c rd ra imm => some (c, fmtI 0x0C rd ra imm)
  | .st2 c rd ra imm => some (c, fmtI 0x0D rd ra imm)
  | .st4 c rd ra imm => some (c, fmtI 0x0E rd ra imm)
  | .st8 c rd ra imm => some (c, fmtI 0x0F rd ra imm)
  | .amo c rd ra rb fn => some (c, fmtA 0x10 rd ra rb fn)
  | .beq c ra rb off => some (c, fmtB 0x14 ra rb off)
  | .bne c ra rb off => some (c, fmtB 0x15 ra rb off)
  | .blt c ra rb off => some (c, fmtB 0x16 ra rb off)
  | .bge c ra rb off => some (c, fmtB 0x17 ra rb off)
  | .bltu c ra rb off => some (c, fmtB 0x18 ra rb off)
  | .bgeu c ra rb off => some (c, fmtB 0x19 ra rb off)
  | .call c n off => some (c, fmtC 0x1A n off)
  | .ret c n off => some (c, fmtC 0x1B n off)
  | .j c off => some (c, fmtJ 0x1C off)
  | .jr c ra rd rb fn => some (c, fmtA 0x1D rd ra rb fn)
  | .csr c rd ra rb fn => some (c, fmtA 0x20 rd ra rb fn)
  | .desc c rd ra rb fn => some (c, fmtA 0x21 rd ra rb fn)
  | .lkacq c rd ra rb fn => some (c, fmtA 0x22 rd ra rb fn)
  | .lkrel c rd ra rb fn => some (c, fmtA 0x23 rd ra rb fn)
  | .fence c rd ra rb fn => some (c, fmtA 0x24 rd ra rb fn)
  | .done c rd ra imm => some (c, fmtI 0x25 rd ra imm)
  | _ => none

/-- The instruction of core `c` that a word spells; none where its `op` is not in R457. -/
def decodeCore (c : Fin 68) (w : BitVec 32) : Option Instr :=
  let rd : BitVec 5 := w.extractLsb' 21 5
  let ra : BitVec 5 := w.extractLsb' 16 5
  let rb : BitVec 5 := w.extractLsb' 11 5
  let fn : BitVec 11 := w.extractLsb' 0 11
  let imm : BitVec 16 := w.extractLsb' 0 16
  let n : BitVec 4 := w.extractLsb' 22 4
  let off : BitVec 22 := w.extractLsb' 0 22
  match (w.extractLsb' 26 6).toNat with
  | 0x00 => some (.alu c rd ra rb fn)
  | 0x01 => some (.addi c rd ra imm)
  | 0x02 => some (.andi c rd ra imm)
  | 0x03 => some (.ori c rd ra imm)
  | 0x04 => some (.xori c rd ra imm)
  | 0x05 => some (.lui c rd ra imm)
  | 0x06 => some (.insh c rd ra imm)
  | 0x08 => some (.ld1 c rd ra imm)
  | 0x09 => some (.ld2 c rd ra imm)
  | 0x0A => some (.ld4 c rd ra imm)
  | 0x0B => some (.ld8 c rd ra imm)
  | 0x0C => some (.st1 c rd ra imm)
  | 0x0D => some (.st2 c rd ra imm)
  | 0x0E => some (.st4 c rd ra imm)
  | 0x0F => some (.st8 c rd ra imm)
  | 0x10 => some (.amo c rd ra rb fn)
  | 0x14 => some (.beq c rd ra imm)
  | 0x15 => some (.bne c rd ra imm)
  | 0x16 => some (.blt c rd ra imm)
  | 0x17 => some (.bge c rd ra imm)
  | 0x18 => some (.bltu c rd ra imm)
  | 0x19 => some (.bgeu c rd ra imm)
  | 0x1A => some (.call c n off)
  | 0x1B => some (.ret c n off)
  | 0x1C => some (.j c (w.extractLsb' 0 26))
  | 0x1D => some (.jr c ra rd rb fn)
  | 0x20 => some (.csr c rd ra rb fn)
  | 0x21 => some (.desc c rd ra rb fn)
  | 0x22 => some (.lkacq c rd ra rb fn)
  | 0x23 => some (.lkrel c rd ra rb fn)
  | 0x24 => some (.fence c rd ra rb fn)
  | 0x25 => some (.done c rd ra imm)
  | _ => none

end Sys2Proof
end

