-- ==== Sys2Proof/Machine/Table.lean ====
section
/-! DEFINITION. Table: reading and writing sparse tables, bit fields of 64-bit words, and the byte
helpers that every family uses. -/

namespace Sys2Proof.Machine

/-- The entry of key `k`, if the table lists one. -/
def Table.find {α : Type} : Table α → Nat → Option α
  | [], _ => none
  | (j, v) :: t, k => if k = j then some v else Table.find t k

/-- The value of key `k`, or `d` where the table lists none. -/
def Table.getD {α : Type} (t : Table α) (d : α) (k : Nat) : α :=
  (Table.find t k).getD d

/-- Write key `k`, keeping the keys in strictly rising order. -/
def Table.put {α : Type} : Table α → Nat → α → Table α
  | [], k, v => [(k, v)]
  | (j, w) :: t, k, v =>
    if k < j then (k, v) :: (j, w) :: t
    else if k = j then (k, v) :: t
    else (j, w) :: Table.put t k v

/-- Drop key `k`. -/
def Table.del {α : Type} : Table α → Nat → Table α
  | [], _ => []
  | (j, w) :: t, k => if k = j then t else (j, w) :: Table.del t k

/-- Write key `k`, or drop it where `v` is the default `d`: the canonical form keeps no default. -/
def Table.set {α : Type} [DecidableEq α] (t : Table α) (d : α) (k : Nat) (v : α) : Table α :=
  if v = d then Table.del t k else Table.put t k v

/-- The keys of a table rise strictly, and every key is above `lo`. -/
def Table.above {α : Type} (lo : Nat) : Table α → Bool
  | [] => true
  | (j, _) :: t => decide (lo < j) && Table.above j t

/-- The keys of a table rise strictly. -/
def Table.sorted {α : Type} : Table α → Bool
  | [] => true
  | (j, _) :: t => Table.above j t

/-- The canonical form of a memory: addresses rise strictly and no entry equals what an unlisted
address reads as. -/
def Memory.wf (m : List Host.Cell) (d : Byte) : Bool :=
  Table.sorted m && m.all (fun c => c.2 != d)

/-- A bit field of a 64-bit word: its lowest bit and its width. -/
structure Field where
  lo : Nat
  width : Nat
deriving DecidableEq, Repr

/-- The value of a field. -/
def Field.get (f : Field) (w : Word) : Nat :=
  (w.toNat >>> f.lo) % 2 ^ f.width

/-- The mask of a field's bits. -/
def Field.mask (f : Field) : Word :=
  BitVec.ofNat 64 ((2 ^ f.width - 1) <<< f.lo)

/-- A word whose field holds `v` (cut to the field's width) and whose other bits are zero. -/
def Field.make (f : Field) (v : Nat) : Word :=
  BitVec.ofNat 64 ((v % 2 ^ f.width) <<< f.lo)

/-- Write a field, leaving every other bit as it was. -/
def Field.put (f : Field) (w : Word) (v : Nat) : Word :=
  (w &&& ~~~ f.mask) ||| f.make v

/-- A field lies within the word. -/
def Field.fits (f : Field) : Bool := decide (f.lo + f.width ≤ 64)

/-- Two fields share no bit. -/
def Field.apart (f g : Field) : Bool := decide (f.lo + f.width ≤ g.lo ∨ g.lo + g.width ≤ f.lo)

/-- The largest value of a field. -/
def Field.top (f : Field) : Nat := 2 ^ f.width - 1

/-- Bit `i` of a number. -/
def bit (n i : Nat) : Bool := n.testBit i

/-- Bits `hi` down to `lo` of a number. -/
def bits (n hi lo : Nat) : Nat := (n >>> lo) % 2 ^ (hi + 1 - lo)

/-- 1 or 0. -/
def b2n (b : Bool) : Nat := if b then 1 else 0

/-- The number of bits set among the lowest `n` bits. -/
def popcount (v : Nat) : Nat → Nat
  | 0 => 0
  | n + 1 => popcount v n + b2n (v.testBit n)

/-- A number as `n` bytes, least significant first. -/
def leBytes (v : Nat) : Nat → List Byte
  | 0 => []
  | n + 1 => BitVec.ofNat 8 v :: leBytes (v / 256) n

/-- The number that bytes spell, least significant first. -/
def leNat : List Byte → Nat
  | [] => 0
  | b :: t => b.toNat + 256 * leNat t

/-- The number that bytes spell, most significant first. -/
def beNat (l : List Byte) : Nat := leNat l.reverse

/-- `n` bytes of a byte memory from address `a`; an unlisted byte reads `d`. -/
def readBytes (m : List Host.Cell) (d : Byte) (a : Nat) : Nat → List Byte
  | 0 => []
  | n + 1 => Table.getD m d a :: readBytes m d (a + 1) n

/-- Write bytes from address `a` on, keeping the canonical form for the default `d`. -/
def writeBytes (m : List Host.Cell) (d : Byte) (a : Nat) : List Byte → List Host.Cell
  | [] => m
  | b :: t => writeBytes (Table.set m d a b) d (a + 1) t

/-- Cut or pad with zeros to `n` bytes. -/
def padTo (n : Nat) (l : List Byte) : List Byte :=
  (l ++ List.replicate n 0).take n

/-- One step of a reflected CRC over the eight bits of a byte. -/
def crcBits (poly : Nat) : Nat → Nat → Nat
  | 0, c => c
  | n + 1, c => crcBits poly n (if c % 2 = 1 then (c / 2) ^^^ poly else c / 2)

/-- A reflected CRC over bytes, least significant bit of each byte first. -/
def crcOver (poly : Nat) (l : List Byte) (c : Nat) : Nat :=
  l.foldl (fun c b => crcBits poly 8 (c ^^^ b.toNat)) c

/-- The CRC-16 of the capability exchange (R572). -/
def crc16 (l : List Byte) : Nat := crcOver 0x8408 l 0xFFFF

/-- CRC-32C (R115): reflected polynomial, initial value and final exclusive-or of all ones. -/
def crc32c (l : List Byte) : Nat := crcOver 0x82F63B78 l 0xFFFFFFFF ^^^ 0xFFFFFFFF

/-- Sum of two counts, held at the largest value of a field of `w` bits. -/
def satAdd (w v n : Nat) : Nat := min (v + n) (2 ^ w - 1)

/-- Replace the element at index `i` of a list. -/
def setIdx {α : Type} (l : List α) (i : Nat) (v : α) : List α := l.set i v

/-- Quotient rounded up. -/
def ceilDiv (a b : Nat) : Nat := (a + b - 1) / b

/-- `a - b` modulo `2 ^ w`. -/
def subMod (w a b : Nat) : Nat := (a % 2 ^ w + 2 ^ w - b % 2 ^ w) % 2 ^ w

/-- `a` comes strictly after `b` on a circle of `2 ^ w` numbers, within half the circle (R113, R229). -/
def laterMod (w a b : Nat) : Bool :=
  let d := subMod w a b
  decide (0 < d ∧ d < 2 ^ (w - 1))

/-- `a` is at or after `b` on the circle. -/
def atOrAfterMod (w a b : Nat) : Bool := decide (subMod w a b < 2 ^ (w - 1))

/-- `n mod 2 ^ w` as a signed number. -/
def toSigned (w n : Nat) : Int :=
  if n % 2 ^ w < 2 ^ (w - 1) then (n % 2 ^ w : Nat) else ((n % 2 ^ w : Nat) : Int) - (2 ^ w : Nat)

/-- A signed number in `w` bits of two's complement. -/
def fromSigned (w : Nat) (v : Int) : Nat := (v % ((2 ^ w : Nat) : Int)).toNat

end Sys2Proof.Machine
end

