-- ==== Sys2Proof/Machine/Arith.lean ====
section
/-! DEFINITION. Arith: the arithmetic of collectives: integer and floating-point operators and the exact-sum
format (R427, R435, R436). A finite value is held as a whole number of units of 2^-1074. -/

namespace Sys2Proof.Machine

/-- A floating-point format: exponent bits and fraction bits. -/
structure Fp where
  eb : Nat
  mb : Nat
deriving DecidableEq, Repr

/-- FP32. -/
def fp32 : Fp := ⟨8, 23⟩
/-- FP64. -/
def fp64 : Fp := ⟨11, 52⟩
/-- BF16. -/
def bf16 : Fp := ⟨8, 7⟩

/-- The exponent bias. -/
def Fp.bias (f : Fp) : Nat := 2 ^ (f.eb - 1) - 1
/-- The exponent field. -/
def Fp.exp (f : Fp) (x : Nat) : Nat := bits x (f.mb + f.eb - 1) f.mb
/-- The fraction field. -/
def Fp.frac (f : Fp) (x : Nat) : Nat := x % 2 ^ f.mb
/-- The sign bit. -/
def Fp.neg (f : Fp) (x : Nat) : Bool := bit x (f.mb + f.eb)
/-- Largest exponent field: infinities and NaNs. -/
def Fp.top (f : Fp) : Nat := 2 ^ f.eb - 1
/-- The bits of an infinity. -/
def Fp.inf (f : Fp) (neg : Bool) : Nat := f.top <<< f.mb + b2n neg <<< (f.mb + f.eb)
/-- The canonical quiet NaN (R435). -/
def Fp.nan (f : Fp) : Nat := f.top <<< f.mb + 1 <<< (f.mb - 1)
/-- A NaN. -/
def Fp.isNan (f : Fp) (x : Nat) : Bool := f.exp x == f.top && f.frac x != 0
/-- An infinity. -/
def Fp.isInf (f : Fp) (x : Nat) : Bool := f.exp x == f.top && f.frac x == 0
/-- A zero of the given sign. -/
def Fp.zero (f : Fp) (neg : Bool) : Nat := b2n neg <<< (f.mb + f.eb)

/-- The magnitude of a finite value in units of 2^-1074; subnormals are used as they are (R435). -/
def Fp.mag (f : Fp) (x : Nat) : Nat :=
  let e := f.exp x
  let m := if e = 0 then f.frac x else f.frac x + 2 ^ f.mb
  m <<< (max e 1 + 1074 - f.bias - f.mb)

/-- A finite value in units of 2^-1074. -/
def Fp.value (f : Fp) (x : Nat) : Int := if f.neg x then - (f.mag x : Int) else f.mag x

/-- Round a magnitude to nearest even; at or above the overflow threshold it is infinity (R435, R436). -/
def Fp.round (f : Fp) (neg : Bool) (n : Nat) : Nat :=
  let unit := 1 + 1074 - f.bias - f.mb
  let l := n.log2
  let sh := max unit (l - f.mb)
  let q := n >>> sh
  let r := n - q <<< sh
  let half := 2 ^ sh / 2
  let q := if half < r ∨ (r = half ∧ 0 < r ∧ q % 2 = 1) then q + 1 else q
  let v := q + (sh - unit) <<< f.mb
  min v (f.top <<< f.mb) + b2n neg <<< (f.mb + f.eb)

/-- The bits of a sum that is a whole number of units; an exact zero is +0. -/
def Fp.ofInt (f : Fp) (v : Int) : Nat := if v = 0 then 0 else f.round (decide (v < 0)) v.natAbs

/-- Sum of two values (R435). -/
def Fp.add (f : Fp) (a b : Nat) : Nat :=
  if f.isNan a || f.isNan b then f.nan
  else if f.isInf a then (if f.isInf b && f.neg a != f.neg b then f.nan else a)
  else if f.isInf b then b
  else if f.mag a = 0 ∧ f.mag b = 0 then f.zero (f.neg a && f.neg b)
  else f.ofInt (f.value a + f.value b)

/-- The order of values that are no NaN: -0 is below +0 (R435). -/
def Fp.key (f : Fp) (x : Nat) : Int :=
  let m := x % 2 ^ (f.mb + f.eb)
  if f.neg x then - (m : Int) - 1 else m

/-- Widen BF16 to FP32. -/
def widen (x : Nat) : Nat := (x % 65536) <<< 16

/-- Round FP32 to BF16, to nearest even. -/
def narrow (x : Nat) : Nat :=
  if fp32.isNan x then bf16.nan
  else if fp32.isInf x then bf16.inf (fp32.neg x)
  else if fp32.mag x = 0 then bf16.zero (fp32.neg x)
  else bf16.round (fp32.neg x) (fp32.mag x)

/-- The format of a floating type as it is carried (R427, R435). -/
def fpOf (dtype : Nat) : Option Fp :=
  if dtype = 4 ∨ dtype = 6 then some fp32 else if dtype = 5 then some fp64 else none

/-- Bytes of a value as stored in memory (R427). -/
def valSize (dtype : Nat) : Nat :=
  if dtype = 1 ∨ dtype = 3 ∨ dtype = 5 then 8 else if dtype = 6 then 2 else 4

/-- Bytes of an element as stored in memory: a minloc or maxloc element holds a location too (R427). -/
def elemSize (dtype cop : Nat) : Nat :=
  if 6 ≤ cop then (if valSize dtype = 8 then 16 else 8) else valSize dtype

/-- Bytes of an element as carried upward: BF16 is widened (R435). -/
def upSize (dtype cop : Nat) : Nat := if dtype = 6 ∧ cop < 6 then 4 else elemSize dtype cop

/-- The order of two values of a type; none where one is a NaN. -/
def valKey (dtype x : Nat) : Option Int :=
  match fpOf dtype with
  | some f => if f.isNan x then none else some (f.key x)
  | none =>
    let w := 8 * valSize dtype
    some (if dtype < 2 then toSigned w x else ((x % 2 ^ w : Nat) : Int))

/-- The canonical NaN of a type. -/
def canonNan (dtype : Nat) : Nat := match fpOf dtype with | some f => f.nan | none => 0

/-- Minimum or maximum of two values (R435). -/
def pickVal (dtype : Nat) (big : Bool) (a b : Nat) : Nat :=
  match valKey dtype a, valKey dtype b with
  | none, none => canonNan dtype
  | none, some _ => b
  | some _, none => a
  | some x, some y => if big then (if x < y then b else a) else (if y < x then b else a)

/-- Minloc or maxloc of two elements: the lower location on a tie (R435). -/
def pickLoc (dtype : Nat) (big : Bool) (a b : Nat) : Nat :=
  let w := if valSize dtype = 8 then 64 else 32
  let va := a % 2 ^ w; let vb := b % 2 ^ w
  let la := a >>> w % 2 ^ 32; let lb := b >>> w % 2 ^ 32
  let low (v : Nat) : Nat := v + min la lb <<< w
  match valKey dtype va, valKey dtype vb with
  | none, none => low (canonNan dtype)
  | none, some _ => b
  | some _, none => a
  | some x, some y =>
    if x = y then low va
    else if big then (if x < y then b else a) else (if y < x then b else a)

/-- Combine two elements (R427, R435). -/
def combineElem (dtype cop a b : Nat) : Nat :=
  let w := 8 * upSize dtype cop
  match cop with
  | 0 => match fpOf dtype with
    | some f => f.add a b
    | none => (a + b) % 2 ^ w
  | 1 => pickVal dtype false a b
  | 2 => pickVal dtype true a b
  | 3 => a &&& b
  | 4 => a ||| b
  | 5 => a ^^^ b
  | 6 => pickLoc dtype false a b
  | _ => pickLoc dtype true a b

/-- Cut bytes into numbers of `n` bytes. -/
def chunk (n : Nat) : Nat → List Byte → List Nat
  | 0, _ => []
  | k + 1, l => if l.isEmpty then [] else leNat (l.take n) :: chunk n k (l.drop n)

/-- Numbers as bytes of `n` each. -/
def unchunk (n : Nat) (l : List Nat) : List Byte := (l.map (fun v => leBytes v n)).flatten

/-- The elements of a member's input as they are carried upward (R435). -/
def upElems (dtype cop : Nat) (l : List Byte) : List Nat :=
  let n := elemSize dtype cop
  let e := chunk n l.length l
  if dtype = 6 then
    if 6 ≤ cop then e.map (fun v => widen v + v >>> 32 <<< 32) else e.map widen
  else e

/-- A NaN result is the canonical one, that of a lone operand too (R435). -/
def canonElem (dtype cop v : Nat) : Nat :=
  match fpOf dtype with
  | none => v
  | some f =>
    let w := 8 * valSize dtype
    if cop < 3 then (if f.isNan v then f.nan else v)
    else if 6 ≤ cop ∧ f.isNan (v % 2 ^ w) then f.nan + v >>> w <<< w
    else v

/-- The final result as it is stored: BF16 is rounded once, and a NaN is the canonical one (R435). -/
def finalBytes (dtype cop : Nat) (l : List Nat) : List Byte :=
  if dtype = 6 then
    if 6 ≤ cop then unchunk 8 (l.map (fun v => narrow (v % 2 ^ 32) + v >>> 32 <<< 32)) else unchunk 2 (l.map narrow)
  else unchunk (elemSize dtype cop) (l.map (canonElem dtype cop))

/-- Combine lists of elements. -/
def combineLists (dtype cop : Nat) (a b : List Nat) : List Nat := List.zipWith (combineElem dtype cop) a b

/-! ## Exact sums (R436) -/

/-- An exact partial: the sum in units of 2^-1074 and its flags. -/
structure Exact where
  sum : Int
  pinf : Bool
  ninf : Bool
  nan : Bool
  negz : Bool
deriving DecidableEq, Repr

/-- A value as an exact partial. -/
def Exact.ofVal (f : Fp) (x : Nat) : Exact :=
  if f.isNan x then ⟨0, false, false, true, false⟩
  else if f.isInf x then ⟨0, !f.neg x, f.neg x, false, false⟩
  else ⟨f.value x, false, false, false, f.mag x == 0 && f.neg x⟩

/-- Add two exact partials. -/
def Exact.add (a b : Exact) : Exact :=
  ⟨a.sum + b.sum, a.pinf || b.pinf, a.ninf || b.ninf, a.nan || b.nan, a.negz && b.negz⟩

/-- Round an exact partial, once (R436). -/
def Exact.round (f : Fp) (a : Exact) : Nat :=
  if a.nan || (a.pinf && a.ninf) then f.nan
  else if a.pinf then f.inf false
  else if a.ninf then f.inf true
  else if a.sum = 0 then f.zero a.negz
  else f.ofInt a.sum

/-- Limbs of a two's-complement number, least significant first, that its sign extends: the fewest (log 28). -/
def limbsOf : Nat → Int → List Nat
  | 0, _ => []
  | n + 1, v =>
    let l := (v % (2 ^ 64 : Int)).toNat
    let rest := (v - l) / (2 ^ 64 : Int)
    if (rest = 0 ∧ l < 2 ^ 63) ∨ (rest = -1 ∧ 2 ^ 63 ≤ l) then [l] else l :: limbsOf n rest

/-- Drop the zero limbs at the bottom, and count them. -/
def lowZeros : List Nat → Nat × List Nat
  | 0 :: a :: t =>
    let (n, l) := lowZeros (a :: t)
    (n + 1, l)
  | l => (0, l)

/-- An element in the exact partial format: head and limbs. -/
def Exact.bytes (a : Exact) : List Byte :=
  let (low, limbs) := if a.sum = 0 then (0, []) else lowZeros (limbsOf 34 a.sum)
  leBytes (low + limbs.length <<< 6 + b2n a.pinf <<< 12 + b2n a.ninf <<< 13 + b2n a.nan <<< 14 + b2n a.negz <<< 15) 2
    ++ unchunk 8 limbs

/-- Read an element in the exact partial format; the answer holds the bytes after it. -/
def Exact.read (l : List Byte) : Exact × List Byte :=
  let h := leNat (l.take 2)
  let n := bits h 11 6
  let body := (l.drop 2).take (8 * n)
  let v := toSigned (64 * n) (leNat body)
  (⟨if n = 0 then 0 else v * (2 ^ (64 * (h % 64)) : Int), bit h 12, bit h 13, bit h 14, bit h 15⟩, l.drop (2 + 8 * n))

/-- Read elements in the exact partial format. -/
def exactList : Nat → List Byte → List Exact
  | 0, _ => []
  | k + 1, l => if l.isEmpty then [] else
    let (e, r) := Exact.read l
    e :: exactList k r

end Sys2Proof.Machine
end

