-- ==== Sys2Proof/Config.lean ====
section
/-! DEFINITION. Config: what the spec names but does not define, and the values it leaves open. Each is
an opaque constant: no proof can know its value. -/

namespace Sys2Proof.Config

/-- SHA-384 over bytes (R43, R50). PRESUMED: the public standard; the spec names it and does not define it (log 11). -/
opaque sha384 : List Byte → BitVec 384

/-- ECDSA P-384 verification: public key of 97 bytes, digest, r and s (R43, R50). PRESUMED (log 11). -/
opaque ecdsaP384 : List Byte → BitVec 384 → Nat → Nat → Bool

/-- The hash that Onatil fuses into key slot 0 at manufacture (R5). DESIGN CHOICE (log 2): the spec gives no value. -/
opaque onatilKeyHash : BitVec 384

/-- The entropy source's draw for an incarnation (R230); free, the model excludes 0 and the previous value. -/
opaque entropy : Nat → BitVec 16

/-- A free 64-bit value: the n-th value that the spec leaves open. -/
opaque freeValue : Nat → Word

/-- Where the device places region `what` of RSV_MAP, in units of 2 MiB, for a coherent region of `g` GiB
(R47, R353, R357). The spec gives no place: free (log 12). -/
opaque regionBase : Nat → Nat → BitVec 16

/-- Where the device places the coherent region, in GiB (R47, R486): free (log 12). -/
opaque coherentBase : Nat → BitVec 7

/-- Where the device places the directory of the coherent region, in GiB (R47, R486): free (log 12). -/
opaque directoryBase : Nat → BitVec 7

/-- Bit `i` of the fixed 1,536-bit pattern of an alignment marker (R81): the spec does not give it, free (log 125). -/
opaque markerPattern : Nat → Bool

/-- Byte `i` of the payload of a directed query: origin, epoch, path and arrival ports stand in it in a layout that the spec does
not give (R211): free (log 136). -/
opaque discByte : Nat → Nat → List (BitVec 8) → List (BitVec 8) → Nat → Byte

/-- The step that a digital island's AVS takes when VDD_CORE has been sampled, which the spec leaves to the island (R543, log 140):
bits 5 to 0 name the island, bit 6 tells a raise from a lowering. -/
opaque avsMove : Nat → BitVec 7

/-- The transmit coefficients that adaptation derives for a lane (R111), 18 bits: free (log 13). -/
opaque coefficients : Nat → BitVec 18

/-- Whether the block of a source judges its kind 0 uncorrected and contained, class 2, rather than class 1 (R496):
each block's own, free (log 31). -/
opaque contained : Nat → Bool

/-- Which engine of an instance's hub serves a transfer at the target, from its source FID, source instance and transfer ID (R368): the
choice is not stated, free (log 25). -/
opaque servingChoice : Nat → Nat → Nat → BitVec 2

/-- Whether the flash operation that the sideband port commanded last is still in progress when a `flash_load` is given (R558): how long
one takes is not stated, free (log 146). -/
opaque flashOpGoesOn : Nat → Bool

/-- Two capabilities of the receiver's margining that the spec does not give (R260, log 142): free. -/
opaque marginSampler : BitVec 2

/-- The hub from which a transit device answers a packet that it discards, by the packet's source (R580): not stated, free (log 18). -/
opaque transitHub : Nat → BitVec 2

end Sys2Proof.Config
end

