-- ==== Sys2Proof/Machine/Regs.lean ====
section
/-! DEFINITION. Regs: every register of the manager and tenant register space: its address, its bit
fields, their access codes and reset values, as the field tables of the spec give them. A tenant page
is numbered above PF0 BAR0: page `i` begins at 0x1000_0000 + 0x1_0000 * i. -/

namespace Sys2Proof.Machine

/-- The access codes of the field tables, and the two kinds of W1S of R574: `w1s` is a command bit,
`w1ss` a state bit, `lock` a lock bit, `wo` a per-write confirmation that reads 0. -/
inductive Acc where
  | ro | rw | rwx | w1c | w1s | w1ss | rwl | lock | wo
deriving DecidableEq, Repr

/-- What a write stores in place of the written value where the field table says so. -/
inductive Clamp where
  | none
  | atLeast (n : Nat)
  | atMost (n : Nat)
  | range (lo hi : Nat)
  | swap (v n : Nat)
  | only (a b n : Nat)
deriving DecidableEq, Repr

/-- The value stored for a written value. -/
def Clamp.apply : Clamp → Nat → Nat
  | .none, v => v
  | .atLeast n, v => max v n
  | .atMost n, v => min v n
  | .range lo hi, v => max lo (min v hi)
  | .swap a n, v => if v = a then n else v
  | .only a b n, v => if v = a ∨ v = b then v else n

/-- The reset value of a field: a number, or a value that depends on the register's index or on the part. -/
inductive Rst where
  | num (n : Nat)
  | idx
  | cat
  | link0
  | part
deriving DecidableEq, Repr

/-- One row of a field table. -/
structure FieldDesc where
  field : Field
  acc : Acc
  rst : Rst
  clamp : Clamp
deriving DecidableEq, Repr

/-- One register, or an array of registers of one or two dimensions. -/
structure RegDesc where
  base : Nat
  n1 : Nat
  s1 : Nat
  n2 : Nat
  s2 : Nat
  fields : List FieldDesc
deriving DecidableEq, Repr

/-- Address of PART (R23). -/
def Reg.part : Nat := 0x0
/-- PART `vendor` (R23). -/
def Fld.partVendor : Field := ⟨0, 16⟩
/-- PART `part` (R23). -/
def Fld.partPart : Field := ⟨16, 16⟩
/-- PART (R23). -/
def RegD.part : RegDesc := ⟨0x0, 1, 0x0, 1, 0x0,
  [⟨Fld.partVendor, .ro, (.num 0x0A71), .none⟩,
   ⟨Fld.partPart, .ro, (.num 0x0144), .none⟩]⟩

/-- Address of VERSION (R24). -/
def Reg.version : Nat := 0x8
/-- VERSION `step_num` (R24). -/
def Fld.versionStepNum : Field := ⟨0, 4⟩
/-- VERSION `step_letter` (R24). -/
def Fld.versionStepLetter : Field := ⟨4, 4⟩
/-- VERSION `grade` (R24). -/
def Fld.versionGrade : Field := ⟨8, 8⟩
/-- VERSION `keyopt` (R24). -/
def Fld.versionKeyopt : Field := ⟨16, 8⟩
/-- VERSION `mgr_if` (R24). -/
def Fld.versionMgrIf : Field := ⟨24, 8⟩
/-- VERSION (R24). -/
def RegD.version : RegDesc := ⟨0x8, 1, 0x0, 1, 0x0,
  [⟨Fld.versionStepNum, .ro, (.num 1), .none⟩,
   ⟨Fld.versionStepLetter, .ro, (.num 1), .none⟩,
   ⟨Fld.versionGrade, .ro, .part, .none⟩,
   ⟨Fld.versionKeyopt, .ro, .part, .none⟩,
   ⟨Fld.versionMgrIf, .ro, (.num 1), .none⟩]⟩

/-- Address of SERIAL (R25). -/
def Reg.serial : Nat := 0x10
/-- SERIAL `serial` (R25). -/
def Fld.serialSerial : Field := ⟨0, 64⟩
/-- SERIAL (R25). -/
def RegD.serial : RegDesc := ⟨0x10, 1, 0x0, 1, 0x0,
  [⟨Fld.serialSerial, .ro, .part, .none⟩]⟩

/-- Address of UNITS (R26). -/
def Reg.units : Nat := 0x18
/-- UNITS `tiles` (R26). -/
def Fld.unitsTiles : Field := ⟨0, 8⟩
/-- UNITS `rae` (R26). -/
def Fld.unitsRae : Field := ⟨8, 8⟩
/-- UNITS `dill` (R26). -/
def Fld.unitsDill : Field := ⟨16, 8⟩
/-- UNITS `fennel` (R26). -/
def Fld.unitsFennel : Field := ⟨24, 8⟩
/-- UNITS `sorrel` (R26). -/
def Fld.unitsSorrel : Field := ⟨32, 8⟩
/-- UNITS `marjoram` (R26). -/
def Fld.unitsMarjoram : Field := ⟨40, 8⟩
/-- UNITS `hosts` (R26). -/
def Fld.unitsHosts : Field := ⟨48, 8⟩
/-- UNITS `hbm_stacks` (R26). -/
def Fld.unitsHbmStacks : Field := ⟨56, 8⟩
/-- UNITS (R26). -/
def RegD.units : RegDesc := ⟨0x18, 1, 0x0, 1, 0x0,
  [⟨Fld.unitsTiles, .ro, .part, .none⟩,
   ⟨Fld.unitsRae, .ro, .part, .none⟩,
   ⟨Fld.unitsDill, .ro, .part, .none⟩,
   ⟨Fld.unitsFennel, .ro, .part, .none⟩,
   ⟨Fld.unitsSorrel, .ro, .part, .none⟩,
   ⟨Fld.unitsMarjoram, .ro, .part, .none⟩,
   ⟨Fld.unitsHosts, .ro, .part, .none⟩,
   ⟨Fld.unitsHbmStacks, .ro, .part, .none⟩]⟩

/-- Address of UNIT_OK0 (R27). -/
def Reg.unitOk0 : Nat := 0x20
/-- UNIT_OK0 `tiles` (R27). -/
def Fld.unitOk0Tiles : Field := ⟨0, 19⟩
/-- UNIT_OK0 `rae` (R27). -/
def Fld.unitOk0Rae : Field := ⟨19, 17⟩
/-- UNIT_OK0 `fennel` (R27). -/
def Fld.unitOk0Fennel : Field := ⟨36, 17⟩
/-- UNIT_OK0 `hosts` (R27). -/
def Fld.unitOk0Hosts : Field := ⟨53, 4⟩
/-- UNIT_OK0 `hbm_stacks` (R27). -/
def Fld.unitOk0HbmStacks : Field := ⟨57, 4⟩
/-- UNIT_OK0 (R27). -/
def RegD.unitOk0 : RegDesc := ⟨0x20, 1, 0x0, 1, 0x0,
  [⟨Fld.unitOk0Tiles, .ro, .part, .none⟩,
   ⟨Fld.unitOk0Rae, .ro, .part, .none⟩,
   ⟨Fld.unitOk0Fennel, .ro, .part, .none⟩,
   ⟨Fld.unitOk0Hosts, .ro, .part, .none⟩,
   ⟨Fld.unitOk0HbmStacks, .ro, .part, .none⟩]⟩

/-- Address of UNIT_OK1 (R27). -/
def Reg.unitOk1 : Nat := 0x28
/-- UNIT_OK1 `dill` (R27). -/
def Fld.unitOk1Dill : Field := ⟨0, 34⟩
/-- UNIT_OK1 `marjoram` (R27). -/
def Fld.unitOk1Marjoram : Field := ⟨34, 16⟩
/-- UNIT_OK1 (R27). -/
def RegD.unitOk1 : RegDesc := ⟨0x28, 1, 0x0, 1, 0x0,
  [⟨Fld.unitOk1Dill, .ro, .part, .none⟩,
   ⟨Fld.unitOk1Marjoram, .ro, .part, .none⟩]⟩

/-- Address of UNIT_OK2 (R27). -/
def Reg.unitOk2 : Nat := 0x30
/-- UNIT_OK2 `sorrel_lo` (R27). -/
def Fld.unitOk2SorrelLo : Field := ⟨0, 64⟩
/-- UNIT_OK2 (R27). -/
def RegD.unitOk2 : RegDesc := ⟨0x30, 1, 0x0, 1, 0x0,
  [⟨Fld.unitOk2SorrelLo, .ro, .part, .none⟩]⟩

/-- Address of UNIT_OK3 (R27). -/
def Reg.unitOk3 : Nat := 0x38
/-- UNIT_OK3 `sorrel_hi` (R27). -/
def Fld.unitOk3SorrelHi : Field := ⟨0, 4⟩
/-- UNIT_OK3 (R27). -/
def RegD.unitOk3 : RegDesc := ⟨0x38, 1, 0x0, 1, 0x0,
  [⟨Fld.unitOk3SorrelHi, .ro, .part, .none⟩]⟩

/-- Address of IMG_CTRL (R58). -/
def Reg.imgCtrl : Nat := 0x10000
/-- IMG_CTRL `load` (R58). -/
def Fld.imgCtrlLoad : Field := ⟨0, 1⟩
/-- IMG_CTRL `apply` (R58). -/
def Fld.imgCtrlApply : Field := ⟨1, 1⟩
/-- IMG_CTRL `enable` (R58). -/
def Fld.imgCtrlEnable : Field := ⟨2, 1⟩
/-- IMG_CTRL `flash_load` (R58). -/
def Fld.imgCtrlFlashLoad : Field := ⟨3, 1⟩
/-- IMG_CTRL `flash_copy` (R58). -/
def Fld.imgCtrlFlashCopy : Field := ⟨4, 1⟩
/-- IMG_CTRL (R58). -/
def RegD.imgCtrl : RegDesc := ⟨0x10000, 1, 0x0, 1, 0x0,
  [⟨Fld.imgCtrlLoad, .w1s, (.num 0), .none⟩,
   ⟨Fld.imgCtrlApply, .w1s, (.num 0), .none⟩,
   ⟨Fld.imgCtrlEnable, .w1s, (.num 0), .none⟩,
   ⟨Fld.imgCtrlFlashLoad, .w1s, (.num 0), .none⟩,
   ⟨Fld.imgCtrlFlashCopy, .rw, (.num 0), .none⟩]⟩

/-- Address of IMG_STATUS (R59). -/
def Reg.imgStatus : Nat := 0x10008
/-- IMG_STATUS `state` (R59). -/
def Fld.imgStatusState : Field := ⟨0, 2⟩
/-- IMG_STATUS `busy` (R59). -/
def Fld.imgStatusBusy : Field := ⟨2, 1⟩
/-- IMG_STATUS `safe` (R59). -/
def Fld.imgStatusSafe : Field := ⟨3, 1⟩
/-- IMG_STATUS `source` (R59). -/
def Fld.imgStatusSource : Field := ⟨4, 2⟩
/-- IMG_STATUS `fuse_busy` (R59). -/
def Fld.imgStatusFuseBusy : Field := ⟨6, 1⟩
/-- IMG_STATUS `error` (R59). -/
def Fld.imgStatusError : Field := ⟨8, 8⟩
/-- IMG_STATUS `err_section` (R59). -/
def Fld.imgStatusErrSection : Field := ⟨16, 4⟩
/-- IMG_STATUS `done` (R59). -/
def Fld.imgStatusDone : Field := ⟨20, 1⟩
/-- IMG_STATUS `fail` (R59). -/
def Fld.imgStatusFail : Field := ⟨21, 1⟩
/-- IMG_STATUS (R59). -/
def RegD.imgStatus : RegDesc := ⟨0x10008, 1, 0x0, 1, 0x0,
  [⟨Fld.imgStatusState, .ro, (.num 0), .none⟩,
   ⟨Fld.imgStatusBusy, .ro, (.num 0), .none⟩,
   ⟨Fld.imgStatusSafe, .ro, (.num 0), .none⟩,
   ⟨Fld.imgStatusSource, .ro, (.num 0), .none⟩,
   ⟨Fld.imgStatusFuseBusy, .ro, (.num 0), .none⟩,
   ⟨Fld.imgStatusError, .ro, (.num 0), .none⟩,
   ⟨Fld.imgStatusErrSection, .ro, (.num 0), .none⟩,
   ⟨Fld.imgStatusDone, .w1c, (.num 0), .none⟩,
   ⟨Fld.imgStatusFail, .w1c, (.num 0), .none⟩]⟩

/-- Address of IMG_ID (R60). -/
def Reg.imgId : Nat := 0x10010
/-- IMG_ID `image_id` (R60). -/
def Fld.imgIdImageId : Field := ⟨0, 64⟩
/-- IMG_ID (R60). -/
def RegD.imgId : RegDesc := ⟨0x10010, 1, 0x0, 1, 0x0,
  [⟨Fld.imgIdImageId, .ro, (.num 0), .none⟩]⟩

/-- Address of IMG_TILE_ID (R60). -/
def Reg.imgTileId : Nat := 0x10018
/-- IMG_TILE_ID `image_id` (R60). -/
def Fld.imgTileIdImageId : Field := ⟨0, 64⟩
/-- IMG_TILE_ID (R60). -/
def RegD.imgTileId : RegDesc := ⟨0x10018, 1, 0x0, 1, 0x0,
  [⟨Fld.imgTileIdImageId, .ro, (.num 0), .none⟩]⟩

/-- Address of FUSE_DATA (R61). -/
def Reg.fuseData (i : Nat) : Nat := 0x10100 + 0x8 * i
/-- FUSE_DATA `data` (R61). -/
def Fld.fuseDataData : Field := ⟨0, 64⟩
/-- FUSE_DATA (R61). -/
def RegD.fuseData : RegDesc := ⟨0x10100, 6, 0x8, 1, 0x0,
  [⟨Fld.fuseDataData, .rw, (.num 0), .none⟩]⟩

/-- Address of FUSE_CTRL (R61). -/
def Reg.fuseCtrl : Nat := 0x10130
/-- FUSE_CTRL `slot` (R61). -/
def Fld.fuseCtrlSlot : Field := ⟨0, 2⟩
/-- FUSE_CTRL `revoke` (R61). -/
def Fld.fuseCtrlRevoke : Field := ⟨2, 1⟩
/-- FUSE_CTRL `req_cust` (R61). -/
def Fld.fuseCtrlReqCust : Field := ⟨3, 1⟩
/-- FUSE_CTRL `confirm` (R61). -/
def Fld.fuseCtrlConfirm : Field := ⟨16, 16⟩
/-- FUSE_CTRL `go` (R61). -/
def Fld.fuseCtrlGo : Field := ⟨32, 1⟩
/-- FUSE_CTRL (R61). -/
def RegD.fuseCtrl : RegDesc := ⟨0x10130, 1, 0x0, 1, 0x0,
  [⟨Fld.fuseCtrlSlot, .rw, (.num 0), .none⟩,
   ⟨Fld.fuseCtrlRevoke, .rw, (.num 0), .none⟩,
   ⟨Fld.fuseCtrlReqCust, .rw, (.num 0), .none⟩,
   ⟨Fld.fuseCtrlConfirm, .rw, (.num 0), .none⟩,
   ⟨Fld.fuseCtrlGo, .w1s, (.num 0), .none⟩]⟩

/-- Address of KEY_HASH (R62). -/
def Reg.keyHash (i : Nat) (j : Nat) : Nat := 0x10200 + 0x40 * i + 0x8 * j
/-- KEY_HASH `hash` (R62). -/
def Fld.keyHashHash : Field := ⟨0, 64⟩
/-- KEY_HASH (R62). -/
def RegD.keyHash : RegDesc := ⟨0x10200, 4, 0x40, 6, 0x8,
  [⟨Fld.keyHashHash, .ro, .part, .none⟩]⟩

/-- Address of KEYSTAT (R62). -/
def Reg.keystat : Nat := 0x10300
/-- KEYSTAT `programmed` (R62). -/
def Fld.keystatProgrammed : Field := ⟨0, 4⟩
/-- KEYSTAT `revoked` (R62). -/
def Fld.keystatRevoked : Field := ⟨4, 4⟩
/-- KEYSTAT `require_cust` (R62). -/
def Fld.keystatRequireCust : Field := ⟨8, 1⟩
/-- KEYSTAT (R62). -/
def RegD.keystat : RegDesc := ⟨0x10300, 1, 0x0, 1, 0x0,
  [⟨Fld.keystatProgrammed, .ro, .part, .none⟩,
   ⟨Fld.keystatRevoked, .ro, .part, .none⟩,
   ⟨Fld.keystatRequireCust, .ro, .part, .none⟩]⟩

/-- Address of STRAP (R567). -/
def Reg.strap : Nat := 0x20000
/-- STRAP `smb_addr` (R567). -/
def Fld.strapSmbAddr : Field := ⟨0, 3⟩
/-- STRAP `boot` (R567). -/
def Fld.strapBoot : Field := ⟨3, 2⟩
/-- STRAP `href_mode` (R567). -/
def Fld.strapHrefMode : Field := ⟨5, 1⟩
/-- STRAP `test_en` (R567). -/
def Fld.strapTestEn : Field := ⟨6, 1⟩
/-- STRAP (R567). -/
def RegD.strap : RegDesc := ⟨0x20000, 1, 0x0, 1, 0x0,
  [⟨Fld.strapSmbAddr, .ro, (.num 0), .none⟩,
   ⟨Fld.strapBoot, .ro, (.num 0), .none⟩,
   ⟨Fld.strapHrefMode, .ro, (.num 0), .none⟩,
   ⟨Fld.strapTestEn, .ro, (.num 0), .none⟩]⟩

/-- Address of AVS (R568). -/
def Reg.avs : Nat := 0x20010
/-- AVS `core_set` (R568). -/
def Fld.avsCoreSet : Field := ⟨0, 6⟩
/-- AVS `isl_max` (R568). -/
def Fld.avsIslMax : Field := ⟨6, 6⟩
/-- AVS `avs_fail` (R568). -/
def Fld.avsAvsFail : Field := ⟨12, 1⟩
/-- AVS `avs_err` (R568). -/
def Fld.avsAvsErr : Field := ⟨13, 8⟩
/-- AVS (R568). -/
def RegD.avs : RegDesc := ⟨0x20010, 1, 0x0, 1, 0x0,
  [⟨Fld.avsCoreSet, .ro, (.num 30), .none⟩,
   ⟨Fld.avsIslMax, .ro, (.num 0), .none⟩,
   ⟨Fld.avsAvsFail, .w1c, (.num 0), .none⟩,
   ⟨Fld.avsAvsErr, .rw, (.num 0), .none⟩]⟩

/-- Address of BAY_RESET (R569). -/
def Reg.bayReset : Nat := 0x20020
/-- BAY_RESET `warm` (R569). -/
def Fld.bayResetWarm : Field := ⟨0, 1⟩
/-- BAY_RESET `cold` (R569). -/
def Fld.bayResetCold : Field := ⟨1, 1⟩
/-- BAY_RESET `confirm` (R569). -/
def Fld.bayResetConfirm : Field := ⟨16, 16⟩
/-- BAY_RESET `last` (R569). -/
def Fld.bayResetLast : Field := ⟨32, 3⟩
/-- BAY_RESET `warm_count` (R569). -/
def Fld.bayResetWarmCount : Field := ⟨40, 8⟩
/-- BAY_RESET (R569). -/
def RegD.bayReset : RegDesc := ⟨0x20020, 1, 0x0, 1, 0x0,
  [⟨Fld.bayResetWarm, .w1s, (.num 0), .none⟩,
   ⟨Fld.bayResetCold, .w1s, (.num 0), .none⟩,
   ⟨Fld.bayResetConfirm, .wo, (.num 0), .none⟩,
   ⟨Fld.bayResetLast, .ro, (.num 0), .none⟩,
   ⟨Fld.bayResetWarmCount, .rw, (.num 0), .none⟩]⟩

/-- Address of BAY_FORCE (R523). -/
def Reg.bayForce : Nat := 0x20100
/-- BAY_FORCE `safe` (R523). -/
def Fld.bayForceSafe : Field := ⟨0, 1⟩
/-- BAY_FORCE `lanes` (R523). -/
def Fld.bayForceLanes : Field := ⟨1, 1⟩
/-- BAY_FORCE `confirm` (R523). -/
def Fld.bayForceConfirm : Field := ⟨16, 16⟩
/-- BAY_FORCE (R523). -/
def RegD.bayForce : RegDesc := ⟨0x20100, 1, 0x0, 1, 0x0,
  [⟨Fld.bayForceSafe, .w1s, (.num 0), .none⟩,
   ⟨Fld.bayForceLanes, .rw, (.num 0), .none⟩,
   ⟨Fld.bayForceConfirm, .wo, (.num 0), .none⟩]⟩

/-- Address of FLOG_IDX (R523). -/
def Reg.flogIdx : Nat := 0x20108
/-- FLOG_IDX `next` (R523). -/
def Fld.flogIdxNext : Field := ⟨0, 8⟩
/-- FLOG_IDX `wrapped` (R523). -/
def Fld.flogIdxWrapped : Field := ⟨8, 1⟩
/-- FLOG_IDX (R523). -/
def RegD.flogIdx : RegDesc := ⟨0x20108, 1, 0x0, 1, 0x0,
  [⟨Fld.flogIdxNext, .ro, (.num 0), .none⟩,
   ⟨Fld.flogIdxWrapped, .ro, (.num 0), .none⟩]⟩

/-- Address of SMB (R570). -/
def Reg.smb : Nat := 0x20200
/-- SMB `ctrl_en` (R570). -/
def Fld.smbCtrlEn : Field := ⟨0, 1⟩
/-- SMB `speed` (R570). -/
def Fld.smbSpeed : Field := ⟨1, 2⟩
/-- SMB `eid` (R570). -/
def Fld.smbEid : Field := ⟨3, 8⟩
/-- SMB `arb_lost` (R570). -/
def Fld.smbArbLost : Field := ⟨11, 8⟩
/-- SMB `ctrl_fail` (R570). -/
def Fld.smbCtrlFail : Field := ⟨19, 8⟩
/-- SMB (R570). -/
def RegD.smb : RegDesc := ⟨0x20200, 1, 0x0, 1, 0x0,
  [⟨Fld.smbCtrlEn, .rw, (.num 1), .none⟩,
   ⟨Fld.smbSpeed, .rw, (.num 1), (.swap 3 1)⟩,
   ⟨Fld.smbEid, .ro, (.num 0), .none⟩,
   ⟨Fld.smbArbLost, .rw, (.num 0), .none⟩,
   ⟨Fld.smbCtrlFail, .rw, (.num 0), .none⟩]⟩

/-- Address of POLL_CFG (R571). -/
def Reg.pollCfg (i : Nat) : Nat := 0x20210 + 0x10 * i
/-- POLL_CFG `addr` (R571). -/
def Fld.pollCfgAddr : Field := ⟨0, 7⟩
/-- POLL_CFG `cmd` (R571). -/
def Fld.pollCfgCmd : Field := ⟨7, 8⟩
/-- POLL_CFG `word` (R571). -/
def Fld.pollCfgWord : Field := ⟨15, 1⟩
/-- POLL_CFG `enable` (R571). -/
def Fld.pollCfgEnable : Field := ⟨16, 1⟩
/-- POLL_CFG `fail` (R571). -/
def Fld.pollCfgFail : Field := ⟨17, 1⟩
/-- POLL_CFG (R571). -/
def RegD.pollCfg : RegDesc := ⟨0x20210, 8, 0x10, 1, 0x0,
  [⟨Fld.pollCfgAddr, .rw, (.num 0), .none⟩,
   ⟨Fld.pollCfgCmd, .rw, (.num 0), .none⟩,
   ⟨Fld.pollCfgWord, .rw, (.num 0), .none⟩,
   ⟨Fld.pollCfgEnable, .rw, (.num 0), .none⟩,
   ⟨Fld.pollCfgFail, .w1c, (.num 0), .none⟩]⟩

/-- Address of POLL_DATA (R571). -/
def Reg.pollData (i : Nat) : Nat := 0x20218 + 0x10 * i
/-- POLL_DATA `value` (R571). -/
def Fld.pollDataValue : Field := ⟨0, 16⟩
/-- POLL_DATA `time` (R571). -/
def Fld.pollDataTime : Field := ⟨32, 32⟩
/-- POLL_DATA (R571). -/
def RegD.pollData : RegDesc := ⟨0x20218, 8, 0x10, 1, 0x0,
  [⟨Fld.pollDataValue, .ro, (.num 0), .none⟩,
   ⟨Fld.pollDataTime, .ro, (.num 0), .none⟩]⟩

/-- Address of FLOG0 (R523). -/
def Reg.flog0 (i : Nat) : Nat := 0x21000 + 0x10 * i
/-- FLOG0 `rec` (R523). -/
def Fld.flog0Rec : Field := ⟨0, 64⟩
/-- FLOG0 (R523). -/
def RegD.flog0 : RegDesc := ⟨0x21000, 256, 0x10, 1, 0x0,
  [⟨Fld.flog0Rec, .ro, (.num 0), .none⟩]⟩

/-- Address of FLOG1 (R523). -/
def Reg.flog1 (i : Nat) : Nat := 0x21008 + 0x10 * i
/-- FLOG1 `rec` (R523). -/
def Fld.flog1Rec : Field := ⟨0, 64⟩
/-- FLOG1 (R523). -/
def RegD.flog1 : RegDesc := ⟨0x21008, 256, 0x10, 1, 0x0,
  [⟨Fld.flog1Rec, .ro, (.num 0), .none⟩]⟩

/-- Address of SAGE_STAT (R522). -/
def Reg.sageStat : Nat := 0x40000
/-- SAGE_STAT `active` (R522). -/
def Fld.sageStatActive : Field := ⟨0, 1⟩
/-- SAGE_STAT `standby_ok` (R522). -/
def Fld.sageStatStandbyOk : Field := ⟨1, 1⟩
/-- SAGE_STAT `takeover` (R522). -/
def Fld.sageStatTakeover : Field := ⟨2, 1⟩
/-- SAGE_STAT `epoch` (R522). -/
def Fld.sageStatEpoch : Field := ⟨3, 32⟩
/-- SAGE_STAT `takeovers` (R522). -/
def Fld.sageStatTakeovers : Field := ⟨35, 16⟩
/-- SAGE_STAT (R522). -/
def RegD.sageStat : RegDesc := ⟨0x40000, 1, 0x0, 1, 0x0,
  [⟨Fld.sageStatActive, .ro, (.num 0), .none⟩,
   ⟨Fld.sageStatStandbyOk, .ro, (.num 0), .none⟩,
   ⟨Fld.sageStatTakeover, .ro, (.num 0), .none⟩,
   ⟨Fld.sageStatEpoch, .ro, (.num 0), .none⟩,
   ⟨Fld.sageStatTakeovers, .rw, (.num 0), .none⟩]⟩

/-- Address of SAGE_CMD (R522). -/
def Reg.sageCmd : Nat := 0x40008
/-- SAGE_CMD `fw_load` (R522). -/
def Fld.sageCmdFwLoad : Field := ⟨0, 1⟩
/-- SAGE_CMD `swap` (R522). -/
def Fld.sageCmdSwap : Field := ⟨1, 1⟩
/-- SAGE_CMD `restart` (R522). -/
def Fld.sageCmdRestart : Field := ⟨2, 1⟩
/-- SAGE_CMD `busy` (R522). -/
def Fld.sageCmdBusy : Field := ⟨3, 1⟩
/-- SAGE_CMD `serr` (R522). -/
def Fld.sageCmdSerr : Field := ⟨4, 3⟩
/-- SAGE_CMD (R522). -/
def RegD.sageCmd : RegDesc := ⟨0x40008, 1, 0x0, 1, 0x0,
  [⟨Fld.sageCmdFwLoad, .w1s, (.num 0), .none⟩,
   ⟨Fld.sageCmdSwap, .w1s, (.num 0), .none⟩,
   ⟨Fld.sageCmdRestart, .w1s, (.num 0), .none⟩,
   ⟨Fld.sageCmdBusy, .ro, (.num 0), .none⟩,
   ⟨Fld.sageCmdSerr, .ro, (.num 0), .none⟩]⟩

/-- Address of FAULT_CTRL (R518). -/
def Reg.faultCtrl : Nat := 0x80000
/-- FAULT_CTRL `expert` (R518). -/
def Fld.faultCtrlExpert : Field := ⟨0, 1⟩
/-- FAULT_CTRL `force_cap` (R518). -/
def Fld.faultCtrlForceCap : Field := ⟨1, 2⟩
/-- FAULT_CTRL `auto_spare` (R518). -/
def Fld.faultCtrlAutoSpare : Field := ⟨3, 1⟩
/-- FAULT_CTRL `sdrain_us` (R518). -/
def Fld.faultCtrlSdrainUs : Field := ⟨4, 8⟩
/-- FAULT_CTRL `lock` (R518). -/
def Fld.faultCtrlLock : Field := ⟨12, 1⟩
/-- FAULT_CTRL (R518). -/
def RegD.faultCtrl : RegDesc := ⟨0x80000, 1, 0x0, 1, 0x0,
  [⟨Fld.faultCtrlExpert, .rwl, (.num 0), .none⟩,
   ⟨Fld.faultCtrlForceCap, .rwl, (.num 1), .none⟩,
   ⟨Fld.faultCtrlAutoSpare, .rwl, (.num 1), .none⟩,
   ⟨Fld.faultCtrlSdrainUs, .rwx, (.num 20), (.atLeast 4)⟩,
   ⟨Fld.faultCtrlLock, .lock, (.num 0), .none⟩]⟩

/-- Address of FAULT_STAT (R519). -/
def Reg.faultStat : Nat := 0x80008
/-- FAULT_STAT `pending` (R519). -/
def Fld.faultStatPending : Field := ⟨0, 10⟩
/-- FAULT_STAT `severe` (R519). -/
def Fld.faultStatSevere : Field := ⟨10, 10⟩
/-- FAULT_STAT `safe_src` (R519). -/
def Fld.faultStatSafeSrc : Field := ⟨20, 10⟩
/-- FAULT_STAT `safe_cause` (R519). -/
def Fld.faultStatSafeCause : Field := ⟨30, 3⟩
/-- FAULT_STAT `info_wrap` (R519). -/
def Fld.faultStatInfoWrap : Field := ⟨33, 1⟩
/-- FAULT_STAT `info_count` (R519). -/
def Fld.faultStatInfoCount : Field := ⟨34, 9⟩
/-- FAULT_STAT (R519). -/
def RegD.faultStat : RegDesc := ⟨0x80008, 1, 0x0, 1, 0x0,
  [⟨Fld.faultStatPending, .ro, (.num 0), .none⟩,
   ⟨Fld.faultStatSevere, .ro, (.num 0), .none⟩,
   ⟨Fld.faultStatSafeSrc, .ro, (.num 0), .none⟩,
   ⟨Fld.faultStatSafeCause, .ro, (.num 0), .none⟩,
   ⟨Fld.faultStatInfoWrap, .w1c, (.num 0), .none⟩,
   ⟨Fld.faultStatInfoCount, .ro, (.num 0), .none⟩]⟩

/-- Address of FAULT_TIME (R519). -/
def Reg.faultTime : Nat := 0x80010
/-- FAULT_TIME `time` (R519). -/
def Fld.faultTimeTime : Field := ⟨0, 48⟩
/-- FAULT_TIME (R519). -/
def RegD.faultTime : RegDesc := ⟨0x80010, 1, 0x0, 1, 0x0,
  [⟨Fld.faultTimeTime, .ro, (.num 0), .none⟩]⟩

/-- Address of INFO_HEAD (R520). -/
def Reg.infoHead : Nat := 0x80018
/-- INFO_HEAD `head` (R520). -/
def Fld.infoHeadHead : Field := ⟨0, 8⟩
/-- INFO_HEAD (R520). -/
def RegD.infoHead : RegDesc := ⟨0x80018, 1, 0x0, 1, 0x0,
  [⟨Fld.infoHeadHead, .rw, (.num 0), .none⟩]⟩

/-- Address of FAULT_VALID (R519). -/
def Reg.faultValid (i : Nat) : Nat := 0x80100 + 0x8 * i
/-- FAULT_VALID `valid` (R519). -/
def Fld.faultValidValid : Field := ⟨0, 64⟩
/-- FAULT_VALID (R519). -/
def RegD.faultValid : RegDesc := ⟨0x80100, 10, 0x8, 1, 0x0,
  [⟨Fld.faultValidValid, .ro, (.num 0), .none⟩]⟩

/-- Address of FAULT_SEV (R519). -/
def Reg.faultSev (i : Nat) : Nat := 0x80200 + 0x8 * i
/-- FAULT_SEV `sev` (R519). -/
def Fld.faultSevSev : Field := ⟨0, 64⟩
/-- FAULT_SEV (R519). -/
def RegD.faultSev : RegDesc := ⟨0x80200, 10, 0x8, 1, 0x0,
  [⟨Fld.faultSevSev, .ro, (.num 0), .none⟩]⟩

/-- Address of REPAIR (R521). -/
def Reg.repair : Nat := 0x80300
/-- REPAIR `slot` (R521). -/
def Fld.repairSlot : Field := ⟨0, 5⟩
/-- REPAIR `drain` (R521). -/
def Fld.repairDrain : Field := ⟨5, 1⟩
/-- REPAIR `drained` (R521). -/
def Fld.repairDrained : Field := ⟨6, 1⟩
/-- REPAIR (R521). -/
def RegD.repair : RegDesc := ⟨0x80300, 1, 0x0, 1, 0x0,
  [⟨Fld.repairSlot, .rw, (.num 0), .none⟩,
   ⟨Fld.repairDrain, .rw, (.num 0), .none⟩,
   ⟨Fld.repairDrained, .ro, (.num 0), .none⟩]⟩

/-- Address of SPARE (R521). -/
def Reg.spare : Nat := 0x80308
/-- SPARE `kind` (R521). -/
def Fld.spareKind : Field := ⟨0, 3⟩
/-- SPARE `unit` (R521). -/
def Fld.spareUnit : Field := ⟨3, 6⟩
/-- SPARE `go` (R521). -/
def Fld.spareGo : Field := ⟨9, 1⟩
/-- SPARE `busy` (R521). -/
def Fld.spareBusy : Field := ⟨10, 1⟩
/-- SPARE `serr` (R521). -/
def Fld.spareSerr : Field := ⟨11, 3⟩
/-- SPARE (R521). -/
def RegD.spare : RegDesc := ⟨0x80308, 1, 0x0, 1, 0x0,
  [⟨Fld.spareKind, .rw, (.num 0), .none⟩,
   ⟨Fld.spareUnit, .rw, (.num 0), .none⟩,
   ⟨Fld.spareGo, .w1s, (.num 0), .none⟩,
   ⟨Fld.spareBusy, .ro, (.num 0), .none⟩,
   ⟨Fld.spareSerr, .ro, (.num 0), .none⟩]⟩

/-- Address of SPARE_MAP (R521). -/
def Reg.spareMap : Nat := 0x80310
/-- SPARE_MAP `map` (R521). -/
def Fld.spareMapMap : Field := ⟨0, 64⟩
/-- SPARE_MAP (R521). -/
def RegD.spareMap : RegDesc := ⟨0x80310, 1, 0x0, 1, 0x0,
  [⟨Fld.spareMapMap, .ro, (.num 0), .none⟩]⟩

/-- Address of REC0 (R520). -/
def Reg.rec0 (i : Nat) : Nat := 0x81000 + 0x40 * i
/-- REC0 `addr` (R520). -/
def Fld.rec0Addr : Field := ⟨0, 52⟩
/-- REC0 `kind` (R520). -/
def Fld.rec0Kind : Field := ⟨52, 6⟩
/-- REC0 `class` (R520). -/
def Fld.rec0Class : Field := ⟨58, 2⟩
/-- REC0 `overrun` (R520). -/
def Fld.rec0Overrun : Field := ⟨62, 1⟩
/-- REC0 `valid` (R520). -/
def Fld.rec0Valid : Field := ⟨63, 1⟩
/-- REC0 (R520). -/
def RegD.rec0 : RegDesc := ⟨0x81000, 640, 0x40, 1, 0x0,
  [⟨Fld.rec0Addr, .ro, (.num 0), .none⟩,
   ⟨Fld.rec0Kind, .ro, (.num 0), .none⟩,
   ⟨Fld.rec0Class, .ro, (.num 0), .none⟩,
   ⟨Fld.rec0Overrun, .w1c, (.num 0), .none⟩,
   ⟨Fld.rec0Valid, .w1c, (.num 0), .none⟩]⟩

/-- Address of REC1 (R520). -/
def Reg.rec1 (i : Nat) : Nat := 0x81008 + 0x40 * i
/-- REC1 `time` (R520). -/
def Fld.rec1Time : Field := ⟨0, 48⟩
/-- REC1 `src` (R520). -/
def Fld.rec1Src : Field := ⟨48, 10⟩
/-- REC1 (R520). -/
def RegD.rec1 : RegDesc := ⟨0x81008, 640, 0x40, 1, 0x0,
  [⟨Fld.rec1Time, .ro, (.num 0), .none⟩,
   ⟨Fld.rec1Src, .ro, .idx, .none⟩]⟩

/-- Address of SRC_CFG (R520). -/
def Reg.srcCfg (i : Nat) : Nat := 0x81010 + 0x40 * i
/-- SRC_CFG `react_c1` (R520). -/
def Fld.srcCfgReactC1 : Field := ⟨0, 2⟩
/-- SRC_CFG `react_c2` (R520). -/
def Fld.srcCfgReactC2 : Field := ⟨2, 2⟩
/-- SRC_CFG `react_c3` (R520). -/
def Fld.srcCfgReactC3 : Field := ⟨4, 2⟩
/-- SRC_CFG `thresh` (R520). -/
def Fld.srcCfgThresh : Field := ⟨8, 8⟩
/-- SRC_CFG `win_log` (R520). -/
def Fld.srcCfgWinLog : Field := ⟨16, 5⟩
/-- SRC_CFG `force_class` (R520). -/
def Fld.srcCfgForceClass : Field := ⟨21, 2⟩
/-- SRC_CFG `force` (R520). -/
def Fld.srcCfgForce : Field := ⟨23, 1⟩
/-- SRC_CFG `counting` (R520). -/
def Fld.srcCfgCounting : Field := ⟨24, 1⟩
/-- SRC_CFG (R520). -/
def RegD.srcCfg : RegDesc := ⟨0x81010, 640, 0x40, 1, 0x0,
  [⟨Fld.srcCfgReactC1, .rw, .cat, .none⟩,
   ⟨Fld.srcCfgReactC2, .rw, .cat, .none⟩,
   ⟨Fld.srcCfgReactC3, .rw, .cat, .none⟩,
   ⟨Fld.srcCfgThresh, .rw, .cat, (.atLeast 1)⟩,
   ⟨Fld.srcCfgWinLog, .rw, .cat, .none⟩,
   ⟨Fld.srcCfgForceClass, .rw, (.num 1), .none⟩,
   ⟨Fld.srcCfgForce, .w1s, (.num 0), .none⟩,
   ⟨Fld.srcCfgCounting, .ro, .cat, .none⟩]⟩

/-- Address of SRC_STAT (R520). -/
def Reg.srcStat (i : Nat) : Nat := 0x81018 + 0x40 * i
/-- SRC_STAT `sev` (R520). -/
def Fld.srcStatSev : Field := ⟨0, 2⟩
/-- SRC_STAT `active` (R520). -/
def Fld.srcStatActive : Field := ⟨2, 1⟩
/-- SRC_STAT `sev_clr` (R520). -/
def Fld.srcStatSevClr : Field := ⟨3, 1⟩
/-- SRC_STAT `count` (R520). -/
def Fld.srcStatCount : Field := ⟨4, 8⟩
/-- SRC_STAT `total` (R520). -/
def Fld.srcStatTotal : Field := ⟨12, 32⟩
/-- SRC_STAT (R520). -/
def RegD.srcStat : RegDesc := ⟨0x81018, 640, 0x40, 1, 0x0,
  [⟨Fld.srcStatSev, .ro, (.num 0), .none⟩,
   ⟨Fld.srcStatActive, .ro, (.num 0), .none⟩,
   ⟨Fld.srcStatSevClr, .w1s, (.num 0), .none⟩,
   ⟨Fld.srcStatCount, .ro, (.num 0), .none⟩,
   ⟨Fld.srcStatTotal, .rw, (.num 0), .none⟩]⟩

/-- Address of INFO0 (R520). -/
def Reg.info0 (i : Nat) : Nat := 0x8c000 + 0x10 * i
/-- INFO0 `rec` (R520). -/
def Fld.info0Rec : Field := ⟨0, 64⟩
/-- INFO0 (R520). -/
def RegD.info0 : RegDesc := ⟨0x8c000, 256, 0x10, 1, 0x0,
  [⟨Fld.info0Rec, .ro, (.num 0), .none⟩]⟩

/-- Address of INFO1 (R520). -/
def Reg.info1 (i : Nat) : Nat := 0x8c008 + 0x10 * i
/-- INFO1 `rec` (R520). -/
def Fld.info1Rec : Field := ⟨0, 64⟩
/-- INFO1 (R520). -/
def RegD.info1 : RegDesc := ⟨0x8c008, 256, 0x10, 1, 0x0,
  [⟨Fld.info1Rec, .ro, (.num 0), .none⟩]⟩

/-- Address of PERF_CTRL (R537). -/
def Reg.perfCtrl : Nat := 0x100000
/-- PERF_CTRL `expert` (R537). -/
def Fld.perfCtrlExpert : Field := ⟨0, 1⟩
/-- PERF_CTRL `clear` (R537). -/
def Fld.perfCtrlClear : Field := ⟨1, 1⟩
/-- PERF_CTRL `freeze` (R537). -/
def Fld.perfCtrlFreeze : Field := ⟨2, 1⟩
/-- PERF_CTRL `frz_err` (R537). -/
def Fld.perfCtrlFrzErr : Field := ⟨3, 1⟩
/-- PERF_CTRL `snap_seq` (R537). -/
def Fld.perfCtrlSnapSeq : Field := ⟨4, 32⟩
/-- PERF_CTRL `snap_src` (R537). -/
def Fld.perfCtrlSnapSrc : Field := ⟨36, 1⟩
/-- PERF_CTRL `arm_held` (R537). -/
def Fld.perfCtrlArmHeld : Field := ⟨37, 1⟩
/-- PERF_CTRL `bw_log` (R537). -/
def Fld.perfCtrlBwLog : Field := ⟨38, 5⟩
/-- PERF_CTRL (R537). -/
def RegD.perfCtrl : RegDesc := ⟨0x100000, 1, 0x0, 1, 0x0,
  [⟨Fld.perfCtrlExpert, .rw, (.num 0), .none⟩,
   ⟨Fld.perfCtrlClear, .w1s, (.num 0), .none⟩,
   ⟨Fld.perfCtrlFreeze, .w1s, (.num 0), .none⟩,
   ⟨Fld.perfCtrlFrzErr, .w1c, (.num 0), .none⟩,
   ⟨Fld.perfCtrlSnapSeq, .ro, (.num 0), .none⟩,
   ⟨Fld.perfCtrlSnapSrc, .ro, (.num 0), .none⟩,
   ⟨Fld.perfCtrlArmHeld, .ro, (.num 0), .none⟩,
   ⟨Fld.perfCtrlBwLog, .rwx, (.num 6), (.atMost 20)⟩]⟩

/-- Address of CNT_SEL (R538). -/
def Reg.cntSel (i : Nat) : Nat := 0x101000 + 0x20 * i
/-- CNT_SEL `event` (R538). -/
def Fld.cntSelEvent : Field := ⟨0, 12⟩
/-- CNT_SEL `unit` (R538). -/
def Fld.cntSelUnit : Field := ⟨12, 8⟩
/-- CNT_SEL `enable` (R538). -/
def Fld.cntSelEnable : Field := ⟨20, 1⟩
/-- CNT_SEL `priv` (R538). -/
def Fld.cntSelPriv : Field := ⟨21, 2⟩
/-- CNT_SEL `inst_en` (R538). -/
def Fld.cntSelInstEn : Field := ⟨23, 1⟩
/-- CNT_SEL `inst` (R538). -/
def Fld.cntSelInst : Field := ⟨24, 12⟩
/-- CNT_SEL `tc_mask` (R538). -/
def Fld.cntSelTcMask : Field := ⟨36, 8⟩
/-- CNT_SEL `addr_en` (R538). -/
def Fld.cntSelAddrEn : Field := ⟨44, 1⟩
/-- CNT_SEL `tview` (R538). -/
def Fld.cntSelTview : Field := ⟨45, 1⟩
/-- CNT_SEL `tslot` (R538). -/
def Fld.cntSelTslot : Field := ⟨46, 6⟩
/-- CNT_SEL `wrap` (R538). -/
def Fld.cntSelWrap : Field := ⟨52, 1⟩
/-- CNT_SEL `err` (R538). -/
def Fld.cntSelErr : Field := ⟨53, 3⟩
/-- CNT_SEL (R538). -/
def RegD.cntSel : RegDesc := ⟨0x101000, 1024, 0x20, 1, 0x0,
  [⟨Fld.cntSelEvent, .rw, (.num 0), .none⟩,
   ⟨Fld.cntSelUnit, .rw, (.num 0xFF), .none⟩,
   ⟨Fld.cntSelEnable, .rw, (.num 0), .none⟩,
   ⟨Fld.cntSelPriv, .rw, (.num 0), (.swap 3 0)⟩,
   ⟨Fld.cntSelInstEn, .rw, (.num 0), .none⟩,
   ⟨Fld.cntSelInst, .rw, (.num 0), .none⟩,
   ⟨Fld.cntSelTcMask, .rw, (.num 0xFF), .none⟩,
   ⟨Fld.cntSelAddrEn, .rw, (.num 0), .none⟩,
   ⟨Fld.cntSelTview, .rw, (.num 0), .none⟩,
   ⟨Fld.cntSelTslot, .rw, (.num 0), .none⟩,
   ⟨Fld.cntSelWrap, .w1c, (.num 0), .none⟩,
   ⟨Fld.cntSelErr, .ro, (.num 0), .none⟩]⟩

/-- Address of CNT_ALO (R538). -/
def Reg.cntAlo (i : Nat) : Nat := 0x101008 + 0x20 * i
/-- CNT_ALO `alo` (R538). -/
def Fld.cntAloAlo : Field := ⟨0, 64⟩
/-- CNT_ALO (R538). -/
def RegD.cntAlo : RegDesc := ⟨0x101008, 1024, 0x20, 1, 0x0,
  [⟨Fld.cntAloAlo, .rw, (.num 0), .none⟩]⟩

/-- Address of CNT_AHI (R538). -/
def Reg.cntAhi (i : Nat) : Nat := 0x101010 + 0x20 * i
/-- CNT_AHI `ahi` (R538). -/
def Fld.cntAhiAhi : Field := ⟨0, 64⟩
/-- CNT_AHI (R538). -/
def RegD.cntAhi : RegDesc := ⟨0x101010, 1024, 0x20, 1, 0x0,
  [⟨Fld.cntAhiAhi, .rw, (.num 0), .none⟩]⟩

/-- Address of CNT_VAL (R538). -/
def Reg.cntVal (i : Nat) : Nat := 0x101018 + 0x20 * i
/-- CNT_VAL `value` (R538). -/
def Fld.cntValValue : Field := ⟨0, 64⟩
/-- CNT_VAL (R538). -/
def RegD.cntVal : RegDesc := ⟨0x101018, 1024, 0x20, 1, 0x0,
  [⟨Fld.cntValValue, .rw, (.num 0), .none⟩]⟩

/-- Address of RAIL (R541). -/
def Reg.rail (i : Nat) : Nat := 0x109000 + 0x8 * i
/-- RAIL `now` (R541). -/
def Fld.railNow : Field := ⟨0, 16⟩
/-- RAIL `min` (R541). -/
def Fld.railMin : Field := ⟨16, 16⟩
/-- RAIL `max` (R541). -/
def Fld.railMax : Field := ⟨32, 16⟩
/-- RAIL `mm_clr` (R541). -/
def Fld.railMmClr : Field := ⟨48, 1⟩
/-- RAIL (R541). -/
def RegD.rail : RegDesc := ⟨0x109000, 24, 0x8, 1, 0x0,
  [⟨Fld.railNow, .ro, (.num 0), .none⟩,
   ⟨Fld.railMin, .ro, (.num 0), .none⟩,
   ⟨Fld.railMax, .ro, (.num 0), .none⟩,
   ⟨Fld.railMmClr, .w1s, (.num 0), .none⟩]⟩

/-- Address of TEMP (R541). -/
def Reg.temp (i : Nat) : Nat := 0x109100 + 0x8 * i
/-- TEMP `now` (R541). -/
def Fld.tempNow : Field := ⟨0, 16⟩
/-- TEMP `max` (R541). -/
def Fld.tempMax : Field := ⟨16, 16⟩
/-- TEMP `mm_clr` (R541). -/
def Fld.tempMmClr : Field := ⟨32, 1⟩
/-- TEMP (R541). -/
def RegD.temp : RegDesc := ⟨0x109100, 64, 0x8, 1, 0x0,
  [⟨Fld.tempNow, .ro, (.num 0), .none⟩,
   ⟨Fld.tempMax, .ro, (.num 0), .none⟩,
   ⟨Fld.tempMmClr, .w1s, (.num 0), .none⟩]⟩

/-- Address of DROOP (R541). -/
def Reg.droop (i : Nat) : Nat := 0x109300 + 0x8 * i
/-- DROOP `events` (R541). -/
def Fld.droopEvents : Field := ⟨0, 32⟩
/-- DROOP `worst` (R541). -/
def Fld.droopWorst : Field := ⟨32, 16⟩
/-- DROOP `thresh_mv` (R541). -/
def Fld.droopThreshMv : Field := ⟨48, 8⟩
/-- DROOP (R541). -/
def RegD.droop : RegDesc := ⟨0x109300, 74, 0x8, 1, 0x0,
  [⟨Fld.droopEvents, .rw, (.num 0), .none⟩,
   ⟨Fld.droopWorst, .rw, (.num 0), .none⟩,
   ⟨Fld.droopThreshMv, .rwx, (.num 30), (.atLeast 5)⟩]⟩

/-- Address of SENS_CTRL (R541). -/
def Reg.sensCtrl : Nat := 0x109800
/-- SENS_CTRL `expert` (R541). -/
def Fld.sensCtrlExpert : Field := ⟨0, 1⟩
/-- SENS_CTRL `warn_c` (R541). -/
def Fld.sensCtrlWarnC : Field := ⟨1, 8⟩
/-- SENS_CTRL (R541). -/
def RegD.sensCtrl : RegDesc := ⟨0x109800, 1, 0x0, 1, 0x0,
  [⟨Fld.sensCtrlExpert, .rw, (.num 0), .none⟩,
   ⟨Fld.sensCtrlWarnC, .rw, (.num 100), (.range 60 105)⟩]⟩

/-- Address of SNAP (R538). -/
def Reg.snap (i : Nat) : Nat := 0x10a000 + 0x8 * i
/-- SNAP `value` (R538). -/
def Fld.snapValue : Field := ⟨0, 64⟩
/-- SNAP (R538). -/
def RegD.snap : RegDesc := ⟨0x10a000, 1024, 0x8, 1, 0x0,
  [⟨Fld.snapValue, .ro, (.num 0), .none⟩]⟩

/-- Address of BW_LAST (R540). -/
def Reg.bwLast (i : Nat) : Nat := 0x10c000 + 0x10 * i
/-- BW_LAST `tx` (R540). -/
def Fld.bwLastTx : Field := ⟨0, 32⟩
/-- BW_LAST `rx` (R540). -/
def Fld.bwLastRx : Field := ⟨32, 32⟩
/-- BW_LAST (R540). -/
def RegD.bwLast : RegDesc := ⟨0x10c000, 144, 0x10, 1, 0x0,
  [⟨Fld.bwLastTx, .ro, (.num 0), .none⟩,
   ⟨Fld.bwLastRx, .ro, (.num 0), .none⟩]⟩

/-- Address of BW_PEAK (R540). -/
def Reg.bwPeak (i : Nat) : Nat := 0x10c008 + 0x10 * i
/-- BW_PEAK `tx` (R540). -/
def Fld.bwPeakTx : Field := ⟨0, 32⟩
/-- BW_PEAK `rx` (R540). -/
def Fld.bwPeakRx : Field := ⟨32, 32⟩
/-- BW_PEAK (R540). -/
def RegD.bwPeak : RegDesc := ⟨0x10c008, 144, 0x10, 1, 0x0,
  [⟨Fld.bwPeakTx, .rw, (.num 0), .none⟩,
   ⟨Fld.bwPeakRx, .rw, (.num 0), .none⟩]⟩

/-- Address of SAMP_CTRL (R539). -/
def Reg.sampCtrl : Nat := 0x10d000
/-- SAMP_CTRL `enable` (R539). -/
def Fld.sampCtrlEnable : Field := ⟨0, 1⟩
/-- SAMP_CTRL `period` (R539). -/
def Fld.sampCtrlPeriod : Field := ⟨1, 20⟩
/-- SAMP_CTRL `inst_en` (R539). -/
def Fld.sampCtrlInstEn : Field := ⟨21, 1⟩
/-- SAMP_CTRL `inst` (R539). -/
def Fld.sampCtrlInst : Field := ⟨22, 12⟩
/-- SAMP_CTRL `ring_en` (R539). -/
def Fld.sampCtrlRingEn : Field := ⟨34, 1⟩
/-- SAMP_CTRL `ring` (R539). -/
def Fld.sampCtrlRing : Field := ⟨35, 6⟩
/-- SAMP_CTRL (R539). -/
def RegD.sampCtrl : RegDesc := ⟨0x10d000, 1, 0x0, 1, 0x0,
  [⟨Fld.sampCtrlEnable, .rw, (.num 0), .none⟩,
   ⟨Fld.sampCtrlPeriod, .rw, (.num 1024), (.atLeast 1)⟩,
   ⟨Fld.sampCtrlInstEn, .rw, (.num 0), .none⟩,
   ⟨Fld.sampCtrlInst, .rw, (.num 0), .none⟩,
   ⟨Fld.sampCtrlRingEn, .rw, (.num 0), .none⟩,
   ⟨Fld.sampCtrlRing, .rw, (.num 0), .none⟩]⟩

/-- Address of SAMP_BUF (R539). -/
def Reg.sampBuf : Nat := 0x10d008
/-- SAMP_BUF `base` (R539). -/
def Fld.sampBufBase : Field := ⟨12, 25⟩
/-- SAMP_BUF `log_n` (R539). -/
def Fld.sampBufLogN : Field := ⟨40, 5⟩
/-- SAMP_BUF (R539). -/
def RegD.sampBuf : RegDesc := ⟨0x10d008, 1, 0x0, 1, 0x0,
  [⟨Fld.sampBufBase, .rw, (.num 0), .none⟩,
   ⟨Fld.sampBufLogN, .rw, (.num 6), (.range 6 20)⟩]⟩

/-- Address of SAMP_STAT (R539). -/
def Reg.sampStat : Nat := 0x10d010
/-- SAMP_STAT `wr` (R539). -/
def Fld.sampStatWr : Field := ⟨0, 21⟩
/-- SAMP_STAT `rd` (R539). -/
def Fld.sampStatRd : Field := ⟨21, 21⟩
/-- SAMP_STAT `irq_pend` (R539). -/
def Fld.sampStatIrqPend : Field := ⟨42, 1⟩
/-- SAMP_STAT `serr` (R539). -/
def Fld.sampStatSerr : Field := ⟨43, 2⟩
/-- SAMP_STAT (R539). -/
def RegD.sampStat : RegDesc := ⟨0x10d010, 1, 0x0, 1, 0x0,
  [⟨Fld.sampStatWr, .ro, (.num 0), .none⟩,
   ⟨Fld.sampStatRd, .rw, (.num 0), .none⟩,
   ⟨Fld.sampStatIrqPend, .w1c, (.num 0), .none⟩,
   ⟨Fld.sampStatSerr, .ro, (.num 0), .none⟩]⟩

/-- Address of SAMP_CNT (R539). -/
def Reg.sampCnt : Nat := 0x10d018
/-- SAMP_CNT `lost` (R539). -/
def Fld.sampCntLost : Field := ⟨0, 32⟩
/-- SAMP_CNT `skipped` (R539). -/
def Fld.sampCntSkipped : Field := ⟨32, 32⟩
/-- SAMP_CNT (R539). -/
def RegD.sampCnt : RegDesc := ⟨0x10d018, 1, 0x0, 1, 0x0,
  [⟨Fld.sampCntLost, .rw, (.num 0), .none⟩,
   ⟨Fld.sampCntSkipped, .rw, (.num 0), .none⟩]⟩

/-- Address of SAMP_THR (R539). -/
def Reg.sampThr : Nat := 0x10d020
/-- SAMP_THR `thresh` (R539). -/
def Fld.sampThrThresh : Field := ⟨0, 21⟩
/-- SAMP_THR (R539). -/
def RegD.sampThr : RegDesc := ⟨0x10d020, 1, 0x0, 1, 0x0,
  [⟨Fld.sampThrThresh, .rw, (.num 32), (.range 1 1048576)⟩]⟩

/-- Address of EXCH_CTRL (R179). -/
def Reg.exchCtrl : Nat := 0x200000
/-- EXCH_CTRL `expert` (R179). -/
def Fld.exchCtrlExpert : Field := ⟨0, 1⟩
/-- EXCH_CTRL `qmode` (R179). -/
def Fld.exchCtrlQmode : Field := ⟨1, 2⟩
/-- EXCH_CTRL `preempt` (R179). -/
def Fld.exchCtrlPreempt : Field := ⟨3, 1⟩
/-- EXCH_CTRL `lock` (R179). -/
def Fld.exchCtrlLock : Field := ⟨4, 1⟩
/-- EXCH_CTRL (R179). -/
def RegD.exchCtrl : RegDesc := ⟨0x200000, 1, 0x0, 1, 0x0,
  [⟨Fld.exchCtrlExpert, .rwl, (.num 0), .none⟩,
   ⟨Fld.exchCtrlQmode, .rwl, (.num 0), (.swap 3 0)⟩,
   ⟨Fld.exchCtrlPreempt, .rwx, (.num 1), .none⟩,
   ⟨Fld.exchCtrlLock, .lock, (.num 0), .none⟩]⟩

/-- Address of CLASS_MAP (R180). -/
def Reg.classMap : Nat := 0x200008
/-- CLASS_MAP `tc0` (R180). -/
def Fld.classMapTc0 : Field := ⟨0, 2⟩
/-- CLASS_MAP `tc1` (R180). -/
def Fld.classMapTc1 : Field := ⟨2, 2⟩
/-- CLASS_MAP `tc2` (R180). -/
def Fld.classMapTc2 : Field := ⟨4, 2⟩
/-- CLASS_MAP `tc3` (R180). -/
def Fld.classMapTc3 : Field := ⟨6, 2⟩
/-- CLASS_MAP `tc4` (R180). -/
def Fld.classMapTc4 : Field := ⟨8, 2⟩
/-- CLASS_MAP `tc5` (R180). -/
def Fld.classMapTc5 : Field := ⟨10, 2⟩
/-- CLASS_MAP `tc6` (R180). -/
def Fld.classMapTc6 : Field := ⟨12, 2⟩
/-- CLASS_MAP `tc7` (R180). -/
def Fld.classMapTc7 : Field := ⟨14, 2⟩
/-- CLASS_MAP (R180). -/
def RegD.classMap : RegDesc := ⟨0x200008, 1, 0x0, 1, 0x0,
  [⟨Fld.classMapTc0, .ro, (.num 0), .none⟩,
   ⟨Fld.classMapTc1, .rw, (.num 2), (.atLeast 1)⟩,
   ⟨Fld.classMapTc2, .rw, (.num 2), (.atLeast 1)⟩,
   ⟨Fld.classMapTc3, .rw, (.num 2), (.atLeast 1)⟩,
   ⟨Fld.classMapTc4, .rw, (.num 2), (.atLeast 1)⟩,
   ⟨Fld.classMapTc5, .rw, (.num 2), (.atLeast 1)⟩,
   ⟨Fld.classMapTc6, .rw, (.num 1), (.atLeast 1)⟩,
   ⟨Fld.classMapTc7, .rw, (.num 1), (.atLeast 1)⟩]⟩

/-- Address of ARB_QUOTA (R181). -/
def Reg.arbQuota : Nat := 0x200010
/-- ARB_QUOTA `quota` (R181). -/
def Fld.arbQuotaQuota : Field := ⟨0, 8⟩
/-- ARB_QUOTA `window` (R181). -/
def Fld.arbQuotaWindow : Field := ⟨8, 16⟩
/-- ARB_QUOTA `age` (R181). -/
def Fld.arbQuotaAge : Field := ⟨24, 16⟩
/-- ARB_QUOTA (R181). -/
def RegD.arbQuota : RegDesc := ⟨0x200010, 1, 0x0, 1, 0x0,
  [⟨Fld.arbQuotaQuota, .rwx, (.num 16), (.atLeast 1)⟩,
   ⟨Fld.arbQuotaWindow, .rwx, (.num 128), (.range 8 4096)⟩,
   ⟨Fld.arbQuotaAge, .rwx, (.num 256), .none⟩]⟩

/-- Address of OUT_STAT (R182). -/
def Reg.outStat (i : Nat) : Nat := 0x210000 + 0x20 * i
/-- OUT_STAT `pending` (R182). -/
def Fld.outStatPending : Field := ⟨0, 6⟩
/-- OUT_STAT `masked` (R182). -/
def Fld.outStatMasked : Field := ⟨6, 1⟩
/-- OUT_STAT `c0_grants` (R182). -/
def Fld.outStatC0Grants : Field := ⟨7, 8⟩
/-- OUT_STAT `win_count` (R182). -/
def Fld.outStatWinCount : Field := ⟨15, 12⟩
/-- OUT_STAT `interrupted` (R182). -/
def Fld.outStatInterrupted : Field := ⟨27, 1⟩
/-- OUT_STAT `busy_lanes` (R182). -/
def Fld.outStatBusyLanes : Field := ⟨28, 4⟩
/-- OUT_STAT (R182). -/
def RegD.outStat : RegDesc := ⟨0x210000, 152, 0x20, 1, 0x0,
  [⟨Fld.outStatPending, .ro, (.num 0), .none⟩,
   ⟨Fld.outStatMasked, .ro, (.num 0), .none⟩,
   ⟨Fld.outStatC0Grants, .ro, (.num 0), .none⟩,
   ⟨Fld.outStatWinCount, .ro, (.num 0), .none⟩,
   ⟨Fld.outStatInterrupted, .ro, (.num 0), .none⟩,
   ⟨Fld.outStatBusyLanes, .ro, (.num 0), .none⟩]⟩

/-- Address of OUT_CNT0 (R183). -/
def Reg.outCnt0 (i : Nat) : Nat := 0x210008 + 0x20 * i
/-- OUT_CNT0 `grants` (R183). -/
def Fld.outCnt0Grants : Field := ⟨0, 40⟩
/-- OUT_CNT0 `preempts` (R183). -/
def Fld.outCnt0Preempts : Field := ⟨40, 24⟩
/-- OUT_CNT0 (R183). -/
def RegD.outCnt0 : RegDesc := ⟨0x210008, 152, 0x20, 1, 0x0,
  [⟨Fld.outCnt0Grants, .rw, (.num 0), .none⟩,
   ⟨Fld.outCnt0Preempts, .rw, (.num 0), .none⟩]⟩

/-- Address of OUT_CNT1 (R183). -/
def Reg.outCnt1 (i : Nat) : Nat := 0x210010 + 0x20 * i
/-- OUT_CNT1 `mask_hits` (R183). -/
def Fld.outCnt1MaskHits : Field := ⟨0, 16⟩
/-- OUT_CNT1 `refused` (R183). -/
def Fld.outCnt1Refused : Field := ⟨16, 16⟩
/-- OUT_CNT1 `declined` (R183). -/
def Fld.outCnt1Declined : Field := ⟨32, 16⟩
/-- OUT_CNT1 `aged` (R183). -/
def Fld.outCnt1Aged : Field := ⟨48, 16⟩
/-- OUT_CNT1 (R183). -/
def RegD.outCnt1 : RegDesc := ⟨0x210010, 152, 0x20, 1, 0x0,
  [⟨Fld.outCnt1MaskHits, .rw, (.num 0), .none⟩,
   ⟨Fld.outCnt1Refused, .rw, (.num 0), .none⟩,
   ⟨Fld.outCnt1Declined, .rw, (.num 0), .none⟩,
   ⟨Fld.outCnt1Aged, .rw, (.num 0), .none⟩]⟩

/-- Address of OUT_HWM (R183). -/
def Reg.outHwm (i : Nat) : Nat := 0x210018 + 0x20 * i
/-- OUT_HWM `exp_wait_hwm` (R183). -/
def Fld.outHwmExpWaitHwm : Field := ⟨0, 16⟩
/-- OUT_HWM `pend_hwm` (R183). -/
def Fld.outHwmPendHwm : Field := ⟨16, 16⟩
/-- OUT_HWM (R183). -/
def RegD.outHwm : RegDesc := ⟨0x210018, 152, 0x20, 1, 0x0,
  [⟨Fld.outHwmExpWaitHwm, .rw, (.num 0), .none⟩,
   ⟨Fld.outHwmPendHwm, .rw, (.num 0), .none⟩]⟩

/-- Address of LANE_CTRL (R105). -/
def Reg.laneCtrl (i : Nat) : Nat := 0x400100 + 0x10000 * i
/-- LANE_CTRL `expert` (R105). -/
def Fld.laneCtrlExpert : Field := ⟨0, 1⟩
/-- LANE_CTRL `restart` (R105). -/
def Fld.laneCtrlRestart : Field := ⟨8, 8⟩
/-- LANE_CTRL `retrain` (R105). -/
def Fld.laneCtrlRetrain : Field := ⟨16, 8⟩
/-- LANE_CTRL `hold` (R105). -/
def Fld.laneCtrlHold : Field := ⟨24, 8⟩
/-- LANE_CTRL `relane` (R105). -/
def Fld.laneCtrlRelane : Field := ⟨32, 8⟩
/-- LANE_CTRL `precode_req` (R105). -/
def Fld.laneCtrlPrecodeReq : Field := ⟨40, 1⟩
/-- LANE_CTRL `recal` (R105). -/
def Fld.laneCtrlRecal : Field := ⟨41, 1⟩
/-- LANE_CTRL `prbs` (R105). -/
def Fld.laneCtrlPrbs : Field := ⟨42, 2⟩
/-- LANE_CTRL `am_auto` (R105). -/
def Fld.laneCtrlAmAuto : Field := ⟨44, 1⟩
/-- LANE_CTRL (R105). -/
def RegD.laneCtrl : RegDesc := ⟨0x400100, 19, 0x10000, 1, 0x0,
  [⟨Fld.laneCtrlExpert, .rw, (.num 0), .none⟩,
   ⟨Fld.laneCtrlRestart, .w1s, (.num 0), .none⟩,
   ⟨Fld.laneCtrlRetrain, .w1s, (.num 0), .none⟩,
   ⟨Fld.laneCtrlHold, .rw, (.num 0), .none⟩,
   ⟨Fld.laneCtrlRelane, .w1s, (.num 0), .none⟩,
   ⟨Fld.laneCtrlPrecodeReq, .rw, (.num 0), .none⟩,
   ⟨Fld.laneCtrlRecal, .w1s, (.num 0), .none⟩,
   ⟨Fld.laneCtrlPrbs, .rwx, (.num 0), (.swap 3 0)⟩,
   ⟨Fld.laneCtrlAmAuto, .rwx, (.num 1), .none⟩]⟩

/-- Address of PORT_STAT (R106). -/
def Reg.portStat (i : Nat) (j : Nat) : Nat := 0x400200 + 0x10000 * i + 0x8 * j
/-- PORT_STAT `state` (R106). -/
def Fld.portStatState : Field := ⟨0, 4⟩
/-- PORT_STAT `width` (R106). -/
def Fld.portStatWidth : Field := ⟨4, 2⟩
/-- PORT_STAT `precoded` (R106). -/
def Fld.portStatPrecoded : Field := ⟨6, 1⟩
/-- PORT_STAT `held_reason` (R106). -/
def Fld.portStatHeldReason : Field := ⟨8, 4⟩
/-- PORT_STAT `fail_count` (R106). -/
def Fld.portStatFailCount : Field := ⟨16, 8⟩
/-- PORT_STAT `degrade_count` (R106). -/
def Fld.portStatDegradeCount : Field := ⟨24, 8⟩
/-- PORT_STAT (R106). -/
def RegD.portStat : RegDesc := ⟨0x400200, 19, 0x10000, 8, 0x8,
  [⟨Fld.portStatState, .ro, (.num 0), .none⟩,
   ⟨Fld.portStatWidth, .ro, (.num 3), .none⟩,
   ⟨Fld.portStatPrecoded, .ro, (.num 0), .none⟩,
   ⟨Fld.portStatHeldReason, .ro, (.num 0), .none⟩,
   ⟨Fld.portStatFailCount, .ro, (.num 0), .none⟩,
   ⟨Fld.portStatDegradeCount, .ro, (.num 0), .none⟩]⟩

/-- Address of PORT_PARTNER (R107). -/
def Reg.portPartner (i : Nat) (j : Nat) : Nat := 0x400300 + 0x10000 * i + 0x8 * j
/-- PORT_PARTNER `fid` (R107). -/
def Fld.portPartnerFid : Field := ⟨0, 18⟩
/-- PORT_PARTNER `port` (R107). -/
def Fld.portPartnerPort : Field := ⟨18, 8⟩
/-- PORT_PARTNER `valid` (R107). -/
def Fld.portPartnerValid : Field := ⟨26, 1⟩
/-- PORT_PARTNER (R107). -/
def RegD.portPartner : RegDesc := ⟨0x400300, 19, 0x10000, 8, 0x8,
  [⟨Fld.portPartnerFid, .ro, (.num 0), .none⟩,
   ⟨Fld.portPartnerPort, .ro, (.num 0), .none⟩,
   ⟨Fld.portPartnerValid, .ro, (.num 0), .none⟩]⟩

/-- Address of PORT_MEAS (R108). -/
def Reg.portMeas (i : Nat) (j : Nat) : Nat := 0x400400 + 0x10000 * i + 0x8 * j
/-- PORT_MEAS `rtt` (R108). -/
def Fld.portMeasRtt : Field := ⟨0, 24⟩
/-- PORT_MEAS `length_dm` (R108). -/
def Fld.portMeasLengthDm : Field := ⟨24, 16⟩
/-- PORT_MEAS `vel` (R108). -/
def Fld.portMeasVel : Field := ⟨40, 16⟩
/-- PORT_MEAS `valid` (R108). -/
def Fld.portMeasValid : Field := ⟨56, 1⟩
/-- PORT_MEAS (R108). -/
def RegD.portMeas : RegDesc := ⟨0x400400, 19, 0x10000, 8, 0x8,
  [⟨Fld.portMeasRtt, .ro, (.num 0), .none⟩,
   ⟨Fld.portMeasLengthDm, .ro, (.num 0), .none⟩,
   ⟨Fld.portMeasVel, .rw, (.num 5000), .none⟩,
   ⟨Fld.portMeasValid, .ro, (.num 0), .none⟩]⟩

/-- Address of LINK_CTRL (R146). -/
def Reg.linkCtrl (i : Nat) : Nat := 0x400500 + 0x10000 * i
/-- LINK_CTRL `expert` (R146). -/
def Fld.linkCtrlExpert : Field := ⟨0, 1⟩
/-- LINK_CTRL `grace_ms` (R146). -/
def Fld.linkCtrlGraceMs : Field := ⟨1, 7⟩
/-- LINK_CTRL `leak_en` (R146). -/
def Fld.linkCtrlLeakEn : Field := ⟨8, 1⟩
/-- LINK_CTRL `leak_pct` (R146). -/
def Fld.linkCtrlLeakPct : Field := ⟨9, 7⟩
/-- LINK_CTRL `ka_100ns` (R146). -/
def Fld.linkCtrlKa100ns : Field := ⟨16, 8⟩
/-- LINK_CTRL `down_us` (R146). -/
def Fld.linkCtrlDownUs : Field := ⟨24, 8⟩
/-- LINK_CTRL `idle_us` (R146). -/
def Fld.linkCtrlIdleUs : Field := ⟨32, 8⟩
/-- LINK_CTRL `force_ms` (R146). -/
def Fld.linkCtrlForceMs : Field := ⟨40, 8⟩
/-- LINK_CTRL (R146). -/
def RegD.linkCtrl : RegDesc := ⟨0x400500, 19, 0x10000, 1, 0x0,
  [⟨Fld.linkCtrlExpert, .rw, (.num 0), .none⟩,
   ⟨Fld.linkCtrlGraceMs, .rw, (.num 10), (.range 1 100)⟩,
   ⟨Fld.linkCtrlLeakEn, .rw, (.num 1), .none⟩,
   ⟨Fld.linkCtrlLeakPct, .rwx, (.num 25), .none⟩,
   ⟨Fld.linkCtrlKa100ns, .rwx, (.num 10), .none⟩,
   ⟨Fld.linkCtrlDownUs, .rwx, (.num 8), .none⟩,
   ⟨Fld.linkCtrlIdleUs, .rwx, (.num 10), .none⟩,
   ⟨Fld.linkCtrlForceMs, .rwx, (.num 100), .none⟩]⟩

/-- Address of LINK_STAT (R147). -/
def Reg.linkStat (i : Nat) (j : Nat) : Nat := 0x400600 + 0x10000 * i + 0x8 * j
/-- LINK_STAT `lstate` (R147). -/
def Fld.linkStatLstate : Field := ⟨0, 2⟩
/-- LINK_STAT `leak_pending` (R147). -/
def Fld.linkStatLeakPending : Field := ⟨2, 1⟩
/-- LINK_STAT `loss_pct` (R147). -/
def Fld.linkStatLossPct : Field := ⟨3, 7⟩
/-- LINK_STAT `window` (R147). -/
def Fld.linkStatWindow : Field := ⟨10, 16⟩
/-- LINK_STAT `replay_use` (R147). -/
def Fld.linkStatReplayUse : Field := ⟨26, 10⟩
/-- LINK_STAT `reorder_use` (R147). -/
def Fld.linkStatReorderUse : Field := ⟨36, 7⟩
/-- LINK_STAT (R147). -/
def RegD.linkStat : RegDesc := ⟨0x400600, 19, 0x10000, 8, 0x8,
  [⟨Fld.linkStatLstate, .ro, (.num 0), .none⟩,
   ⟨Fld.linkStatLeakPending, .ro, (.num 0), .none⟩,
   ⟨Fld.linkStatLossPct, .ro, (.num 0), .none⟩,
   ⟨Fld.linkStatWindow, .ro, (.num 0), .none⟩,
   ⟨Fld.linkStatReplayUse, .ro, (.num 0), .none⟩,
   ⟨Fld.linkStatReorderUse, .ro, (.num 0), .none⟩]⟩

/-- Address of LINK_CRED (R148). -/
def Reg.linkCred (i : Nat) (j : Nat) : Nat := 0x400700 + 0x10000 * i + 0x8 * j
/-- LINK_CRED `cap` (R148). -/
def Fld.linkCredCap : Field := ⟨0, 16⟩
/-- LINK_CRED `shared_free` (R148). -/
def Fld.linkCredSharedFree : Field := ⟨16, 16⟩
/-- LINK_CRED `held` (R148). -/
def Fld.linkCredHeld : Field := ⟨32, 24⟩
/-- LINK_CRED (R148). -/
def RegD.linkCred : RegDesc := ⟨0x400700, 19, 0x10000, 8, 0x8,
  [⟨Fld.linkCredCap, .ro, (.num 0), .none⟩,
   ⟨Fld.linkCredSharedFree, .ro, (.num 0), .none⟩,
   ⟨Fld.linkCredHeld, .ro, (.num 0), .none⟩]⟩

/-- Address of LANE_STAT (R109). -/
def Reg.laneStat (i : Nat) (j : Nat) : Nat := 0x401000 + 0x10000 * i + 0x40 * j
/-- LANE_STAT `sig` (R109). -/
def Fld.laneStatSig : Field := ⟨0, 1⟩
/-- LANE_STAT `cdr_lock` (R109). -/
def Fld.laneStatCdrLock : Field := ⟨1, 1⟩
/-- LANE_STAT `am_lock` (R109). -/
def Fld.laneStatAmLock : Field := ⟨2, 1⟩
/-- LANE_STAT `in_use` (R109). -/
def Fld.laneStatInUse : Field := ⟨3, 1⟩
/-- LANE_STAT `retired` (R109). -/
def Fld.laneStatRetired : Field := ⟨4, 1⟩
/-- LANE_STAT `loss_db` (R109). -/
def Fld.laneStatLossDb : Field := ⟨8, 8⟩
/-- LANE_STAT `refl_cm` (R109). -/
def Fld.laneStatReflCm : Field := ⟨16, 12⟩
/-- LANE_STAT `refl_db` (R109). -/
def Fld.laneStatReflDb : Field := ⟨28, 8⟩
/-- LANE_STAT `margin` (R109). -/
def Fld.laneStatMargin : Field := ⟨36, 12⟩
/-- LANE_STAT `load` (R109). -/
def Fld.laneStatLoad : Field := ⟨48, 8⟩
/-- LANE_STAT `snap_load` (R109). -/
def Fld.laneStatSnapLoad : Field := ⟨56, 8⟩
/-- LANE_STAT (R109). -/
def RegD.laneStat : RegDesc := ⟨0x401000, 19, 0x10000, 16, 0x40,
  [⟨Fld.laneStatSig, .ro, (.num 0), .none⟩,
   ⟨Fld.laneStatCdrLock, .ro, (.num 0), .none⟩,
   ⟨Fld.laneStatAmLock, .ro, (.num 0), .none⟩,
   ⟨Fld.laneStatInUse, .ro, (.num 0), .none⟩,
   ⟨Fld.laneStatRetired, .ro, (.num 0), .none⟩,
   ⟨Fld.laneStatLossDb, .ro, (.num 0), .none⟩,
   ⟨Fld.laneStatReflCm, .ro, (.num 0), .none⟩,
   ⟨Fld.laneStatReflDb, .ro, (.num 0), .none⟩,
   ⟨Fld.laneStatMargin, .ro, (.num 0), .none⟩,
   ⟨Fld.laneStatLoad, .ro, (.num 0), .none⟩,
   ⟨Fld.laneStatSnapLoad, .ro, (.num 0), .none⟩]⟩

/-- Address of LANE_ERR (R110). -/
def Reg.laneErr (i : Nat) (j : Nat) : Nat := 0x401008 + 0x10000 * i + 0x40 * j
/-- LANE_ERR `corr_sym` (R110). -/
def Fld.laneErrCorrSym : Field := ⟨0, 32⟩
/-- LANE_ERR `uncorr_cw` (R110). -/
def Fld.laneErrUncorrCw : Field := ⟨32, 16⟩
/-- LANE_ERR `ctl_bad` (R110). -/
def Fld.laneErrCtlBad : Field := ⟨48, 8⟩
/-- LANE_ERR `am_loss` (R110). -/
def Fld.laneErrAmLoss : Field := ⟨56, 8⟩
/-- LANE_ERR (R110). -/
def RegD.laneErr : RegDesc := ⟨0x401008, 19, 0x10000, 16, 0x40,
  [⟨Fld.laneErrCorrSym, .rw, (.num 0), .none⟩,
   ⟨Fld.laneErrUncorrCw, .rw, (.num 0), .none⟩,
   ⟨Fld.laneErrCtlBad, .rw, (.num 0), .none⟩,
   ⟨Fld.laneErrAmLoss, .rw, (.num 0), .none⟩]⟩

/-- Address of LANE_EXP (R111). -/
def Reg.laneExp (i : Nat) (j : Nat) : Nat := 0x401010 + 0x10000 * i + 0x40 * j
/-- LANE_EXP `slip` (R111). -/
def Fld.laneExpSlip : Field := ⟨0, 12⟩
/-- LANE_EXP `tx_pre` (R111). -/
def Fld.laneExpTxPre : Field := ⟨12, 6⟩
/-- LANE_EXP `tx_main` (R111). -/
def Fld.laneExpTxMain : Field := ⟨18, 6⟩
/-- LANE_EXP `tx_post` (R111). -/
def Fld.laneExpTxPost : Field := ⟨24, 6⟩
/-- LANE_EXP `adapt_freeze` (R111). -/
def Fld.laneExpAdaptFreeze : Field := ⟨30, 1⟩
/-- LANE_EXP (R111). -/
def RegD.laneExp : RegDesc := ⟨0x401010, 19, 0x10000, 16, 0x40,
  [⟨Fld.laneExpSlip, .rwx, (.num 0), .none⟩,
   ⟨Fld.laneExpTxPre, .rwx, (.num 0), .none⟩,
   ⟨Fld.laneExpTxMain, .rwx, (.num 0), .none⟩,
   ⟨Fld.laneExpTxPost, .rwx, (.num 0), .none⟩,
   ⟨Fld.laneExpAdaptFreeze, .rwx, (.num 0), .none⟩]⟩

/-- Address of LINK_ERR (R149). -/
def Reg.linkErr (i : Nat) (j : Nat) : Nat := 0x402000 + 0x10000 * i + 0x10 * j
/-- LINK_ERR `frame_bad` (R149). -/
def Fld.linkErrFrameBad : Field := ⟨0, 24⟩
/-- LINK_ERR `nak_tx` (R149). -/
def Fld.linkErrNakTx : Field := ⟨24, 16⟩
/-- LINK_ERR `replay_tx` (R149). -/
def Fld.linkErrReplayTx : Field := ⟨40, 8⟩
/-- LINK_ERR `leak_retrain` (R149). -/
def Fld.linkErrLeakRetrain : Field := ⟨48, 8⟩
/-- LINK_ERR `down_count` (R149). -/
def Fld.linkErrDownCount : Field := ⟨56, 8⟩
/-- LINK_ERR (R149). -/
def RegD.linkErr : RegDesc := ⟨0x402000, 19, 0x10000, 8, 0x10,
  [⟨Fld.linkErrFrameBad, .rw, (.num 0), .none⟩,
   ⟨Fld.linkErrNakTx, .rw, (.num 0), .none⟩,
   ⟨Fld.linkErrReplayTx, .rw, (.num 0), .none⟩,
   ⟨Fld.linkErrLeakRetrain, .rw, (.num 0), .none⟩,
   ⟨Fld.linkErrDownCount, .rw, (.num 0), .none⟩]⟩

/-- Address of LINK_ERR2 (R150). -/
def Reg.linkErr2 (i : Nat) (j : Nat) : Nat := 0x402008 + 0x10000 * i + 0x10 * j
/-- LINK_ERR2 `retx_frames` (R150). -/
def Fld.linkErr2RetxFrames : Field := ⟨0, 32⟩
/-- LINK_ERR2 `flushed` (R150). -/
def Fld.linkErr2Flushed : Field := ⟨32, 32⟩
/-- LINK_ERR2 (R150). -/
def RegD.linkErr2 : RegDesc := ⟨0x402008, 19, 0x10000, 8, 0x10,
  [⟨Fld.linkErr2RetxFrames, .rw, (.num 0), .none⟩,
   ⟨Fld.linkErr2Flushed, .rw, (.num 0), .none⟩]⟩

/-- Address of ROUTE_CTRL (R216). -/
def Reg.routeCtrl : Nat := 0x600000
/-- ROUTE_CTRL `expert` (R216). -/
def Fld.routeCtrlExpert : Field := ⟨0, 1⟩
/-- ROUTE_CTRL `nonmin_en` (R216). -/
def Fld.routeCtrlNonminEn : Field := ⟨1, 1⟩
/-- ROUTE_CTRL `beacon_period` (R216). -/
def Fld.routeCtrlBeaconPeriod : Field := ⟨4, 8⟩
/-- ROUTE_CTRL `nm_samples` (R216). -/
def Fld.routeCtrlNmSamples : Field := ⟨12, 4⟩
/-- ROUTE_CTRL `nm_bias` (R216). -/
def Fld.routeCtrlNmBias : Field := ⟨16, 8⟩
/-- ROUTE_CTRL `unk_lvl` (R216). -/
def Fld.routeCtrlUnkLvl : Field := ⟨24, 4⟩
/-- ROUTE_CTRL `max_hops` (R216). -/
def Fld.routeCtrlMaxHops : Field := ⟨28, 4⟩
/-- ROUTE_CTRL (R216). -/
def RegD.routeCtrl : RegDesc := ⟨0x600000, 1, 0x0, 1, 0x0,
  [⟨Fld.routeCtrlExpert, .rw, (.num 0), .none⟩,
   ⟨Fld.routeCtrlNonminEn, .rw, (.num 1), .none⟩,
   ⟨Fld.routeCtrlBeaconPeriod, .rwx, (.num 8), (.range 2 128)⟩,
   ⟨Fld.routeCtrlNmSamples, .rwx, (.num 2), (.range 1 4)⟩,
   ⟨Fld.routeCtrlNmBias, .rwx, (.num 4), .none⟩,
   ⟨Fld.routeCtrlUnkLvl, .rwx, (.num 4), .none⟩,
   ⟨Fld.routeCtrlMaxHops, .ro, (.num 0), .none⟩]⟩

/-- Address of ROUTE_BANK (R217). -/
def Reg.routeBank : Nat := 0x600008
/-- ROUTE_BANK `active` (R217). -/
def Fld.routeBankActive : Field := ⟨0, 1⟩
/-- ROUTE_BANK `commit` (R217). -/
def Fld.routeBankCommit : Field := ⟨1, 1⟩
/-- ROUTE_BANK `copy` (R217). -/
def Fld.routeBankCopy : Field := ⟨2, 1⟩
/-- ROUTE_BANK `commit_err` (R217). -/
def Fld.routeBankCommitErr : Field := ⟨3, 1⟩
/-- ROUTE_BANK `busy` (R217). -/
def Fld.routeBankBusy : Field := ⟨4, 1⟩
/-- ROUTE_BANK `shadow_epoch` (R217). -/
def Fld.routeBankShadowEpoch : Field := ⟨32, 32⟩
/-- ROUTE_BANK (R217). -/
def RegD.routeBank : RegDesc := ⟨0x600008, 1, 0x0, 1, 0x0,
  [⟨Fld.routeBankActive, .ro, (.num 0), .none⟩,
   ⟨Fld.routeBankCommit, .w1s, (.num 0), .none⟩,
   ⟨Fld.routeBankCopy, .w1s, (.num 0), .none⟩,
   ⟨Fld.routeBankCommitErr, .w1c, (.num 0), .none⟩,
   ⟨Fld.routeBankBusy, .ro, (.num 0), .none⟩,
   ⟨Fld.routeBankShadowEpoch, .rw, (.num 0), .none⟩]⟩

/-- Address of ROUTE_EPOCH (R218). -/
def Reg.routeEpoch : Nat := 0x600010
/-- ROUTE_EPOCH `cur_epoch` (R218). -/
def Fld.routeEpochCurEpoch : Field := ⟨0, 32⟩
/-- ROUTE_EPOCH (R218). -/
def RegD.routeEpoch : RegDesc := ⟨0x600010, 1, 0x0, 1, 0x0,
  [⟨Fld.routeEpochCurEpoch, .ro, (.num 0), .none⟩]⟩

/-- Address of ROUTE_STAT (R218). -/
def Reg.routeStat : Nat := 0x600018
/-- ROUTE_STAT `nonmin_taken` (R218). -/
def Fld.routeStatNonminTaken : Field := ⟨0, 24⟩
/-- ROUTE_STAT `no_route` (R218). -/
def Fld.routeStatNoRoute : Field := ⟨24, 16⟩
/-- ROUTE_STAT `hop_limit` (R218). -/
def Fld.routeStatHopLimit : Field := ⟨40, 16⟩
/-- ROUTE_STAT `commit_refused` (R218). -/
def Fld.routeStatCommitRefused : Field := ⟨56, 8⟩
/-- ROUTE_STAT (R218). -/
def RegD.routeStat : RegDesc := ⟨0x600018, 1, 0x0, 1, 0x0,
  [⟨Fld.routeStatNonminTaken, .rw, (.num 0), .none⟩,
   ⟨Fld.routeStatNoRoute, .rw, (.num 0), .none⟩,
   ⟨Fld.routeStatHopLimit, .rw, (.num 0), .none⟩,
   ⟨Fld.routeStatCommitRefused, .rw, (.num 0), .none⟩]⟩

/-- Address of DISC_CMD (R219). -/
def Reg.discCmd : Nat := 0x600100
/-- DISC_CMD `epoch` (R219). -/
def Fld.discCmdEpoch : Field := ⟨0, 32⟩
/-- DISC_CMD `path_len` (R219). -/
def Fld.discCmdPathLen : Field := ⟨32, 4⟩
/-- DISC_CMD `go` (R219). -/
def Fld.discCmdGo : Field := ⟨36, 1⟩
/-- DISC_CMD `busy` (R219). -/
def Fld.discCmdBusy : Field := ⟨37, 1⟩
/-- DISC_CMD `status` (R219). -/
def Fld.discCmdStatus : Field := ⟨38, 4⟩
/-- DISC_CMD (R219). -/
def RegD.discCmd : RegDesc := ⟨0x600100, 1, 0x0, 1, 0x0,
  [⟨Fld.discCmdEpoch, .rw, (.num 0), .none⟩,
   ⟨Fld.discCmdPathLen, .rw, (.num 0), .none⟩,
   ⟨Fld.discCmdGo, .w1s, (.num 0), .none⟩,
   ⟨Fld.discCmdBusy, .ro, (.num 0), .none⟩,
   ⟨Fld.discCmdStatus, .ro, (.num 0), .none⟩]⟩

/-- Address of DISC_PATH (R219). -/
def Reg.discPath : Nat := 0x600108
/-- DISC_PATH `path` (R219). -/
def Fld.discPathPath : Field := ⟨0, 64⟩
/-- DISC_PATH (R219). -/
def RegD.discPath : RegDesc := ⟨0x600108, 1, 0x0, 1, 0x0,
  [⟨Fld.discPathPath, .rw, (.num 0), .none⟩]⟩

/-- Address of PORT_CHG (R220). -/
def Reg.portChg (i : Nat) : Nat := 0x601000 + 0x8 * i
/-- PORT_CHG `chg_epoch` (R220). -/
def Fld.portChgChgEpoch : Field := ⟨0, 32⟩
/-- PORT_CHG `changed` (R220). -/
def Fld.portChgChanged : Field := ⟨32, 1⟩
/-- PORT_CHG `attached` (R220). -/
def Fld.portChgAttached : Field := ⟨33, 1⟩
/-- PORT_CHG (R220). -/
def RegD.portChg : RegDesc := ⟨0x601000, 144, 0x8, 1, 0x0,
  [⟨Fld.portChgChgEpoch, .ro, (.num 0), .none⟩,
   ⟨Fld.portChgChanged, .w1c, (.num 0), .none⟩,
   ⟨Fld.portChgAttached, .ro, (.num 0), .none⟩]⟩

/-- Address of PEER_MAP (R221). -/
def Reg.peerMap (i : Nat) : Nat := 0x602000 + 0x8 * i
/-- PEER_MAP `ports` (R221). -/
def Fld.peerMapPorts : Field := ⟨0, 32⟩
/-- PEER_MAP `count` (R221). -/
def Fld.peerMapCount : Field := ⟨32, 3⟩
/-- PEER_MAP `level` (R221). -/
def Fld.peerMapLevel : Field := ⟨36, 4⟩
/-- PEER_MAP `bseq` (R221). -/
def Fld.peerMapBseq : Field := ⟨40, 8⟩
/-- PEER_MAP `stale` (R221). -/
def Fld.peerMapStale : Field := ⟨48, 1⟩
/-- PEER_MAP (R221). -/
def RegD.peerMap : RegDesc := ⟨0x602000, 32, 0x8, 1, 0x0,
  [⟨Fld.peerMapPorts, .ro, (.num 0xFFFFFFFF), .none⟩,
   ⟨Fld.peerMapCount, .ro, (.num 0), .none⟩,
   ⟨Fld.peerMapLevel, .ro, (.num 15), .none⟩,
   ⟨Fld.peerMapBseq, .ro, (.num 0), .none⟩,
   ⟨Fld.peerMapStale, .ro, (.num 1), .none⟩]⟩

/-- Address of DISC_ANS (R219). -/
def Reg.discAns (i : Nat) : Nat := 0x604000 + 0x8 * i
/-- DISC_ANS `data` (R219). -/
def Fld.discAnsData : Field := ⟨0, 64⟩
/-- DISC_ANS (R219). -/
def RegD.discAns : RegDesc := ⟨0x604000, 152, 0x8, 1, 0x0,
  [⟨Fld.discAnsData, .ro, (.num 0), .none⟩]⟩

/-- Address of XPORT_CTRL (R251). -/
def Reg.xportCtrl : Nat := 0x800000
/-- XPORT_CTRL `expert` (R251). -/
def Fld.xportCtrlExpert : Field := ⟨0, 1⟩
/-- XPORT_CTRL `init_win` (R251). -/
def Fld.xportCtrlInitWin : Field := ⟨1, 9⟩
/-- XPORT_CTRL `max_win` (R251). -/
def Fld.xportCtrlMaxWin : Field := ⟨10, 9⟩
/-- XPORT_CTRL `win_step` (R251). -/
def Fld.xportCtrlWinStep : Field := ⟨19, 3⟩
/-- XPORT_CTRL `win_period` (R251). -/
def Fld.xportCtrlWinPeriod : Field := ⟨22, 8⟩
/-- XPORT_CTRL `hi_mark` (R251). -/
def Fld.xportCtrlHiMark : Field := ⟨30, 7⟩
/-- XPORT_CTRL `lo_mark` (R251). -/
def Fld.xportCtrlLoMark : Field := ⟨37, 7⟩
/-- XPORT_CTRL `retry_us` (R251). -/
def Fld.xportCtrlRetryUs : Field := ⟨44, 16⟩
/-- XPORT_CTRL `retry_max` (R251). -/
def Fld.xportCtrlRetryMax : Field := ⟨60, 4⟩
/-- XPORT_CTRL (R251). -/
def RegD.xportCtrl : RegDesc := ⟨0x800000, 1, 0x0, 1, 0x0,
  [⟨Fld.xportCtrlExpert, .rw, (.num 0), .none⟩,
   ⟨Fld.xportCtrlInitWin, .rw, (.num 16), (.range 1 256)⟩,
   ⟨Fld.xportCtrlMaxWin, .rwx, (.num 256), .none⟩,
   ⟨Fld.xportCtrlWinStep, .rwx, (.num 4), (.atLeast 1)⟩,
   ⟨Fld.xportCtrlWinPeriod, .rwx, (.num 10), .none⟩,
   ⟨Fld.xportCtrlHiMark, .rwx, (.num 75), .none⟩,
   ⟨Fld.xportCtrlLoMark, .rwx, (.num 25), .none⟩,
   ⟨Fld.xportCtrlRetryUs, .rw, (.num 1000), (.atLeast 10)⟩,
   ⟨Fld.xportCtrlRetryMax, .rw, (.num 8), (.atLeast 1)⟩]⟩

/-- Address of XPORT_CTRL2 (R252). -/
def Reg.xportCtrl2 : Nat := 0x800008
/-- XPORT_CTRL2 `nack_us` (R252). -/
def Fld.xportCtrl2NackUs : Field := ⟨0, 8⟩
/-- XPORT_CTRL2 `ack_pkts` (R252). -/
def Fld.xportCtrl2AckPkts : Field := ⟨8, 8⟩
/-- XPORT_CTRL2 `ack_100ns` (R252). -/
def Fld.xportCtrl2Ack100ns : Field := ⟨16, 8⟩
/-- XPORT_CTRL2 `xfer_idle_ms` (R252). -/
def Fld.xportCtrl2XferIdleMs : Field := ⟨24, 8⟩
/-- XPORT_CTRL2 `idle_reset_ms` (R252). -/
def Fld.xportCtrl2IdleResetMs : Field := ⟨32, 8⟩
/-- XPORT_CTRL2 (R252). -/
def RegD.xportCtrl2 : RegDesc := ⟨0x800008, 1, 0x0, 1, 0x0,
  [⟨Fld.xportCtrl2NackUs, .rwx, (.num 10), .none⟩,
   ⟨Fld.xportCtrl2AckPkts, .rwx, (.num 8), .none⟩,
   ⟨Fld.xportCtrl2Ack100ns, .rwx, (.num 20), .none⟩,
   ⟨Fld.xportCtrl2XferIdleMs, .rwx, (.num 16), .none⟩,
   ⟨Fld.xportCtrl2IdleResetMs, .rwx, (.num 1), .none⟩]⟩

/-- Address of XPORT_INC (R253). -/
def Reg.xportInc : Nat := 0x800010
/-- XPORT_INC `inc` (R253). -/
def Fld.xportIncInc : Field := ⟨0, 16⟩
/-- XPORT_INC (R253). -/
def RegD.xportInc : RegDesc := ⟨0x800010, 1, 0x0, 1, 0x0,
  [⟨Fld.xportIncInc, .ro, (.num 0), .none⟩]⟩

/-- Address of XPORT_STAT (R253). -/
def Reg.xportStat : Nat := 0x800018
/-- XPORT_STAT `retx` (R253). -/
def Fld.xportStatRetx : Field := ⟨0, 32⟩
/-- XPORT_STAT `dup` (R253). -/
def Fld.xportStatDup : Field := ⟨32, 16⟩
/-- XPORT_STAT `nack_rx` (R253). -/
def Fld.xportStatNackRx : Field := ⟨48, 16⟩
/-- XPORT_STAT (R253). -/
def RegD.xportStat : RegDesc := ⟨0x800018, 1, 0x0, 1, 0x0,
  [⟨Fld.xportStatRetx, .rw, (.num 0), .none⟩,
   ⟨Fld.xportStatDup, .rw, (.num 0), .none⟩,
   ⟨Fld.xportStatNackRx, .rw, (.num 0), .none⟩]⟩

/-- Address of XPORT_STAT2 (R253). -/
def Reg.xportStat2 : Nat := 0x800020
/-- XPORT_STAT2 `cache_miss` (R253). -/
def Fld.xportStat2CacheMiss : Field := ⟨0, 32⟩
/-- XPORT_STAT2 `xfer_full` (R253). -/
def Fld.xportStat2XferFull : Field := ⟨32, 16⟩
/-- XPORT_STAT2 `sync_tx` (R253). -/
def Fld.xportStat2SyncTx : Field := ⟨48, 16⟩
/-- XPORT_STAT2 (R253). -/
def RegD.xportStat2 : RegDesc := ⟨0x800020, 1, 0x0, 1, 0x0,
  [⟨Fld.xportStat2CacheMiss, .rw, (.num 0), .none⟩,
   ⟨Fld.xportStat2XferFull, .rw, (.num 0), .none⟩,
   ⟨Fld.xportStat2SyncTx, .rw, (.num 0), .none⟩]⟩

/-- Address of XPORT_STAT3 (R253). -/
def Reg.xportStat3 : Nat := 0x800028
/-- XPORT_STAT3 `peer_fail` (R253). -/
def Fld.xportStat3PeerFail : Field := ⟨0, 16⟩
/-- XPORT_STAT3 `seq_oor` (R253). -/
def Fld.xportStat3SeqOor : Field := ⟨16, 16⟩
/-- XPORT_STAT3 `crc_e2e` (R253). -/
def Fld.xportStat3CrcE2e : Field := ⟨32, 16⟩
/-- XPORT_STAT3 `cache_full` (R253). -/
def Fld.xportStat3CacheFull : Field := ⟨48, 16⟩
/-- XPORT_STAT3 (R253). -/
def RegD.xportStat3 : RegDesc := ⟨0x800028, 1, 0x0, 1, 0x0,
  [⟨Fld.xportStat3PeerFail, .rw, (.num 0), .none⟩,
   ⟨Fld.xportStat3SeqOor, .rw, (.num 0), .none⟩,
   ⟨Fld.xportStat3CrcE2e, .rw, (.num 0), .none⟩,
   ⟨Fld.xportStat3CacheFull, .rw, (.num 0), .none⟩]⟩

/-- Address of RAE_CTRL (R384). -/
def Reg.raeCtrl (i : Nat) : Nat := 0x900000 + 0x8000 * i
/-- RAE_CTRL `expert` (R384). -/
def Fld.raeCtrlExpert : Field := ⟨0, 1⟩
/-- RAE_CTRL `max_ops` (R384). -/
def Fld.raeCtrlMaxOps : Field := ⟨1, 11⟩
/-- RAE_CTRL `prefetch` (R384). -/
def Fld.raeCtrlPrefetch : Field := ⟨12, 4⟩
/-- RAE_CTRL (R384). -/
def RegD.raeCtrl : RegDesc := ⟨0x900000, 17, 0x8000, 1, 0x0,
  [⟨Fld.raeCtrlExpert, .rw, (.num 0), .none⟩,
   ⟨Fld.raeCtrlMaxOps, .rwx, (.num 1024), (.range 1 1024)⟩,
   ⟨Fld.raeCtrlPrefetch, .rwx, (.num 4), (.atLeast 1)⟩]⟩

/-- Address of RAE_STAT (R385). -/
def Reg.raeStat (i : Nat) : Nat := 0x900008 + 0x8000 * i
/-- RAE_STAT `ops` (R385). -/
def Fld.raeStatOps : Field := ⟨0, 11⟩
/-- RAE_STAT `rsp_held` (R385). -/
def Fld.raeStatRspHeld : Field := ⟨11, 11⟩
/-- RAE_STAT `held_final` (R385). -/
def Fld.raeStatHeldFinal : Field := ⟨22, 10⟩
/-- RAE_STAT (R385). -/
def RegD.raeStat : RegDesc := ⟨0x900008, 17, 0x8000, 1, 0x0,
  [⟨Fld.raeStatOps, .ro, (.num 0), .none⟩,
   ⟨Fld.raeStatRspHeld, .ro, (.num 0), .none⟩,
   ⟨Fld.raeStatHeldFinal, .ro, (.num 0), .none⟩]⟩

/-- Address of RAE_CNT0 (R386). -/
def Reg.raeCnt0 (i : Nat) : Nat := 0x900010 + 0x8000 * i
/-- RAE_CNT0 `puts` (R386). -/
def Fld.raeCnt0Puts : Field := ⟨0, 32⟩
/-- RAE_CNT0 `gets` (R386). -/
def Fld.raeCnt0Gets : Field := ⟨32, 32⟩
/-- RAE_CNT0 (R386). -/
def RegD.raeCnt0 : RegDesc := ⟨0x900010, 17, 0x8000, 1, 0x0,
  [⟨Fld.raeCnt0Puts, .rw, (.num 0), .none⟩,
   ⟨Fld.raeCnt0Gets, .rw, (.num 0), .none⟩]⟩

/-- Address of RAE_CNT1 (R386). -/
def Reg.raeCnt1 (i : Nat) : Nat := 0x900018 + 0x8000 * i
/-- RAE_CNT1 `atomics` (R386). -/
def Fld.raeCnt1Atomics : Field := ⟨0, 32⟩
/-- RAE_CNT1 `stray` (R386). -/
def Fld.raeCnt1Stray : Field := ⟨32, 16⟩
/-- RAE_CNT1 `final_drop` (R386). -/
def Fld.raeCnt1FinalDrop : Field := ⟨48, 16⟩
/-- RAE_CNT1 (R386). -/
def RegD.raeCnt1 : RegDesc := ⟨0x900018, 17, 0x8000, 1, 0x0,
  [⟨Fld.raeCnt1Atomics, .rw, (.num 0), .none⟩,
   ⟨Fld.raeCnt1Stray, .rw, (.num 0), .none⟩,
   ⟨Fld.raeCnt1FinalDrop, .rw, (.num 0), .none⟩]⟩

/-- Address of HOST_CTRL (R290). -/
def Reg.hostCtrl (i : Nat) : Nat := 0xa00000 + 0x10000 * i
/-- HOST_CTRL `expert` (R290). -/
def Fld.hostCtrlExpert : Field := ⟨0, 1⟩
/-- HOST_CTRL `pf_events` (R290). -/
def Fld.hostCtrlPfEvents : Field := ⟨1, 1⟩
/-- HOST_CTRL `mgr_en` (R290). -/
def Fld.hostCtrlMgrEn : Field := ⟨2, 1⟩
/-- HOST_CTRL `hgrace_ms` (R290). -/
def Fld.hostCtrlHgraceMs : Field := ⟨3, 7⟩
/-- HOST_CTRL `atomic_avail` (R290). -/
def Fld.hostCtrlAtomicAvail : Field := ⟨10, 1⟩
/-- HOST_CTRL `atomic_retry` (R290). -/
def Fld.hostCtrlAtomicRetry : Field := ⟨11, 1⟩
/-- HOST_CTRL `rd_max` (R290). -/
def Fld.hostCtrlRdMax : Field := ⟨12, 14⟩
/-- HOST_CTRL `lock` (R290). -/
def Fld.hostCtrlLock : Field := ⟨26, 1⟩
/-- HOST_CTRL (R290). -/
def RegD.hostCtrl : RegDesc := ⟨0xa00000, 4, 0x10000, 1, 0x0,
  [⟨Fld.hostCtrlExpert, .rwl, (.num 0), .none⟩,
   ⟨Fld.hostCtrlPfEvents, .rwl, .link0, .none⟩,
   ⟨Fld.hostCtrlMgrEn, .rwl, (.num 1), .none⟩,
   ⟨Fld.hostCtrlHgraceMs, .rw, (.num 10), (.range 1 100)⟩,
   ⟨Fld.hostCtrlAtomicAvail, .ro, (.num 1), .none⟩,
   ⟨Fld.hostCtrlAtomicRetry, .w1s, (.num 0), .none⟩,
   ⟨Fld.hostCtrlRdMax, .rwx, (.num 0), .none⟩,
   ⟨Fld.hostCtrlLock, .lock, (.num 0), .none⟩]⟩

/-- Address of HOST_STAT (R291). -/
def Reg.hostStat (i : Nat) : Nat := 0xa00008 + 0x10000 * i
/-- HOST_STAT `link_up` (R291). -/
def Fld.hostStatLinkUp : Field := ⟨0, 1⟩
/-- HOST_STAT `speed` (R291). -/
def Fld.hostStatSpeed : Field := ⟨1, 3⟩
/-- HOST_STAT `width` (R291). -/
def Fld.hostStatWidth : Field := ⟨4, 5⟩
/-- HOST_STAT `flit` (R291). -/
def Fld.hostStatFlit : Field := ⟨9, 1⟩
/-- HOST_STAT `d3hot` (R291). -/
def Fld.hostStatD3hot : Field := ⟨10, 1⟩
/-- HOST_STAT `vf_enable` (R291). -/
def Fld.hostStatVfEnable : Field := ⟨11, 1⟩
/-- HOST_STAT `num_vfs` (R291). -/
def Fld.hostStatNumVfs : Field := ⟨12, 13⟩
/-- HOST_STAT `held` (R291). -/
def Fld.hostStatHeld : Field := ⟨25, 24⟩
/-- HOST_STAT (R291). -/
def RegD.hostStat : RegDesc := ⟨0xa00008, 4, 0x10000, 1, 0x0,
  [⟨Fld.hostStatLinkUp, .ro, (.num 0), .none⟩,
   ⟨Fld.hostStatSpeed, .ro, (.num 0), .none⟩,
   ⟨Fld.hostStatWidth, .ro, (.num 0), .none⟩,
   ⟨Fld.hostStatFlit, .ro, (.num 0), .none⟩,
   ⟨Fld.hostStatD3hot, .ro, (.num 0), .none⟩,
   ⟨Fld.hostStatVfEnable, .ro, (.num 0), .none⟩,
   ⟨Fld.hostStatNumVfs, .ro, (.num 0), .none⟩,
   ⟨Fld.hostStatHeld, .ro, (.num 0), .none⟩]⟩

/-- Address of DMEM_MAP (R292). -/
def Reg.dmemMap (i : Nat) : Nat := 0xa00010 + 0x10000 * i
/-- DMEM_MAP `base_gib` (R292). -/
def Fld.dmemMapBaseGib : Field := ⟨0, 7⟩
/-- DMEM_MAP (R292). -/
def RegD.dmemMap : RegDesc := ⟨0xa00010, 4, 0x10000, 1, 0x0,
  [⟨Fld.dmemMapBaseGib, .rw, (.num 0), (.atMost 95)⟩]⟩

/-- Address of HOST_ERR (R293). -/
def Reg.hostErr (i : Nat) : Nat := 0xa00018 + 0x10000 * i
/-- HOST_ERR `link_loss` (R293). -/
def Fld.hostErrLinkLoss : Field := ⟨0, 16⟩
/-- HOST_ERR `dma_fail` (R293). -/
def Fld.hostErrDmaFail : Field := ⟨16, 16⟩
/-- HOST_ERR `mmio_bad` (R293). -/
def Fld.hostErrMmioBad : Field := ⟨32, 16⟩
/-- HOST_ERR `atomic_ur` (R293). -/
def Fld.hostErrAtomicUr : Field := ⟨48, 8⟩
/-- HOST_ERR `flr` (R293). -/
def Fld.hostErrFlr : Field := ⟨56, 8⟩
/-- HOST_ERR (R293). -/
def RegD.hostErr : RegDesc := ⟨0xa00018, 4, 0x10000, 1, 0x0,
  [⟨Fld.hostErrLinkLoss, .rw, (.num 0), .none⟩,
   ⟨Fld.hostErrDmaFail, .rw, (.num 0), .none⟩,
   ⟨Fld.hostErrMmioBad, .rw, (.num 0), .none⟩,
   ⟨Fld.hostErrAtomicUr, .rw, (.num 0), .none⟩,
   ⟨Fld.hostErrFlr, .rw, (.num 0), .none⟩]⟩

/-- Address of EVENTS (R294). -/
def Reg.events (i : Nat) : Nat := 0xa00020 + 0x10000 * i
/-- EVENTS `ev_lo` (R294). -/
def Fld.eventsEvLo : Field := ⟨0, 7⟩
/-- EVENTS `ev_fault` (R294). -/
def Fld.eventsEvFault : Field := ⟨16, 1⟩
/-- EVENTS `ev_sage` (R294). -/
def Fld.eventsEvSage : Field := ⟨18, 1⟩
/-- EVENTS `ev_samp` (R294). -/
def Fld.eventsEvSamp : Field := ⟨20, 1⟩
/-- EVENTS (R294). -/
def RegD.events : RegDesc := ⟨0xa00020, 4, 0x10000, 1, 0x0,
  [⟨Fld.eventsEvLo, .w1c, (.num 0), .none⟩,
   ⟨Fld.eventsEvFault, .w1c, (.num 0), .none⟩,
   ⟨Fld.eventsEvSage, .w1c, (.num 0), .none⟩,
   ⟨Fld.eventsEvSamp, .w1c, (.num 0), .none⟩]⟩

/-- Address of EVT_MASK (R294). -/
def Reg.evtMask (i : Nat) : Nat := 0xa00028 + 0x10000 * i
/-- EVT_MASK `ev_mask_lo` (R294). -/
def Fld.evtMaskEvMaskLo : Field := ⟨0, 7⟩
/-- EVT_MASK `ev_mask_fault` (R294). -/
def Fld.evtMaskEvMaskFault : Field := ⟨16, 1⟩
/-- EVT_MASK `ev_mask_sage` (R294). -/
def Fld.evtMaskEvMaskSage : Field := ⟨18, 1⟩
/-- EVT_MASK `ev_mask_samp` (R294). -/
def Fld.evtMaskEvMaskSamp : Field := ⟨20, 1⟩
/-- EVT_MASK (R294). -/
def RegD.evtMask : RegDesc := ⟨0xa00028, 4, 0x10000, 1, 0x0,
  [⟨Fld.evtMaskEvMaskLo, .rw, (.num 0), .none⟩,
   ⟨Fld.evtMaskEvMaskFault, .rw, (.num 0), .none⟩,
   ⟨Fld.evtMaskEvMaskSage, .rw, (.num 0), .none⟩,
   ⟨Fld.evtMaskEvMaskSamp, .rw, (.num 0), .none⟩]⟩

/-- Address of PF_PBA (R274). -/
def Reg.pfPba (i : Nat) (j : Nat) : Nat := 0xa07000 + 0x10000 * i + 0x8 * j
/-- PF_PBA `pending` (R274). -/
def Fld.pfPbaPending : Field := ⟨0, 64⟩
/-- PF_PBA (R274). -/
def RegD.pfPba : RegDesc := ⟨0xa07000, 4, 0x10000, 32, 0x8,
  [⟨Fld.pfPbaPending, .ro, (.num 0), .none⟩]⟩

/-- Address of PF_MSIX_ADDR (R274). -/
def Reg.pfMsixAddr (i : Nat) (j : Nat) : Nat := 0xa08000 + 0x10000 * i + 0x10 * j
/-- PF_MSIX_ADDR `addr` (R274). -/
def Fld.pfMsixAddrAddr : Field := ⟨2, 62⟩
/-- PF_MSIX_ADDR (R274). -/
def RegD.pfMsixAddr : RegDesc := ⟨0xa08000, 4, 0x10000, 2048, 0x10,
  [⟨Fld.pfMsixAddrAddr, .rw, (.num 0), .none⟩]⟩

/-- Address of PF_MSIX_DATA (R274). -/
def Reg.pfMsixData (i : Nat) (j : Nat) : Nat := 0xa08008 + 0x10000 * i + 0x10 * j
/-- PF_MSIX_DATA `data` (R274). -/
def Fld.pfMsixDataData : Field := ⟨0, 32⟩
/-- PF_MSIX_DATA `mask` (R274). -/
def Fld.pfMsixDataMask : Field := ⟨32, 1⟩
/-- PF_MSIX_DATA (R274). -/
def RegD.pfMsixData : RegDesc := ⟨0xa08008, 4, 0x10000, 2048, 0x10,
  [⟨Fld.pfMsixDataData, .rw, (.num 0), .none⟩,
   ⟨Fld.pfMsixDataMask, .rw, (.num 1), .none⟩]⟩

/-- Address of INST_CMD (R328). -/
def Reg.instCmd (i : Nat) : Nat := 0xc00000 + 0x400 * i
/-- INST_CMD `op` (R328). -/
def Fld.instCmdOp : Field := ⟨0, 3⟩
/-- INST_CMD `busy` (R328). -/
def Fld.instCmdBusy : Field := ⟨3, 1⟩
/-- INST_CMD `done` (R328). -/
def Fld.instCmdDone : Field := ⟨4, 1⟩
/-- INST_CMD `err` (R328). -/
def Fld.instCmdErr : Field := ⟨8, 4⟩
/-- INST_CMD `err_pool` (R328). -/
def Fld.instCmdErrPool : Field := ⟨12, 4⟩
/-- INST_CMD (R328). -/
def RegD.instCmd : RegDesc := ⟨0xc00000, 4096, 0x400, 1, 0x0,
  [⟨Fld.instCmdOp, .rw, (.num 0), .none⟩,
   ⟨Fld.instCmdBusy, .ro, (.num 0), .none⟩,
   ⟨Fld.instCmdDone, .w1c, (.num 0), .none⟩,
   ⟨Fld.instCmdErr, .ro, (.num 0), .none⟩,
   ⟨Fld.instCmdErrPool, .ro, (.num 0), .none⟩]⟩

/-- Address of INST_STAT (R329). -/
def Reg.instStat (i : Nat) : Nat := 0xc00008 + 0x400 * i
/-- INST_STAT `state` (R329). -/
def Fld.instStatState : Field := ⟨0, 3⟩
/-- INST_STAT `lost_ops` (R329). -/
def Fld.instStatLostOps : Field := ⟨8, 24⟩
/-- INST_STAT `quiesce_fail` (R329). -/
def Fld.instStatQuiesceFail : Field := ⟨32, 24⟩
/-- INST_STAT (R329). -/
def RegD.instStat : RegDesc := ⟨0xc00008, 4096, 0x400, 1, 0x0,
  [⟨Fld.instStatState, .ro, (.num 0), .none⟩,
   ⟨Fld.instStatLostOps, .ro, (.num 0), .none⟩,
   ⟨Fld.instStatQuiesceFail, .ro, (.num 0), .none⟩]⟩

/-- Address of INST_CFG (R329). -/
def Reg.instCfg (i : Nat) : Nat := 0xc00010 + 0x400 * i
/-- INST_CFG `link` (R329). -/
def Fld.instCfgLink : Field := ⟨0, 2⟩
/-- INST_CFG `vf` (R329). -/
def Fld.instCfgVf : Field := ⟨2, 13⟩
/-- INST_CFG `hub` (R329). -/
def Fld.instCfgHub : Field := ⟨15, 2⟩
/-- INST_CFG `expert` (R329). -/
def Fld.instCfgExpert : Field := ⟨17, 1⟩
/-- INST_CFG `drain_ms` (R329). -/
def Fld.instCfgDrainMs : Field := ⟨18, 8⟩
/-- INST_CFG (R329). -/
def RegD.instCfg : RegDesc := ⟨0xc00010, 4096, 0x400, 1, 0x0,
  [⟨Fld.instCfgLink, .rw, (.num 0), .none⟩,
   ⟨Fld.instCfgVf, .rw, (.num 0), .none⟩,
   ⟨Fld.instCfgHub, .rw, (.num 0), .none⟩,
   ⟨Fld.instCfgExpert, .rw, (.num 0), .none⟩,
   ⟨Fld.instCfgDrainMs, .rw, (.num 20), (.atLeast 1)⟩]⟩

/-- Address of INST_ALLOC0 (R330). -/
def Reg.instAlloc0 (i : Nat) : Nat := 0xc00018 + 0x400 * i
/-- INST_ALLOC0 `sq` (R330). -/
def Fld.instAlloc0Sq : Field := ⟨0, 7⟩
/-- INST_ALLOC0 `cq` (R330). -/
def Fld.instAlloc0Cq : Field := ⟨7, 7⟩
/-- INST_ALLOC0 `vectors` (R330). -/
def Fld.instAlloc0Vectors : Field := ⟨14, 7⟩
/-- INST_ALLOC0 `ctx` (R330). -/
def Fld.instAlloc0Ctx : Field := ⟨21, 13⟩
/-- INST_ALLOC0 `peer_quota` (R330). -/
def Fld.instAlloc0PeerQuota : Field := ⟨34, 14⟩
/-- INST_ALLOC0 `hslots` (R330). -/
def Fld.instAlloc0Hslots : Field := ⟨48, 11⟩
/-- INST_ALLOC0 (R330). -/
def RegD.instAlloc0 : RegDesc := ⟨0xc00018, 4096, 0x400, 1, 0x0,
  [⟨Fld.instAlloc0Sq, .rw, (.num 0), .none⟩,
   ⟨Fld.instAlloc0Cq, .rw, (.num 0), .none⟩,
   ⟨Fld.instAlloc0Vectors, .rw, (.num 0), .none⟩,
   ⟨Fld.instAlloc0Ctx, .rw, (.num 0), .none⟩,
   ⟨Fld.instAlloc0PeerQuota, .rw, (.num 0), .none⟩,
   ⟨Fld.instAlloc0Hslots, .rw, (.num 0), .none⟩]⟩

/-- Address of INST_ALLOC1 (R330). -/
def Reg.instAlloc1 (i : Nat) : Nat := 0xc00020 + 0x400 * i
/-- INST_ALLOC1 `nr_64k` (R330). -/
def Fld.instAlloc1Nr64k : Field := ⟨0, 15⟩
/-- INST_ALLOC1 `share` (R330). -/
def Fld.instAlloc1Share : Field := ⟨15, 20⟩
/-- INST_ALLOC1 (R330). -/
def RegD.instAlloc1 : RegDesc := ⟨0xc00020, 4096, 0x400, 1, 0x0,
  [⟨Fld.instAlloc1Nr64k, .rw, (.num 0), .none⟩,
   ⟨Fld.instAlloc1Share, .rw, (.num 0), .none⟩]⟩

/-- Address of INST_MOVE (R329). -/
def Reg.instMove (i : Nat) : Nat := 0xc00028 + 0x400 * i
/-- INST_MOVE `mv_link` (R329). -/
def Fld.instMoveMvLink : Field := ⟨0, 2⟩
/-- INST_MOVE `mv_vf` (R329). -/
def Fld.instMoveMvVf : Field := ⟨2, 13⟩
/-- INST_MOVE (R329). -/
def RegD.instMove : RegDesc := ⟨0xc00028, 4096, 0x400, 1, 0x0,
  [⟨Fld.instMoveMvLink, .rw, (.num 0), .none⟩,
   ⟨Fld.instMoveMvVf, .rw, (.num 0), .none⟩]⟩

/-- Address of MBX_IN (R331). -/
def Reg.mbxIn (i : Nat) (j : Nat) : Nat := 0xc00100 + 0x400 * i + 0x8 * j
/-- MBX_IN `data` (R331). -/
def Fld.mbxInData : Field := ⟨0, 64⟩
/-- MBX_IN (R331). -/
def RegD.mbxIn : RegDesc := ⟨0xc00100, 4096, 0x400, 32, 0x8,
  [⟨Fld.mbxInData, .ro, (.num 0), .none⟩]⟩

/-- Address of MBX_OUT (R331). -/
def Reg.mbxOut (i : Nat) (j : Nat) : Nat := 0xc00200 + 0x400 * i + 0x8 * j
/-- MBX_OUT `data` (R331). -/
def Fld.mbxOutData : Field := ⟨0, 64⟩
/-- MBX_OUT (R331). -/
def RegD.mbxOut : RegDesc := ⟨0xc00200, 4096, 0x400, 32, 0x8,
  [⟨Fld.mbxOutData, .rw, (.num 0), .none⟩]⟩

/-- Address of MBX_CTRL (R331). -/
def Reg.mbxCtrl (i : Nat) : Nat := 0xc00300 + 0x400 * i
/-- MBX_CTRL `to_mgr` (R331). -/
def Fld.mbxCtrlToMgr : Field := ⟨0, 1⟩
/-- MBX_CTRL `to_tenant` (R331). -/
def Fld.mbxCtrlToTenant : Field := ⟨1, 1⟩
/-- MBX_CTRL (R331). -/
def RegD.mbxCtrl : RegDesc := ⟨0xc00300, 4096, 0x400, 1, 0x0,
  [⟨Fld.mbxCtrlToMgr, .w1c, (.num 0), .none⟩,
   ⟨Fld.mbxCtrlToTenant, .w1ss, (.num 0), .none⟩]⟩

/-- Address of DLOG_BASE (R332). -/
def Reg.dlogBase (i : Nat) (j : Nat) : Nat := 0xc00380 + 0x400 * i + 0x8 * j
/-- DLOG_BASE `base` (R332). -/
def Fld.dlogBaseBase : Field := ⟨12, 52⟩
/-- DLOG_BASE (R332). -/
def RegD.dlogBase : RegDesc := ⟨0xc00380, 4096, 0x400, 2, 0x8,
  [⟨Fld.dlogBaseBase, .rw, (.num 0), .none⟩]⟩

/-- Address of DLOG_PAGES (R332). -/
def Reg.dlogPages (i : Nat) : Nat := 0xc00390 + 0x400 * i
/-- DLOG_PAGES `pages` (R332). -/
def Fld.dlogPagesPages : Field := ⟨0, 36⟩
/-- DLOG_PAGES (R332). -/
def RegD.dlogPages : RegDesc := ⟨0xc00390, 4096, 0x400, 1, 0x0,
  [⟨Fld.dlogPagesPages, .rw, (.num 0), .none⟩]⟩

/-- Address of DLOG_CTRL (R332). -/
def Reg.dlogCtrl (i : Nat) : Nat := 0xc00398 + 0x400 * i
/-- DLOG_CTRL `on` (R332). -/
def Fld.dlogCtrlOn : Field := ⟨0, 1⟩
/-- DLOG_CTRL `flip` (R332). -/
def Fld.dlogCtrlFlip : Field := ⟨1, 1⟩
/-- DLOG_CTRL `active` (R332). -/
def Fld.dlogCtrlActive : Field := ⟨2, 1⟩
/-- DLOG_CTRL `busy` (R332). -/
def Fld.dlogCtrlBusy : Field := ⟨3, 1⟩
/-- DLOG_CTRL `over` (R332). -/
def Fld.dlogCtrlOver : Field := ⟨4, 1⟩
/-- DLOG_CTRL `over_count` (R332). -/
def Fld.dlogCtrlOverCount : Field := ⟨8, 24⟩
/-- DLOG_CTRL (R332). -/
def RegD.dlogCtrl : RegDesc := ⟨0xc00398, 4096, 0x400, 1, 0x0,
  [⟨Fld.dlogCtrlOn, .rw, (.num 0), .none⟩,
   ⟨Fld.dlogCtrlFlip, .w1s, (.num 0), .none⟩,
   ⟨Fld.dlogCtrlActive, .ro, (.num 0), .none⟩,
   ⟨Fld.dlogCtrlBusy, .ro, (.num 0), .none⟩,
   ⟨Fld.dlogCtrlOver, .w1c, (.num 0), .none⟩,
   ⟨Fld.dlogCtrlOverCount, .rw, (.num 0), .none⟩]⟩

/-- Address of MATCH_CTRL (R413). -/
def Reg.matchCtrl : Nat := 0x1000000
/-- MATCH_CTRL `expert` (R413). -/
def Fld.matchCtrlExpert : Field := ⟨0, 1⟩
/-- MATCH_CTRL `unpin_us` (R413). -/
def Fld.matchCtrlUnpinUs : Field := ⟨1, 10⟩
/-- MATCH_CTRL `age` (R413). -/
def Fld.matchCtrlAge : Field := ⟨11, 8⟩
/-- MATCH_CTRL (R413). -/
def RegD.matchCtrl : RegDesc := ⟨0x1000000, 1, 0x0, 1, 0x0,
  [⟨Fld.matchCtrlExpert, .rw, (.num 0), .none⟩,
   ⟨Fld.matchCtrlUnpinUs, .rwx, (.num 100), (.atLeast 1)⟩,
   ⟨Fld.matchCtrlAge, .rwx, (.num 64), (.atLeast 1)⟩]⟩

/-- Address of MATCH_POOL (R414). -/
def Reg.matchPool : Nat := 0x1000008
/-- MATCH_POOL `pre_m` (R414). -/
def Fld.matchPoolPreM : Field := ⟨0, 5⟩
/-- MATCH_POOL `uxe_m` (R414). -/
def Fld.matchPoolUxeM : Field := ⟨5, 5⟩
/-- MATCH_POOL `bounce_mib` (R414). -/
def Fld.matchPoolBounceMib : Field := ⟨10, 12⟩
/-- MATCH_POOL `seg_mib` (R414). -/
def Fld.matchPoolSegMib : Field := ⟨22, 10⟩
/-- MATCH_POOL (R414). -/
def RegD.matchPool : RegDesc := ⟨0x1000008, 1, 0x0, 1, 0x0,
  [⟨Fld.matchPoolPreM, .rw, (.num 0), .none⟩,
   ⟨Fld.matchPoolUxeM, .rw, (.num 0), .none⟩,
   ⟨Fld.matchPoolBounceMib, .rw, (.num 0), .none⟩,
   ⟨Fld.matchPoolSegMib, .rw, (.num 0), .none⟩]⟩

/-- Address of MATCH_FREE0 (R415). -/
def Reg.matchFree0 : Nat := 0x1000010
/-- MATCH_FREE0 `posted` (R415). -/
def Fld.matchFree0Posted : Field := ⟨0, 25⟩
/-- MATCH_FREE0 `unexp` (R415). -/
def Fld.matchFree0Unexp : Field := ⟨25, 25⟩
/-- MATCH_FREE0 (R415). -/
def RegD.matchFree0 : RegDesc := ⟨0x1000010, 1, 0x0, 1, 0x0,
  [⟨Fld.matchFree0Posted, .ro, (.num 0), .none⟩,
   ⟨Fld.matchFree0Unexp, .ro, (.num 0), .none⟩]⟩

/-- Address of MATCH_FREE1 (R415). -/
def Reg.matchFree1 : Nat := 0x1000018
/-- MATCH_FREE1 `bounce` (R415). -/
def Fld.matchFree1Bounce : Field := ⟨0, 24⟩
/-- MATCH_FREE1 `seg` (R415). -/
def Fld.matchFree1Seg : Field := ⟨24, 24⟩
/-- MATCH_FREE1 (R415). -/
def RegD.matchFree1 : RegDesc := ⟨0x1000018, 1, 0x0, 1, 0x0,
  [⟨Fld.matchFree1Bounce, .ro, (.num 0), .none⟩,
   ⟨Fld.matchFree1Seg, .ro, (.num 0), .none⟩]⟩

/-- Address of MATCH_STAT0 (R416). -/
def Reg.matchStat0 : Nat := 0x1000020
/-- MATCH_STAT0 `m_posted` (R416). -/
def Fld.matchStat0MPosted : Field := ⟨0, 32⟩
/-- MATCH_STAT0 `m_unexp` (R416). -/
def Fld.matchStat0MUnexp : Field := ⟨32, 32⟩
/-- MATCH_STAT0 (R416). -/
def RegD.matchStat0 : RegDesc := ⟨0x1000020, 1, 0x0, 1, 0x0,
  [⟨Fld.matchStat0MPosted, .rw, (.num 0), .none⟩,
   ⟨Fld.matchStat0MUnexp, .rw, (.num 0), .none⟩]⟩

/-- Address of MATCH_STAT1 (R416). -/
def Reg.matchStat1 : Nat := 0x1000028
/-- MATCH_STAT1 `filed` (R416). -/
def Fld.matchStat1Filed : Field := ⟨0, 32⟩
/-- MATCH_STAT1 `spilled` (R416). -/
def Fld.matchStat1Spilled : Field := ⟨32, 16⟩
/-- MATCH_STAT1 `full` (R416). -/
def Fld.matchStat1Full : Field := ⟨48, 16⟩
/-- MATCH_STAT1 (R416). -/
def RegD.matchStat1 : RegDesc := ⟨0x1000028, 1, 0x0, 1, 0x0,
  [⟨Fld.matchStat1Filed, .rw, (.num 0), .none⟩,
   ⟨Fld.matchStat1Spilled, .rw, (.num 0), .none⟩,
   ⟨Fld.matchStat1Full, .rw, (.num 0), .none⟩]⟩

/-- Address of MATCH_STAT2 (R416). -/
def Reg.matchStat2 : Nat := 0x1000030
/-- MATCH_STAT2 `visits` (R416). -/
def Fld.matchStat2Visits : Field := ⟨0, 40⟩
/-- MATCH_STAT2 `interrupts` (R416). -/
def Fld.matchStat2Interrupts : Field := ⟨40, 16⟩
/-- MATCH_STAT2 (R416). -/
def RegD.matchStat2 : RegDesc := ⟨0x1000030, 1, 0x0, 1, 0x0,
  [⟨Fld.matchStat2Visits, .rw, (.num 0), .none⟩,
   ⟨Fld.matchStat2Interrupts, .rw, (.num 0), .none⟩]⟩

/-- Address of ENT_SEL (R417). -/
def Reg.entSel : Nat := 0x1000100
/-- ENT_SEL `index` (R417). -/
def Fld.entSelIndex : Field := ⟨0, 24⟩
/-- ENT_SEL `list` (R417). -/
def Fld.entSelList : Field := ⟨24, 1⟩
/-- ENT_SEL `go` (R417). -/
def Fld.entSelGo : Field := ⟨25, 1⟩
/-- ENT_SEL `in_use` (R417). -/
def Fld.entSelInUse : Field := ⟨26, 1⟩
/-- ENT_SEL (R417). -/
def RegD.entSel : RegDesc := ⟨0x1000100, 1, 0x0, 1, 0x0,
  [⟨Fld.entSelIndex, .rw, (.num 0), .none⟩,
   ⟨Fld.entSelList, .rw, (.num 0), .none⟩,
   ⟨Fld.entSelGo, .w1s, (.num 0), .none⟩,
   ⟨Fld.entSelInUse, .ro, (.num 0), .none⟩]⟩

/-- Address of ENT_DATA (R417). -/
def Reg.entData (i : Nat) : Nat := 0x1000108 + 0x8 * i
/-- ENT_DATA `data` (R417). -/
def Fld.entDataData : Field := ⟨0, 64⟩
/-- ENT_DATA (R417). -/
def RegD.entData : RegDesc := ⟨0x1000108, 8, 0x8, 1, 0x0,
  [⟨Fld.entDataData, .ro, (.num 0), .none⟩]⟩

/-- Address of MATCH_INST (R419). -/
def Reg.matchInst (i : Nat) : Nat := 0x1010000 + 0x8 * i
/-- MATCH_INST `eager` (R419). -/
def Fld.matchInstEager : Field := ⟨0, 7⟩
/-- MATCH_INST `ctx_base` (R419). -/
def Fld.matchInstCtxBase : Field := ⟨7, 16⟩
/-- MATCH_INST (R419). -/
def RegD.matchInst : RegDesc := ⟨0x1010000, 4096, 0x8, 1, 0x0,
  [⟨Fld.matchInstEager, .rw, (.num 16), (.atMost 64)⟩,
   ⟨Fld.matchInstCtxBase, .ro, (.num 0), .none⟩]⟩

/-- Address of CTX_CFG (R420). -/
def Reg.ctxCfg (i : Nat) : Nat := 0x1020000 + 0x10 * i
/-- CTX_CFG `prio` (R420). -/
def Fld.ctxCfgPrio : Field := ⟨0, 2⟩
/-- CTX_CFG `pre_lim` (R420). -/
def Fld.ctxCfgPreLim : Field := ⟨2, 16⟩
/-- CTX_CFG `uxe_lim` (R420). -/
def Fld.ctxCfgUxeLim : Field := ⟨18, 16⟩
/-- CTX_CFG `reset` (R420). -/
def Fld.ctxCfgReset : Field := ⟨34, 1⟩
/-- CTX_CFG `busy` (R420). -/
def Fld.ctxCfgBusy : Field := ⟨35, 1⟩
/-- CTX_CFG `pinned` (R420). -/
def Fld.ctxCfgPinned : Field := ⟨36, 1⟩
/-- CTX_CFG `engine` (R420). -/
def Fld.ctxCfgEngine : Field := ⟨37, 5⟩
/-- CTX_CFG `migrate` (R420). -/
def Fld.ctxCfgMigrate : Field := ⟨42, 1⟩
/-- CTX_CFG `mig_to` (R420). -/
def Fld.ctxCfgMigTo : Field := ⟨43, 5⟩
/-- CTX_CFG `walking` (R420). -/
def Fld.ctxCfgWalking : Field := ⟨48, 1⟩
/-- CTX_CFG `owned` (R420). -/
def Fld.ctxCfgOwned : Field := ⟨49, 1⟩
/-- CTX_CFG `inst` (R420). -/
def Fld.ctxCfgInst : Field := ⟨50, 12⟩
/-- CTX_CFG (R420). -/
def RegD.ctxCfg : RegDesc := ⟨0x1020000, 65536, 0x10, 1, 0x0,
  [⟨Fld.ctxCfgPrio, .rw, (.num 2), .none⟩,
   ⟨Fld.ctxCfgPreLim, .rw, (.num 0), .none⟩,
   ⟨Fld.ctxCfgUxeLim, .rw, (.num 0), .none⟩,
   ⟨Fld.ctxCfgReset, .w1s, (.num 0), .none⟩,
   ⟨Fld.ctxCfgBusy, .ro, (.num 0), .none⟩,
   ⟨Fld.ctxCfgPinned, .ro, (.num 0), .none⟩,
   ⟨Fld.ctxCfgEngine, .ro, (.num 0), .none⟩,
   ⟨Fld.ctxCfgMigrate, .w1s, (.num 0), .none⟩,
   ⟨Fld.ctxCfgMigTo, .rw, (.num 0), .none⟩,
   ⟨Fld.ctxCfgWalking, .ro, (.num 0), .none⟩,
   ⟨Fld.ctxCfgOwned, .ro, (.num 0), .none⟩,
   ⟨Fld.ctxCfgInst, .ro, (.num 0), .none⟩]⟩

/-- Address of CTX_STAT (R420). -/
def Reg.ctxStat (i : Nat) : Nat := 0x1020008 + 0x10 * i
/-- CTX_STAT `pre_count` (R420). -/
def Fld.ctxStatPreCount : Field := ⟨0, 25⟩
/-- CTX_STAT `uxe_count` (R420). -/
def Fld.ctxStatUxeCount : Field := ⟨25, 25⟩
/-- CTX_STAT (R420). -/
def RegD.ctxStat : RegDesc := ⟨0x1020008, 65536, 0x10, 1, 0x0,
  [⟨Fld.ctxStatPreCount, .ro, (.num 0), .none⟩,
   ⟨Fld.ctxStatUxeCount, .ro, (.num 0), .none⟩]⟩

/-- Address of COLL_CTRL (R446). -/
def Reg.collCtrl : Nat := 0x1200000
/-- COLL_CTRL `expert` (R446). -/
def Fld.collCtrlExpert : Field := ⟨0, 1⟩
/-- COLL_CTRL `safe_wave` (R446). -/
def Fld.collCtrlSafeWave : Field := ⟨1, 1⟩
/-- COLL_CTRL `depth` (R446). -/
def Fld.collCtrlDepth : Field := ⟨2, 4⟩
/-- COLL_CTRL `seg_kib` (R446). -/
def Fld.collCtrlSegKib : Field := ⟨6, 7⟩
/-- COLL_CTRL `lock` (R446). -/
def Fld.collCtrlLock : Field := ⟨13, 1⟩
/-- COLL_CTRL (R446). -/
def RegD.collCtrl : RegDesc := ⟨0x1200000, 1, 0x0, 1, 0x0,
  [⟨Fld.collCtrlExpert, .rwl, (.num 0), .none⟩,
   ⟨Fld.collCtrlSafeWave, .rwl, (.num 0), .none⟩,
   ⟨Fld.collCtrlDepth, .rwx, (.num 4), (.range 1 8)⟩,
   ⟨Fld.collCtrlSegKib, .rwx, (.num 64), (.range 1 64)⟩,
   ⟨Fld.collCtrlLock, .lock, (.num 0), .none⟩]⟩

/-- Address of GSVC (R447). -/
def Reg.gsvc : Nat := 0x1200008
/-- GSVC `svc` (R447). -/
def Fld.gsvcSvc : Field := ⟨0, 2⟩
/-- GSVC `action` (R447). -/
def Fld.gsvcAction : Field := ⟨2, 2⟩
/-- GSVC `mcomm` (R447). -/
def Fld.gsvcMcomm : Field := ⟨4, 12⟩
/-- GSVC `target` (R447). -/
def Fld.gsvcTarget : Field := ⟨16, 12⟩
/-- GSVC `snap_words` (R447). -/
def Fld.gsvcSnapWords : Field := ⟨28, 7⟩
/-- GSVC `go` (R447). -/
def Fld.gsvcGo : Field := ⟨35, 1⟩
/-- GSVC `busy` (R447). -/
def Fld.gsvcBusy : Field := ⟨36, 1⟩
/-- GSVC `status` (R447). -/
def Fld.gsvcStatus : Field := ⟨37, 3⟩
/-- GSVC `counted` (R447). -/
def Fld.gsvcCounted : Field := ⟨40, 19⟩
/-- GSVC (R447). -/
def RegD.gsvc : RegDesc := ⟨0x1200008, 1, 0x0, 1, 0x0,
  [⟨Fld.gsvcSvc, .rw, (.num 0), .none⟩,
   ⟨Fld.gsvcAction, .rw, (.num 0), .none⟩,
   ⟨Fld.gsvcMcomm, .rw, (.num 0), .none⟩,
   ⟨Fld.gsvcTarget, .rw, (.num 0), .none⟩,
   ⟨Fld.gsvcSnapWords, .rw, (.num 64), .none⟩,
   ⟨Fld.gsvcGo, .w1s, (.num 0), .none⟩,
   ⟨Fld.gsvcBusy, .ro, (.num 0), .none⟩,
   ⟨Fld.gsvcStatus, .ro, (.num 0), .none⟩,
   ⟨Fld.gsvcCounted, .ro, (.num 0), .none⟩]⟩

/-- Address of GSVC_BUF (R447). -/
def Reg.gsvcBuf : Nat := 0x1200010
/-- GSVC_BUF `buf` (R447). -/
def Fld.gsvcBufBuf : Field := ⟨9, 55⟩
/-- GSVC_BUF (R447). -/
def RegD.gsvcBuf : RegDesc := ⟨0x1200010, 1, 0x0, 1, 0x0,
  [⟨Fld.gsvcBufBuf, .rw, (.num 0), .none⟩]⟩

/-- Address of COLL_STAT (R448). -/
def Reg.collStat : Nat := 0x1200018
/-- COLL_STAT `done` (R448). -/
def Fld.collStatDone : Field := ⟨0, 32⟩
/-- COLL_STAT `failed` (R448). -/
def Fld.collStatFailed : Field := ⟨32, 16⟩
/-- COLL_STAT `early` (R448). -/
def Fld.collStatEarly : Field := ⟨48, 16⟩
/-- COLL_STAT (R448). -/
def RegD.collStat : RegDesc := ⟨0x1200018, 1, 0x0, 1, 0x0,
  [⟨Fld.collStatDone, .rw, (.num 0), .none⟩,
   ⟨Fld.collStatFailed, .rw, (.num 0), .none⟩,
   ⟨Fld.collStatEarly, .rw, (.num 0), .none⟩]⟩

/-- Address of COLL_STAT1 (R448). -/
def Reg.collStat1 : Nat := 0x1200020
/-- COLL_STAT1 `adm_wait` (R448). -/
def Fld.collStat1AdmWait : Field := ⟨0, 32⟩
/-- COLL_STAT1 `fail_rx` (R448). -/
def Fld.collStat1FailRx : Field := ⟨32, 16⟩
/-- COLL_STAT1 `wave_refused` (R448). -/
def Fld.collStat1WaveRefused : Field := ⟨48, 16⟩
/-- COLL_STAT1 (R448). -/
def RegD.collStat1 : RegDesc := ⟨0x1200020, 1, 0x0, 1, 0x0,
  [⟨Fld.collStat1AdmWait, .rw, (.num 0), .none⟩,
   ⟨Fld.collStat1FailRx, .rw, (.num 0), .none⟩,
   ⟨Fld.collStat1WaveRefused, .rw, (.num 0), .none⟩]⟩

/-- Address of COMM_ENT (R449). -/
def Reg.commEnt (i : Nat) (j : Nat) : Nat := 0x1210000 + 0x100 * i + 0x8 * j
/-- COMM_ENT `data` (R449). -/
def Fld.commEntData : Field := ⟨0, 64⟩
/-- COMM_ENT (R449). -/
def RegD.commEnt : RegDesc := ⟨0x1210000, 4096, 0x100, 32, 0x8,
  [⟨Fld.commEntData, .rw, (.num 0), .none⟩]⟩

/-- Address of COMM_CTL (R449). -/
def Reg.commCtl (i : Nat) : Nat := 0x1380000 + 0x8 * i
/-- COMM_CTL `valid` (R449). -/
def Fld.commCtlValid : Field := ⟨0, 1⟩
/-- COMM_CTL `abort` (R449). -/
def Fld.commCtlAbort : Field := ⟨1, 1⟩
/-- COMM_CTL `err` (R449). -/
def Fld.commCtlErr : Field := ⟨2, 3⟩
/-- COMM_CTL `cseq` (R449). -/
def Fld.commCtlCseq : Field := ⟨5, 32⟩
/-- COMM_CTL `pending` (R449). -/
def Fld.commCtlPending : Field := ⟨37, 4⟩
/-- COMM_CTL `leader` (R449). -/
def Fld.commCtlLeader : Field := ⟨41, 1⟩
/-- COMM_CTL `tpos` (R449). -/
def Fld.commCtlTpos : Field := ⟨42, 11⟩
/-- COMM_CTL (R449). -/
def RegD.commCtl : RegDesc := ⟨0x1380000, 4096, 0x8, 1, 0x0,
  [⟨Fld.commCtlValid, .rw, (.num 0), .none⟩,
   ⟨Fld.commCtlAbort, .w1s, (.num 0), .none⟩,
   ⟨Fld.commCtlErr, .ro, (.num 0), .none⟩,
   ⟨Fld.commCtlCseq, .ro, (.num 0), .none⟩,
   ⟨Fld.commCtlPending, .ro, (.num 0), .none⟩,
   ⟨Fld.commCtlLeader, .ro, (.num 0), .none⟩,
   ⟨Fld.commCtlTpos, .ro, (.num 0), .none⟩]⟩

/-- Address of HAND_CTRL (R481). -/
def Reg.handCtrl : Nat := 0x1400000
/-- HAND_CTRL `expert` (R481). -/
def Fld.handCtrlExpert : Field := ⟨0, 1⟩
/-- HAND_CTRL `budget_us` (R481). -/
def Fld.handCtrlBudgetUs : Field := ⟨1, 7⟩
/-- HAND_CTRL `spill_kib` (R481). -/
def Fld.handCtrlSpillKib : Field := ⟨8, 5⟩
/-- HAND_CTRL `frame_us` (R481). -/
def Fld.handCtrlFrameUs : Field := ⟨13, 10⟩
/-- HAND_CTRL (R481). -/
def RegD.handCtrl : RegDesc := ⟨0x1400000, 1, 0x0, 1, 0x0,
  [⟨Fld.handCtrlExpert, .rw, (.num 0), .none⟩,
   ⟨Fld.handCtrlBudgetUs, .rwx, (.num 10), (.atLeast 1)⟩,
   ⟨Fld.handCtrlSpillKib, .rwx, (.num 8), (.range 1 16)⟩,
   ⟨Fld.handCtrlFrameUs, .rwx, (.num 100), (.range 10 1023)⟩]⟩

/-- Address of HAND_CORE (R482). -/
def Reg.handCore (i : Nat) : Nat := 0x1401000 + 0x8 * i
/-- HAND_CORE `hold` (R482). -/
def Fld.handCoreHold : Field := ⟨0, 1⟩
/-- HAND_CORE `hold_stop` (R482). -/
def Fld.handCoreHoldStop : Field := ⟨1, 1⟩
/-- HAND_CORE `cstate` (R482). -/
def Fld.handCoreCstate : Field := ⟨2, 3⟩
/-- HAND_CORE `inst` (R482). -/
def Fld.handCoreInst : Field := ⟨5, 12⟩
/-- HAND_CORE `trig` (R482). -/
def Fld.handCoreTrig : Field := ⟨17, 12⟩
/-- HAND_CORE (R482). -/
def RegD.handCore : RegDesc := ⟨0x1401000, 68, 0x8, 1, 0x0,
  [⟨Fld.handCoreHold, .rw, (.num 0), .none⟩,
   ⟨Fld.handCoreHoldStop, .rw, (.num 0), .none⟩,
   ⟨Fld.handCoreCstate, .ro, (.num 0), .none⟩,
   ⟨Fld.handCoreInst, .ro, (.num 0), .none⟩,
   ⟨Fld.handCoreTrig, .ro, (.num 0), .none⟩]⟩

/-- Address of HAND_INST (R484). -/
def Reg.handInst (i : Nat) : Nat := 0x1402000 + 0x8 * i
/-- HAND_INST `ld_base` (R484). -/
def Fld.handInstLdBase : Field := ⟨0, 5⟩
/-- HAND_INST `ld_4k` (R484). -/
def Fld.handInstLd4k : Field := ⟨5, 5⟩
/-- HAND_INST `ld_zero` (R484). -/
def Fld.handInstLdZero : Field := ⟨10, 1⟩
/-- HAND_INST (R484). -/
def RegD.handInst : RegDesc := ⟨0x1402000, 4096, 0x8, 1, 0x0,
  [⟨Fld.handInstLdBase, .rw, (.num 0), .none⟩,
   ⟨Fld.handInstLd4k, .rw, (.num 0), .none⟩,
   ⟨Fld.handInstLdZero, .rw, (.num 0), .none⟩]⟩

/-- Address of TRIG_CFG (R485). -/
def Reg.trigCfg (i : Nat) : Nat := 0x1410000 + 0x20 * i
/-- TRIG_CFG `enable` (R485). -/
def Fld.trigCfgEnable : Field := ⟨0, 1⟩
/-- TRIG_CFG `kind` (R485). -/
def Fld.trigCfgKind : Field := ⟨1, 2⟩
/-- TRIG_CFG `mgr` (R485). -/
def Fld.trigCfgMgr : Field := ⟨3, 1⟩
/-- TRIG_CFG `inst` (R485). -/
def Fld.trigCfgInst : Field := ⟨4, 12⟩
/-- TRIG_CFG `sel` (R485). -/
def Fld.trigCfgSel : Field := ⟨16, 7⟩
/-- TRIG_CFG `entry` (R485). -/
def Fld.trigCfgEntry : Field := ⟨23, 14⟩
/-- TRIG_CFG `err_vec` (R485). -/
def Fld.trigCfgErrVec : Field := ⟨37, 6⟩
/-- TRIG_CFG `err_irq` (R485). -/
def Fld.trigCfgErrIrq : Field := ⟨43, 1⟩
/-- TRIG_CFG (R485). -/
def RegD.trigCfg : RegDesc := ⟨0x1410000, 4096, 0x20, 1, 0x0,
  [⟨Fld.trigCfgEnable, .rw, (.num 0), .none⟩,
   ⟨Fld.trigCfgKind, .rw, (.num 0), .none⟩,
   ⟨Fld.trigCfgMgr, .rw, (.num 0), .none⟩,
   ⟨Fld.trigCfgInst, .rw, (.num 0), .none⟩,
   ⟨Fld.trigCfgSel, .rw, (.num 0), .none⟩,
   ⟨Fld.trigCfgEntry, .rw, (.num 0), .none⟩,
   ⟨Fld.trigCfgErrVec, .rw, (.num 0), .none⟩,
   ⟨Fld.trigCfgErrIrq, .rw, (.num 0), .none⟩]⟩

/-- Address of TRIG_ARG (R485). -/
def Reg.trigArg (i : Nat) : Nat := 0x1410008 + 0x20 * i
/-- TRIG_ARG `arg` (R485). -/
def Fld.trigArgArg : Field := ⟨0, 32⟩
/-- TRIG_ARG (R485). -/
def RegD.trigArg : RegDesc := ⟨0x1410008, 4096, 0x20, 1, 0x0,
  [⟨Fld.trigArgArg, .rw, (.num 0), .none⟩]⟩

/-- Address of TRIG_STAT (R485). -/
def Reg.trigStat (i : Nat) : Nat := 0x1410010 + 0x20 * i
/-- TRIG_STAT `count` (R485). -/
def Fld.trigStatCount : Field := ⟨0, 32⟩
/-- TRIG_STAT `pending` (R485). -/
def Fld.trigStatPending : Field := ⟨32, 16⟩
/-- TRIG_STAT `last_res` (R485). -/
def Fld.trigStatLastRes : Field := ⟨48, 8⟩
/-- TRIG_STAT `err_count` (R485). -/
def Fld.trigStatErrCount : Field := ⟨56, 8⟩
/-- TRIG_STAT (R485). -/
def RegD.trigStat : RegDesc := ⟨0x1410010, 4096, 0x20, 1, 0x0,
  [⟨Fld.trigStatCount, .ro, (.num 0), .none⟩,
   ⟨Fld.trigStatPending, .ro, (.num 0), .none⟩,
   ⟨Fld.trigStatLastRes, .ro, (.num 0), .none⟩,
   ⟨Fld.trigStatErrCount, .rw, (.num 0), .none⟩]⟩

/-- Address of COH_CTRL (R486). -/
def Reg.cohCtrl : Nat := 0x1600000
/-- COH_CTRL `expert` (R486). -/
def Fld.cohCtrlExpert : Field := ⟨0, 1⟩
/-- COH_CTRL `hbuf` (R486). -/
def Fld.cohCtrlHbuf : Field := ⟨1, 12⟩
/-- COH_CTRL (R486). -/
def RegD.cohCtrl : RegDesc := ⟨0x1600000, 1, 0x0, 1, 0x0,
  [⟨Fld.cohCtrlExpert, .rw, (.num 0), .none⟩,
   ⟨Fld.cohCtrlHbuf, .rwx, (.num 2048), .none⟩]⟩

/-- Address of COH_REGION (R486). -/
def Reg.cohRegion : Nat := 0x1600008
/-- COH_REGION `size_gib` (R486). -/
def Fld.cohRegionSizeGib : Field := ⟨0, 5⟩
/-- COH_REGION `base_gib` (R486). -/
def Fld.cohRegionBaseGib : Field := ⟨8, 7⟩
/-- COH_REGION `dir_base_gib` (R486). -/
def Fld.cohRegionDirBaseGib : Field := ⟨16, 7⟩
/-- COH_REGION (R486). -/
def RegD.cohRegion : RegDesc := ⟨0x1600008, 1, 0x0, 1, 0x0,
  [⟨Fld.cohRegionSizeGib, .ro, (.num 0), .none⟩,
   ⟨Fld.cohRegionBaseGib, .ro, (.num 0), .none⟩,
   ⟨Fld.cohRegionDirBaseGib, .ro, (.num 0), .none⟩]⟩

/-- Address of DIR_SEL (R488). -/
def Reg.dirSel : Nat := 0x1600100
/-- DIR_SEL `line` (R488). -/
def Fld.dirSelLine : Field := ⟨0, 31⟩
/-- DIR_SEL `go` (R488). -/
def Fld.dirSelGo : Field := ⟨31, 1⟩
/-- DIR_SEL (R488). -/
def RegD.dirSel : RegDesc := ⟨0x1600100, 1, 0x0, 1, 0x0,
  [⟨Fld.dirSelLine, .rw, (.num 0), .none⟩,
   ⟨Fld.dirSelGo, .w1s, (.num 0), .none⟩]⟩

/-- Address of DIR_DATA (R488). -/
def Reg.dirData (i : Nat) : Nat := 0x1600108 + 0x8 * i
/-- DIR_DATA `data` (R488). -/
def Fld.dirDataData : Field := ⟨0, 64⟩
/-- DIR_DATA (R488). -/
def RegD.dirData : RegDesc := ⟨0x1600108, 2, 0x8, 1, 0x0,
  [⟨Fld.dirDataData, .ro, (.num 0), .none⟩]⟩

/-- Address of SL_CNT0 (R487). -/
def Reg.slCnt0 (i : Nat) : Nat := 0x1601000 + 0x20 * i
/-- SL_CNT0 `dc_hit` (R487). -/
def Fld.slCnt0DcHit : Field := ⟨0, 32⟩
/-- SL_CNT0 `dc_miss` (R487). -/
def Fld.slCnt0DcMiss : Field := ⟨32, 32⟩
/-- SL_CNT0 (R487). -/
def RegD.slCnt0 : RegDesc := ⟨0x1601000, 16, 0x20, 1, 0x0,
  [⟨Fld.slCnt0DcHit, .rw, (.num 0), .none⟩,
   ⟨Fld.slCnt0DcMiss, .rw, (.num 0), .none⟩]⟩

/-- Address of SL_CNT1 (R487). -/
def Reg.slCnt1 (i : Nat) : Nat := 0x1601008 + 0x20 * i
/-- SL_CNT1 `fwd` (R487). -/
def Fld.slCnt1Fwd : Field := ⟨0, 32⟩
/-- SL_CNT1 `busy_wait` (R487). -/
def Fld.slCnt1BusyWait : Field := ⟨32, 32⟩
/-- SL_CNT1 (R487). -/
def RegD.slCnt1 : RegDesc := ⟨0x1601008, 16, 0x20, 1, 0x0,
  [⟨Fld.slCnt1Fwd, .rw, (.num 0), .none⟩,
   ⟨Fld.slCnt1BusyWait, .rw, (.num 0), .none⟩]⟩

/-- Address of SL_STAT (R487). -/
def Reg.slStat (i : Nat) : Nat := 0x1601010 + 0x20 * i
/-- SL_STAT `busy_lines` (R487). -/
def Fld.slStatBusyLines : Field := ⟨0, 9⟩
/-- SL_STAT `queued` (R487). -/
def Fld.slStatQueued : Field := ⟨9, 11⟩
/-- SL_STAT (R487). -/
def RegD.slStat : RegDesc := ⟨0x1601010, 16, 0x20, 1, 0x0,
  [⟨Fld.slStatBusyLines, .ro, (.num 0), .none⟩,
   ⟨Fld.slStatQueued, .ro, (.num 0), .none⟩]⟩

/-- Address of HBM_RETIRE (R523). -/
def Reg.hbmRetire (i : Nat) : Nat := 0x1680100 + 0x20000 * i
/-- HBM_RETIRE `page` (R523). -/
def Fld.hbmRetirePage : Field := ⟨0, 25⟩
/-- HBM_RETIRE `retire` (R523). -/
def Fld.hbmRetireRetire : Field := ⟨25, 1⟩
/-- HBM_RETIRE `busy` (R523). -/
def Fld.hbmRetireBusy : Field := ⟨26, 1⟩
/-- HBM_RETIRE `used` (R523). -/
def Fld.hbmRetireUsed : Field := ⟨27, 7⟩
/-- HBM_RETIRE (R523). -/
def RegD.hbmRetire : RegDesc := ⟨0x1680100, 4, 0x20000, 1, 0x0,
  [⟨Fld.hbmRetirePage, .rw, (.num 0), .none⟩,
   ⟨Fld.hbmRetireRetire, .w1s, (.num 0), .none⟩,
   ⟨Fld.hbmRetireBusy, .ro, (.num 0), .none⟩,
   ⟨Fld.hbmRetireUsed, .ro, (.num 0), .none⟩]⟩

/-- Address of LOCK_CTRL (R489). -/
def Reg.lockCtrl : Nat := 0x1700000
/-- LOCK_CTRL `expert` (R489). -/
def Fld.lockCtrlExpert : Field := ⟨0, 1⟩
/-- LOCK_CTRL `waiters_k` (R489). -/
def Fld.lockCtrlWaitersK : Field := ⟨1, 11⟩
/-- LOCK_CTRL (R489). -/
def RegD.lockCtrl : RegDesc := ⟨0x1700000, 1, 0x0, 1, 0x0,
  [⟨Fld.lockCtrlExpert, .rw, (.num 0), .none⟩,
   ⟨Fld.lockCtrlWaitersK, .rw, (.num 1024), .none⟩]⟩

/-- Address of LOCK_STAT (R489). -/
def Reg.lockStat : Nat := 0x1700008
/-- LOCK_STAT `armed` (R489). -/
def Fld.lockStatArmed : Field := ⟨0, 24⟩
/-- LOCK_STAT `wait_used` (R489). -/
def Fld.lockStatWaitUsed : Field := ⟨24, 21⟩
/-- LOCK_STAT (R489). -/
def RegD.lockStat : RegDesc := ⟨0x1700008, 1, 0x0, 1, 0x0,
  [⟨Fld.lockStatArmed, .ro, (.num 0), .none⟩,
   ⟨Fld.lockStatWaitUsed, .ro, (.num 0), .none⟩]⟩

/-- Address of LOCK_CNT (R489). -/
def Reg.lockCnt : Nat := 0x1700010
/-- LOCK_CNT `grants` (R489). -/
def Fld.lockCntGrants : Field := ⟨0, 32⟩
/-- LOCK_CNT `forced` (R489). -/
def Fld.lockCntForced : Field := ⟨32, 16⟩
/-- LOCK_CNT `pool_full` (R489). -/
def Fld.lockCntPoolFull : Field := ⟨48, 16⟩
/-- LOCK_CNT (R489). -/
def RegD.lockCnt : RegDesc := ⟨0x1700010, 1, 0x0, 1, 0x0,
  [⟨Fld.lockCntGrants, .rw, (.num 0), .none⟩,
   ⟨Fld.lockCntForced, .rw, (.num 0), .none⟩,
   ⟨Fld.lockCntPoolFull, .rw, (.num 0), .none⟩]⟩

/-- Address of LOCK_FORCE (R490). -/
def Reg.lockForce : Nat := 0x1700100
/-- LOCK_FORCE `fline` (R490). -/
def Fld.lockForceFline : Field := ⟨0, 31⟩
/-- LOCK_FORCE `go` (R490). -/
def Fld.lockForceGo : Field := ⟨31, 1⟩
/-- LOCK_FORCE `busy` (R490). -/
def Fld.lockForceBusy : Field := ⟨32, 1⟩
/-- LOCK_FORCE `ferr` (R490). -/
def Fld.lockForceFerr : Field := ⟨33, 2⟩
/-- LOCK_FORCE (R490). -/
def RegD.lockForce : RegDesc := ⟨0x1700100, 1, 0x0, 1, 0x0,
  [⟨Fld.lockForceFline, .rw, (.num 0), .none⟩,
   ⟨Fld.lockForceGo, .w1s, (.num 0), .none⟩,
   ⟨Fld.lockForceBusy, .ro, (.num 0), .none⟩,
   ⟨Fld.lockForceFerr, .ro, (.num 0), .none⟩]⟩

/-- Address of LOCK_FORCE_OWN (R490). -/
def Reg.lockForceOwn : Nat := 0x1700108
/-- LOCK_FORCE_OWN `expect` (R490). -/
def Fld.lockForceOwnExpect : Field := ⟨0, 39⟩
/-- LOCK_FORCE_OWN (R490). -/
def RegD.lockForceOwn : RegDesc := ⟨0x1700108, 1, 0x0, 1, 0x0,
  [⟨Fld.lockForceOwnExpect, .rw, (.num 0), .none⟩]⟩

/-- Address of LOCK_LOG_IDX (R491). -/
def Reg.lockLogIdx : Nat := 0x1700120
/-- LOCK_LOG_IDX `next` (R491). -/
def Fld.lockLogIdxNext : Field := ⟨0, 6⟩
/-- LOCK_LOG_IDX `wrapped` (R491). -/
def Fld.lockLogIdxWrapped : Field := ⟨6, 1⟩
/-- LOCK_LOG_IDX (R491). -/
def RegD.lockLogIdx : RegDesc := ⟨0x1700120, 1, 0x0, 1, 0x0,
  [⟨Fld.lockLogIdxNext, .ro, (.num 0), .none⟩,
   ⟨Fld.lockLogIdxWrapped, .ro, (.num 0), .none⟩]⟩

/-- Address of LOCK_LOG (R491). -/
def Reg.lockLog (i : Nat) (j : Nat) : Nat := 0x1701000 + 0x20 * i + 0x8 * j
/-- LOCK_LOG `data` (R491). -/
def Fld.lockLogData : Field := ⟨0, 64⟩
/-- LOCK_LOG (R491). -/
def RegD.lockLog : RegDesc := ⟨0x1701000, 64, 0x20, 4, 0x8,
  [⟨Fld.lockLogData, .ro, (.num 0), .none⟩]⟩

/-- Address of XLAT_CTRL (R354). -/
def Reg.xlatCtrl : Nat := 0x1800000
/-- XLAT_CTRL `expert` (R354). -/
def Fld.xlatCtrlExpert : Field := ⟨0, 1⟩
/-- XLAT_CTRL `cache_en` (R354). -/
def Fld.xlatCtrlCacheEn : Field := ⟨1, 1⟩
/-- XLAT_CTRL `ad_tries` (R354). -/
def Fld.xlatCtrlAdTries : Field := ⟨2, 3⟩
/-- XLAT_CTRL `walkers` (R354). -/
def Fld.xlatCtrlWalkers : Field := ⟨5, 7⟩
/-- XLAT_CTRL (R354). -/
def RegD.xlatCtrl : RegDesc := ⟨0x1800000, 1, 0x0, 1, 0x0,
  [⟨Fld.xlatCtrlExpert, .rw, (.num 0), .none⟩,
   ⟨Fld.xlatCtrlCacheEn, .rw, (.num 1), .none⟩,
   ⟨Fld.xlatCtrlAdTries, .rwx, (.num 4), (.atLeast 1)⟩,
   ⟨Fld.xlatCtrlWalkers, .rwx, (.num 64), (.range 1 64)⟩]⟩

/-- Address of XLAT_STAT (R355). -/
def Reg.xlatStat : Nat := 0x1800008
/-- XLAT_STAT `walks` (R355). -/
def Fld.xlatStatWalks : Field := ⟨0, 32⟩
/-- XLAT_STAT `faults` (R355). -/
def Fld.xlatStatFaults : Field := ⟨32, 16⟩
/-- XLAT_STAT `marks` (R355). -/
def Fld.xlatStatMarks : Field := ⟨48, 16⟩
/-- XLAT_STAT (R355). -/
def RegD.xlatStat : RegDesc := ⟨0x1800008, 1, 0x0, 1, 0x0,
  [⟨Fld.xlatStatWalks, .rw, (.num 0), .none⟩,
   ⟨Fld.xlatStatFaults, .rw, (.num 0), .none⟩,
   ⟨Fld.xlatStatMarks, .rw, (.num 0), .none⟩]⟩

/-- Address of XLAT_INV (R356). -/
def Reg.xlatInv : Nat := 0x1800010
/-- XLAT_INV `scope` (R356). -/
def Fld.xlatInvScope : Field := ⟨0, 3⟩
/-- XLAT_INV `inst` (R356). -/
def Fld.xlatInvInst : Field := ⟨3, 12⟩
/-- XLAT_INV `go` (R356). -/
def Fld.xlatInvGo : Field := ⟨15, 1⟩
/-- XLAT_INV `busy` (R356). -/
def Fld.xlatInvBusy : Field := ⟨16, 1⟩
/-- XLAT_INV `inv_err` (R356). -/
def Fld.xlatInvInvErr : Field := ⟨17, 1⟩
/-- XLAT_INV (R356). -/
def RegD.xlatInv : RegDesc := ⟨0x1800010, 1, 0x0, 1, 0x0,
  [⟨Fld.xlatInvScope, .rw, (.num 0), .none⟩,
   ⟨Fld.xlatInvInst, .rw, (.num 0), .none⟩,
   ⟨Fld.xlatInvGo, .w1s, (.num 0), .none⟩,
   ⟨Fld.xlatInvBusy, .ro, (.num 0), .none⟩,
   ⟨Fld.xlatInvInvErr, .w1c, (.num 0), .none⟩]⟩

/-- Address of INV_ADDR (R356). -/
def Reg.invAddr : Nat := 0x1800018
/-- INV_ADDR `addr` (R356). -/
def Fld.invAddrAddr : Field := ⟨0, 64⟩
/-- INV_ADDR (R356). -/
def RegD.invAddr : RegDesc := ⟨0x1800018, 1, 0x0, 1, 0x0,
  [⟨Fld.invAddrAddr, .rw, (.num 0), .none⟩]⟩

/-- Address of INV_LEN (R356). -/
def Reg.invLen : Nat := 0x1800020
/-- INV_LEN `len` (R356). -/
def Fld.invLenLen : Field := ⟨0, 36⟩
/-- INV_LEN (R356). -/
def RegD.invLen : RegDesc := ⟨0x1800020, 1, 0x0, 1, 0x0,
  [⟨Fld.invLenLen, .rw, (.num 0), .none⟩]⟩

/-- Address of RSV_MAP (R357). -/
def Reg.rsvMap (i : Nat) : Nat := 0x1800100 + 0x8 * i
/-- RSV_MAP `rbase` (R357). -/
def Fld.rsvMapRbase : Field := ⟨0, 16⟩
/-- RSV_MAP `rlen` (R357). -/
def Fld.rsvMapRlen : Field := ⟨16, 16⟩
/-- RSV_MAP `what` (R357). -/
def Fld.rsvMapWhat : Field := ⟨32, 4⟩
/-- RSV_MAP (R357). -/
def RegD.rsvMap : RegDesc := ⟨0x1800100, 8, 0x8, 1, 0x0,
  [⟨Fld.rsvMapRbase, .ro, (.num 0), .none⟩,
   ⟨Fld.rsvMapRlen, .ro, (.num 0), .none⟩,
   ⟨Fld.rsvMapWhat, .ro, (.num 0), .none⟩]⟩

/-- Address of FAULTQ (R358). -/
def Reg.faultq : Nat := 0x1800200
/-- FAULTQ `head` (R358). -/
def Fld.faultqHead : Field := ⟨0, 6⟩
/-- FAULTQ `count` (R358). -/
def Fld.faultqCount : Field := ⟨6, 7⟩
/-- FAULTQ `overrun` (R358). -/
def Fld.faultqOverrun : Field := ⟨13, 1⟩
/-- FAULTQ (R358). -/
def RegD.faultq : RegDesc := ⟨0x1800200, 1, 0x0, 1, 0x0,
  [⟨Fld.faultqHead, .rw, (.num 0), .none⟩,
   ⟨Fld.faultqCount, .ro, (.num 0), .none⟩,
   ⟨Fld.faultqOverrun, .w1c, (.num 0), .none⟩]⟩

/-- Address of FAULTREC (R358). -/
def Reg.faultrec (i : Nat) (j : Nat) : Nat := 0x1801000 + 0x10 * i + 0x8 * j
/-- FAULTREC `data` (R358). -/
def Fld.faultrecData : Field := ⟨0, 64⟩
/-- FAULTREC (R358). -/
def RegD.faultrec : RegDesc := ⟨0x1801000, 64, 0x10, 2, 0x8,
  [⟨Fld.faultrecData, .ro, (.num 0), .none⟩]⟩

/-- Address of S2_ROOT (R359). -/
def Reg.s2Root (i : Nat) : Nat := 0x1810000 + 0x20 * i
/-- S2_ROOT `s2_root` (R359). -/
def Fld.s2RootS2Root : Field := ⟨12, 40⟩
/-- S2_ROOT (R359). -/
def RegD.s2Root : RegDesc := ⟨0x1810000, 4096, 0x20, 1, 0x0,
  [⟨Fld.s2RootS2Root, .rw, (.num 0), .none⟩]⟩

/-- Address of XL_ICFG (R359). -/
def Reg.xlIcfg (i : Nat) : Nat := 0x1810008 + 0x20 * i
/-- XL_ICFG `s2_mode` (R359). -/
def Fld.xlIcfgS2Mode : Field := ⟨0, 2⟩
/-- XL_ICFG `hw_ad` (R359). -/
def Fld.xlIcfgHwAd : Field := ⟨2, 1⟩
/-- XL_ICFG (R359). -/
def RegD.xlIcfg : RegDesc := ⟨0x1810008, 4096, 0x20, 1, 0x0,
  [⟨Fld.xlIcfgS2Mode, .rw, (.num 0), (.swap 3 0)⟩,
   ⟨Fld.xlIcfgHwAd, .rw, (.num 1), .none⟩]⟩

/-- Address of DM_GRANT (R359). -/
def Reg.dmGrant (i : Nat) : Nat := 0x1810010 + 0x20 * i
/-- DM_GRANT `dm_base` (R359). -/
def Fld.dmGrantDmBase : Field := ⟨0, 16⟩
/-- DM_GRANT `dm_len` (R359). -/
def Fld.dmGrantDmLen : Field := ⟨16, 16⟩
/-- DM_GRANT (R359). -/
def RegD.dmGrant : RegDesc := ⟨0x1810010, 4096, 0x20, 1, 0x0,
  [⟨Fld.dmGrantDmBase, .rw, (.num 0), .none⟩,
   ⟨Fld.dmGrantDmLen, .rw, (.num 0), .none⟩]⟩

/-- Address of SHAPE_CTRL (R255). -/
def Reg.shapeCtrl : Nat := 0x1a00000
/-- SHAPE_CTRL `expert` (R255). -/
def Fld.shapeCtrlExpert : Field := ⟨0, 1⟩
/-- SHAPE_CTRL `mode` (R255). -/
def Fld.shapeCtrlMode : Field := ⟨1, 1⟩
/-- SHAPE_CTRL `de_level` (R255). -/
def Fld.shapeCtrlDeLevel : Field := ⟨4, 4⟩
/-- SHAPE_CTRL `pol_backoff_us` (R255). -/
def Fld.shapeCtrlPolBackoffUs : Field := ⟨8, 8⟩
/-- SHAPE_CTRL `pol_tries` (R255). -/
def Fld.shapeCtrlPolTries : Field := ⟨16, 5⟩
/-- SHAPE_CTRL (R255). -/
def RegD.shapeCtrl : RegDesc := ⟨0x1a00000, 1, 0x0, 1, 0x0,
  [⟨Fld.shapeCtrlExpert, .rw, (.num 0), .none⟩,
   ⟨Fld.shapeCtrlMode, .ro, (.num 0), .none⟩,
   ⟨Fld.shapeCtrlDeLevel, .rwx, (.num 12), (.atLeast 1)⟩,
   ⟨Fld.shapeCtrlPolBackoffUs, .rwx, (.num 10), .none⟩,
   ⟨Fld.shapeCtrlPolTries, .rwx, (.num 16), (.atLeast 1)⟩]⟩

/-- Address of CLASS_HWM (R258). -/
def Reg.classHwm (i : Nat) : Nat := 0x1a00100 + 0x8 * i
/-- CLASS_HWM `cmpl_hwm` (R258). -/
def Fld.classHwmCmplHwm : Field := ⟨0, 32⟩
/-- CLASS_HWM (R258). -/
def RegD.classHwm : RegDesc := ⟨0x1a00100, 8, 0x8, 1, 0x0,
  [⟨Fld.classHwmCmplHwm, .rw, (.num 0), .none⟩]⟩

/-- Address of CLASS_HWM_RC (R258). -/
def Reg.classHwmRc (i : Nat) : Nat := 0x1a00200 + 0x8 * i
/-- CLASS_HWM_RC `cmpl_hwm` (R258). -/
def Fld.classHwmRcCmplHwm : Field := ⟨0, 32⟩
/-- CLASS_HWM_RC (R258). -/
def RegD.classHwmRc : RegDesc := ⟨0x1a00200, 8, 0x8, 1, 0x0,
  [⟨Fld.classHwmRcCmplHwm, .ro, (.num 0), .none⟩]⟩

/-- Address of SHAPER_CFG (R256). -/
def Reg.shaperCfg (i : Nat) : Nat := 0x1b00000 + 0x20 * i
/-- SHAPER_CFG `rate` (R256). -/
def Fld.shaperCfgRate : Field := ⟨0, 24⟩
/-- SHAPER_CFG `burst` (R256). -/
def Fld.shaperCfgBurst : Field := ⟨24, 16⟩
/-- SHAPER_CFG (R256). -/
def RegD.shaperCfg : RegDesc := ⟨0x1b00000, 32768, 0x20, 1, 0x0,
  [⟨Fld.shaperCfgRate, .rw, (.num 0), .none⟩,
   ⟨Fld.shaperCfgBurst, .rw, (.num 64), .none⟩]⟩

/-- Address of SHAPER_STAT (R256). -/
def Reg.shaperStat (i : Nat) : Nat := 0x1b00008 + 0x20 * i
/-- SHAPER_STAT `credit` (R256). -/
def Fld.shaperStatCredit : Field := ⟨0, 32⟩
/-- SHAPER_STAT `wait_hwm` (R256). -/
def Fld.shaperStatWaitHwm : Field := ⟨32, 32⟩
/-- SHAPER_STAT (R256). -/
def RegD.shaperStat : RegDesc := ⟨0x1b00008, 32768, 0x20, 1, 0x0,
  [⟨Fld.shaperStatCredit, .ro, (.num 0), .none⟩,
   ⟨Fld.shaperStatWaitHwm, .rw, (.num 0), .none⟩]⟩

/-- Address of SHAPER_RC (R256). -/
def Reg.shaperRc (i : Nat) : Nat := 0x1b00010 + 0x20 * i
/-- SHAPER_RC `wait_hwm` (R256). -/
def Fld.shaperRcWaitHwm : Field := ⟨0, 32⟩
/-- SHAPER_RC (R256). -/
def RegD.shaperRc : RegDesc := ⟨0x1b00010, 32768, 0x20, 1, 0x0,
  [⟨Fld.shaperRcWaitHwm, .ro, (.num 0), .none⟩]⟩

/-- Address of METER_RATE (R257). -/
def Reg.meterRate (i : Nat) : Nat := 0x1c00000 + 0x20 * i
/-- METER_RATE `cir` (R257). -/
def Fld.meterRateCir : Field := ⟨0, 16⟩
/-- METER_RATE `pir` (R257). -/
def Fld.meterRatePir : Field := ⟨16, 16⟩
/-- METER_RATE `cbs` (R257). -/
def Fld.meterRateCbs : Field := ⟨32, 16⟩
/-- METER_RATE `pbs` (R257). -/
def Fld.meterRatePbs : Field := ⟨48, 16⟩
/-- METER_RATE (R257). -/
def RegD.meterRate : RegDesc := ⟨0x1c00000, 32768, 0x20, 1, 0x0,
  [⟨Fld.meterRateCir, .rw, (.num 0), .none⟩,
   ⟨Fld.meterRatePir, .rw, (.num 0), .none⟩,
   ⟨Fld.meterRateCbs, .rw, (.num 0), .none⟩,
   ⟨Fld.meterRatePbs, .rw, (.num 0), .none⟩]⟩

/-- Address of METER_CNT (R257). -/
def Reg.meterCnt (i : Nat) : Nat := 0x1c00008 + 0x20 * i
/-- METER_CNT `yellow` (R257). -/
def Fld.meterCntYellow : Field := ⟨0, 32⟩
/-- METER_CNT `red` (R257). -/
def Fld.meterCntRed : Field := ⟨32, 32⟩
/-- METER_CNT (R257). -/
def RegD.meterCnt : RegDesc := ⟨0x1c00008, 32768, 0x20, 1, 0x0,
  [⟨Fld.meterCntYellow, .rw, (.num 0), .none⟩,
   ⟨Fld.meterCntRed, .rw, (.num 0), .none⟩]⟩

/-- Address of PORT_HWM (R258). -/
def Reg.portHwm (i : Nat) (j : Nat) : Nat := 0x1e00000 + 0x40 * i + 0x8 * j
/-- PORT_HWM `res_hwm` (R258). -/
def Fld.portHwmResHwm : Field := ⟨0, 32⟩
/-- PORT_HWM (R258). -/
def RegD.portHwm : RegDesc := ⟨0x1e00000, 144, 0x40, 8, 0x8,
  [⟨Fld.portHwmResHwm, .rw, (.num 0), .none⟩]⟩

/-- Address of PORT_HWM_RC (R258). -/
def Reg.portHwmRc (i : Nat) (j : Nat) : Nat := 0x1e10000 + 0x40 * i + 0x8 * j
/-- PORT_HWM_RC `res_hwm` (R258). -/
def Fld.portHwmRcResHwm : Field := ⟨0, 32⟩
/-- PORT_HWM_RC (R258). -/
def RegD.portHwmRc : RegDesc := ⟨0x1e10000, 144, 0x40, 8, 0x8,
  [⟨Fld.portHwmRcResHwm, .ro, (.num 0), .none⟩]⟩

/-- Address of INST_CTRL (R326). -/
def Reg.instCtrl : Nat := 0x8000000
/-- INST_CTRL `expert` (R326). -/
def Fld.instCtrlExpert : Field := ⟨0, 1⟩
/-- INST_CTRL `nr_base_gib` (R326). -/
def Fld.instCtrlNrBaseGib : Field := ⟨1, 7⟩
/-- INST_CTRL `nr_gib` (R326). -/
def Fld.instCtrlNrGib : Field := ⟨8, 7⟩
/-- INST_CTRL `poll_budget` (R326). -/
def Fld.instCtrlPollBudget : Field := ⟨15, 10⟩
/-- INST_CTRL (R326). -/
def RegD.instCtrl : RegDesc := ⟨0x8000000, 1, 0x0, 1, 0x0,
  [⟨Fld.instCtrlExpert, .rw, (.num 0), .none⟩,
   ⟨Fld.instCtrlNrBaseGib, .rw, (.num 88), .none⟩,
   ⟨Fld.instCtrlNrGib, .rw, (.num 8), .none⟩,
   ⟨Fld.instCtrlPollBudget, .rwx, (.num 500), .none⟩]⟩

/-- Address of INST_FREE0 (R327). -/
def Reg.instFree0 : Nat := 0x8000008
/-- INST_FREE0 `sq` (R327). -/
def Fld.instFree0Sq : Field := ⟨0, 17⟩
/-- INST_FREE0 `cq` (R327). -/
def Fld.instFree0Cq : Field := ⟨17, 17⟩
/-- INST_FREE0 `vectors` (R327). -/
def Fld.instFree0Vectors : Field := ⟨34, 17⟩
/-- INST_FREE0 (R327). -/
def RegD.instFree0 : RegDesc := ⟨0x8000008, 1, 0x0, 1, 0x0,
  [⟨Fld.instFree0Sq, .ro, (.num 65536), .none⟩,
   ⟨Fld.instFree0Cq, .ro, (.num 65536), .none⟩,
   ⟨Fld.instFree0Vectors, .ro, (.num 65536), .none⟩]⟩

/-- Address of INST_FREE1 (R327). -/
def Reg.instFree1 : Nat := 0x8000010
/-- INST_FREE1 `ctx` (R327). -/
def Fld.instFree1Ctx : Field := ⟨0, 17⟩
/-- INST_FREE1 `peer_quota` (R327). -/
def Fld.instFree1PeerQuota : Field := ⟨17, 14⟩
/-- INST_FREE1 `hslots` (R327). -/
def Fld.instFree1Hslots : Field := ⟨31, 11⟩
/-- INST_FREE1 `nr_64k` (R327). -/
def Fld.instFree1Nr64k : Field := ⟨42, 20⟩
/-- INST_FREE1 (R327). -/
def RegD.instFree1 : RegDesc := ⟨0x8000010, 1, 0x0, 1, 0x0,
  [⟨Fld.instFree1Ctx, .ro, (.num 65536), .none⟩,
   ⟨Fld.instFree1PeerQuota, .ro, (.num 15360), .none⟩,
   ⟨Fld.instFree1Hslots, .ro, (.num 1024), .none⟩,
   ⟨Fld.instFree1Nr64k, .ro, (.num 131072), .none⟩]⟩

/-- Address of INST_FREE2 (R327). -/
def Reg.instFree2 : Nat := 0x8000018
/-- INST_FREE2 `share` (R327). -/
def Fld.instFree2Share : Field := ⟨0, 20⟩
/-- INST_FREE2 (R327). -/
def RegD.instFree2 : RegDesc := ⟨0x8000018, 1, 0x0, 1, 0x0,
  [⟨Fld.instFree2Share, .ro, (.num 760000), .none⟩]⟩

/-- Address of T_MBX_OUT (R331). -/
def Reg.tMbxOut (i : Nat) (j : Nat) : Nat := 0x10000000 + 0x10000 * i + 0x8 * j
/-- T_MBX_OUT `data` (R331). -/
def Fld.tMbxOutData : Field := ⟨0, 64⟩
/-- T_MBX_OUT (R331). -/
def RegD.tMbxOut : RegDesc := ⟨0x10000000, 4096, 0x10000, 32, 0x8,
  [⟨Fld.tMbxOutData, .rw, (.num 0), .none⟩]⟩

/-- Address of T_MBX_IN (R331). -/
def Reg.tMbxIn (i : Nat) (j : Nat) : Nat := 0x10000100 + 0x10000 * i + 0x8 * j
/-- T_MBX_IN `data` (R331). -/
def Fld.tMbxInData : Field := ⟨0, 64⟩
/-- T_MBX_IN (R331). -/
def RegD.tMbxIn : RegDesc := ⟨0x10000100, 4096, 0x10000, 32, 0x8,
  [⟨Fld.tMbxInData, .ro, (.num 0), .none⟩]⟩

/-- Address of T_MBX_CTRL (R331). -/
def Reg.tMbxCtrl (i : Nat) : Nat := 0x10000200 + 0x10000 * i
/-- T_MBX_CTRL `to_mgr` (R331). -/
def Fld.tMbxCtrlToMgr : Field := ⟨0, 1⟩
/-- T_MBX_CTRL `to_tenant` (R331). -/
def Fld.tMbxCtrlToTenant : Field := ⟨1, 1⟩
/-- T_MBX_CTRL `mbx_vec` (R331). -/
def Fld.tMbxCtrlMbxVec : Field := ⟨2, 6⟩
/-- T_MBX_CTRL (R331). -/
def RegD.tMbxCtrl : RegDesc := ⟨0x10000200, 4096, 0x10000, 1, 0x0,
  [⟨Fld.tMbxCtrlToMgr, .w1ss, (.num 0), .none⟩,
   ⟨Fld.tMbxCtrlToTenant, .w1c, (.num 0), .none⟩,
   ⟨Fld.tMbxCtrlMbxVec, .rw, (.num 0), .none⟩]⟩

/-- Address of T_CNT (R528). -/
def Reg.tCnt (i : Nat) (j : Nat) : Nat := 0x10004000 + 0x10000 * i + 0x8 * j
/-- T_CNT `value` (R528). -/
def Fld.tCntValue : Field := ⟨0, 64⟩
/-- T_CNT: the tenant's view of a counter (R528). -/
def RegD.tCnt : RegDesc := ⟨0x10004000, 4096, 0x10000, 64, 0x8,
  [⟨Fld.tCntValue, .ro, (.num 0), .none⟩]⟩

/-- Address of SQ_CFG (R333). -/
def Reg.sqCfg (i : Nat) (j : Nat) : Nat := 0x10001000 + 0x10000 * i + 0x40 * j
/-- SQ_CFG `enable` (R333). -/
def Fld.sqCfgEnable : Field := ⟨0, 1⟩
/-- SQ_CFG `near` (R333). -/
def Fld.sqCfgNear : Field := ⟨1, 1⟩
/-- SQ_CFG `log_size` (R333). -/
def Fld.sqCfgLogSize : Field := ⟨2, 5⟩
/-- SQ_CFG `cq` (R333). -/
def Fld.sqCfgCq : Field := ⟨7, 6⟩
/-- SQ_CFG `poll` (R333). -/
def Fld.sqCfgPoll : Field := ⟨13, 17⟩
/-- SQ_CFG `backoff` (R333). -/
def Fld.sqCfgBackoff : Field := ⟨30, 1⟩
/-- SQ_CFG `poll_ceil` (R333). -/
def Fld.sqCfgPollCeil : Field := ⟨31, 17⟩
/-- SQ_CFG (R333). -/
def RegD.sqCfg : RegDesc := ⟨0x10001000, 4096, 0x10000, 64, 0x40,
  [⟨Fld.sqCfgEnable, .rw, (.num 0), .none⟩,
   ⟨Fld.sqCfgNear, .rw, (.num 0), .none⟩,
   ⟨Fld.sqCfgLogSize, .rw, (.num 6), .none⟩,
   ⟨Fld.sqCfgCq, .rw, (.num 0), .none⟩,
   ⟨Fld.sqCfgPoll, .rw, (.num 125), .none⟩,
   ⟨Fld.sqCfgBackoff, .rwx, (.num 0), .none⟩,
   ⟨Fld.sqCfgPollCeil, .rwx, (.num 0), .none⟩]⟩

/-- Address of SQ_BASE (R333). -/
def Reg.sqBase (i : Nat) (j : Nat) : Nat := 0x10001008 + 0x10000 * i + 0x40 * j
/-- SQ_BASE `base` (R333). -/
def Fld.sqBaseBase : Field := ⟨0, 64⟩
/-- SQ_BASE (R333). -/
def RegD.sqBase : RegDesc := ⟨0x10001008, 4096, 0x10000, 64, 0x40,
  [⟨Fld.sqBaseBase, .rw, (.num 0), .none⟩]⟩

/-- Address of SQ_STAT (R333). -/
def Reg.sqStat (i : Nat) (j : Nat) : Nat := 0x10001010 + 0x10000 * i + 0x40 * j
/-- SQ_STAT `head` (R333). -/
def Fld.sqStatHead : Field := ⟨0, 16⟩
/-- SQ_STAT `phase` (R333). -/
def Fld.sqStatPhase : Field := ⟨16, 1⟩
/-- SQ_STAT `running` (R333). -/
def Fld.sqStatRunning : Field := ⟨17, 1⟩
/-- SQ_STAT `chain_open` (R333). -/
def Fld.sqStatChainOpen : Field := ⟨18, 1⟩
/-- SQ_STAT `err` (R333). -/
def Fld.sqStatErr : Field := ⟨20, 4⟩
/-- SQ_STAT `kick` (R333). -/
def Fld.sqStatKick : Field := ⟨32, 1⟩
/-- SQ_STAT (R333). -/
def RegD.sqStat : RegDesc := ⟨0x10001010, 4096, 0x10000, 64, 0x40,
  [⟨Fld.sqStatHead, .ro, (.num 0), .none⟩,
   ⟨Fld.sqStatPhase, .ro, (.num 1), .none⟩,
   ⟨Fld.sqStatRunning, .ro, (.num 0), .none⟩,
   ⟨Fld.sqStatChainOpen, .ro, (.num 0), .none⟩,
   ⟨Fld.sqStatErr, .ro, (.num 0), .none⟩,
   ⟨Fld.sqStatKick, .w1s, (.num 0), .none⟩]⟩

/-- Address of CQ_CFG (R334). -/
def Reg.cqCfg (i : Nat) (j : Nat) : Nat := 0x10002000 + 0x10000 * i + 0x40 * j
/-- CQ_CFG `enable` (R334). -/
def Fld.cqCfgEnable : Field := ⟨0, 1⟩
/-- CQ_CFG `log_size` (R334). -/
def Fld.cqCfgLogSize : Field := ⟨1, 5⟩
/-- CQ_CFG `vector` (R334). -/
def Fld.cqCfgVector : Field := ⟨6, 6⟩
/-- CQ_CFG `irq_err` (R334). -/
def Fld.cqCfgIrqErr : Field := ⟨12, 1⟩
/-- CQ_CFG (R334). -/
def RegD.cqCfg : RegDesc := ⟨0x10002000, 4096, 0x10000, 64, 0x40,
  [⟨Fld.cqCfgEnable, .rw, (.num 0), .none⟩,
   ⟨Fld.cqCfgLogSize, .rw, (.num 6), .none⟩,
   ⟨Fld.cqCfgVector, .rw, (.num 0), .none⟩,
   ⟨Fld.cqCfgIrqErr, .rw, (.num 0), .none⟩]⟩

/-- Address of CQ_BASE (R334). -/
def Reg.cqBase (i : Nat) (j : Nat) : Nat := 0x10002008 + 0x10000 * i + 0x40 * j
/-- CQ_BASE `base` (R334). -/
def Fld.cqBaseBase : Field := ⟨0, 64⟩
/-- CQ_BASE (R334). -/
def RegD.cqBase : RegDesc := ⟨0x10002008, 4096, 0x10000, 64, 0x40,
  [⟨Fld.cqBaseBase, .rw, (.num 0), .none⟩]⟩

/-- Address of CQ_HEAD (R334). -/
def Reg.cqHead (i : Nat) (j : Nat) : Nat := 0x10002010 + 0x10000 * i + 0x40 * j
/-- CQ_HEAD `head` (R334). -/
def Fld.cqHeadHead : Field := ⟨0, 16⟩
/-- CQ_HEAD (R334). -/
def RegD.cqHead : RegDesc := ⟨0x10002010, 4096, 0x10000, 64, 0x40,
  [⟨Fld.cqHeadHead, .rw, (.num 0), .none⟩]⟩

/-- Address of CQ_STAT (R334). -/
def Reg.cqStat (i : Nat) (j : Nat) : Nat := 0x10002018 + 0x10000 * i + 0x40 * j
/-- CQ_STAT `tail` (R334). -/
def Fld.cqStatTail : Field := ⟨0, 16⟩
/-- CQ_STAT `phase` (R334). -/
def Fld.cqStatPhase : Field := ⟨16, 1⟩
/-- CQ_STAT `resv` (R334). -/
def Fld.cqStatResv : Field := ⟨17, 17⟩
/-- CQ_STAT `err` (R334). -/
def Fld.cqStatErr : Field := ⟨34, 4⟩
/-- CQ_STAT (R334). -/
def RegD.cqStat : RegDesc := ⟨0x10002018, 4096, 0x10000, 64, 0x40,
  [⟨Fld.cqStatTail, .ro, (.num 0), .none⟩,
   ⟨Fld.cqStatPhase, .ro, (.num 1), .none⟩,
   ⟨Fld.cqStatResv, .ro, (.num 0), .none⟩,
   ⟨Fld.cqStatErr, .ro, (.num 0), .none⟩]⟩

/-- Address of VF_MSIX_ADDR (R276). -/
def Reg.vfMsixAddr (i : Nat) (j : Nat) : Nat := 0x10003000 + 0x10000 * i + 0x10 * j
/-- VF_MSIX_ADDR `addr` (R276). -/
def Fld.vfMsixAddrAddr : Field := ⟨2, 62⟩
/-- VF_MSIX_ADDR (R276). -/
def RegD.vfMsixAddr : RegDesc := ⟨0x10003000, 4096, 0x10000, 64, 0x10,
  [⟨Fld.vfMsixAddrAddr, .rw, (.num 0), .none⟩]⟩

/-- Address of VF_MSIX_DATA (R276). -/
def Reg.vfMsixData (i : Nat) (j : Nat) : Nat := 0x10003008 + 0x10000 * i + 0x10 * j
/-- VF_MSIX_DATA `data` (R276). -/
def Fld.vfMsixDataData : Field := ⟨0, 32⟩
/-- VF_MSIX_DATA `mask` (R276). -/
def Fld.vfMsixDataMask : Field := ⟨32, 1⟩
/-- VF_MSIX_DATA (R276). -/
def RegD.vfMsixData : RegDesc := ⟨0x10003008, 4096, 0x10000, 64, 0x10,
  [⟨Fld.vfMsixDataData, .rw, (.num 0), .none⟩,
   ⟨Fld.vfMsixDataMask, .rw, (.num 1), .none⟩]⟩

/-- Address of VF_PBA (R276). -/
def Reg.vfPba (i : Nat) : Nat := 0x10003800 + 0x10000 * i
/-- VF_PBA `pending` (R276). -/
def Fld.vfPbaPending : Field := ⟨0, 64⟩
/-- VF_PBA (R276). -/
def RegD.vfPba : RegDesc := ⟨0x10003800, 4096, 0x10000, 1, 0x0,
  [⟨Fld.vfPbaPending, .ro, (.num 0), .none⟩]⟩

/-- Address of TPAGE_ID (R282). -/
def Reg.tpageId (i : Nat) : Nat := 0x10003f00 + 0x10000 * i
/-- TPAGE_ID `vendor` (R282). -/
def Fld.tpageIdVendor : Field := ⟨0, 16⟩
/-- TPAGE_ID `part` (R282). -/
def Fld.tpageIdPart : Field := ⟨16, 16⟩
/-- TPAGE_ID `inst` (R282). -/
def Fld.tpageIdInst : Field := ⟨32, 12⟩
/-- TPAGE_ID `bound` (R282). -/
def Fld.tpageIdBound : Field := ⟨44, 1⟩
/-- TPAGE_ID (R282). -/
def RegD.tpageId : RegDesc := ⟨0x10003f00, 4096, 0x10000, 1, 0x0,
  [⟨Fld.tpageIdVendor, .ro, (.num 0x0A71), .none⟩,
   ⟨Fld.tpageIdPart, .ro, (.num 0x0144), .none⟩,
   ⟨Fld.tpageIdInst, .ro, (.num 0), .none⟩,
   ⟨Fld.tpageIdBound, .ro, (.num 0), .none⟩]⟩

/-- Address of WIN_CFG (R360). -/
def Reg.winCfg (i : Nat) (j : Nat) : Nat := 0x10008000 + 0x10000 * i + 0x40 * j
/-- WIN_CFG `enable` (R360). -/
def Fld.winCfgEnable : Field := ⟨0, 1⟩
/-- WIN_CFG `rd` (R360). -/
def Fld.winCfgRd : Field := ⟨1, 1⟩
/-- WIN_CFG `wr` (R360). -/
def Fld.winCfgWr : Field := ⟨2, 1⟩
/-- WIN_CFG `atomic` (R360). -/
def Fld.winCfgAtomic : Field := ⟨3, 1⟩
/-- WIN_CFG `kind` (R360). -/
def Fld.winCfgKind : Field := ⟨4, 1⟩
/-- WIN_CFG `tag` (R360). -/
def Fld.winCfgTag : Field := ⟨5, 25⟩
/-- WIN_CFG `src_fid` (R360). -/
def Fld.winCfgSrcFid : Field := ⟨30, 18⟩
/-- WIN_CFG `src_chk` (R360). -/
def Fld.winCfgSrcChk : Field := ⟨48, 1⟩
/-- WIN_CFG (R360). -/
def RegD.winCfg : RegDesc := ⟨0x10008000, 4096, 0x10000, 128, 0x40,
  [⟨Fld.winCfgEnable, .rw, (.num 0), .none⟩,
   ⟨Fld.winCfgRd, .rw, (.num 0), .none⟩,
   ⟨Fld.winCfgWr, .rw, (.num 0), .none⟩,
   ⟨Fld.winCfgAtomic, .rw, (.num 0), .none⟩,
   ⟨Fld.winCfgKind, .rw, (.num 0), .none⟩,
   ⟨Fld.winCfgTag, .rw, (.num 0), .none⟩,
   ⟨Fld.winCfgSrcFid, .rw, (.num 0), .none⟩,
   ⟨Fld.winCfgSrcChk, .rw, (.num 0), .none⟩]⟩

/-- Address of WIN_BASE (R360). -/
def Reg.winBase (i : Nat) (j : Nat) : Nat := 0x10008008 + 0x10000 * i + 0x40 * j
/-- WIN_BASE `base` (R360). -/
def Fld.winBaseBase : Field := ⟨0, 64⟩
/-- WIN_BASE (R360). -/
def RegD.winBase : RegDesc := ⟨0x10008008, 4096, 0x10000, 128, 0x40,
  [⟨Fld.winBaseBase, .rw, (.num 0), .none⟩]⟩

/-- Address of WIN_LEN (R360). -/
def Reg.winLen (i : Nat) (j : Nat) : Nat := 0x10008010 + 0x10000 * i + 0x40 * j
/-- WIN_LEN `len` (R360). -/
def Fld.winLenLen : Field := ⟨0, 49⟩
/-- WIN_LEN (R360). -/
def RegD.winLen : RegDesc := ⟨0x10008010, 4096, 0x10000, 128, 0x40,
  [⟨Fld.winLenLen, .rw, (.num 0), .none⟩]⟩

/-- Address of WIN_STAT (R360). -/
def Reg.winStat (i : Nat) (j : Nat) : Nat := 0x10008018 + 0x10000 * i + 0x40 * j
/-- WIN_STAT `rejects` (R360). -/
def Fld.winStatRejects : Field := ⟨0, 32⟩
/-- WIN_STAT (R360). -/
def RegD.winStat : RegDesc := ⟨0x10008018, 4096, 0x10000, 128, 0x40,
  [⟨Fld.winStatRejects, .rw, (.num 0), .none⟩]⟩

/-- Address of WIN_KEY (R360). -/
def Reg.winKey (i : Nat) (j : Nat) : Nat := 0x10008020 + 0x10000 * i + 0x40 * j
/-- WIN_KEY `key` (R360). -/
def Fld.winKeyKey : Field := ⟨0, 32⟩
/-- WIN_KEY (R360). -/
def RegD.winKey : RegDesc := ⟨0x10008020, 4096, 0x10000, 128, 0x40,
  [⟨Fld.winKeyKey, .ro, .idx, .none⟩]⟩

/-- Address of XL_S1 (R361). -/
def Reg.xlS1 (i : Nat) : Nat := 0x1000a000 + 0x10000 * i
/-- XL_S1 `s1_on` (R361). -/
def Fld.xlS1S1On : Field := ⟨0, 1⟩
/-- XL_S1 `s1_root` (R361). -/
def Fld.xlS1S1Root : Field := ⟨12, 40⟩
/-- XL_S1 (R361). -/
def RegD.xlS1 : RegDesc := ⟨0x1000a000, 4096, 0x10000, 1, 0x0,
  [⟨Fld.xlS1S1On, .rw, (.num 0), .none⟩,
   ⟨Fld.xlS1S1Root, .rw, (.num 0), .none⟩]⟩

/-- Address of T_XL_INV (R361). -/
def Reg.tXlInv (i : Nat) : Nat := 0x1000a008 + 0x10000 * i
/-- T_XL_INV `scope` (R361). -/
def Fld.tXlInvScope : Field := ⟨0, 2⟩
/-- T_XL_INV `go` (R361). -/
def Fld.tXlInvGo : Field := ⟨2, 1⟩
/-- T_XL_INV `busy` (R361). -/
def Fld.tXlInvBusy : Field := ⟨3, 1⟩
/-- T_XL_INV `err` (R361). -/
def Fld.tXlInvErr : Field := ⟨4, 1⟩
/-- T_XL_INV (R361). -/
def RegD.tXlInv : RegDesc := ⟨0x1000a008, 4096, 0x10000, 1, 0x0,
  [⟨Fld.tXlInvScope, .rw, (.num 0), (.only 1 2 1)⟩,
   ⟨Fld.tXlInvGo, .w1s, (.num 0), .none⟩,
   ⟨Fld.tXlInvBusy, .ro, (.num 0), .none⟩,
   ⟨Fld.tXlInvErr, .w1c, (.num 0), .none⟩]⟩

/-- Address of T_INV_ADDR (R361). -/
def Reg.tInvAddr (i : Nat) : Nat := 0x1000a010 + 0x10000 * i
/-- T_INV_ADDR `addr` (R361). -/
def Fld.tInvAddrAddr : Field := ⟨0, 64⟩
/-- T_INV_ADDR (R361). -/
def RegD.tInvAddr : RegDesc := ⟨0x1000a010, 4096, 0x10000, 1, 0x0,
  [⟨Fld.tInvAddrAddr, .rw, (.num 0), .none⟩]⟩

/-- Address of T_INV_LEN (R361). -/
def Reg.tInvLen (i : Nat) : Nat := 0x1000a018 + 0x10000 * i
/-- T_INV_LEN `len` (R361). -/
def Fld.tInvLenLen : Field := ⟨0, 36⟩
/-- T_INV_LEN (R361). -/
def RegD.tInvLen : RegDesc := ⟨0x1000a018, 4096, 0x10000, 1, 0x0,
  [⟨Fld.tInvLenLen, .rw, (.num 0), .none⟩]⟩

/-- Address of XL_FAULT0 (R361). -/
def Reg.xlFault0 (i : Nat) : Nat := 0x1000a020 + 0x10000 * i
/-- XL_FAULT0 `addr` (R361). -/
def Fld.xlFault0Addr : Field := ⟨0, 52⟩
/-- XL_FAULT0 `level` (R361). -/
def Fld.xlFault0Level : Field := ⟨52, 2⟩
/-- XL_FAULT0 `stage` (R361). -/
def Fld.xlFault0Stage : Field := ⟨54, 1⟩
/-- XL_FAULT0 `side` (R361). -/
def Fld.xlFault0Side : Field := ⟨55, 1⟩
/-- XL_FAULT0 `access` (R361). -/
def Fld.xlFault0Access : Field := ⟨56, 2⟩
/-- XL_FAULT0 `kind` (R361). -/
def Fld.xlFault0Kind : Field := ⟨58, 4⟩
/-- XL_FAULT0 `over` (R361). -/
def Fld.xlFault0Over : Field := ⟨62, 1⟩
/-- XL_FAULT0 `valid` (R361). -/
def Fld.xlFault0Valid : Field := ⟨63, 1⟩
/-- XL_FAULT0 (R361). -/
def RegD.xlFault0 : RegDesc := ⟨0x1000a020, 4096, 0x10000, 1, 0x0,
  [⟨Fld.xlFault0Addr, .ro, (.num 0), .none⟩,
   ⟨Fld.xlFault0Level, .ro, (.num 0), .none⟩,
   ⟨Fld.xlFault0Stage, .ro, (.num 0), .none⟩,
   ⟨Fld.xlFault0Side, .ro, (.num 0), .none⟩,
   ⟨Fld.xlFault0Access, .ro, (.num 0), .none⟩,
   ⟨Fld.xlFault0Kind, .ro, (.num 0), .none⟩,
   ⟨Fld.xlFault0Over, .ro, (.num 0), .none⟩,
   ⟨Fld.xlFault0Valid, .w1c, (.num 0), .none⟩]⟩

/-- Address of XL_FAULT1 (R361). -/
def Reg.xlFault1 (i : Nat) : Nat := 0x1000a028 + 0x10000 * i
/-- XL_FAULT1 `word` (R361). -/
def Fld.xlFault1Word : Field := ⟨0, 64⟩
/-- XL_FAULT1 (R361). -/
def RegD.xlFault1 : RegDesc := ⟨0x1000a028, 4096, 0x10000, 1, 0x0,
  [⟨Fld.xlFault1Word, .ro, (.num 0), .none⟩]⟩

/-- Part 0 of the register table. -/
def regPart0 : List RegDesc := [RegD.part, RegD.version, RegD.serial, RegD.units, RegD.unitOk0, RegD.unitOk1, RegD.unitOk2, RegD.unitOk3, RegD.imgCtrl, RegD.imgStatus, RegD.imgId, RegD.imgTileId, RegD.fuseData, RegD.fuseCtrl, RegD.keyHash, RegD.keystat, RegD.strap, RegD.avs, RegD.bayReset, RegD.bayForce, RegD.flogIdx, RegD.smb, RegD.pollCfg, RegD.pollData, RegD.flog0, RegD.flog1, RegD.sageStat, RegD.sageCmd, RegD.faultCtrl, RegD.faultStat]

/-- Part 1 of the register table. -/
def regPart1 : List RegDesc := [RegD.faultTime, RegD.infoHead, RegD.faultValid, RegD.faultSev, RegD.repair, RegD.spare, RegD.spareMap, RegD.rec0, RegD.rec1, RegD.srcCfg, RegD.srcStat, RegD.info0, RegD.info1, RegD.perfCtrl, RegD.cntSel, RegD.cntAlo, RegD.cntAhi, RegD.cntVal, RegD.rail, RegD.temp, RegD.droop, RegD.sensCtrl, RegD.snap, RegD.bwLast, RegD.bwPeak, RegD.sampCtrl, RegD.sampBuf, RegD.sampStat, RegD.sampCnt, RegD.sampThr]

/-- Part 2 of the register table. -/
def regPart2 : List RegDesc := [RegD.exchCtrl, RegD.classMap, RegD.arbQuota, RegD.outStat, RegD.outCnt0, RegD.outCnt1, RegD.outHwm, RegD.laneCtrl, RegD.portStat, RegD.portPartner, RegD.portMeas, RegD.linkCtrl, RegD.linkStat, RegD.linkCred, RegD.laneStat, RegD.laneErr, RegD.laneExp, RegD.linkErr, RegD.linkErr2, RegD.routeCtrl, RegD.routeBank, RegD.routeEpoch, RegD.routeStat, RegD.discCmd, RegD.discPath, RegD.portChg, RegD.peerMap, RegD.discAns, RegD.xportCtrl, RegD.xportCtrl2]

/-- Part 3 of the register table. -/
def regPart3 : List RegDesc := [RegD.xportInc, RegD.xportStat, RegD.xportStat2, RegD.xportStat3, RegD.raeCtrl, RegD.raeStat, RegD.raeCnt0, RegD.raeCnt1, RegD.hostCtrl, RegD.hostStat, RegD.dmemMap, RegD.hostErr, RegD.events, RegD.evtMask, RegD.pfPba, RegD.pfMsixAddr, RegD.pfMsixData, RegD.instCmd, RegD.instStat, RegD.instCfg, RegD.instAlloc0, RegD.instAlloc1, RegD.instMove, RegD.mbxIn, RegD.mbxOut, RegD.mbxCtrl, RegD.dlogBase, RegD.dlogPages, RegD.dlogCtrl, RegD.matchCtrl]

/-- Part 4 of the register table. -/
def regPart4 : List RegDesc := [RegD.matchPool, RegD.matchFree0, RegD.matchFree1, RegD.matchStat0, RegD.matchStat1, RegD.matchStat2, RegD.entSel, RegD.entData, RegD.matchInst, RegD.ctxCfg, RegD.ctxStat, RegD.collCtrl, RegD.gsvc, RegD.gsvcBuf, RegD.collStat, RegD.collStat1, RegD.commEnt, RegD.commCtl, RegD.handCtrl, RegD.handCore, RegD.handInst, RegD.trigCfg, RegD.trigArg, RegD.trigStat, RegD.cohCtrl, RegD.cohRegion, RegD.dirSel, RegD.dirData, RegD.slCnt0, RegD.slCnt1]

/-- Part 5 of the register table. -/
def regPart5 : List RegDesc := [RegD.slStat, RegD.hbmRetire, RegD.lockCtrl, RegD.lockStat, RegD.lockCnt, RegD.lockForce, RegD.lockForceOwn, RegD.lockLogIdx, RegD.lockLog, RegD.xlatCtrl, RegD.xlatStat, RegD.xlatInv, RegD.invAddr, RegD.invLen, RegD.rsvMap, RegD.faultq, RegD.faultrec, RegD.s2Root, RegD.xlIcfg, RegD.dmGrant, RegD.shapeCtrl, RegD.classHwm, RegD.classHwmRc, RegD.shaperCfg, RegD.shaperStat, RegD.shaperRc, RegD.meterRate, RegD.meterCnt, RegD.portHwm, RegD.portHwmRc]

/-- Part 6 of the register table. -/
def regPart6 : List RegDesc := [RegD.instCtrl, RegD.instFree0, RegD.instFree1, RegD.instFree2, RegD.tMbxOut, RegD.tMbxIn, RegD.tMbxCtrl, RegD.tCnt, RegD.sqCfg, RegD.sqBase, RegD.sqStat, RegD.cqCfg, RegD.cqBase, RegD.cqHead, RegD.cqStat, RegD.vfMsixAddr, RegD.vfMsixData, RegD.vfPba, RegD.tpageId, RegD.winCfg, RegD.winBase, RegD.winLen, RegD.winStat, RegD.winKey, RegD.xlS1, RegD.tXlInv, RegD.tInvAddr, RegD.tInvLen, RegD.xlFault0, RegD.xlFault1]

/-- Every register of the spec. -/
def regTable : List RegDesc := regPart0 ++ regPart1 ++ regPart2 ++ regPart3 ++ regPart4 ++ regPart5 ++ regPart6

/-- Whether address `a` is a register of the family, and with which indices. -/
def RegDesc.at? (d : RegDesc) (a : Nat) : Option (Nat × Nat) :=
  if a < d.base then none
  else
    let o := a - d.base
    let i := if d.s1 = 0 then 0 else o / d.s1
    let r := if d.s1 = 0 then o else o % d.s1
    let j := if d.s2 = 0 then 0 else r / d.s2
    let z := if d.s2 = 0 then r else r % d.s2
    if z = 0 ∧ i < d.n1 ∧ j < d.n2 then some (i, j) else none

/-- The register at address `a`, if the spec gives one there. -/
def regAt (a : Nat) : Option (RegDesc × Nat × Nat) :=
  regTable.findSome? (fun d => (d.at? a).map (fun ij => (d, ij.1, ij.2)))

end Sys2Proof.Machine
end

