-- ==== Sys2Proof/Machine/State.lean ====
section
/-! DEFINITION. State: everything the spec gives the device, as plain data; the faults and refusals;
the state after reset. Registers are one sparse table keyed by address (Regs.lean); the structures
below hold what no register holds. -/

namespace Sys2Proof.Machine

/-- The reasons a step can stop with a fault. The spec gives every command an effect, so no command
of this model raises one: what the spec calls a fault is an effect on the state. -/
inductive Fault where
  /-- Raised by no command. Safe: it could only stop a run. -/
  | none
deriving DecidableEq, Repr

/-- The reasons a step can be refused. -/
inductive Refusal where
  /-- Answered by exec's arm of a command that has no meaning yet. Safe: the run stops there. -/
  | notModelled (mnemonic : String)
deriving DecidableEq, Repr

/-! ## What the device sends -/

/-- The function whose Requester ID a request carries (R270): PF0 of a link or VF `vf` of it. -/
structure Func where
  link : Nat
  vf : Nat
deriving DecidableEq, Repr

/-- A control block pair sent on a port (R86, R118). -/
inductive Ctl where
  | idle
  | cap (c : CapRec)
  | capAck (crc : Nat)
  | echoReq (num : Nat) (stamp : Word)
  | echoRsp (num : Nat) (stamp : Word) (turn : Nat)
  | adapt (lane coeff : Nat)
  | degrade (pos : Nat)
  | degradeAck (pos : Nat)
  | retrain
  | seal (recs : List SealRec) (ack : Nat)
  | credit (recs : List CreditRec) (ack : Nat)
  | nak (nums : List Nat) (ack : Nat)
  | replay (first ack : Nat)
  | keepalive (next ack : Nat) (empty : Bool)
  | init (part : Nat) (reserve : List Nat) (shared cap next : Nat)
  | initAck (parts : Nat)
deriving DecidableEq, Repr

/-- What a request TLP carries: the Relaxed Ordering attribute (R270), the ID-based Ordering attribute and an ECRC (R260). -/
structure TlpAttr where
  ro : Bool
  ido : Bool
  ecrc : Bool
deriving DecidableEq, Repr

/-- Everything that leaves the device. -/
inductive Out where
  /-- A control block pair on a fabric port. -/
  | ctl (port : Nat) (c : Ctl)
  /-- A flit on a fabric port. -/
  | flit (port : Nat) (bytes : List Byte)
  /-- A directed discovery query sent on a fabric port (R211). -/
  | discQ (port : Nat) (q : DiscQuery)
  /-- A discovery answer sent on a fabric port (R211). -/
  | discA (port : Nat) (a : DiscAnswer)
  /-- A memory write on a host link. -/
  | memWrite (f : Func) (addr : Nat) (data : List Byte) (attr : TlpAttr)
  /-- A memory read on a host link. -/
  | memRead (f : Func) (tag addr len : Nat) (attr : TlpAttr)
  /-- An AtomicOp on a host link (R272). -/
  | atomicOp (f : Func) (tag addr : Nat) (op size op1 op2 : Nat) (attr : TlpAttr)
  /-- An MSI-X message (R276). -/
  | msix (f : Func) (vector : Nat)
  /-- Assert_INTA or Deassert_INTA on a link (R277). -/
  | intx (link : Nat) (assert : Bool)
  /-- The completion of a host read: data, Unsupported Request or Completer Abort (R278, R280). -/
  | cpl (link : Nat) (status : CplStatus) (data : List Byte)
  /-- The completion of a configuration request (R279). -/
  | cfgCpl (link : Nat) (value : Nat)
  /-- An AER error that function `vf` of a link reports, and whether its severity register calls it fatal (R278). -/
  | aer (f : Func) (err : Nat) (fatal : Bool)
  /-- The answer to a register read by the sideband or a host. -/
  | readData (value : Word)
  /-- A sideband response: command byte, completion code, data (R557). -/
  | sideband (cmd code : Nat) (data : List Byte)
  /-- A request of the device as SMBus controller (R561). -/
  | smbRead (entry addr cmd : Nat) (word : Bool)
  /-- An AVSBus request for a VDD_CORE setting (R543). -/
  | avs (set : Nat)
  /-- The symbols of one codeword on a lane, as PAM4 levels (R75, R82). -/
  | symbols (lane : Nat) (levels : List Int)
  /-- The lane's receiver presents its termination, or is high-impedance (R578). -/
  | termination (lane : Nat) (on : Bool)
  /-- The lane's transmitter goes electrically idle. -/
  | laneIdle (lane : Nat)
  /-- The lane's transmitter sends PRBS13 (1) or PRBS31 (2) in place of idling (R105). -/
  | prbs (lane kind : Nat)
  /-- A flash sector or page operation on the SPI port is done. -/
  | flashOp (addr len : Nat)
  /-- The answer to an MCTP control command (R556): its command code and its data. -/
  | mctp (cmd : Nat) (data : List Byte)
  /-- The sideband port, as target, releases the SMBus clock (R555). -/
  | smbRelease
  /-- The test port's identification code is selected for shifting (R562). -/
  | jtagId (code : Nat)
deriving DecidableEq, Repr

/-! ## Islands, units and the structure image -/

/-- A unit that a fence can hold (R500, R505). -/
inductive FUnit where
  | tile (n : Nat) | basil (n : Nat) | rae (e : Nat) | dill (e : Nat) | fennel (e : Nat) | core (c : Nat)
  | hub (h : Nat) | sage (c : Nat)
deriving DecidableEq, Repr

/-- An island (R15, R17): its reset, clock and channels, and for a digital island the setpoint of its voltage domain in steps of 5 mV
above 0.60 V, and whether a raise waits for VDD_CORE (R543). The domains of the serdes macros stand in `MacroSt`. -/
structure Island where
  inReset : Bool
  clockLocked : Bool
  loaded : Bool
  channelsOpen : Bool
  setpoint : Nat
  rising : Bool
deriving DecidableEq, Repr

/-- What is fused at manufacture or by the integrator (R24 to R27, R50 to R52, R62). -/
structure Fuses where
  stepping : Nat
  grade : Nat
  keyopt : Nat
  serial : Word
  okTiles : Nat
  okRae : Nat
  okFennel : Nat
  okHosts : Nat
  okHbm : Nat
  okDill : Nat
  okMarjoram : Nat
  okSorrel : Nat
  keyHash : List (BitVec 384)
  programmed : Nat
  revoked : Nat
  requireCust : Bool
deriving DecidableEq, Repr

/-- A LANE_MAP record (R44). -/
structure LaneRec where
  laneA : Nat
  laneB : Nat
  width : Nat
deriving DecidableEq, Repr

/-- The TOPOLOGY section (R44). -/
structure Topology where
  profile : Nat
  portsPerPeer : Nat
  groups : Nat
  fid : Nat
  rows : Nat
  cols : Nat
  roles : List Nat
deriving DecidableEq, Repr

/-- The contents of a structure image (R44): what an apply puts in force. -/
structure ImgConfig where
  imageId : Word
  laneMap : List LaneRec
  tileMap : List Nat
  spareTile : Nat
  topo : Topology
  classVc : Nat
  buffer : List (List Nat)
  cohGib : Nat
  engines : List Nat
  policing : List Word
  routes : List (Nat × List Nat)
  locks : List Nat
deriving DecidableEq, Repr

/-- A verified tile image (R65): its target and the records of its slot. -/
structure TileImage where
  imageId : Word
  slot : Nat
  phys : Nat
  newSpare : Nat
  laneMap : List LaneRec
  buffer : List (List Nat)
  routes : List (Nat × List Nat)
deriving DecidableEq, Repr

/-- A verified full image and where it came from (1 host window, 2 flash primary, 3 flash secondary). -/
structure FullImage where
  config : ImgConfig
  source : Nat
deriving DecidableEq, Repr

/-- The command in progress in the IMAGE block (R56). -/
inductive ImgOp where
  | idle
  | load
  | applyFull (img : FullImage) (retained : Bool)
  | applyTile (t : TileImage)
  | fetch (secondary : Bool) (boot : Bool)
  | fuse (slot : Nat) (revoke reqCust : Bool) (hash : BitVec 384)
deriving DecidableEq, Repr

/-- The IMAGE block beyond its registers. -/
structure ImageSt where
  staging : List Host.Cell
  verifiedFull : Option FullImage
  verifiedTile : Option TileImage
  retained : Option FullImage
  applied : Option ImgConfig
  op : ImgOp
  bootError : Nat
  coldPending : Option (ColdCause × Straps)
  flash : List Host.Cell
deriving DecidableEq, Repr

/-! ## Ports: bring-up and link layer -/

/-- Bring-up of one port (R87 to R104): the CAP last received and the CAP last sent (R572), and the test pattern that its
lanes send in OFF, 0 none (R105). -/
structure PortSt where
  triesA : Nat
  triesB : Nat
  waitedUs : Nat
  laneA : Bool
  laneB : Bool
  firstDetect : Bool
  lastCap : Option CapRec
  capAcked : Bool
  ackOk : Bool
  echoSent : Nat
  echoAnswers : List (Nat × Nat)
  degradePos : Option Nat
  sentCap : Option CapRec
  pattern : Nat
deriving DecidableEq, Repr

/-- Marker and codeword tracking of one physical lane (R84, R102): the codewords received since the marker that began its
grid, and those of them that were uncorrectable (R85); its coefficients and those of its last snapshot (R90, R99); the
shift of its codeword grid (R111); the descrambler and the scrambler, the last bit first (R79); and its transmit stream:
blocks since its last marker, the next marker count (R81), bits of a message not yet full (R82) and the last level index
sent (R76). -/
structure LaneSt where
  goodRun : Nat
  lastCount : Nat
  badRun : Nat
  uncorrRun : Nat
  coeff : Nat
  grid : Nat
  snapCoeff : Nat
  cw : Nat
  badCws : List Nat
  rxScr : BitVec 58
  txScr : BitVec 58
  txBlocks : Nat
  txMark : Nat
  txBits : List Bool
  txLevel : Nat
deriving DecidableEq, Repr

/-- One serdes macro's load rule (R99 to R101); its setpoint counts steps of 5 mV above 0.70 V (R543). -/
structure MacroSt where
  snapLoad : Nat
  setpoint : Nat
  measuring : Bool
  mayFall : Bool
  pendingRise : Bool
deriving DecidableEq, Repr

/-- A frame as sent and retained (R113, R135), with the packets that have a flit in it. -/
structure Frame where
  seq : Nat
  flits : List (List Byte)
  hmap : Nat
  smap : Nat
  abort : Bool
  ids : List Nat
deriving DecidableEq, Repr

/-- A packet in the receive pool or at an exchange input: where it came from and how it is charged; `charged` while it holds flits of a
receive pool, `ready` when it was first ready for its output (R178), `part` while flits of it have still to arrive (R124). -/
structure WaitPkt where
  id : Nat
  pkt : Packet
  inPort : Option Nat
  inVc : Nat
  shared : Bool
  ep : Nat
  lane : Nat
  out : Option Nat
  arrived : Nat
  graceFrom : Option Nat
  aborted : Bool
  charged : Bool
  ready : Nat
  part : Bool
deriving DecidableEq, Repr

/-- A packet the egress tile is sending on its link (R122, R123): the packet as it waited, its VC on the link, the flits
still to send, the account charged, the frame of its header flit, and whether no flit of it has moved since an express
packet passed it (R169). -/
structure TxPkt where
  wp : WaitPkt
  vc : Nat
  flits : List (List Byte)
  started : Bool
  shared : Bool
  first : Nat
  yielded : Bool
deriving DecidableEq, Repr

/-- A packet being received on a link: where it waits, header, account charged, and flits so far (R122). -/
structure RxOpen where
  id : Nat
  pkt : Packet
  shared : Bool
  need : Nat
  got : List (List Byte)
deriving DecidableEq, Repr

/-- The link layer of one port (R113 to R145). -/
structure LinkSt where
  nextSeq : Nat
  cur : Frame
  group : List Frame
  groupRetx : Bool
  sealDue : Bool
  half : Bool
  curRetx : List (List Byte)
  retxQ : List Frame
  txPkts : List TxPkt
  store : List Frame
  storePkts : List (Nat × Nat × WaitPkt)
  reserveFree : Table Nat
  sharedFree : Nat
  sharedHeld : Table Nat
  peerCap : Nat
  initIn0 : Option (List Nat × Nat × Nat × Nat)
  initIn1 : Option (List Nat × Nat × Nat × Nat)
  initAcked : Bool
  adopted : Bool
  firstSent : Bool
  kaDue : Bool
  creditDue : Bool
  nakDue : List Nat
  replayDue : Option Nat
  sealLost : Bool
  lastAck : Nat
  nextExp : Nat
  reorder : List (Frame × List Bool)
  missing : List (Nat × Nat)
  replayWait : Option Nat
  replays : Nat
  ackSent : Nat
  myCap : Nat
  freed : List (Nat × Bool × Nat)
  rxOpen : List RxOpen
  peerEmpty : Bool
  downSince : Option Nat
deriving DecidableEq, Repr

/-! ## Exchange -/

/-- An entry of an output's pending queue (R159, R162, R165). `turn` is 0 between turns and one above the grants left in
a turn; `raised` while a turn is served by age; `kept` in one of the four entries of class 0; `tcs` the traffic classes
whose packets it serves, which keep its class (R180). -/
structure ReqEntry where
  ep : Nat
  cls : Nat
  count : Nat
  turn : Nat
  age : Nat
  raised : Bool
  kept : Bool
  tcs : List Nat
deriving DecidableEq, Repr

/-- A grant in progress (R167, R169, R171): the packet, the class granted, its output flit lane, the express packets that
interrupt it at its output or on its input flit lane, when it last resumed, and the credit account set aside for it. -/
structure Grant where
  wp : WaitPkt
  cls : Nat
  lane : Nat
  heldBy : List Nat
  resumed : Option Nat
  acct : Bool
deriving DecidableEq, Repr

/-- One output's arbiter (R152, R153): the window's grants so far and those of class 0, and the limits that the window
began with (R163, R181). -/
structure OutSt where
  queue : List ReqEntry
  grants : List Grant
  window : Nat
  quota : Nat
  winLen : Nat
  winQuota : Nat
  winAge : Nat
  paused : Bool
  refusedReqs : List (Nat × Nat)
  rr : Table Nat
deriving DecidableEq, Repr

/-! ## Routing -/

/-- The stored beacon of one peer (R199). -/
structure BeaconSt where
  beacon : Option BeaconRec
  fresh : Bool
deriving DecidableEq, Repr

/-- A bank operation in progress (R209, R210). -/
inductive BankOp where
  | none | swap | copy
deriving DecidableEq, Repr

/-- A query or an answer on its way (R211). -/
inductive DiscMsg where
  | query (q : DiscQuery)
  | answer (a : DiscAnswer)
deriving DecidableEq, Repr

/-- An entry of the discovery buffer (R211): the packet that carries it, its port and the message. -/
structure DiscEntry where
  id : Nat
  port : Nat
  msg : DiscMsg
deriving DecidableEq, Repr

/-- Routing state beyond the registers: the banks, beacons, random registers and toggles, and the discovery buffer. A group table entry is eight candidates of 32 bits. -/
structure RouteSt where
  activeBank : Table (List Nat)
  shadowBank : Table (List Nat)
  bankOp : BankOp
  beacons : Table BeaconSt
  bseq : Nat
  random : Table Nat
  toggle : Table Nat
  rr : Table Nat
  partner : Table (Nat × Nat)
  disc : List DiscEntry
deriving DecidableEq, Repr

/-! ## Transport -/

/-- A peer record (R228); `hub` placed the peer's latest packet (R235), `syncHub` sends the SYNC that waits, and `missed` tells
that a window period ended while the record was not cached (R235). -/
structure PeerRec where
  txNext : Nat
  txUna : Nat
  txLimit : Nat
  rxNext : Nat
  rxLimit : Nat
  rxWin : Nat
  peerInc : Nat
  outstanding : Nat
  valid : Bool
  down : Bool
  syncPending : Bool
  txSync : Bool
  used : Nat
  rxMap : List Nat
  lastUs : Nat
  unacked : Nat
  syncTries : Nat
  syncSeq : Nat
  syncTc : Nat
  ackTc : Nat
  hub : Nat
  syncHub : Nat
  missed : Bool
deriving DecidableEq, Repr

/-- A sequenced packet sent and not acknowledged (R236); `op` is the operation it belongs to, 0 for none. -/
structure SentPkt where
  idx : Nat
  seq : Nat
  pkt : Packet
  attempt : Nat
  hub : Nat
  op : Nat
  nacked : Bool
deriving DecidableEq, Repr

/-- A packet on its way out of an instance: it waits in its shaper, for its peer's record, for the window, or
behind a SYNC. `op` is the operation it belongs to, 0 for none; `drops` its red drops in a row (R246). -/
structure OutPkt where
  pkt : Packet
  op : Nat
  hub : Nat
  drops : Nat
deriving DecidableEq, Repr

/-- A shaper queue and its meter's tokens (R243, R245, R246). The credit counts eight-hundredths of a byte and the
tokens eightieths, so that a nanosecond of any rate is a whole number. -/
structure ShaperSt where
  queue : List OutPkt
  credit : Int
  creditAt : Nat
  tokC : Nat
  tokP : Nat
  tokAt : Nat
  paused : Bool
deriving DecidableEq, Repr

/-- An open transfer record at the target (R240, R378): the packets it expects, has accepted and has placed, the
final packet held, and the peer index of its packets. -/
structure XferRec where
  count : Nat
  accepted : Nat
  placed : Nat
  held : Option Packet
  failed : Bool
  idx : Nat
  tInst : Nat
  isRsp : Bool
  quiet : Bool
  first : Packet
deriving DecidableEq, Repr

/-- A packet being placed (R371, R379): the memory of `inst` that it goes to, the operation that it serves (0 for a
put), the pieces that wait for their translation, and those translated, which are written once all are (R346). -/
structure Place where
  hub : Nat
  pkt : Packet
  inst : Nat
  op : Nat
  win : Nat
  todo : List (Nat × List Byte)
  ready : List (Nat × Nat × List Byte)
deriving DecidableEq, Repr

/-- Transport state beyond the registers: the peer records and their cache, packets sent and waiting, arrivals and
descriptors that wait for a record (R227), shapers and each engine's round-robin pointer over them (R244), transfer records, and the hubs' inbound queues. -/
structure XportSt where
  peers : Table PeerRec
  cache : List Nat
  sent : List SentPkt
  waiting : List (Nat × OutPkt)
  cacheIn : List (Nat × Nat × Packet)
  cacheOut : List (Nat × OutPkt)
  shapers : Table ShaperSt
  shaperPtr : Table Nat
  recs : List (XferKey × XferRec)
  inbound : List (Nat × Packet)
  placing : List Place
  held : List (Nat × Nat × Packet)
  prevInc : Nat
deriving DecidableEq, Repr

/-! ## Operations and rings -/

/-- What an operation is (R296), or what the device does on its own account. -/
inductive OpKind where
  | put | get | putInl | atomic | send | recv | lock | coll | nop
  | serveGet | pull
deriving DecidableEq, Repr

/-- An operation in progress at a remote access engine (R362 to R376): a job taken from a ring or
issued by a handler (`mgr` by a manager's), a get being served, or a rendezvous pull. `bad` marks a job that R301 already fails. -/
structure OpSt where
  kind : OpKind
  inst : Nat
  engine : Nat
  ring : Option Nat
  cq : Nat
  cookie : Word
  idx : Nat
  sq : Nat
  irq : Bool
  quiet : Bool
  fence : Bool
  bad : Bool
  chained : Bool
  tc : Nat
  dst : Nat
  tInst : Nat
  final : Bool
  remote : Nat
  length : Nat
  key : Nat
  segs : List (Nat × Nat)
  inline : List Byte
  aop : Nat
  wide : Bool
  op1 : Nat
  op2 : Nat
  xid : Nat
  rspXid : Nat
  nextPkt : Nat
  sentPkts : Nat
  ackedPkts : Nat
  fail : Option Nat
  silent : Bool
  done : Bool
  status : Nat
  result : List Byte
  lenM1 : Nat
  trunc : Bool
  started : Bool
  granted : Bool
  mgr : Bool
  dev : Bool
  polledAt : Nat
  firstAt : Option Nat
  desc : Desc
  req : Option Packet
deriving DecidableEq, Repr

/-- A packet's payload on its way from host memory (R367, R369): the pieces that wait for a translation (offset,
address, length), the bytes still to come, and those that have come. `resend` names the packet sent before. -/
structure FetchSt where
  op : Nat
  pidx : Nat
  resend : Option (Nat × Nat)
  todo : List (Nat × Nat × Nat)
  need : Nat
  got : List (Nat × List Byte)
deriving DecidableEq, Repr

/-- Why the device has a host read or AtomicOp outstanding (R271, R272); a write only waits for its link (R285). -/
inductive ReadWhy where
  | write (data : List Byte) (ro : Bool)
  | payload (op pidx off : Nat)
  | ringPoll (inst ring : Nat)
  | dlogWord (inst word : Nat)
  | walk (walk : Nat)
  | hostAtomic (pkt : Packet)
  | mark (walk : Nat)
deriving DecidableEq, Repr

/-- A submission ring beyond its registers (R305 to R308): its engine, a read in progress, when it was issued, and the
owned entries found in a row, its interval, the entries of the open chain and the operation that holds its slot, the zeroing of a
near ring, and its jobs that have not completed. -/
structure SqSt where
  engine : Option Nat
  polling : Bool
  readAt : Nat
  row : Nat
  ivl : Nat
  chain : List Desc
  chainOp : Nat
  zeroing : Bool
  jobs : Nat
deriving DecidableEq, Repr

/-- A completion ring beyond its registers (R311): entries written in all, consumed in all. -/
structure CqSt where
  written : Nat
  consumed : Nat
  resv : Nat
deriving DecidableEq, Repr

/-- An instance command in progress (R328). -/
inductive InstOp where
  | none | create | quiesce | resume | reset | remove | move
deriving DecidableEq, Repr

/-- An instance beyond its registers (R313 to R322). `dlogWords` is its part of the dirty word cache (R324),
`slotUsed` the core time in ns that its handlers have used in this frame (R461), `prev` the link, the VF and the state that a
move in progress leaves (R289). -/
structure InstSt where
  bound : Bool
  op : InstOp
  vfLink : Nat
  vfNum : Nat
  sq : Nat
  cq : Nat
  vectors : Nat
  ctx : Nat
  peerQuota : Nat
  hslots : Nat
  nr64k : Nat
  share : Nat
  ctxBase : Nat
  nrBase : Nat
  dlogWords : Table Nat
  slotUsed : Nat
  prev : Option (Nat × Nat × Nat)
deriving DecidableEq, Repr

/-! ## Host links -/

/-- A DMA request: outstanding under its tag, or waiting to be issued (R271). -/
structure DmaReq where
  link : Nat
  tag : Nat
  func : Func
  inst : Nat
  addr : Nat
  len : Nat
  why : ReadWhy
deriving DecidableEq, Repr

/-- What follows a logged write on its link (R312, R324): nothing, an MSI-X message, or an AtomicOp that is the write. -/
inductive LogThen where
  | none
  | msix (vector : Nat)
  | ask (r : DmaReq)
deriving DecidableEq, Repr

/-- A host write that waits for its dirty bitmap word (R324), and what follows it. -/
structure LogWrite where
  inst : Nat
  word : Nat
  page : Nat
  addr : Nat
  data : List Byte
  ro : Bool
  next : LogThen
deriving DecidableEq, Repr

/-- A fabric arrival held for a lost link or D3hot (R285, R287). -/
structure HeldArr where
  id : Nat
  link : Nat
  place : Place
  lost : Bool
deriving DecidableEq, Repr

/-- The functions of one host link: configuration dwords keyed by 4,096 * function + offset, the functions in
reset, and the state of INTA. -/
structure HostSt where
  cfg : Table (BitVec 32)
  flr : List Nat
  intx : Bool
deriving DecidableEq, Repr

/-! ## Translation -/

/-- A cached translation (R342): `va` tells one of virtual addresses from one of the addresses that pass stage 2 alone (R335); in the
stage-2 cache `inst` is unused. -/
structure TlbEnt where
  inst : Nat
  va : Bool
  root : Nat
  page : Nat
  size : Nat
  base : Nat
  gpa : Nat
  rd : Bool
  wr : Bool
  atm : Bool
  d : Bool
deriving DecidableEq, Repr

/-- A non-leaf entry in the walk cache (R342): `key` is the instance at stage 1 and the root at stage 2. -/
structure WalkEnt where
  stage : Nat
  key : Nat
  level : Nat
  pre : Nat
  table : Nat
deriving DecidableEq, Repr

/-- A mark being made (R340): the leaf's address, its value as read, the value to write, and which leaf it is:
0 the stage-2 leaf in hand, 1 the stage-1 leaf, 2 the stage-2 leaf of the stage-1 table. -/
structure MarkSt where
  addr : Nat
  old : Word
  new : Word
  which : Nat
deriving DecidableEq, Repr

/-- A two-stage walk: where it stands. In stage 1 it looks for the entry of `s1Level` in `s1Table`; level 4 stands
for the final address. While `inS2` it walks stage 2 for `s2In`. -/
structure WalkSt where
  id : Nat
  inst : Nat
  req : XlatReq
  root1 : Nat
  s1On : Bool
  s2Mode : Nat
  root2 : Nat
  s1Level : Nat
  s1Table : Nat
  inS2 : Bool
  s2In : Nat
  s2Level : Nat
  s2Table : Nat
  s2Leaf : Word
  s2LeafAt : Nat
  s1Leaf : Word
  s1At : Nat
  s1Bits : Nat
  gpa : Nat
  tblLeaf : Word
  tblLeafAt : Nat
  readAt : Nat
  mark : Option MarkSt
  tries : Nat
  waiters : List XlatReq
  restart : Bool
deriving DecidableEq, Repr

/-- An invalidation in progress (R343). -/
structure InvSt where
  active : Bool
  scope : Nat
  inst : Nat
  addr : Nat
  len : Nat
deriving DecidableEq, Repr

/-- The translation unit. -/
structure XlatSt where
  tlb : List TlbEnt
  s2c : List TlbEnt
  walkc : List WalkEnt
  walks : List WalkSt
  queued : List (Nat × XlatReq)
  nextWalk : Nat
  mgrInv : InvSt
  tenInv : Table InvSt
deriving DecidableEq, Repr

/-! ## Remote access engines -/

/-- A kept atomic result (R375): the engine that executed it and the peer index and number of its answer. -/
structure AtomRes where
  engine : Nat
  xid : Nat
  dst : Nat
deriving DecidableEq, Repr

/-- A completion entry that waits for the translation of its ring's address (R309, R335). -/
structure EntryOut where
  op : Nat
  inst : Nat
  cq : Nat
  addr : Nat
  data : List Byte
  irq : Bool
deriving DecidableEq, Repr

/-- Remote access engines, operations and device memory. -/
structure RmaSt where
  ops : Table OpSt
  nextOp : Nat
  xidCount : Table Nat
  fetches : List FetchSt
  results : List AtomRes
  hbm : List Host.Cell
  poisoned : List Nat
  armed : List Nat
  entries : List EntryOut
deriving DecidableEq, Repr

/-! ## Matching -/

/-- A posted receive (R418). -/
structure Posted where
  index : Nat
  bits : Word
  ign : Word
  sid : BitVec 32
  sign : BitVec 32
  pseq : Nat
  op : Nat
  segLines : Nat
deriving DecidableEq, Repr

/-- An unexpected message (R418); `payload` holds the packets of an eager message that have come. -/
structure Unexp where
  index : Nat
  bits : Word
  sid : BitVec 32
  rdv : Bool
  spilled : Bool
  tc : Nat
  aseq : Nat
  n : Nat
  xid : Nat
  chunks : Nat
  payload : List (Nat × List Byte)
  pkt : Packet
deriving DecidableEq, Repr

/-- Where the packets of an eager message go once it is decided (R396, R397). -/
inductive MsgTo where
  | recv (op : Nat)
  | file (ctx index : Nat)
  | drop
deriving DecidableEq, Repr

/-- An item of a context's queue (R394). -/
inductive CtxItem where
  | msg (pkt : Packet)
  | recv (op : Nat)
deriving DecidableEq, Repr

/-- The entry that a walk takes: a posted receive for a message, or an unexpected message for a receive (R395). -/
inductive MatchPick where
  | posted (r : Posted)
  | unexp (u : Unexp)
deriving DecidableEq, Repr

/-- An interrupted walk of the lists, as the context record holds it (R402 to R404): the item, how many entries it has visited, its
progress, and the entry unlinked once the progress is 1. -/
structure MatchWalk where
  item : CtxItem
  visited : Nat
  progress : Nat
  pick : Option MatchPick
deriving DecidableEq, Repr

/-- A matching context (R395); `waited` counts the decisions of higher-priority contexts it has waited through (R400). -/
structure CtxSt where
  queue : List CtxItem
  posted : List Posted
  unexp : List Unexp
  nextPseq : Nat
  nextAseq : Nat
  walk : Option MatchWalk
  resetting : Bool
  migrateTo : Option Nat
  waited : Nat
deriving DecidableEq, Repr

/-- The matching engines; `served` holds the context last served, by engine and priority (R400). -/
structure MatchSt where
  ctx : Table CtxSt
  freePosted : Nat
  freeUnexp : Nat
  freeBounce : Nat
  freeSeg : Nat
  nextIndex : Nat
  waiting : List Packet
  msgs : List (XferKey × MsgTo)
  served : Table Nat
deriving DecidableEq, Repr

/-! ## Collectives -/

/-- An input of a segment at this device (R431): its sender, its format, its length as carried, and its packets. -/
structure CollIn where
  src : Nat
  exact : Bool
  xlen : Nat
  got : List (Nat × List Byte)
deriving DecidableEq, Repr

/-- A segment of a collective at this device (R431 to R437): the reservation it holds once admitted, its inputs in
order of arrival, the member's own input, and what has been sent, received and placed. -/
structure SegSt where
  index : Nat
  admitted : Bool
  reserve : Nat
  ins : List CollIn
  own : Option (List Byte)
  upSent : Bool
  down : Option CollIn
  result : Option (List Byte)
  placed : Bool
  waited : Bool
deriving DecidableEq, Repr

/-- A collective in progress (R429); `op` is 0 while only early arrivals are here. -/
structure CollSt where
  comm : Nat
  seq : Nat
  op : Nat
  kind : Nat
  dtype : Nat
  cop : Nat
  mode : Nat
  root : Nat
  count : Nat
  segs : List SegSt
deriving DecidableEq, Repr

/-- The collective engines and the global services: collectives in progress, those that have failed, store in use by
each engine; the members heard in the snapshot's up phase, the arm that is held, whether the up phase has been sent on, and
the ranks counted; at the root the operation that stands for the service's packets (0 for none), its communicator and whether
it is a wave; and the communicator of a safe-state wave that waits for its copies (R443). -/
structure CollsSt where
  colls : List CollSt
  failed : List (Nat × Nat × Nat)
  storeUsed : Table Nat
  upFrom : List Nat
  armed : Option Packet
  upDone : Bool
  snapSeen : List Nat
  svcOp : Nat
  svcComm : Nat
  svcWave : Bool
  waveSafe : Option Nat
deriving DecidableEq, Repr

/-! ## Handler cores, coherence, locks -/

/-- A register window with its link (R451). -/
structure Window where
  regs : List Word
  link : Word
deriving DecidableEq, Repr

/-- A Sorrel core (R450 to R455), by physical number: the windows resident and those spilled into local data, the
handler that runs, when it started and since when this frame charges it, and the destination register and line of a
`lkacq` that waits. -/
structure CoreSt where
  shared : List Word
  windows : List Window
  trapWindow : Window
  wix : Nat
  resident : Nat
  spilled : Nat
  pc : Nat
  running : Bool
  trig : Nat
  inst : Nat
  mgr : Bool
  startNs : Nat
  chargeNs : Nat
  lockWait : Option (Nat × Nat)
  imem : List Host.Cell
  localMem : List Host.Cell
deriving DecidableEq, Repr

/-- Firings of a trigger waiting to be delivered (R459, R462). -/
structure TrigSt where
  queued : Bool
  running : Bool
  order : Nat
  ev1 : Word
  ev2 : Word
  ev3 : Word
  ev4 : Word
deriving DecidableEq, Repr

/-- The state of a line in an agent's cache (R467). -/
inductive Mesi where
  | m | e | s
deriving DecidableEq, Repr

/-- A request that waits at a slice for a busy line (R469). -/
inductive CohReq where
  | getS (a : CohAgent) | getM (a : CohAgent) | upgrade (a : CohAgent)
  | readNA | writeNA (addr : Nat) (data : List Byte)
  | atomicNA (addr op : Nat) (wide : Bool) (op1 op2 : Nat)
deriving DecidableEq, Repr

/-- A line in use at its slice: the request served, the answers still awaited, and the waiting requests. -/
structure BusyLine where
  line : Nat
  req : CohReq
  await : List CohAgent
  waiting : List CohReq
deriving DecidableEq, Repr

/-- A waiter of a lock (R475): the requester, its transfer and peer, or the core that waits. -/
structure LockWaiter where
  line : Nat
  owner : Nat
  xid : Nat
  src : Nat
  sInst : Nat
  core : Option Nat
  pkt : Option Packet
deriving DecidableEq, Repr

/-- Handler cores, the coherent home and the lock unit. -/
structure HandSt where
  cores : Table CoreSt
  trigs : Table TrigSt
  fireOrder : Nat
  dir : Table (BitVec 128)
  cached : List (CohAgent × Nat × Mesi × List Byte)
  writeback : List (CohAgent × Nat × List Byte)
  busy : List BusyLine
  lockWait : List LockWaiter
deriving DecidableEq, Repr

/-! ## Faults, supervisor, monitoring, sideband -/

/-- The supervisor pair (R506 to R510): when the active core's last heartbeat came, a firmware load in progress, and the
staged firmware image. -/
structure SageSt where
  beatAt : Nat
  loading : Bool
  fw : List Host.Cell
deriving DecidableEq, Repr

/-- Chervil, the supervisor pair and repair, beyond their registers. -/
structure FaultSt where
  net : List CodedMsg
  windowOpen : List Nat
  ownActive : List CodedMsg
  sage : SageSt
  drainWait : Bool
  spareOp : Option (Nat × Nat × Nat)
  retired : Table (List Nat)
  retiring : Table (List Nat)
  corrected : List (Nat × Nat)
  safeLatched : Bool
  safeAt : Nat
  forcedLanes : Bool
deriving DecidableEq, Repr

/-- A sampled job being followed (R531): the operation and its time stamps. -/
structure Sampled where
  op : Nat
  engine : Nat
  t0 : Nat
  stamps : List (Nat × Nat)
deriving DecidableEq, Repr

/-- Monitoring beyond the registers. -/
structure MonSt where
  eligible : Table Nat
  sampled : List Sampled
  bwTx : Table Nat
  bwRx : Table Nat
deriving DecidableEq, Repr

/-- Power, sideband and test state beyond the registers: the VDD_CORE setting last asked for, its tries and whether it is
unanswered; per poll entry the losses in a row, and the entries that wait to retry; and the test access port. -/
structure SideSt where
  avsSet : Nat
  avsTries : Nat
  avsBusy : Bool
  losses : Table Nat
  retryWait : List Nat
  eidSet : Bool
  jtagIr : Nat
  jtagDrive : Nat
  boundary : List Bool
  flashing : Bool
deriving DecidableEq, Repr

/-- The line of a near ring that the tail cache holds (R29): its offset in the ring's pages, when it was written, and its
bytes. -/
structure TailLine where
  off : Nat
  at_ : Nat
  data : List Byte
deriving DecidableEq, Repr

/-- The open-drain outputs as the device's own logic asks them (R553): SAFE_OUT# and SMBALERT#, true where asserted. -/
structure Pins where
  safeOut : Bool
  smbAlert : Bool
deriving DecidableEq, Repr

/-- The state of the device. `pending` is the queue of commands that wait, `out` everything the device
has sent, `freeCtr` the index of the next free value: these three are the model's own. `regs` holds the registers as they are in
force, and `basicHeld` the basic fields of a control register as written while its `expert` is set, which take effect when it
clears (R73). -/
structure State where
  pending : List Instr
  out : List Out
  freeCtr : Nat
  powered : Bool
  now : Nat
  applyNs : Nat
  regs : Table Word
  basicHeld : Table Word
  islands : Table Island
  fenced : List FUnit
  engMap : List Nat
  spareMap : Option (List Nat)
  tileMap : List Nat
  spareTile : Nat
  fuse : Fuses
  tailCache : Table TailLine
  img : ImageSt
  ports : Table PortSt
  lanes : Table LaneSt
  macros : Table MacroSt
  links : Table LinkSt
  wait : List WaitPkt
  nextId : Nat
  outs : Table OutSt
  announced : Table Nat
  route : RouteSt
  xp : XportSt
  sqs : Table SqSt
  cqs : Table CqSt
  insts : Table InstSt
  hosts : Table HostSt
  dma : List DmaReq
  dmaQ : List DmaReq
  logWait : List LogWrite
  heldArr : List HeldArr
  xl : XlatSt
  rma : RmaSt
  mt : MatchSt
  colls : CollsSt
  hand : HandSt
  flt : FaultSt
  mon : MonSt
  side : SideSt
  pins : Pins
deriving DecidableEq, Repr

/-! ## The state after reset -/

/-- An island held in reset. -/
def Island.init : Island := ⟨true, false, false, false, 0, false⟩

/-- The Bay island, which never stops (R15, R36). -/
def Island.bay : Island := ⟨false, true, true, true, 0, false⟩

/-- A port right after reset (R87: OFF). -/
def PortSt.init : PortSt :=
  ⟨0, 0, 0, false, false, true, none, false, false, 0, [], none, none, 0⟩

/-- A lane right after reset. -/
def LaneSt.init : LaneSt := ⟨0, 0, 0, 0, 0, 0, 0, 0, [], 0, 0, 0, 0, [], 0⟩

/-- A serdes macro right after reset. -/
def MacroSt.init : MacroSt := ⟨0, 0, false, false, false⟩

/-- An empty frame. -/
def Frame.empty : Frame := ⟨0, [], 0, 0, false, []⟩

/-- A link layer that has not started (R141: stores empty, numbering from 0). -/
def LinkSt.init : LinkSt :=
  { nextSeq := 0, cur := Frame.empty, group := [], groupRetx := false, sealDue := false, half := false, curRetx := [],
    retxQ := [], txPkts := [], store := [], storePkts := [], reserveFree := [], sharedFree := 0,
    sharedHeld := [], peerCap := 0, initIn0 := none, initIn1 := none, initAcked := false, adopted := false,
    firstSent := false, kaDue := false, creditDue := false, nakDue := [], replayDue := none,
    sealLost := false, lastAck := 0xFFFF, nextExp := 0, reorder := [], missing := [], replayWait := none, replays := 0,
    ackSent := 0xFFFF, myCap := 0, freed := [], rxOpen := [], peerEmpty := false, downSince := none }

/-- An arbiter with an empty queue (R153). -/
def OutSt.init : OutSt := ⟨[], [], 0, 0, 0, 0, 0, false, [], []⟩

/-- A peer of which nothing is stored. -/
def BeaconSt.init : BeaconSt := ⟨none, false⟩

/-- A peer record that is not valid (R226). -/
def PeerRec.init : PeerRec :=
  { txNext := 0, txUna := 0, txLimit := 0, rxNext := 0, rxLimit := 0, rxWin := 0, peerInc := 0,
    outstanding := 0, valid := false, down := false, syncPending := false, txSync := false, used := 0,
    rxMap := [], lastUs := 0, unacked := 0, syncTries := 0, syncSeq := 0,
    syncTc := 0, ackTc := 0, hub := 0, syncHub := 0, missed := false }

/-- A token bucket filled to the greatest depth that METER_RATE can name, in eightieths of a byte: what lies above the depth
that a meter has is cut at its next use. -/
def fullBucket : Nat := 80 * 1024 * 65535

/-- A shaper that holds nothing, with full token buckets (RFC 2698 for three-colour mode; log 138 for drop mode). -/
def ShaperSt.init : ShaperSt := ⟨[], 0, 0, fullBucket, fullBucket, 0, false⟩

/-- A submission ring that is not enabled. -/
def SqSt.init : SqSt := ⟨none, false, 0, 0, 0, [], 0, false, 0⟩

/-- A completion ring that is not in use. -/
def CqSt.init : CqSt := ⟨0, 0, 0⟩

/-- A FREE instance (R316). -/
def InstSt.init : InstSt := ⟨false, .none, 0, 0, 0, 0, 0, 0, 0, 0, 0, 0, 0, 0, [], 0, none⟩

/-- A host link whose functions hold their reset values. -/
def HostSt.init : HostSt := ⟨[], [], false⟩

/-- No invalidation in progress. -/
def InvSt.init : InvSt := ⟨false, 0, 0, 0, 0⟩

/-- An operation slot that is not in use. -/
def OpSt.init : OpSt :=
  { kind := .nop, inst := 0, engine := 0, ring := none, cq := 0, cookie := 0, idx := 0, sq := 0,
    irq := false, quiet := false, fence := false, bad := false, chained := false, tc := 0, dst := 0, tInst := 0,
    final := false, remote := 0, length := 0, key := 0, segs := [], inline := [], aop := 0, wide := false,
    op1 := 0, op2 := 0, xid := 0, rspXid := 0, nextPkt := 0, sentPkts := 0, ackedPkts := 0, fail := none,
    silent := false, done := false, status := 0, result := [], lenM1 := 0, trunc := false, started := false,
    granted := false, mgr := false, dev := false, polledAt := 0, firstAt := none,
    desc := ⟨0, 0, 0, 0, 0, 0, 0, 0⟩, req := none }

/-- An empty matching context (R387). -/
def CtxSt.init : CtxSt := ⟨[], [], [], 0, 0, none, false, none, 0⟩

/-- A window of zeros. -/
def Window.init : Window := ⟨List.replicate 16 0, 0⟩

/-- An idle Sorrel core with its registers and memories zero. -/
def CoreSt.init : CoreSt :=
  { shared := List.replicate 8 0, windows := List.replicate 7 Window.init, trapWindow := Window.init,
    wix := 0, resident := 1, spilled := 0, pc := 0, running := false, trig := 0,
    inst := 0, mgr := false, startNs := 0, chargeNs := 0, lockWait := none, imem := [], localMem := [] }

/-- A trigger with no firing. -/
def TrigSt.init : TrigSt := ⟨false, false, 0, 0, 0, 0, 0⟩

/-- The reset defaults of the engine numbering (R18, R19): logical unit to physical unit, then the spares. -/
def engMapReset : List Nat :=
  List.range 16 ++ List.range 32 ++ List.range 16
    ++ (List.range 64).map (fun i => 17 * (i / 16) + i % 16) ++ [16, 32, 33, 16, 16, 33, 50, 67]

/-- The fused values of a grade S, option N part of stepping A1 with every unit good. DESIGN CHOICE (log 2). -/
def Fuses.part : Fuses :=
  { stepping := 0x11, grade := 0x53, keyopt := 0x4E, serial := 0, okTiles := 2 ^ 19 - 1, okRae := 2 ^ 17 - 1,
    okFennel := 2 ^ 17 - 1, okHosts := 15, okHbm := 15, okDill := 2 ^ 34 - 1, okMarjoram := 2 ^ 16 - 1,
    okSorrel := 2 ^ 68 - 1, keyHash := [Config.onatilKeyHash, 0, 0, 0], programmed := 1, revoked := 0,
    requireCust := false }

/-- The IMAGE block after cold reset (R40, R53). -/
def ImageSt.init : ImageSt :=
  ⟨[], none, none, none, none, .idle, 0, none, []⟩

/-- Routing state that no apply has set. -/
def RouteSt.init : RouteSt := ⟨[], [], .none, [], 0, [], [], [], [], []⟩

/-- Transport state with no record and nothing queued. -/
def XportSt.init : XportSt := ⟨[], [], [], [], [], [], [], [], [], [], [], [], 0⟩

/-- Empty translation caches. -/
def XlatSt.init : XlatSt := ⟨[], [], [], [], [], 0, InvSt.init, []⟩

/-- No operation, device memory with nothing listed (log 4). -/
def RmaSt.init : RmaSt := ⟨[], 1, [], [], [], [], [], [], []⟩

/-- Matching before an apply: no pools. -/
def MatchSt.init : MatchSt := ⟨[], 0, 0, 0, 0, 0, [], [], []⟩

/-- No collective and no service in progress. -/
def CollsSt.init : CollsSt := ⟨[], [], [], [], none, false, [], 0, 0, false, none⟩

/-- Idle cores, an empty directory, no lock. -/
def HandSt.init : HandSt := ⟨[], [], 0, [], [], [], [], []⟩

/-- The supervisor pair after cold reset. -/
def SageSt.init : SageSt := ⟨0, false, []⟩

/-- No fault, no repair in progress. -/
def FaultSt.init : FaultSt := ⟨[], [], [], SageSt.init, false, none, [], [], [], false, 0, false⟩

/-- Nothing monitored. -/
def MonSt.init : MonSt := ⟨[], [], [], []⟩

/-- Sideband, power and test state after cold reset. -/
def SideSt.init : SideSt := ⟨30, 0, false, [], [], false, 1, 0, [], false⟩

/-- The machine right after a power-on cold reset with every strap low: INERT (R34, R36), every register
at its reset value, nothing queued and nothing sent. -/
def State.reset : State :=
  { pending := [], out := [], freeCtr := 0, powered := true, now := 0, applyNs := 0, regs := [], basicHeld := [], islands := [(37, Island.bay)],
    fenced := [], engMap := engMapReset, spareMap := none, tileMap := List.range 18, spareTile := 18,
    fuse := Fuses.part, tailCache := [], img := ImageSt.init, ports := [], lanes := [], macros := [],
    links := [], wait := [], nextId := 0, outs := [], announced := [], route := RouteSt.init,
    xp := XportSt.init, sqs := [], cqs := [], insts := [], hosts := [], dma := [], dmaQ := [], logWait := [], heldArr := [],
    xl := XlatSt.init, rma := RmaSt.init, mt := MatchSt.init, colls := CollsSt.init, hand := HandSt.init,
    flt := FaultSt.init, mon := MonSt.init, side := SideSt.init, pins := ⟨false, false⟩ }

end Sys2Proof.Machine
end

