-- ==== Sys2Proof/Machine/Ops.lean ====
section
/-! DEFINITION. Ops: the named operations that every family uses: registers and their fields, the
outbox, coded messages on their way to Chervil, PF0 events and interrupts, configuration space bits,
the numbering of ports, lanes, tiles and engines. -/

namespace Sys2Proof.Machine

/-- A command's answer. -/
abbrev Answer := Host.Outcome State Fault Refusal

/-- Some source's `sev` is not 0 (R519): of the registers that are listed, as an unlisted SRC_STAT reads 0. -/
def State.anySev (s : State) : Bool :=
  s.regs.any (fun e => decide (0x81018 ≤ e.1 ∧ e.1 < 0x8B018 ∧ (e.1 - 0x81018) % 0x40 = 0) 
    && Fld.srcStatSev.get (Table.getD s.regs 0 e.1) != 0)

/-- What the outputs are asked to be (R553): SAFE_OUT# in the safe state, SMBALERT# there and while some source's `sev` is not 0; an
unpowered device drives neither. -/
def State.levels (s : State) : Pins :=
  ⟨s.powered && s.flt.safeLatched, s.powered && (s.flt.safeLatched || s.anySev)⟩

/-- The outputs follow the state. -/
def State.drivePins (s : State) : State := { s with pins := s.levels }

/-- What no command touches: the queue of those that wait, and what only the end of fuse programming and the sideband's flash
commands write (R51, R557). -/
def State.keep (s t : State) : State :=
  { t with pending := s.pending, fuse := s.fuse, img := { t.img with flash := s.img.flash } }

/-- The Bay latch of the safe state: only a reset ends it (R502). -/
def State.latch (s t : State) : State :=
  { t with flt := { t.flt with safeLatched := s.flt.safeLatched || t.flt.safeLatched } }

/-- A command acts on a powered device; where VSB is lost nothing is left to act (R547). The outputs follow. -/
def act (s : State) (f : State → State) : Answer :=
  .next (if s.powered then (s.latch (s.keep (f s))).drivePins else s)

/-- A command that may reset the device acts. -/
def actReset (s : State) (f : State → State) : Answer :=
  .next (if s.powered then (s.keep (f s)).drivePins else s)

/-- The end of fuse programming acts: it may blow fuses, and a cold reset may have waited for it (R552). -/
def actFuse (s : State) (f : State → State) : Answer :=
  .next (if s.powered then { s.keep (f s) with fuse := (f s).fuse }.drivePins else s)

/-- A command that writes or erases flash acts. -/
def actFlash (s : State) (f : State → State) : Answer :=
  .next (if s.powered then (s.latch { f s with pending := s.pending, fuse := s.fuse }).drivePins else s)

/-! ## Registers -/

/-- The group of a fault source in the catalogue (R495): counting link and tile sources, tile sources
that contain, and the two kinds of severity sources. -/
def srcCounting (src : Nat) : Bool := decide (src < 304)

/-- The reset value of SRC_CFG of a source (R495, R575). -/
def srcCfgReset (src : Nat) : Nat :=
  let fc := 1 <<< 21
  if src < 304 then
    let j := src % 16
    let thresh := if j < 8 then 16 else if j < 12 then 64 else 1
    let react := if j < 12 then 1 else 2
    react + thresh <<< 8 + 20 <<< 16 + fc + 1 <<< 24
  else
    let r2 := if src < 628 then 2 else 1
    r2 <<< 2 + 3 <<< 4 + 1 <<< 8 + 20 <<< 16 + fc

/-- The reset value of one field of a register of index `i` (second index `j`). -/
def FieldDesc.reset (fd : FieldDesc) (i j n2 : Nat) : Nat :=
  match fd.rst with
  | .num n => n
  | .idx => if n2 ≤ 1 then i else j
  | .cat => fd.field.get (BitVec.ofNat 64 (srcCfgReset i))
  | .link0 => if i = 0 then 1 else 0
  | .part => 0

/-- The reset value of the register at an address: zero where no register is (R12). -/
def resetWord (a : Nat) : Word :=
  match regAt a with
  | none => 0
  | some (d, i, j) => d.fields.foldl (fun w fd => fd.field.put w (fd.reset i j d.n2)) 0

/-- What a register reads that nothing has written: its reset value, and for a meter's rates the record of its class in the
POLICING section of the image in force (R257). -/
def State.resetOf (s : State) (a : Nat) : Word :=
  match s.img.applied with
  | some c => if 0x1C00000 ≤ a ∧ a < 0x1D00000 ∧ a % 32 = 0 then c.policing.getD (a / 32 % 8) 0 else resetWord a
  | none => resetWord a

/-- The stored word of the register at an address. -/
def State.word (s : State) (a : Nat) : Word :=
  match Table.find s.regs a with
  | some w => w
  | none => s.resetOf a

/-- Store a register's word. -/
def State.setWord (s : State) (a : Nat) (w : Word) : State :=
  { s with regs := Table.put s.regs a w }

/-- A field of a register. -/
def State.get (s : State) (a : Nat) (f : Field) : Nat := f.get (s.word a)

/-- Write a field of a register. -/
def State.put (s : State) (a : Nat) (f : Field) (v : Nat) : State := s.setWord a (f.put (s.word a) v)

/-- A one-bit field as a truth value. -/
def State.flag (s : State) (a : Nat) (f : Field) : Bool := s.get a f != 0

/-- Add to a count, which saturates at its field's largest value. -/
def State.bump (s : State) (a : Nat) (f : Field) (n : Nat) : State :=
  s.put a f (satAdd f.width (s.get a f) n)

/-- Raise a high-water mark (R178, R250). -/
def State.raise (s : State) (a : Nat) (f : Field) (v : Nat) : State :=
  s.put a f (max (s.get a f) (min v f.top))

/-! ## Sending, free values, time -/

/-- Something leaves the device. -/
def State.emit (s : State) (o : Out) : State := { s with out := s.out ++ [o] }

/-- Take the next free value: a value the spec leaves open (log 6). -/
def State.fresh (s : State) : Word × State :=
  (Config.freeValue s.freeCtr, { s with freeCtr := s.freeCtr + 1 })

/-- Microseconds since the last apply (R228, R358, R491). -/
def State.usSinceApply (s : State) : Nat := (s.now - s.applyNs) / 1000

/-- A fresh identity for a packet held in the device. -/
def State.newId (s : State) : Nat × State := (s.nextId, { s with nextId := s.nextId + 1 })

/-! ## Tarragon: counters, bandwidth and samples (R524 to R534) -/

/-- An event of the catalogue (R525): its code, the attributes that it carries, and what it adds. `mgr` tells a
manager's event from a tenant's. -/
structure Evt where
  code : Nat
  unit : Option Nat
  inst : Option Nat
  addr : Option Nat
  tc : Option Nat
  mgr : Option Bool
  n : Nat
deriving DecidableEq, Repr

/-- A value passes a filter that is off or names it. -/
def passes (on : Bool) (want : Nat) (v : Option Nat) : Bool := !on || v == some want

/-- An event passes the filters of counter `k` (R526). -/
def State.cntTakes (s : State) (k : Nat) (e : Evt) : Bool :=
  let a := Reg.cntSel k
  s.flag a Fld.cntSelEnable && s.get a Fld.cntSelEvent == e.code
    && passes (s.get a Fld.cntSelUnit != 0xFF) (s.get a Fld.cntSelUnit) e.unit
    && (match e.mgr, s.get a Fld.cntSelPriv with
      | _, 0 => true
      | none, _ => true
      | some m, p => m == (p == 1))
    && passes (s.flag a Fld.cntSelInstEn) (s.get a Fld.cntSelInst) e.inst
    && (match e.tc with
      | some t => bit (s.get a Fld.cntSelTcMask) t
      | none => true)
    && (!s.flag a Fld.cntSelAddrEn || (match e.addr with
      | some x => decide ((s.word (Reg.cntAlo k)).toNat ≤ x ∧ x < (s.word (Reg.cntAhi k)).toNat)
      | none => false))

/-- Add to counter `k`, which wraps and then sets `wrap` (R524). -/
def State.cntAdd (s : State) (k n : Nat) : State :=
  let v := (s.word (Reg.cntVal k)).toNat + n
  let s := s.setWord (Reg.cntVal k) (BitVec.ofNat 64 v)
  if 2 ^ 64 ≤ v then s.put (Reg.cntSel k) Fld.cntSelWrap 1 else s

/-- The counters whose selection a register lists: every other one is disabled. -/
def State.cntList (s : State) : List Nat :=
  s.regs.filterMap (fun r => if 0x101000 ≤ r.1 ∧ r.1 < 0x109000 ∧ r.1 % 32 = 0 then some ((r.1 - 0x101000) / 32) else none)

/-- An event reaches Tarragon: every enabled counter whose filters it passes adds (R524, R526). -/
def State.count (s : State) (e : Evt) : State :=
  s.cntList.foldl (fun s k => if s.cntTakes k e then s.cntAdd k e.n else s) s

/-- Stamp the present time as t`k` of a sampled job (R531); a later stamp of the same number stands where `again`. -/
def State.stampJob (s : State) (o k : Nat) (again : Bool) : State :=
  { s with mon := { s.mon with sampled := s.mon.sampled.map (fun x =>
    if x.op = o ∧ (again ∨ !x.stamps.any (fun e => e.1 == k)) then
      { x with stamps := x.stamps.filter (fun e => e.1 != k) ++ [(k, s.now)] }
    else x) } }

/-- New flits sent on a port: counted, and in the bandwidth window (R525, R534). -/
def State.flitsTx (s : State) (p tc n : Nat) : State :=
  let s := { s with mon := { s.mon with bwTx := Table.put s.mon.bwTx p (Table.getD s.mon.bwTx 0 p + n) } }
  s.count ⟨0x100, some p, none, none, some tc, none, n⟩

/-- New flits received on a port. -/
def State.flitsRx (s : State) (p tc n : Nat) : State :=
  let s := { s with mon := { s.mon with bwRx := Table.put s.mon.bwRx p (Table.getD s.mon.bwRx 0 p + n) } }
  s.count ⟨0x101, some p, none, none, some tc, none, n⟩

/-! ## Coded messages (R492, R494, R577) -/

/-- Post a coded message: it travels on the fault network to Chervil (R20), which receives it in a
CODED_MESSAGE step or on an idle step. -/
def State.post (s : State) (src kind cls addr : Nat) : State :=
  if h : src < 640 then
    { s with flt := { s.flt with net := s.flt.net ++
      [⟨⟨src, h⟩, BitVec.ofNat 6 kind, ⟨cls % 4, Nat.mod_lt _ (by decide)⟩, BitVec.ofNat 52 addr⟩] } }
  else s

/-- The source that an event tied to no unit is posted on, by the PF0 BAR0 offset reached (R577). -/
def noticeSrc (tile0 a : Nat) : Nat :=
  if a < 0x10000 then 638
  else if a < 0x20000 then 634
  else if a < 0x40000 then 638
  else if a < 0x80000 then 624
  else if a < 0x100000 then 351
  else if a < 0x200000 then 350
  else if a < 0x400000 then 619
  else if a < 0x530000 then 16 * ((a - 0x400000) / 0x10000) + 15
  else if a < 0x800000 then 16 * tile0 + 10
  else if a < 0x900000 then 324
  else if a < 0x988000 then
    let e := (a - 0x900000) / 0x8000
    if e < 16 then 304 + 24 * (e / 4) + 16 + e % 4 else 372
  else if a < 0xA40000 then 304 + 24 * ((a - 0xA00000) / 0x10000) + 1
  else if a < 0x1000000 then 349
  else if a < 0x1200000 then 435
  else if a < 0x1400000 then 453
  else if a < 0x1600000 then
    if 0x1401000 ≤ a ∧ a < 0x1401220 then 456 + (a - 0x1401000) / 8 else 456
  else if a < 0x1680000 then
    if 0x1601000 ≤ a ∧ a < 0x1601200 then 524 + 2 * ((a - 0x1601000) / 0x20) else 524
  else if a < 0x1700000 then 572 + 8 * ((a - 0x1680000) / 0x20000) + 7
  else if a < 0x1800000 then 525
  else if a < 0x1A00000 then
    if 0x1810000 ≤ a ∧ a < 0x1830000 then 556 + (a - 0x1810000) / 0x20 / 256 else 556
  else if a < 0x2000000 then 348
  else if a < 0x3000000 then 634
  else if a < 0x4000000 then 16 * tile0 + 10
  else if a < 0x8000000 then 324
  else if a < 0x9000000 then 349
  else if a < 0x9440000 then 456 + (a - 0x9000000) / 0x10000
  else if 0xA000000 ≤ a ∧ a < 0xA880000 then 456 + (a - 0xA000000) / 0x20000
  else 634

/-- The physical tile that serves a slot (R13). -/
def State.tileOf (s : State) (slot : Nat) : Nat := s.tileMap.getD slot 0

/-- Post a message whose address the spec does not state: a free value (log 6). -/
def State.postFree (s : State) (src kind cls : Nat) : State :=
  let (w, s) := s.fresh
  s.post src kind cls (w.toNat % 2 ^ 52)

/-- Post kind 0 of a source, the condition that it names, in the class that its block judges (R496, log 31). -/
def State.postZero (s : State) (src : Nat) : State := s.postFree src 0 (if Config.contained src then 2 else 1)

/-- Post a class 0 message on the block that an access reached; one that reached a tenant page is posted on the request errors of
its instance's link, with the offset in VF BAR0 (R577). -/
def State.notice (s : State) (kind a : Nat) : State :=
  if 0x10000000 ≤ a then
    let link := (Table.getD s.insts InstSt.init ((a - 0x10000000) / 0x10000)).vfLink
    s.post (304 + 24 * link + 1) kind 0 (a % 0x10000 + 2 <<< 48)
  else s.post (noticeSrc (s.tileOf 0) a) kind 0 a

/-! ## Configuration space (R262, R263) -/

/-- The key of a configuration dword of function `fn` (0 is PF0). -/
def cfgKey (fn off : Nat) : Nat := 4096 * fn + off

/-- The reset value of a configuration dword: the identity values of R262 at the offsets of R263, the
layouts being the PCI Express standard's (PRESUMED, log 7); zero otherwise. -/
def cfgReset (fn off stepping : Nat) : Nat :=
  if off = 0x00 then (if fn = 0 then 0x01440A71 else 0xFFFFFFFF)
  else if off = 0x04 then 0x00100000
  else if off = 0x08 then 0x02800000 + stepping
  else if off = 0x2C then 0x00010A71
  else if off = 0x34 then (if fn = 0 then 0x40 else 0x50)
  else if off = 0x50 then (if fn = 0 then 0x07FF7011 else 0x003F7011)
  else if off = 0x70 then 0x00020010
  else if off = 0x74 then 0x10008022
  else if off = 0x78 then 0x2810
  else if off = 0x7C then 0x107
  else if off = 0x94 then 0x0003001F
  else if off = 0x100 then 0x14820001
  else if off = 0x108 then 0x00400000
  else if off = 0x10C then 0x00462030
  else if off = 0x114 then 0x6000
  else if off = 0x118 then 0x00A0
  else if off = 0x148 then (if fn = 0 then 0x1501000E else 0x0001000E)
  else if fn ≠ 0 then 0
  else if off = 0x10 then 0x4
  else if off = 0x18 then 0xC
  else if off = 0x3C then 0x0100
  else if off = 0x40 then 0x00035001
  else if off = 0x44 then 0x8
  else if off = 0x150 then 0x1601000D
  else if off = 0x154 then 0x4C
  else if off = 0x160 then 0x1A010010
  else if off = 0x16C then 0x10001000
  else if off = 0x174 then 0x00010001
  else if off = 0x178 then 0x01450000
  else if off = 0x17C then 0x1F
  else if off = 0x180 then 0x1
  else if off = 0x184 then 0x4
  else if off = 0x18C then 0xC
  else if off = 0x1A0 then 0x1C010015
  else if off = 0x1A4 then 0x001FC000
  else if off = 0x1A8 then 0xA22
  else if off = 0x1C0 then 0x1E010024
  else if off = 0x1C4 then 0x7FF0
  else if off = 0x1E0 then 0x1F010003
  else if off = 0x1F0 then 0x20010025
  else if off = 0x1F4 then 0x80000001
  else if off = 0x200 then 0x22010019
  else if off = 0x220 then 0x26010026
  else if off = 0x260 then 0x2901002A
  else if off = 0x290 then 0x2C010031
  else if off = 0x2C0 then 0x30010027
  else if 0x2C8 ≤ off ∧ off < 0x300 then 0x9C38
  else if off = 0x300 then 0x00010032
  else if off = 0x1C8 then 0x022
  else 0

/-- The state of a host link. -/
def State.host (s : State) (n : Nat) : HostSt := Table.getD s.hosts HostSt.init n

/-- Replace the state of a host link. -/
def State.setHost (s : State) (n : Nat) (h : HostSt) : State := { s with hosts := Table.put s.hosts n h }

/-- A configuration dword of function `fn` on link `n`. -/
def State.cfg (s : State) (n fn off : Nat) : Nat :=
  match Table.find (s.host n).cfg (cfgKey fn off) with
  | some w => w.toNat
  | none => cfgReset fn off s.fuse.stepping

/-- Store a configuration dword. -/
def State.setCfg (s : State) (n fn off v : Nat) : State :=
  let h := s.host n
  s.setHost n { h with cfg := Table.put h.cfg (cfgKey fn off) (BitVec.ofNat 32 v) }

/-- A bit of a configuration dword. -/
def State.cfgBit (s : State) (n fn off i : Nat) : Bool := (s.cfg n fn off).testBit i

/-- Memory Space Enable: Command bit 1 of PF0, and for a VF bit 3 of the link's SR-IOV control (log 7). -/
def State.mse (s : State) (n fn : Nat) : Bool := if fn = 0 then s.cfgBit n 0 0x04 1 else s.cfgBit n 0 0x168 3

/-- Bus Master Enable (Command bit 2). -/
def State.bme (s : State) (n fn : Nat) : Bool := s.cfgBit n fn 0x04 2

/-- VF Enable of a link's SR-IOV control. -/
def State.vfEnable (s : State) (n : Nat) : Bool := s.cfgBit n 0 0x168 0

/-- NumVFs of a link. -/
def State.numVfs (s : State) (n : Nat) : Nat := min (s.cfg n 0 0x170 % 65536) 4096

/-- MSI-X Enable and Function Mask of a function. -/
def State.msixEnable (s : State) (n fn : Nat) : Bool := s.cfgBit n fn 0x50 31

/-- Function Mask of a function's MSI-X control. -/
def State.msixMask (s : State) (n fn : Nat) : Bool := s.cfgBit n fn 0x50 30

/-- PF0 of the link is in D3hot (R285). -/
def State.d3hot (s : State) (n : Nat) : Bool := s.cfg n 0 0x44 % 4 == 3

/-- The link's data link layer is up (R291). -/
def State.linkUp (s : State) (n : Nat) : Bool := s.flag (Reg.hostStat n) Fld.hostStatLinkUp

/-! ## Device state -/

/-- IMAGE.STATUS `state` (R34). -/
def State.imgState (s : State) : Nat := s.get Reg.imgStatus Fld.imgStatusState

/-- The safe state is held (R39, R501). -/
def State.safe (s : State) : Bool := s.flt.safeLatched

/-- The block configured by the image has left INERT and LOADED (R37). -/
def State.structured (s : State) : Bool := decide (2 ≤ s.imgState)

/-- The device is ENABLED (R34). -/
def State.enabled (s : State) : Bool := decide (s.imgState = 3)

/-- A unit is fenced (R500). -/
def State.isFenced (s : State) (u : FUnit) : Bool := s.fenced.contains u

/-- An island (R536 gives the numbers). -/
def State.island (s : State) (i : Nat) : Island := Table.getD s.islands Island.init i

/-- Replace an island. -/
def State.setIsland (s : State) (i : Nat) (x : Island) : State := { s with islands := Table.put s.islands i x }

/-- An island has not opened its channels since its reset (R17). -/
def State.unopened (s : State) (i : Nat) : Bool := !(s.island i).channelsOpen

/-- The unit behind an exchange endpoint (R495). -/
def epUnit (ep : Nat) : FUnit := if ep < 19 then .tile ep else if ep < 23 then .basil (ep - 19) else .hub (ep - 23)

/-- A channel into an island refuses every transfer (R17): the island has not opened its channels, or it is that of a port tile, Basil
tile or hub that is fenced. -/
def State.islandShut (s : State) (i : Nat) : Bool :=
  s.unopened i || (decide (i < 27) && s.isFenced (epUnit i))

/-- The island of a hub (R536). -/
def hubIsland (h : Nat) : Nat := 23 + h
/-- The island of a Sorrel cluster. -/
def clusterIsland (k : Nat) : Nat := 27 + k
/-- The island of an HBM controller. -/
def hbmIsland (n : Nat) : Nat := 31 + n
/-- The services island. -/
def servicesIsland : Nat := 35
/-- The island of a serdes macro. -/
def macroIsland (m : Nat) : Nat := 38 + m

/-- DMA for function `fn` of link `n` is allowed: R34, R36, R39, R285, R287, R500. -/
def State.dmaOk (s : State) (n fn : Nat) : Bool :=
  s.enabled && s.linkUp n && !s.safe && !s.d3hot n && s.bme n fn && !s.isFenced (.basil n)

/-! ## Interrupts (R274 to R277, R294) -/

/-- The events of a link that are raised and not masked (R277). -/
def State.eventsUnmasked (s : State) (n : Nat) : Nat :=
  (s.word (Reg.events n)).toNat &&& ((2 ^ 64 - 1) ^^^ (s.word (Reg.evtMask n)).toNat)

/-- Bring the emulated INTA of a link in line with its pending events (R277). A link that is down carries no message, and the tile
that is fenced acts as if it were (R500). -/
def State.updateIntx (s : State) (n : Nat) : State :=
  if !s.linkUp n || s.isFenced (.basil n) then s
  else
  let h := s.host n
  let want := s.eventsUnmasked n != 0
  let allowed := s.flag (Reg.hostCtrl n) Fld.hostCtrlPfEvents && !s.msixEnable n 0 && !s.cfgBit n 0 0x04 10
  if want && allowed && !h.intx then (s.setHost n { h with intx := true }).emit (.intx n true)
  else if h.intx && (!want || s.msixEnable n 0 || s.cfgBit n 0 0x04 10) then
    (s.setHost n { h with intx := false }).emit (.intx n false)
  else s

/-- Signal vector `v` of PF0 on link `n`: send the message, or keep it pending while masked (R274, R276). The safe state refuses MSI-X
messages (R501), which INTx is none of. -/
def State.signalPf (s : State) (n v : Nat) : State :=
  if !s.msixEnable n 0 then s.updateIntx n
  else if s.safe || !s.linkUp n || s.isFenced (.basil n) then s
  else if s.msixMask n 0 || s.flag (Reg.pfMsixData n v) Fld.pfMsixDataMask || !s.bme n 0 || s.d3hot n then
    let a := Reg.pfPba n (v / 64)
    s.setWord a (s.word a ||| BitVec.ofNat 64 (1 <<< (v % 64)))
  else (s.emit (.msix ⟨n, 0⟩ v)).count ⟨0x603, some n, none, none, none, some true, 1⟩

/-- Raise PF0 event `v` on every link whose `pf_events` is set (R274, R275). -/
def State.raiseEvent (s : State) (v : Nat) : State :=
  (List.range 4).foldl (fun s n =>
    if s.flag (Reg.hostCtrl n) Fld.hostCtrlPfEvents then
      (s.setWord (Reg.events n) (s.word (Reg.events n) ||| BitVec.ofNat 64 (1 <<< v))).signalPf n v
    else s) s

/-- Raise PF0 event `v` on every link but one whose `pf_events` is set (R287). -/
def State.raiseEventElsewhere (s : State) (v skip : Nat) : State :=
  (List.range 4).foldl (fun s n =>
    if n != skip && s.flag (Reg.hostCtrl n) Fld.hostCtrlPfEvents then
      (s.setWord (Reg.events n) (s.word (Reg.events n) ||| BitVec.ofNat 64 (1 <<< v))).signalPf n v
    else s) s

/-! ## Instances and rings -/

/-- An instance beyond its registers. -/
def State.inst (s : State) (i : Nat) : InstSt := Table.getD s.insts InstSt.init i

/-- Replace an instance. -/
def State.setInst (s : State) (i : Nat) (x : InstSt) : State := { s with insts := Table.put s.insts i x }

/-- INST_STAT `state` (R316): 0 FREE, 1 ACTIVE, 2 QUIESCING, 3 QUIESCED, 4 FENCED, 5 DETACHED. -/
def State.instState (s : State) (i : Nat) : Nat := s.get (Reg.instStat i) Fld.instStatState

/-- Set INST_STAT `state`. -/
def State.setInstState (s : State) (i v : Nat) : State := s.put (Reg.instStat i) Fld.instStatState v

/-- The engine hub that serves an instance. -/
def State.instHub (s : State) (i : Nat) : Nat := s.get (Reg.instCfg i) Fld.instCfgHub

/-- The host link an instance is bound to. -/
def State.instLink (s : State) (i : Nat) : Nat := (s.inst i).vfLink

/-- The function whose Requester ID an instance's requests carry (R270). -/
def State.instFunc (s : State) (i : Nat) : Func := ⟨(s.inst i).vfLink, (s.inst i).vfNum⟩

/-- The instance bound to VF `vf` of link `n` (R269). -/
def State.boundInst (s : State) (n vf : Nat) : Option Nat :=
  (s.insts.find? (fun e => e.2.bound && e.2.vfLink == n && e.2.vfNum == vf)).map (fun e => e.1)

/-- The number of a ring of an instance in the ring tables. -/
def ringKey (i r : Nat) : Nat := 64 * i + r

/-- Send MSI-X vector `v` of an instance's VF, or keep it pending while masked (R276). -/
def State.signalVf (s : State) (i v : Nat) : State :=
  let x := s.inst i
  if !x.bound || x.vectors ≤ v || s.safe || !s.linkUp x.vfLink || s.isFenced (.basil x.vfLink) then s
  else if !s.msixEnable x.vfLink x.vfNum then s
  else if s.msixMask x.vfLink x.vfNum || s.flag (Reg.vfMsixData i v) Fld.vfMsixDataMask
      || !s.bme x.vfLink x.vfNum || s.d3hot x.vfLink then
    s.setWord (Reg.vfPba i) (s.word (Reg.vfPba i) ||| BitVec.ofNat 64 (1 <<< v))
  else (s.emit (.msix ⟨x.vfLink, x.vfNum⟩ v)).count ⟨0x603, some x.vfLink, some i, none, none, some false, 1⟩

/-! ## Ports, lanes and tiles -/

/-- The physical tile that serves a logical port. -/
def State.portTile (s : State) (p : Nat) : Nat := s.tileOf (p / 8)

/-- PORT_STAT of a logical port. -/
def State.portStat (s : State) (p : Nat) : Nat := Reg.portStat (s.portTile p) (p % 8)

/-- PORT_STAT `state` of a logical port (R87). -/
def State.portState (s : State) (p : Nat) : Nat := s.get (s.portStat p) Fld.portStatState

/-- The link source of a logical port (R495): 16 n + j of the tile that serves its slot. -/
def State.linkSrc (s : State) (p : Nat) : Nat := 16 * s.portTile p + p % 8

/-- Post a message of a kind of R496 on a port's link source. -/
def State.postLink (s : State) (p kind : Nat) : State := s.postFree (s.linkSrc p) kind 1

/-- Post an informational event tied to a port (R577 case 1). -/
def State.noticePort (s : State) (p : Nat) : State := s.post (s.linkSrc p) 59 0 (s.portStat p)

/-- Bring-up data of a port. -/
def State.port (s : State) (p : Nat) : PortSt := Table.getD s.ports PortSt.init p

/-- Replace a port's bring-up data. -/
def State.setPort (s : State) (p : Nat) (x : PortSt) : State := { s with ports := Table.put s.ports p x }

/-- Link layer of a port. -/
def State.link (s : State) (p : Nat) : LinkSt := Table.getD s.links LinkSt.init p

/-- Replace a port's link layer. -/
def State.setLink (s : State) (p : Nat) (x : LinkSt) : State := { s with links := Table.put s.links p x }

/-- Tracking of a physical lane. -/
def State.lane (s : State) (k : Nat) : LaneSt := Table.getD s.lanes LaneSt.init k

/-- Replace a lane's tracking. -/
def State.setLane (s : State) (k : Nat) (x : LaneSt) : State := { s with lanes := Table.put s.lanes k x }

/-- LANE_STAT of a physical lane, in the tile that serves its slot. -/
def State.laneStat (s : State) (k : Nat) : Nat := Reg.laneStat (s.tileOf (k / 16)) (k % 16)

/-- LANE_ERR of a physical lane. -/
def State.laneErr (s : State) (k : Nat) : Nat := Reg.laneErr (s.tileOf (k / 16)) (k % 16)

/-- The LANE_MAP record in force for a port; unused before an apply. -/
def State.laneRec (s : State) (p : Nat) : LaneRec :=
  match s.img.applied with
  | some c => c.laneMap.getD p ⟨0, 0, 2⟩
  | none => ⟨0, 0, 2⟩

/-- The physical lane at position `pos` (0 a, 1 b) of a port. -/
def State.portLane (s : State) (p pos : Nat) : Nat :=
  if pos = 0 then (s.laneRec p).laneA else (s.laneRec p).laneB

/-- The port and position that a physical lane serves. -/
def State.lanePort (s : State) (k : Nat) : Option (Nat × Nat) :=
  ((List.range 8).map (fun j => 8 * (k / 16) + j)).findSome? (fun p =>
    let r := s.laneRec p
    if r.width = 2 then none
    else if r.laneA = k then some (p, 0)
    else if r.width = 0 ∧ r.laneB = k then some (p, 1)
    else none)

/-- The physical lanes of a port. -/
def State.portLanes (s : State) (p : Nat) : List Nat :=
  let r := s.laneRec p
  if r.width = 0 then [r.laneA, r.laneB] else if r.width = 1 then [r.laneA] else []

/-- The topology in force. -/
def State.topo (s : State) : Topology :=
  match s.img.applied with
  | some c => c.topo
  | none => ⟨0, 0, 0, 0, 0, 0, []⟩

/-- The device's own FID (R185). -/
def State.fid (s : State) : Nat := s.topo.fid

/-- The role of a port in TOPOLOGY: 0 unused, 1 row, 2 column, 3 global. -/
def State.role (s : State) (p : Nat) : Nat := s.topo.roles.getD p 0

/-- CLASS_VC in force (R44). -/
def State.classVc (s : State) : Nat :=
  match s.img.applied with
  | some c => c.classVc
  | none => 0

/-- The VC group of a traffic class (R194): 0 express, 1 bulk, 2 collective, 3 management. -/
def tcGroup (tc : Nat) : Nat :=
  if tc = 0 then 0 else if tc ≤ 5 then 1 else if tc = 6 then 2 else 3

/-- VC number from group, stage and order (R14). -/
def vcNum (group stage order : Nat) : Nat := 6 * group + 2 * stage + order

/-- A VC is enabled (R46). -/
def State.vcEnabled (s : State) (vc : Nat) : Bool :=
  let c := s.classVc
  decide (vc < 24) && bit c (vc / 6) && decide (vc % 6 / 2 < bits c 6 5) && (vc % 2 == 0 || bit c 7)

/-- Flits reserved for a VC of a port (R44, R46). -/
def State.reserve (s : State) (p vc : Nat) : Nat :=
  match s.img.applied with
  | some c => if s.vcEnabled vc then (c.buffer.getD p []).getD (vc / 6) 0 else 0
  | none => 0

/-- The shared pool of a port (R46): what the enabled VCs leave of 5,120 flits. -/
def State.sharedPool (s : State) (p : Nat) : Nat :=
  5120 - (List.range 24).foldl (fun n vc => n + s.reserve p vc) 0

/-- Fields of a FID (R185). -/
def fidGroup (f : Nat) : Nat := f / 256
/-- Row of a FID. -/
def fidRow (f : Nat) : Nat := f / 16 % 16
/-- Column of a FID. -/
def fidCol (f : Nat) : Nat := f % 16

/-- Payload flits of a packet (R223). -/
def payloadFlits (plen : Nat) : Nat := (plen + 63) / 64

/-! ## Engines -/

/-- The physical unit of a logical engine or core: kind 1 remote access, 2 Dill, 3 Fennel, 4 Sorrel (R19, R44). -/
def State.physUnit (s : State) (kind u : Nat) : Nat :=
  let off := if kind = 1 then 0 else if kind = 2 then 16 else if kind = 3 then 48 else 64
  s.engMap.getD (off + u) 0

/-- The spare entries now in force (R513, R521). -/
def State.spares (s : State) : List Nat :=
  match s.spareMap with
  | some l => l
  | none => s.engMap.drop 128

/-- The fence of an engine or core, by kind and physical unit. -/
def unitOf (kind phys : Nat) : FUnit :=
  if kind = 1 then .rae phys else if kind = 2 then .dill phys else if kind = 3 then .fennel phys else .core phys

/-! ## Device memory -/

/-- The size of device memory: 96 GiB (R267). -/
def hbmSize : Nat := 96 * 2 ^ 30

/-- An access of device memory as Tarragon counts it: 0xC00 a read, 0xC01 a write; a stack holds a quarter of the
device addresses (log 12). -/
def State.hbmCount (s : State) (code a n : Nat) : State :=
  s.count ⟨code, some (a / (hbmSize / 4)), none, some a, none, none, n⟩

/-- Read device memory; unlisted bytes read zero (log 4). -/
def State.hbmRead (s : State) (a n : Nat) : List Byte := readBytes s.rma.hbm 0 a n

/-- Write device memory. -/
def State.hbmWrite (s : State) (a : Nat) (l : List Byte) : State :=
  { s with rma := { s.rma with hbm := writeBytes s.rma.hbm 0 a l } }

/-- An operation. -/
def State.op (s : State) (o : Nat) : OpSt := Table.getD s.rma.ops OpSt.init o

/-- Replace an operation. -/
def State.setOp (s : State) (o : Nat) (x : OpSt) : State :=
  { s with rma := { s.rma with ops := Table.put s.rma.ops o x } }

/-- Drop an operation. -/
def State.dropOp (s : State) (o : Nat) : State :=
  { s with rma := { s.rma with ops := Table.del s.rma.ops o } }

end Sys2Proof.Machine
end

