-- ==== Sys2Proof/Machine/Packets.lean ====
section
/-! DEFINITION. Packets: the header flit as bytes (R190, R222), its end-to-end CRC (R225), its payload
flits (R223), and the packets that the device builds itself. -/

namespace Sys2Proof

open Sys2Proof.Machine

/-- The packet types (R224). -/
def opPut : Nat := 0x01
/-- GET_REQ. -/
def opGetReq : Nat := 0x02
/-- GET_RSP. -/
def opGetRsp : Nat := 0x03
/-- ATOMIC. -/
def opAtomic : Nat := 0x04
/-- ATOMIC_RSP. -/
def opAtomicRsp : Nat := 0x05
/-- SEND. -/
def opSend : Nat := 0x06
/-- SEND_RDV. -/
def opSendRdv : Nat := 0x07
/-- LOCK. -/
def opLock : Nat := 0x08
/-- COLL. -/
def opColl : Nat := 0x09
/-- COMP. -/
def opComp : Nat := 0x0A
/-- NCOMP. -/
def opNcomp : Nat := 0x0B
/-- ACK. -/
def opAck : Nat := 0x0C
/-- SYNC. -/
def opSync : Nat := 0x0D
/-- BEACON. -/
def opBeacon : Nat := 0x10
/-- DISC_Q. -/
def opDiscQ : Nat := 0x11
/-- DISC_A. -/
def opDiscA : Nat := 0x12

/-- A route word of zeros. -/
def RouteWord.zero : RouteWord := ⟨0, 0, false, 0, 0, 0, 0, 0, 0, false, false⟩

/-- A packet of zeros. -/
def Packet.zero : Packet :=
  { op := 0, tc := 0, locked := false, de := false, final := false, ackv := false, seqd := false, plen := 0,
    src := 0, sInst := 0, route := RouteWord.zero, seq := 0, attempt := 0, inc := 0, tInst := 0, xid := 0,
    pidx := 0, base := 0, xlen := 0, ackNext := 0, limit := 0, key := 0, aux := 0, crc := 0, payload := [] }

/-- The route word as a number (R190). -/
def RouteWord.word (r : RouteWord) : Nat :=
  r.dst % 2 ^ 18 + (r.via % 1024) <<< 18 + b2n r.nonmin <<< 28 + (r.stage % 4) <<< 29 + (r.order % 2) <<< 31
    + (r.segTgt % 256) <<< 32 + (r.segPort % 256) <<< 40 + (r.hops % 16) <<< 48 + (r.vc % 32) <<< 52
    + b2n r.mcast <<< 57 + b2n r.mdim <<< 58

/-- The route word that a number spells. -/
def RouteWord.ofWord (w : Nat) : RouteWord :=
  ⟨bits w 17 0, bits w 27 18, bit w 28, bits w 30 29, bits w 31 31, bits w 39 32, bits w 47 40, bits w 51 48,
    bits w 56 52, bit w 57, bit w 58⟩

/-- The member mask of a multicast copy (R190). -/
def RouteWord.mask (r : RouteWord) : Nat := r.segTgt + 256 * r.segPort

/-- The first eight bytes of a header (R222). -/
def Packet.head (p : Packet) : List Byte :=
  leBytes p.op 1
    ++ leBytes (p.tc % 8 + 8 * b2n p.locked + 16 * b2n p.de + 32 * b2n p.final + 64 * b2n p.ackv
        + 128 * b2n p.seqd) 1
    ++ leBytes (p.plen % 2 ^ 13) 2 ++ leBytes (p.src % 2 ^ 18 + (p.sInst % 4096) <<< 18) 4

/-- Bytes 16 to 59 of a header (R222). -/
def Packet.body (p : Packet) : List Byte :=
  leBytes p.seq 3 ++ leBytes p.attempt 1 ++ leBytes p.inc 2 ++ leBytes (p.tInst % 4096) 2 ++ leBytes p.xid 4
    ++ leBytes (p.pidx % 2 ^ 20) 3 ++ [0] ++ leBytes p.base 8 ++ leBytes (p.xlen % 2 ^ 33) 5
    ++ leBytes p.ackNext 3 ++ leBytes p.limit 3 ++ [0] ++ leBytes p.key 4 ++ leBytes p.aux 4

/-- The end-to-end CRC of a packet (R225): the route word and the CRC itself are not covered. -/
def Packet.crcOf (p : Packet) : Nat := crc32c (p.head ++ p.body ++ p.payload)

/-- The packet with its CRC computed. -/
def Packet.seal (p : Packet) : Packet := { p with crc := p.crcOf }

/-- The header flit. -/
def Packet.header (p : Packet) : List Byte :=
  p.head ++ leBytes p.route.word 8 ++ p.body ++ leBytes p.crc 4

/-- Cut bytes into flits of 64. -/
def flitsOf : Nat → List Byte → List (List Byte)
  | 0, _ => []
  | n + 1, l => padTo 64 (l.take 64) :: flitsOf n (l.drop 64)

/-- The flits of a packet on a link (R122). -/
def Packet.flits (p : Packet) : List (List Byte) := p.header :: flitsOf (payloadFlits p.plen) p.payload

/-- The number that bytes `off` to `off + n - 1` of a flit spell. -/
def atBytes (l : List Byte) (off n : Nat) : Nat := leNat ((l.drop off).take n)

/-- The packet that a header flit states, without its payload. -/
def Packet.ofHeader (l : List Byte) : Packet :=
  let fl := atBytes l 1 1
  let w := atBytes l 4 4
  { op := atBytes l 0 1, tc := fl % 8, locked := bit fl 3, de := bit fl 4, final := bit fl 5, ackv := bit fl 6,
    seqd := bit fl 7, plen := atBytes l 2 2 % 2 ^ 13, src := bits w 17 0, sInst := bits w 29 18,
    route := RouteWord.ofWord (atBytes l 8 8), seq := atBytes l 16 3, attempt := atBytes l 19 1,
    inc := atBytes l 20 2, tInst := atBytes l 22 2 % 4096, xid := atBytes l 24 4,
    pidx := atBytes l 28 3 % 2 ^ 20, base := atBytes l 32 8, xlen := atBytes l 40 5 % 2 ^ 33,
    ackNext := atBytes l 45 3, limit := atBytes l 48 3, key := atBytes l 52 4, aux := atBytes l 56 4,
    crc := atBytes l 60 4, payload := [] }

/-- Flits that a packet takes on a link and in a pool: its header flit and its payload flits (R122, R126). -/
def Packet.size (p : Packet) : Nat := 1 + payloadFlits p.plen

/-- A packet is express: its VC group is 0 (R169). -/
def Packet.express (p : Packet) : Bool := p.tc == 0

/-- A packet that goes one link and is not routed: a beacon or a discovery packet (R199, R211). -/
def Packet.linkLocal (p : Packet) : Bool := p.op == opBeacon || p.op == opDiscQ || p.op == opDiscA

/-- The mark takes effect only on a packet of at most four flits (R168). -/
def Packet.isLocked (p : Packet) : Bool := p.locked && decide (p.size ≤ 4)

/-- The negative completion that a transit device builds for a failed packet (R580). -/
def Packet.transitNcomp (p : Packet) (reason : Nat) : Packet :=
  { p with
    op := opNcomp, tc := 7, plen := 0, payload := [], locked := false, de := false, final := false, ackv := false,
    seqd := false, src := p.route.dst, route := { RouteWord.zero with dst := p.src }, ackNext := 0, limit := 0,
    aux := reason % 256 + (p.seq % 2 ^ 24) <<< 8 }.seal

end Sys2Proof
end

