-- ==== Sys2Proof/Machine/Bus.lean ====
section
/-! DEFINITION. Bus: what the device issues on a host link: reads under the tag limit, writes cut to the payload
size, AtomicOps, and the dirty-page log (R270 to R273, R324). -/

namespace Sys2Proof.Machine

/-- AER errors by their status bits, a correctable one above 32 (log 7). -/
def aerPoisoned : Nat := 12
/-- Completion Timeout. -/
def aerTimeout : Nat := 14
/-- Completer Abort. -/
def aerAbort : Nat := 15
/-- ECRC Error. -/
def aerEcrc : Nat := 19
/-- Unsupported Request. -/
def aerUr : Nat := 20
/-- Uncorrectable Internal Error. -/
def aerInternal : Nat := 22
/-- Corrected Internal Error. -/
def aerCorrected : Nat := 46

/-- The errors whose report logs the header of the TLP that caused them. -/
def aerHeader (err : Nat) : Bool := err == aerPoisoned || err == aerAbort || err == aerEcrc || err == aerUr

/-- Log the header of the TLP that caused an uncorrectable error, and point at it (log 7). The commands do not carry the header: its
words are free values (log 142). -/
def State.aerLog (s : State) (f : Func) (err : Nat) : State :=
  let s := s.setCfg f.link f.vf 0x118 (s.cfg f.link f.vf 0x118 / 32 * 32 + err)
  if aerHeader err then
    [0x11C, 0x120, 0x124, 0x128].foldl (fun s off =>
      let (w, s) := s.fresh
      s.setCfg f.link f.vf off (w.toNat % 2 ^ 32)) s
  else s

/-- Report an error through a function's AER (R278): its status bit is set. Unless the function's mask holds it back, the report leaves
with the severity of the function's register, and the first uncorrectable error that no status bit records logs its header (log 7). -/
def State.aer (s : State) (f : Func) (err : Nat) : State :=
  let low := decide (err < 32)
  let off := if low then 0x104 else 0x110
  let masked := s.cfgBit f.link f.vf (if low then 0x108 else 0x114) (err % 32)
  let first := low && !masked && s.cfg f.link f.vf 0x104 == 0
  let s := s.setCfg f.link f.vf off (s.cfg f.link f.vf off ||| 1 <<< (err % 32))
  let s := if first then s.aerLog f err else s
  if masked then s else s.emit (.aer f err (low && s.cfgBit f.link f.vf 0x10C err))

/-- Max_Read_Request_Size of a link, in bytes (Device Control bits 14:12 of PF0, log 7). -/
def State.mrrs (s : State) (n : Nat) : Nat := 128 <<< min 5 (bits (s.cfg n 0 0x78) 14 12)

/-- Max_Payload_Size of a link, in bytes (Device Control bits 7:5 of PF0, log 7), 512 at most (R262). -/
def State.mps (s : State) (n : Nat) : Nat := min 512 (128 <<< min 5 (bits (s.cfg n 0 0x78) 7 5))

/-- Enable Relaxed Ordering of the function that issues a request (R270). -/
def State.relaxed (s : State) (f : Func) : Bool := s.cfgBit f.link f.vf 0x78 4

/-- The attributes of a request of a function: Relaxed Ordering where `ro`, ID-based Ordering and the ECRC as its controls enable
them (R260, R270). -/
def State.attrs (s : State) (f : Func) (ro : Bool) : TlpAttr := ⟨ro, s.cfgBit f.link f.vf 0x98 8, s.cfgBit f.link f.vf 0x118 6⟩

/-- A function may issue AtomicOps: its AtomicOp Requester Enable is set, and its link's root port completes them (R272, R273). -/
def State.atomicsOk (s : State) (f : Func) : Bool :=
  s.cfgBit f.link f.vf 0x98 6 && s.flag (Reg.hostCtrl f.link) Fld.hostCtrlAtomicAvail

/-- The reads that the tag mode allows (R271): 14-bit tags in Flit mode, 10-bit or 8-bit tags (log 7). -/
def State.tagLimit (s : State) (n : Nat) : Nat :=
  if s.cfgBit n 0 0x98 12 then (if s.flag (Reg.hostStat n) Fld.hostStatFlit then 8192 else 768) else 256

/-- Outstanding reads allowed on a link (R290). -/
def State.rdMax (s : State) (n : Nat) : Nat :=
  if s.flag (Reg.hostCtrl n) Fld.hostCtrlExpert then
    min (s.tagLimit n) (max 1 (s.get (Reg.hostCtrl n) Fld.hostCtrlRdMax))
  else s.tagLimit n

/-- Cut a span into requests of at most `m` bytes that cross no 4 KiB boundary (R271). -/
def cutSpan (m : Nat) : Nat → Nat → Nat → List (Nat × Nat)
  | 0, _, _ => []
  | _, _, 0 => []
  | f + 1, a, n =>
    let k := min n (min m (4096 - a % 4096))
    (a, k) :: cutSpan m f (a + k) (n - k)

/-- Requests outstanding on a link. -/
def State.inFlight (s : State) (n : Nat) : Nat := (s.dma.filter (fun r => r.link == n)).length

/-- The AtomicOp of a remote atomic (R272): operation, size and operands. -/
def atomicArgs (p : Packet) : Nat × Nat × Nat × Nat :=
  let w := if bit p.aux 4 then 16 else 8
  (p.aux % 16, w, leNat (p.payload.take w), leNat ((p.payload.drop w).take w))

/-- Send a memory write on a link. -/
def State.writeOut (s : State) (f : Func) (addr : Nat) (data : List Byte) (ro : Bool) : State :=
  (s.emit (.memWrite f addr data (s.attrs f ro))).count
    ⟨0x601, some f.link, s.boundInst f.link f.vf, some addr, none, some (f.vf == 0), data.length⟩

/-- The least tag of a link's tag mode that no outstanding request has (R271, log 118): from 0 with 8-bit tags, from 256 with 10-bit
tags and from 1,024 with 14-bit tags. -/
def State.freeTag (s : State) (n : Nat) : Nat :=
  let base := if s.tagLimit n = 256 then 0 else if s.tagLimit n = 768 then 256 else 1024
  let used := s.dma.filter (fun r => r.link == n)
  base + ((List.range (used.length + 1)).find? (fun k => !used.any (fun r => r.tag == base + k))).getD 0

/-- Put a read or an AtomicOp on its link under a tag. -/
def State.issueRead (s : State) (r : DmaReq) : State :=
  let tag := s.freeTag r.link
  let s := { s with dma := s.dma ++ [{ r with tag := tag }] }
  let s := s.count ⟨0x600, some r.link, some r.inst, some r.addr, none, some (r.func.vf == 0), r.len⟩
  match r.why with
  | .mark w =>
    match (s.xl.walks.find? (fun x => x.id == w)).bind (fun x => x.mark) with
    | some m => s.emit (.atomicOp r.func tag r.addr 2 8 m.old.toNat m.new.toNat (s.attrs r.func false))
    | none => s
  | .hostAtomic p =>
    let (op, w, a, b) := atomicArgs p
    s.emit (.atomicOp r.func tag r.addr op w a b (s.attrs r.func false))
  | .payload _ _ _ => s.emit (.memRead r.func tag r.addr r.len (s.attrs r.func (s.relaxed r.func)))
  | _ => s.emit (.memRead r.func tag r.addr r.len (s.attrs r.func false))

/-- Issue a request that has waited. -/
def State.issue (s : State) (r : DmaReq) : State :=
  match r.why with
  | .write data ro => s.writeOut r.func r.addr data ro
  | _ => s.issueRead r

/-- A request is an AtomicOp. -/
def DmaReq.atomic (r : DmaReq) : Bool :=
  match r.why with
  | .mark _ | .hostAtomic _ => true
  | _ => false

/-- A request may leave now: the link does DMA for its function, a read finds a tag, and an AtomicOp is allowed. -/
def State.mayIssue (s : State) (r : DmaReq) : Bool :=
  s.dmaOk r.link r.func.vf && (!r.atomic || s.atomicsOk r.func) && (match r.why with
    | .write _ _ => true
    | _ => decide (s.inFlight r.link < s.rdMax r.link))

/-- Issue the requests that wait on a link, in order, while the link does DMA and tags are free. -/
def State.pumpDma (s : State) (n : Nat) : State :=
  s.dmaQ.foldl (fun s r =>
    if r.link == n && s.mayIssue r then s.issue r
    else { s with dmaQ := s.dmaQ ++ [r] }) { s with dmaQ := [] }

/-- Ask for a read or an AtomicOp. -/
def State.ask (s : State) (r : DmaReq) : State := { s with dmaQ := s.dmaQ ++ [r] }.pumpDma r.link

/-- Read `n` bytes of host memory for an instance, in requests whose purpose is given by their offset. -/
def State.hostRead (s : State) (i addr n : Nat) (why : Nat → ReadWhy) : State :=
  let f := s.instFunc i
  ((cutSpan (s.mrrs f.link) 4096 addr n).foldl
    (fun s c => { s with dmaQ := s.dmaQ ++ [⟨f.link, 0, f, i, c.1, c.2, why (c.1 - addr)⟩] }) s).pumpDma f.link

/-- Write host memory: requests cut to the payload size. While PF0 of the link is in D3hot the writes wait (R285); nothing
leaves where the function may not issue it (log 21). -/
def State.busWrite (s : State) (f : Func) (addr : Nat) (data : List Byte) (ro : Bool) : State :=
  let l := (cutSpan (s.mps f.link) 4096 addr data.length).map (fun c => (c.1, (data.drop (c.1 - addr)).take c.2))
  if s.dmaOk f.link f.vf then l.foldl (fun s c => s.writeOut f c.1 c.2 ro) s
  else if s.d3hot f.link && s.linkUp f.link && !s.safe then
    { s with dmaQ := s.dmaQ ++ l.map (fun c => ⟨f.link, 0, f, 0, c.1, c.2.length, .write c.2 ro⟩) }
  else s

/-- The base of an instance's active dirty bitmap (R324). -/
def State.dlogAt (s : State) (i : Nat) : Nat :=
  (s.word (Reg.dlogBase i (s.get (Reg.dlogCtrl i) Fld.dlogCtrlActive))).toNat

/-- Mark page `p` in the cached bitmap word and issue the bitmap write, with PF0's Requester ID (R324). -/
def State.dlogMark (s : State) (i p : Nat) : State :=
  let x := s.inst i
  let w := Table.getD x.dlogWords 0 (p / 64)
  let w' := w ||| 1 <<< (p % 64)
  let s := s.setInst i { x with dlogWords := Table.put x.dlogWords (p / 64) w' }
  s.busWrite ⟨x.vfLink, 0⟩ (s.dlogAt i + p / 8) [BitVec.ofNat 8 (w' >>> (8 * (p / 8 % 8)))] false

/-- A write that has been logged leaves, and what follows it. -/
def State.logged (s : State) (i addr : Nat) (data : List Byte) (ro : Bool) (next : LogThen) : State :=
  let s := s.busWrite (s.instFunc i) addr data ro
  match next with
  | .none => s
  | .msix v => s.signalVf i v
  | .ask r => s.ask r

/-- Write host memory for an instance at a bus address; `gpa` is the address that the dirty log records (R324): the
bitmap write leaves before the data write, and waits for a word that is not cached. -/
def State.hostWriteThen (s : State) (i addr gpa : Nat) (data : List Byte) (ro : Bool) (next : LogThen) : State :=
  let f := s.instFunc i
  let ro := ro && s.relaxed f
  if s.flag (Reg.dlogCtrl i) Fld.dlogCtrlOn then
    let p := gpa / 4096
    if s.get (Reg.dlogPages i) Fld.dlogPagesPages ≤ p then
      ((s.put (Reg.dlogCtrl i) Fld.dlogCtrlOver 1).bump (Reg.dlogCtrl i) Fld.dlogCtrlOverCount 1).logged i addr data ro next
    else
      match Table.find (s.inst i).dlogWords (p / 64) with
      | some _ => (s.dlogMark i p).logged i addr data ro next
      | none =>
        let asked := s.logWait.any (fun w => w.inst == i && w.word == p / 64)
        let s := { s with logWait := s.logWait ++ [⟨i, p / 64, p, addr, data, ro, next⟩] }
        if asked then s
        else s.ask ⟨f.link, 0, ⟨f.link, 0⟩, i, s.dlogAt i + p / 64 * 8, 8, .dlogWord i (p / 64)⟩
  else s.logged i addr data ro next

/-- Write host memory for an instance, with nothing to follow. -/
def State.hostWrite (s : State) (i addr gpa : Nat) (data : List Byte) (ro : Bool) : State :=
  s.hostWriteThen i addr gpa data ro .none

/-- Bitmap words cached in all (R324). -/
def State.dlogCached (s : State) : Nat := s.insts.foldl (fun n e => n + e.2.dlogWords.length) 0

/-- A bitmap word arrives (R324): the writes that wait for it go on. A full cache is emptied first (log 22). -/
def State.dlogArrive (s : State) (i w : Nat) (v : Nat) : State :=
  let s := if 4096 ≤ s.dlogCached then
      { s with insts := s.insts.map (fun e => (e.1, { e.2 with dlogWords := [] })) } else s
  let x := s.inst i
  let s := s.setInst i { x with dlogWords := Table.put x.dlogWords w v }
  let go := s.logWait.filter (fun l => l.inst == i && l.word == w)
  let s := { s with logWait := s.logWait.filter (fun l => !(l.inst == i && l.word == w)) }
  go.foldl (fun s l => (s.dlogMark i l.page).logged i l.addr l.data l.ro l.next) s

end Sys2Proof.Machine
end

