-- ==== Sys2Proof/Machine/LineCode.lean ====
section
/-! DEFINITION. LineCode: the line code of a lane: control blocks as bytes (R86, R118), 257-bit blocks (R78), the
scrambler (R79), the cut into units (R80), alignment markers (R81), Reed–Solomon codewords (R82), and PAM4 symbols with
precoding (R75, R76). -/

namespace Sys2Proof.Machine

/-! ## Control blocks as bytes (R86, R92, R118) -/

/-- Bytes 1 to 24 of a CAP block (R92). -/
def capBytes (c : CapRec) : List Byte :=
  leBytes c.part.toNat 2 ++ leBytes c.step.toNat 1 ++ leBytes c.pelong.toNat 1 ++ leBytes c.fid.toNat 3
    ++ leBytes c.port.toNat 1 ++ leBytes (b2n c.laneA + 2 * b2n c.laneB + 4 * b2n c.precode) 1
    ++ leBytes c.profile.toNat 1 ++ leBytes c.role.toNat 1 ++ leBytes c.classVc.toNat 1
    ++ leBytes c.groups.toNat 2 ++ leBytes c.serial.toNat 8 ++ [0, 0]

/-- The capability record that the bytes of a CAP block state (R92). -/
def capOfBytes (b : List Byte) : CapRec :=
  { part := BitVec.ofNat 16 (atBytes b 1 2), step := BitVec.ofNat 8 (atBytes b 3 1),
    pelong := BitVec.ofNat 8 (atBytes b 4 1), fid := BitVec.ofNat 18 (atBytes b 5 3),
    port := BitVec.ofNat 8 (atBytes b 8 1), laneA := bit (atBytes b 9 1) 0, laneB := bit (atBytes b 9 1) 1,
    precode := bit (atBytes b 9 1) 2, profile := BitVec.ofNat 8 (atBytes b 10 1), role := BitVec.ofNat 2 (atBytes b 11 1),
    classVc := BitVec.ofNat 8 (atBytes b 12 1), groups := BitVec.ofNat 16 (atBytes b 13 2),
    serial := BitVec.ofNat 64 (atBytes b 15 8) }

/-- The CAP_ACK check value of a record (R572). -/
def capCrc (c : CapRec) : Nat := crc16 (capBytes c)

/-- The 9 bytes of a frame record (R114). -/
def SealRec.bytes (r : SealRec) : List Byte :=
  leBytes r.seq.toNat 2 ++ leBytes r.crc.toNat 4 ++ leBytes r.hmap.toNat 1 ++ leBytes r.smap.toNat 1
    ++ leBytes (r.nflits.toNat + 16 * b2n r.abort) 1

/-- The frame record at byte `o` of a SEAL (R114). -/
def SealRec.ofBytes (b : List Byte) (o : Nat) : SealRec :=
  ⟨BitVec.ofNat 16 (atBytes b o 2), BitVec.ofNat 32 (atBytes b (o + 2) 4), BitVec.ofNat 8 (atBytes b (o + 6) 1),
    BitVec.ofNat 8 (atBytes b (o + 7) 1), BitVec.ofNat 4 (atBytes b (o + 8) 1), bit (atBytes b (o + 8) 1) 4⟩

/-- The 3 bytes of a CREDIT record (R118). -/
def CreditRec.bytes (r : CreditRec) : List Byte :=
  leBytes (r.vc.toNat + 128 * b2n r.shared) 1 ++ leBytes r.flits.toNat 2

/-- The CREDIT record at byte `o` (R118). -/
def CreditRec.ofBytes (b : List Byte) (o : Nat) : CreditRec :=
  ⟨BitVec.ofNat 5 (atBytes b o 1), bit (atBytes b o 1) 7, BitVec.ofNat 16 (atBytes b (o + 1) 2)⟩

/-- The control type (R86, R118). -/
def Ctl.code : Ctl → Nat
  | .idle => 0x00
  | .cap _ => 0x01
  | .capAck _ => 0x02
  | .echoReq _ _ => 0x03
  | .echoRsp _ _ _ => 0x04
  | .adapt _ _ => 0x05
  | .degrade _ => 0x06
  | .degradeAck _ => 0x07
  | .retrain => 0x08
  | .seal _ _ => 0x10
  | .credit _ _ => 0x11
  | .nak _ _ => 0x12
  | .replay _ _ => 0x13
  | .keepalive _ _ _ => 0x14
  | .init _ _ _ _ _ => 0x15
  | .initAck _ => 0x16

/-- The content of a control block: bytes 1 on, without the zeros that fill it (R86, R118). -/
def Ctl.content : Ctl → List Byte
  | .idle => []
  | .cap c => capBytes c
  | .capAck crc => leBytes crc 2
  | .echoReq num stamp => leBytes num 2 ++ leBytes stamp.toNat 8
  | .echoRsp num stamp turn => leBytes num 2 ++ leBytes stamp.toNat 8 ++ leBytes turn 4
  | .adapt lane coeff => leBytes lane 2 ++ leBytes coeff 6
  | .degrade pos => leBytes pos 1
  | .degradeAck pos => leBytes pos 1
  | .retrain => []
  | .seal recs ack => leBytes recs.length 1 ++ padTo 27 (recs.map SealRec.bytes).flatten ++ leBytes ack 2
  | .credit recs ack => leBytes recs.length 1 ++ padTo 21 (recs.map CreditRec.bytes).flatten ++ leBytes ack 2
  | .nak nums ack => leBytes nums.length 1 ++ padTo 16 (nums.map (fun n => leBytes n 2)).flatten ++ leBytes ack 2
  | .replay first ack => leBytes first 2 ++ leBytes ack 2
  | .keepalive next ack empty => leBytes next 2 ++ leBytes ack 2 ++ leBytes (b2n empty) 1
  | .init part reserve shared lim next =>
    leBytes part 1 ++ padTo 24 (reserve.map (fun n => leBytes n 2)).flatten ++ leBytes shared 2 ++ leBytes lim 2
      ++ leBytes next 2
  | .initAck parts => leBytes parts 1

/-- The 32 bytes of a control block (R78). -/
def Ctl.bytes (c : Ctl) : List Byte := padTo 32 (leBytes c.code 1 ++ c.content)

/-- The control block that 32 bytes state, by its type (R86, R118): none for a type that is in neither table. -/
def Ctl.parse (b : List Byte) : Option Ctl :=
  match atBytes b 0 1 with
  | 0x00 => some .idle
  | 0x01 => some (.cap (capOfBytes b))
  | 0x02 => some (.capAck (atBytes b 1 2))
  | 0x03 => some (.echoReq (atBytes b 1 2) (BitVec.ofNat 64 (atBytes b 3 8)))
  | 0x04 => some (.echoRsp (atBytes b 1 2) (BitVec.ofNat 64 (atBytes b 3 8)) (atBytes b 11 4))
  | 0x05 => some (.adapt (atBytes b 1 2) (atBytes b 3 6))
  | 0x06 => some (.degrade (atBytes b 1 1))
  | 0x07 => some (.degradeAck (atBytes b 1 1))
  | 0x08 => some .retrain
  | 0x10 => some (.seal ((List.range (atBytes b 1 1 % 4)).map (fun i => SealRec.ofBytes b (2 + 9 * i))) (atBytes b 29 2))
  | 0x11 => some (.credit ((List.range (atBytes b 1 1)).map (fun i => CreditRec.ofBytes b (2 + 3 * i))) (atBytes b 23 2))
  | 0x12 => some (.nak ((List.range (atBytes b 1 1)).map (fun i => atBytes b (2 + 2 * i) 2)) (atBytes b 18 2))
  | 0x13 => some (.replay (atBytes b 1 2) (atBytes b 3 2))
  | 0x14 => some (.keepalive (atBytes b 1 2) (atBytes b 3 2) (bit (atBytes b 5 1) 0))
  | 0x15 => some (.init (atBytes b 1 1) ((List.range 12).map (fun i => atBytes b (2 + 2 * i) 2)) (atBytes b 26 2)
      (atBytes b 28 2) (atBytes b 30 2))
  | 0x16 => some (.initAck (atBytes b 1 1 % 4))
  | _ => none

/-! ## Blocks and the scrambler (R78 to R80) -/

/-- The lowest `n` bits of a number, least significant first. -/
def lsbBits (v : Nat) : Nat → List Bool
  | 0 => []
  | n + 1 => bit v 0 :: lsbBits (v / 2) n

/-- The number that bits spell, least significant first. -/
def bitsNat : List Bool → Nat
  | [] => 0
  | b :: t => b2n b + 2 * bitsNat t

/-- The bits of bytes in transmission order: byte 0 first, each least significant bit first (R78). -/
def byteBits (l : List Byte) : List Bool := (l.map (fun b => lsbBits b.toNat 8)).flatten

/-- The bytes that bits in transmission order spell. -/
def bitsBytes (l : List Bool) : List Byte := leBytes (bitsNat l) (l.length / 8)

/-- Scramble bits with 1 + x^39 + x^58, self-synchronous (R79): each bit sent is the bit given, the bit sent 39 before and
the bit sent 58 before, added modulo 2. Bit 0 of the history is the last bit sent. -/
def scramble (h : BitVec 58) : List Bool → List Bool × BitVec 58
  | [] => ([], h)
  | b :: t =>
    let o := b ^^ h.getLsbD 38 ^^ h.getLsbD 57
    let r := scramble (h.shiftConcat o) t
    (o :: r.1, r.2)

/-- Undo the scrambler: the history is of the bits received (R79). -/
def descramble (h : BitVec 58) : List Bool → List Bool × BitVec 58
  | [] => ([], h)
  | b :: t =>
    let r := descramble (h.shiftConcat b) t
    ((b ^^ h.getLsbD 38 ^^ h.getLsbD 57) :: r.1, r.2)

/-- A block of 257 bits (R78, R79): the header bit, 1 for data, and 32 bytes scrambled. -/
def blockBits (h : BitVec 58) (data : Bool) (b : List Byte) : List Bool × BitVec 58 :=
  let r := scramble h (byteBits b)
  (data :: r.1, r.2)

/-- Read a received block: whether it is data, its bytes, and the descrambler's history after it. -/
def readBlock (h : BitVec 58) (l : List Bool) : Bool × List Byte × BitVec 58 :=
  let r := descramble h (l.drop 1)
  (l.headD false, bitsBytes r.1, r.2)

/-- The 32-byte units of a flit (R80): the even one and the odd one. -/
def unitsOf (flit : List Byte) : List Byte × List Byte := (flit.take 32, flit.drop 32)

/-! ## Markers (R81) -/

/-- The 1,912 bits of an alignment marker (R81). The fixed pattern is not stated: free. The order of the bits of a number is
the model's choice (log 125). -/
def markerBits (lane pos count : Nat) : List Bool :=
  (List.range 1536).map Config.markerPattern ++ lsbBits lane 9 ++ lsbBits pos 1 ++ lsbBits count 16
    ++ List.replicate 350 false

/-! ## Reed–Solomon code words (R82) -/

/-- Multiply by α in GF(2^10), whose polynomial is x^10 + x^3 + 1 (R82). -/
def gfDouble (a : Nat) : Nat := if 512 ≤ a then (2 * a) ^^^ 0x409 else 2 * a

/-- Multiply in GF(2^10): `n` bits of the second factor. -/
def gfMulBits (a b : Nat) : Nat → Nat
  | 0 => 0
  | n + 1 => (if b % 2 = 1 then a else 0) ^^^ gfMulBits (gfDouble a) (b / 2) n

/-- The product in GF(2^10). -/
def gfMul (a b : Nat) : Nat := gfMulBits a b 10

/-- α^i. -/
def gfAlpha : Nat → Nat
  | 0 => 1
  | i + 1 => gfDouble (gfAlpha i)

/-- Multiply a polynomial, highest power first, by x − r. -/
def gfTimesRoot (g : List Nat) (r : Nat) : List Nat :=
  List.zipWith (· ^^^ ·) (g ++ [0]) (0 :: g.map (gfMul r))

/-- The generator polynomial: the product of x − α^i for i = 0 to 19, highest power first (R82). -/
def rsGenerator : List Nat := (List.range 20).foldl (fun g i => gfTimesRoot g (gfAlpha i)) [1]

/-- One step of the division by the generator: the remainder so far, highest power first, takes one more symbol. -/
def rsStep (rem : List Nat) (m : Nat) : List Nat :=
  let f := m ^^^ rem.headD 0
  List.zipWith (· ^^^ ·) (rem.drop 1 ++ [0]) ((rsGenerator.drop 1).map (gfMul f))

/-- The 20 parity symbols of a message, the first symbol of which is the highest power (R82, log 126). -/
def rsParity (msg : List Nat) : List Nat := msg.foldl rsStep (List.replicate 20 0)

/-- A polynomial, highest power first, at a point. -/
def gfEval (l : List Nat) (x : Nat) : Nat := l.foldl (fun n c => gfMul n x ^^^ c) 0

/-- A word is a code word: every root of the generator is a root of it. -/
def rsValid (l : List Nat) : Bool := (List.range 20).all (fun i => gfEval l (gfAlpha i) == 0)

/-- The number that bits spell, the first the most significant. -/
def msbNat (l : List Bool) : Nat := l.foldl (fun n b => 2 * n + b2n b) 0

/-- The bits of a number, most significant of `n` first. -/
def msbBits (v n : Nat) : List Bool := (lsbBits v n).reverse

/-- Cut bits into symbols of ten, the first bit as bit 9 (R82). -/
def symbolsOf : Nat → List Bool → List Nat
  | 0, _ => []
  | n + 1, l => msbNat (l.take 10) :: symbolsOf n (l.drop 10)

/-- The 3,600 bits of the codeword of a message of 3,400 bits (R82). -/
def codewordBits (msg : List Bool) : List Bool :=
  msg ++ ((rsParity (symbolsOf 340 msg)).map (fun v => msbBits v 10)).flatten

/-! ## PAM4 symbols and precoding (R75, R76) -/

/-- The Gray level index of a bit pair, first bit the more significant (R75). -/
def grayIndex (b1 b0 : Bool) : Nat :=
  match b1, b0 with
  | false, false => 0
  | false, true => 1
  | true, true => 2
  | true, false => 3

/-- The bit pair of a Gray level index. -/
def grayPair (g : Nat) : Bool × Bool := (decide (2 ≤ g), decide (g = 1 ∨ g = 2))

/-- The level that a Gray level index is sent as (R75). -/
def pamLevel (g : Nat) : Int := 2 * g - 3

/-- The Gray level indexes of bits, two bits each (R75). -/
def grayIndexes : List Bool → List Nat
  | b1 :: b0 :: t => grayIndex b1 b0 :: grayIndexes t
  | _ => []

/-- Precode level indexes (R76); `last` is the index sent before. -/
def precode (last : Nat) : List Nat → List Nat
  | [] => []
  | g :: t => let p := (g + 4 - last % 4) % 4; p :: precode p t

/-- Undo precoding (R76). -/
def unprecode (last : Nat) : List Nat → List Nat
  | [] => []
  | p :: t => (p + last) % 4 :: unprecode p t

/-- The symbols of one codeword on the line, as PAM4 levels, and the last level index sent. -/
def lineSymbols (precoded : Bool) (last : Nat) (cw : List Bool) : List Int × Nat :=
  let g := grayIndexes cw
  let p := if precoded then precode last g else g
  (p.map pamLevel, p.getLastD last)

/-! ## The transmit stream of a lane (R80 to R82) -/

/-- Bits join a lane's message stream; each 3,400 of them leave as one codeword (R82). -/
def State.sendBits (s : State) (lane : Nat) (precoded : Bool) (l : List Bool) : State :=
  let x := s.lane lane
  let m := x.txBits ++ l
  if m.length < 3400 then s.setLane lane { x with txBits := m }
  else
    let r := lineSymbols precoded x.txLevel (codewordBits (m.take 3400))
    (s.setLane lane { x with txBits := m.drop 3400, txLevel := r.2 }).emit (.symbols lane r.1)

/-- A lane sends its alignment marker (R81). -/
def State.sendMarker (s : State) (lane pos : Nat) (precoded : Bool) : State :=
  let x := s.lane lane
  (s.setLane lane { x with txBlocks := 0, txMark := (x.txMark + 1) % 0x10000 }).sendBits lane precoded
    (markerBits lane pos x.txMark)

/-- A lane sends one block; after every 16,384 blocks it sends a marker (R81). -/
def State.sendBlock (s : State) (lane pos : Nat) (precoded data : Bool) (b : List Byte) : State :=
  let x := s.lane lane
  let r := blockBits x.txScr data b
  let s := (s.setLane lane { x with txScr := r.2, txBlocks := x.txBlocks + 1 }).sendBits lane precoded r.1
  if x.txBlocks + 1 = 16384 then s.sendMarker lane pos precoded else s

end Sys2Proof.Machine
end

