-- ==== Sys2Proof/Machine/Paths.lean ====
section
/-! DEFINITION. Paths: levels, the peer map, the route choice at injection and at a segment's start, the
next hop, the permitted alternatives, and the packets that wait for a port (R185 to R206, R144, R145). -/

namespace Sys2Proof.Machine

/-! ## Ports as the router sees them -/

/-- A port is ACTIVE (R87). -/
def State.portActive (s : State) (p : Nat) : Bool := s.portState p == 7

/-- LINK_STAT of a logical port. -/
def State.linkStat (s : State) (p : Nat) : Nat := Reg.linkStat (s.portTile p) (p % 8)

/-- A port is retraining (R144). -/
def State.retraining (s : State) (p : Nat) : Bool := s.get (s.linkStat p) Fld.linkStatLstate == 3

/-- PORT_PARTNER of a logical port. -/
def State.portPartner (s : State) (p : Nat) : Nat := Reg.portPartner (s.portTile p) (p % 8)

/-- The partner FID of a port, from its last CAP (R107). -/
def State.partnerFid (s : State) (p : Nat) : Nat := s.get (s.portPartner p) Fld.portPartnerFid

/-- A slot is being drained (R512). -/
def State.draining (s : State) (slot : Nat) : Bool :=
  s.flag Reg.repair Fld.repairDrain && s.get Reg.repair Fld.repairSlot == slot

/-- The device's own row. -/
def State.row (s : State) : Nat := fidRow s.fid
/-- The device's own column. -/
def State.col (s : State) : Nat := fidCol s.fid
/-- The device's own group. -/
def State.group (s : State) : Nat := fidGroup s.fid

/-- The logical ports. -/
def allPorts : List Nat := List.range 144

/-- The ports of the peer map entry of peer `i` (R189): 0 to 15 the row peers by column, 16 to 31 the column
peers by row; at most four ports that are ACTIVE. -/
def State.peerPorts (s : State) (i : Nat) : List Nat :=
  (allPorts.filter (fun p => s.portActive p &&
    (if i < 16 then s.role p == 1 && fidCol (s.partnerFid p) == i
     else s.role p == 2 && fidRow (s.partnerFid p) == i - 16))).take 4

/-- The state of an output's arbiter. -/
def State.outp (s : State) (o : Nat) : OutSt := Table.getD s.outs OutSt.init o

/-- Replace an output's arbiter. -/
def State.setOut (s : State) (o : Nat) (x : OutSt) : State := { s with outs := Table.put s.outs o x }

/-- The level of an output (R198). -/
def State.level (s : State) (o : Nat) : Nat :=
  if o < 144 && (!s.portActive o || s.draining (o / 8)) then 15
  else
    let x := s.outp o
    let n := x.queue.foldl (fun n e => n + e.count) 0 + b2n (!x.grants.isEmpty)
    min 14 ((n + 1) / 2)

/-- The level of a peer (R198): the smallest among its ports, 15 with none. -/
def State.peerLevel (s : State) (i : Nat) : Nat :=
  (s.peerPorts i).foldl (fun m p => min m (s.level p)) 15

/-- What is stored of a peer's beacon. -/
def State.beaconSt (s : State) (i : Nat) : BeaconSt := Table.getD s.route.beacons BeaconSt.init i

/-- The level that a peer's beacon reports toward a row peer (index below 16) or a column peer; 15 when the
beacon is stale or absent (R199). -/
def State.beaconLevel (s : State) (i j : Nat) : Nat :=
  let b := s.beaconSt i
  match b.beacon with
  | some r =>
    if b.fresh then ((if j < 16 then r.rows.getD j 15 else r.cols.getD (j - 16) 15) : BitVec 4).toNat else 15
  | none => 15

/-- The level that a fresh beacon of peer `i` reports for a port; none otherwise. -/
def State.beaconPort (s : State) (i port : Nat) : Option Nat :=
  let b := s.beaconSt i
  match b.beacon with
  | some r => if b.fresh then some (r.ports.getD port 15).toNat else none
  | none => none

/-! ## Random register, toggle and round robin (R202, R203) -/

/-- The seed of every random register (R202). -/
def State.seed (s : State) : Nat :=
  let n := s.fuse.serial.toNat % 65536
  if n = 0 then 1 else n

/-- One draw of a unit's random register: units 0 to 3 are the hubs, 4 + n port tile n. -/
def State.draw (s : State) (unit : Nat) : Nat × State :=
  let x := Table.getD s.route.random s.seed unit
  let y := if x % 2 = 1 then (x / 2) ^^^ 0xB400 else x / 2
  (y, { s with route := { s.route with random := Table.put s.route.random unit y } })

/-- The unit's toggle, and the state with it flipped. -/
def State.flip (s : State) (unit : Nat) : Nat × State :=
  let t := Table.getD s.route.toggle 0 unit
  (t, { s with route := { s.route with toggle := Table.put s.route.toggle unit (1 - t) } })

/-- The lowest-level port of a list; ties are served round robin (R203). -/
def State.pickPort (s : State) (key : Nat) (ports : List Nat) : Option Nat × State :=
  let m := ports.foldl (fun m p => min m (s.level p)) 15
  let low := ports.filter (fun p => s.level p == m)
  match low with
  | [] => (none, s)
  | [p] => (some p, s)
  | _ =>
    let n := Table.getD s.route.rr 0 key
    (low[n % low.length]?, { s with route := { s.route with rr := Table.put s.route.rr key (n + 1) } })

/-! ## The route choice (R201, R202) -/

/-- A candidate path: its score, whether a remote level on it reads 15, and the fields it sets. -/
structure Choice where
  score : Nat
  remote15 : Bool
  hops : Nat
  tgt : Nat
  segPort : Nat
  order : Nat
  nonmin : Bool
  via : Nat
deriving DecidableEq, Repr

/-- A candidate at remote level 15 is taken only when no other exists (R202); otherwise the lower score. -/
def Choice.better (a b : Choice) : Bool :=
  if a.remote15 == b.remote15 then decide (a.score < b.score) else b.remote15

/-- The two orders of one target: a tie goes by the unit's toggle, which flips (R202). -/
def State.pickOrder (s : State) (unit : Nat) : Option Choice → Option Choice → Option Choice × State
  | none, b => (b, s)
  | a, none => (a, s)
  | some a, some b =>
    if a.better b then (some a, s)
    else if b.better a then (some b, s)
    else
      let (t, s) := s.flip unit
      (some (if t = 0 then a else b), s)

/-- Router hops between two places of a group. -/
def rcHops (a b : Nat) : Nat := b2n (a / 16 != b / 16) + b2n (a % 16 != b % 16)

/-- The next column and the hops of a chain or ring (R197). -/
def ringNext (ring : Bool) (cols c d : Nat) : Nat × Nat :=
  if ring then
    let up := (d + cols - c) % cols
    if up ≤ cols - up then ((c + 1) % cols, up) else ((c + cols - 1) % cols, cols - up)
  else if c < d then (c + 1, d - c) else (c - 1, c - d)

/-- The candidates of the two orders toward a place of the own group, with `extra` added to the level sum and
`h` computed from the local hops (R192, R201). A first hop at level 15 is skipped. -/
def State.orders (s : State) (tgt segPort extra : Nat) (ext15 : Bool) (h : Nat → Nat) : Option Choice × Option Choice :=
  let r := s.row; let c := s.col; let r' := tgt / 16; let c' := tgt % 16
  let mk (first mid hops order : Nat) (r15 : Bool) : Option Choice :=
    if first = 15 then none
    else some ⟨(first + mid + extra + 1) * h hops, r15 || ext15, hops, tgt, segPort, order, false, 0⟩
  if s.topo.profile = 2 ∨ s.topo.profile = 3 then
    let (n, d) := ringNext (s.topo.profile == 3) s.topo.cols c c'
    (mk (s.peerLevel n) 0 d 0 false, none)
  else if r = r' then (mk (s.peerLevel c') 0 1 0 false, none)
  else if c = c' then (mk (s.peerLevel (16 + r')) 0 1 1 false, none)
  else
    let m0 := s.beaconLevel c' (16 + r')
    let m1 := s.beaconLevel (16 + r') c'
    (mk (s.peerLevel c') m0 2 0 (m0 == 15), mk (s.peerLevel (16 + r')) m1 2 1 (m1 == 15))

/-- `best_order` (R202). -/
def State.bestOrder (s : State) (unit tgt : Nat) (h : Nat → Nat) : Option Choice × State :=
  let (a, b) := s.orders tgt 0xFF 0 false h
  s.pickOrder unit a b

/-- A candidate of a group table entry (R207). -/
structure GwCand where
  gw : Nat
  gport : Nat
  land : Nat
deriving DecidableEq, Repr

/-- The valid candidates of an entry, in order. -/
def gwCands (e : List Nat) : List GwCand :=
  (e.filter (fun w => bit w 24)).map (fun w => ⟨bits w 7 0, bits w 15 8, bits w 23 16⟩)

/-- The active bank's entry of a group. -/
def State.entry (s : State) (g : Nat) : List Nat := Table.getD s.route.activeBank [] g

/-- The best path over one gateway; `tail` gives the hops beyond the gateway's own (R201, R202). -/
def State.viaGateway (s : State) (unit : Nat) (g : GwCand) (tail : Nat) : Option Choice × State :=
  if g.gw = 16 * s.row + s.col then
    let l := s.level g.gport
    (if l = 15 then none else some ⟨(l + 1) * tail, false, 0, g.gw, g.gport, 0, false, 0⟩, s)
  else
    let peer :=
      if g.gw / 16 = s.row then s.beaconPort (g.gw % 16) g.gport
      else if g.gw % 16 = s.col then s.beaconPort (16 + g.gw / 16) g.gport
      else none
    let extra := peer.getD (s.get Reg.routeCtrl Fld.routeCtrlUnkLvl)
    let (a, b) := s.orders g.gw g.gport extra (peer == some 15) (fun n => n + tail)
    s.pickOrder unit a b

/-- `best_gateway` (R202): ties go to the candidate listed first. -/
def State.bestGateway (s : State) (unit grp : Nat) (tail : Nat → Nat) : Option Choice × State :=
  (gwCands (s.entry grp)).foldl (fun (best, s) g =>
    let (n, s) := s.viaGateway unit g (tail g.land)
    match best, n with
    | none, n => (n, s)
    | some b, some n => (some (if n.better b then n else b), s)
    | b, none => (b, s)) (none, s)

/-- Draw a group of the eligible list and score its best gateway, `n` times; keep the lowest. -/
def State.drawGroups (s : State) (unit : Nat) (list : List Nat) : Nat → Option Choice → Option Choice × State
  | 0, best => (best, s)
  | n + 1, best =>
    let (x, s) := s.draw unit
    let v := list.getD (x % list.length) 0
    let (c, s) := s.bestGateway unit v (fun _ => 6)
    let c := c.map (fun c => { c with nonmin := true, via := v })
    State.drawGroups s unit list n (match best, c with
      | some b, some c => some (if c.better b then c else b)
      | none, c => c
      | b, none => b)

/-- Draw a detour device of the eligible list and score it, `n` times; keep the lowest. -/
def State.drawDetours (s : State) (unit : Nat) (list : List Nat) : Nat → Option Choice → Option Choice × State
  | 0, best => (best, s)
  | n + 1, best =>
    let (x, s) := s.draw unit
    let d := list.getD (x % list.length) 0
    let (c, s) := s.bestOrder unit d (fun h => h + 2)
    let c := c.map (fun c => { c with nonmin := true })
    State.drawDetours s unit list n (match best, c with
      | some b, some c => some (if c.better b then c else b)
      | none, c => c
      | b, none => b)

/-- The minimal choice, or the non-minimal one when it is better by more than the bias. -/
def pickBias (m n : Option Choice) (bias : Nat) : Option Choice :=
  match m, n with
  | none, n => n
  | some m, some n => if n.score + bias < m.score then some n else some m
  | m, none => m

/-- The route of R202 toward a FID, as `unit` chooses it at injection. -/
def State.route202 (s : State) (unit dst : Nat) : Option Choice × State :=
  let t := s.topo
  let bias := s.get Reg.routeCtrl Fld.routeCtrlNmBias
  let draws := s.get Reg.routeCtrl Fld.routeCtrlNmSamples
  let nm := s.flag Reg.routeCtrl Fld.routeCtrlNonminEn
  let stages := bits s.classVc 6 5
  if fidGroup dst = s.group then
    let tgt := dst % 256
    let (m, s) := s.bestOrder unit tgt id
    if t.profile = 1 ∧ nm ∧ 2 ≤ stages then
      let list := (List.range 256).filter (fun x =>
        decide (x / 16 < t.rows ∧ x % 16 < t.cols ∧ x ≠ tgt) && x != 16 * s.row + s.col)
      let (n, s) := if list.isEmpty then (none, s) else s.drawDetours unit list draws none
      (pickBias m n bias, s)
    else (m, s)
  else
    let (m, s) := s.bestGateway unit (fidGroup dst) (fun land => 1 + rcHops land (dst % 256))
    if nm ∧ stages = 3 ∧ 3 ≤ t.groups then
      let list := (List.range t.groups).filter (fun v =>
        v != s.group && v != fidGroup dst && !(gwCands (s.entry v)).isEmpty)
      let (n, s) := if list.isEmpty then (none, s) else s.drawGroups unit list draws none
      (pickBias m n bias, s)
    else (m, s)

/-- A destination within the declared groups, rows and columns (R191). -/
def State.dstInRange (s : State) (dst : Nat) : Bool :=
  decide (fidGroup dst < s.topo.groups ∧ fidRow dst < s.topo.rows ∧ fidCol dst < s.topo.cols)

/-- Put a choice into a route word at the start of a segment (R193). -/
def startSeg (r : RouteWord) (c : Choice) : RouteWord :=
  { r with segTgt := c.tgt, segPort := c.segPort, order := c.order }

/-- The maximum router hops of the profile (R186); a flat detour has four. -/
def State.maxHops (s : State) (nonmin : Bool) : Nat :=
  match s.topo.profile with
  | 1 => if nonmin then 4 else 2
  | 2 => s.topo.cols - 1
  | 3 => s.topo.cols / 2
  | _ => 8

/-! ## The next hop (R192, R197) -/

/-- The next hop of a packet: the local device, a peer of the peer map, or a global port. -/
inductive Hop where
  | here
  | peer (i : Nat)
  | gport (p : Nat)
deriving DecidableEq, Repr

/-- The next hop that a route word calls for at this device. -/
def State.nextHop (s : State) (r : RouteWord) : Hop :=
  if r.mcast then
    if bit r.mask (if r.mdim then s.row else s.col) then .here
    else
      let i := ((List.range 16).find? (fun i => bit r.mask i)).getD 0
      .peer (if r.mdim then 16 + i else i)
  else if r.dst = s.fid then .here
  else if s.topo.profile = 2 ∨ s.topo.profile = 3 then
    .peer (ringNext (s.topo.profile == 3) s.topo.cols s.col (fidCol r.dst)).1
  else if r.segTgt = 16 * s.row + s.col then
    if r.segPort = 0xFF then .here else .gport r.segPort
  else
    let r' := r.segTgt / 16; let c' := r.segTgt % 16
    if r.order = 0 then (if s.col ≠ c' then .peer c' else .peer (16 + r'))
    else (if s.row ≠ r' then .peer (16 + r') else .peer c')

/-- The route word that the egress tile writes for port `p` (R194, R197). -/
def State.egress (s : State) (p tc : Nat) (r : RouteWord) : RouteWord :=
  let c := s.col; let c' := fidCol (s.partnerFid p)
  let cols := s.topo.cols
  let order :=
    if s.topo.profile = 3 ∧ ((c = cols - 1 ∧ c' = 0) ∨ (c = 0 ∧ c' = cols - 1)) then 1 else r.order
  let stage := if s.role p = 3 then r.stage + 1 else r.stage
  { r with order := order, stage := stage, hops := r.hops + 1, vc := vcNum (tcGroup tc) stage order }

/-- The route word that a packet leaves port `p` with: a packet that goes one link alone keeps VC 18 (R199, R211). -/
def State.outRoute (s : State) (p : Nat) (pk : Packet) : RouteWord :=
  if pk.linkLocal then { pk.route with vc := 18 } else s.egress p pk.tc pk.route

/-- The group that the current segment leads to (R193, R204). -/
def State.segGroup (s : State) (r : RouteWord) : Nat :=
  if r.nonmin ∧ s.group ≠ r.via ∧ s.topo.profile ≠ 1 then r.via else fidGroup r.dst

/-! ## The port that a packet takes (R144, R145, R203, R204) -/

/-- Set the route fields of a waiting packet. -/
def WaitPkt.withRoute (w : WaitPkt) (r : RouteWord) : WaitPkt := { w with pkt := { w.pkt with route := r } }

/-- The unit that chooses for a waiting packet: its hub, or the tile of its arrival port. -/
def State.unitFor (s : State) (w : WaitPkt) : Nat :=
  match w.inPort with
  | some p => 4 + s.portTile p
  | none => w.ep - 23

/-- The packet's current segment began at this device (R193). -/
def State.segBegan (s : State) (w : WaitPkt) : Bool :=
  match w.inPort with
  | none => true
  | some p => s.role p == 3 || w.inVc % 6 / 2 != w.pkt.route.stage

/-- The ACTIVE ports that lead to a hop. -/
def State.hopPorts (s : State) : Hop → List Nat
  | .here => []
  | .peer i => s.peerPorts i
  | .gport p => if s.portActive p then [p] else []

/-- The peer that a port last led to. -/
def State.lastPeer (s : State) (p : Nat) : Option Nat :=
  match Table.find s.route.partner p, s.role p with
  | some (f, _), 1 => some (fidCol f)
  | some (f, _), 2 => some (16 + fidRow f)
  | _, _ => none

/-- The ports that lead or last led to a hop: one of them is what a held packet waits for. -/
def State.hopMemory (s : State) : Hop → List Nat
  | .here => []
  | .gport p => [p]
  | .peer i => allPorts.filter (fun p => s.lastPeer p == some i)

/-- The hop that a waiting packet takes: a beacon goes to the peer of its port (R199), a discovery packet by its port alone. -/
def State.hopOf (s : State) (w : WaitPkt) : Hop :=
  if w.pkt.linkLocal then
    let p := w.out.getD 0
    match s.lastPeer p with
    | some i => if w.pkt.op = opBeacon then .peer i else .gport p
    | none => .gport p
  else s.nextHop w.pkt.route

/-- A permitted alternative when no port of the hop is ACTIVE (R204). -/
def State.alternative (s : State) (unit : Nat) (w : WaitPkt) : Option (Nat × RouteWord) × State :=
  let r := w.pkt.route
  if r.mcast || w.pkt.linkLocal then (none, s)
  else match w.inPort, s.nextHop r with
  | none, _ =>
    match s.route202 unit r.dst with
    | (some c, s) =>
      let r' := { startSeg r c with nonmin := c.nonmin, via := c.via }
      let (p, s) := s.pickPort (64 * unit + 33) (s.hopPorts (s.nextHop r'))
      let s := if c.nonmin && !r.nonmin && p.isSome then s.bump Reg.routeStat Fld.routeStatNonminTaken 1 else s
      (p.map (fun p => (p, r')), s)
    | (none, s) => (none, s)
  | some _, .gport _ =>
    let g := s.segGroup r
    let ports := allPorts.filter (fun p => s.portActive p && s.role p == 3 && fidGroup (s.partnerFid p) == g)
    let (p, s) := s.pickPort (64 * unit + 34) ports
    (p.map (fun p => (p, { r with segPort := p })), s)
  | some _, .peer _ =>
    let r' := { r with order := 1 - r.order }
    let two := r.segTgt / 16 != s.row && r.segTgt % 16 != s.col
    if s.segBegan w && two && s.topo.profile != 2 && s.topo.profile != 3 then
      let (p, s) := s.pickPort (64 * unit + 35) (s.hopPorts (s.nextHop r'))
      (p.map (fun p => (p, r')), s)
    else (none, s)
  | some _, .here => (none, s)

/-- Choose the port of a packet that leaves on the fabric: the lowest-level ACTIVE port of its next hop, else a
permitted alternative, else it waits: without limit while a port that leads there retrains, and else under the grace
period, which runs from now (R144, R145). -/
def State.choosePort (s : State) (w : WaitPkt) : WaitPkt × State :=
  let w := { w with ready := s.now }
  let unit := s.unitFor w
  let hop := s.hopOf w
  let key := 64 * unit + (match hop with | .peer i => i | _ => 32)
  let (p, s) := s.pickPort key (s.hopPorts hop)
  match p with
  | some p => ({ w with out := some p, graceFrom := none }, s)
  | none =>
    match s.alternative unit w with
    | (some (p, r), s) => ({ w.withRoute r with out := some p, graceFrom := none }, s)
    | (none, s) =>
      let l := s.hopMemory hop
      match l.find? (fun q => s.retraining q) with
      | some q => ({ w with out := some q, graceFrom := none }, s)
      | none => ({ w with out := l.head?, graceFrom := some (w.graceFrom.getD s.now) }, s)

/-- A waiting packet waits for fabric port `p`. -/
def WaitPkt.waitsFor (w : WaitPkt) (p : Nat) : Bool := w.out == some p

/-- A waiting packet waits for some fabric port, or for one not known. -/
def WaitPkt.held (w : WaitPkt) : Bool := w.graceFrom.isSome

/-! ## Packets enter and leave the exchange's inputs -/

/-- Free the flits of a packet in a receive pool: they are returned to the account charged (R127). -/
def State.freeFlits (s : State) (w : WaitPkt) : State :=
  match w.inPort with
  | none => s
  | some p =>
    if w.charged then
      let l := s.link p
      s.setLink p { l with freed := l.freed ++ [(w.inVc, w.shared, w.pkt.size)] }
    else s

/-- Take a waiting packet out of its input. -/
def State.removeWait (s : State) (id : Nat) : State := { s with wait := s.wait.filter (fun w => w.id != id) }

/-- Change a packet where it is: at an input or under a grant. -/
def State.onPkt (s : State) (id : Nat) (f : WaitPkt → WaitPkt) : State :=
  let g (w : WaitPkt) : WaitPkt := if w.id = id then f w else w
  { s with
    wait := s.wait.map g
    outs := s.outs.map (fun (e : Nat × OutSt) =>
      (e.1, { e.2 with grants := e.2.grants.map (fun (x : Grant) => { x with wp := g x.wp }) })) }

/-- The last flit of a packet has arrived. -/
def State.wholePkt (s : State) (id : Nat) (payload : List Byte) : State :=
  s.onPkt id (fun w => { w with pkt := { w.pkt with payload := payload }, part := false })

/-- The rest of a packet will not arrive, or its source is fenced (R124): one that waits is discarded and its flits freed, one
that is granted ends with an abort flit. -/
def State.abortPkt (s : State) (id : Nat) : State :=
  match s.wait.find? (fun w => w.id == id) with
  | some w => (s.removeWait id).freeFlits w
  | none => s.onPkt id (fun w => { w with aborted := true, part := false })

/-- The hub of a communicator's engine: that of its member instance, or hub 0 for a management communicator
(Collectives, "How a collective runs"). -/
def State.commHub (s : State) (c : Nat) : Nat :=
  let e := (s.word (Reg.commEnt c 0)).toNat
  if bit e 0 then 0 else s.instHub (bits e 27 16)

/-- The hub that a packet for this device is steered to: its communicator's, or that of its target instance. -/
def State.pktHub (s : State) (p : Packet) : Nat :=
  if p.op = opColl then s.commHub (p.aux % 4096) else s.instHub p.tInst

/-- The exchange output of a hub. -/
def hubOut (h : Nat) : Nat := 148 + h

/-- A packet enters the exchange at a hub (its flit lane queue is the packet's traffic class, log 17). -/
def State.addFromHub (s : State) (hub : Nat) (p : Packet) (out : Option Nat) : WaitPkt × State :=
  let (id, s) := s.newId
  let w : WaitPkt := ⟨id, p, none, p.route.vc, false, 23 + hub, p.tc % 8, out, s.now, none, false, false, s.now, false⟩
  (w, { s with wait := s.wait ++ [w] })

/-- Replace a waiting packet. -/
def State.updWait (s : State) (w : WaitPkt) : State :=
  { s with wait := s.wait.map (fun x => if x.id = w.id then w else x) }

/-- Put a packet into the exchange at a hub: for a hub of this device when its destination is the device itself, else on a port by
a fresh route choice (R191, R202). The answer is the packet as it waits, if a route was found. -/
def State.enterAt (s : State) (hub localHub : Nat) (p : Packet) : Option WaitPkt × State :=
  if p.route.dst = s.fid then
    let (w, s) := s.addFromHub hub p (some (hubOut localHub))
    (some w, s)
  else if !s.dstInRange p.route.dst then (none, s)
  else
    match s.route202 hub p.route.dst with
    | (none, s) => (none, s)
    | (some c, s) =>
      let r := { startSeg RouteWord.zero c with dst := p.route.dst, nonmin := c.nonmin, via := c.via }
      let s := if c.nonmin then s.bump Reg.routeStat Fld.routeStatNonminTaken 1 else s
      let s := s.count ⟨if c.nonmin then 0x301 else 0x300, some hub, some p.sInst, none, some p.tc, some (p.tc == 7), 1⟩
      let (w, s) := s.addFromHub hub { p with route := r } none
      let (w, s) := s.choosePort w
      (some w, s.updWait w)

/-- A transit device answers a failed sequenced packet (R580), from a hub that is not stated: free (log 18); an unsequenced packet is
dropped without an answer. -/
def State.transitNcomp (s : State) (p : Packet) (reason : Nat) : State :=
  if p.seqd then (s.enterAt (Config.transitHub p.src).toNat (s.instHub p.sInst) (p.transitNcomp reason)).2 else s

/-- Discard a waiting packet: free its flits, and answer it with a reason. -/
def State.dropWait (s : State) (w : WaitPkt) (reason : Nat) : State :=
  ((s.removeWait w.id).freeFlits w).transitNcomp w.pkt reason

/-- A discard-eligible packet for which an output at `de_level` or above has been chosen is discarded (R247). -/
def State.yellowCheck (s : State) (w : WaitPkt) : State :=
  match w.out with
  | some o =>
    if w.pkt.de && decide (s.get Reg.shapeCtrl Fld.shapeCtrlDeLevel ≤ s.level o) then s.dropWait w 3 else s
  | none => s

/-- A hub injects a packet; the answer says whether a route was found. -/
def State.inject (s : State) (hub localHub : Nat) (p : Packet) : Bool × State :=
  match s.enterAt hub localHub p with
  | (some w, s) => (true, s.yellowCheck w)
  | (none, s) => (false, s)

/-- Packets that wait for a fabric port that satisfies `sel`, or that hold no port, choose again (R145, R247). -/
def State.rerouteWaiting (s : State) (sel : WaitPkt → Bool) : State :=
  s.wait.foldl (fun s w =>
    if sel w then
      let (w', s) := s.choosePort w
      let w' := if w'.out = w.out then { w' with ready := w.ready } else w'
      let s := if w'.graceFrom.isNone ∧ w'.out ≠ w.out then
          s.count ⟨0x103, some (w.out.getD (w.inPort.getD 0)), none, none, some w.pkt.tc, none, 1⟩ else s
      (s.updWait w').yellowCheck w'
    else s) s

/-- A hub sends one multicast copy to a peer (R206): stage 0, order 0 for a row and 1 for a column. The answer
says whether the member is in the peer map. -/
def State.injectCopy (s : State) (hub : Nat) (p : Packet) (col : Bool) (i : Nat) : Bool × State :=
  let peer := if col then 16 + i else i
  if (s.peerPorts peer).isEmpty then (false, s)
  else
    let m := 2 ^ i
    let r : RouteWord := ⟨p.route.dst, 0, false, 0, b2n col, m % 256, m / 256, 0, 0, true, col⟩
    let (w, s) := s.addFromHub hub { p with route := r } none
    let (w, s) := s.choosePort w
    (true, (s.updWait w).yellowCheck w)

end Sys2Proof.Machine
end

