-- ==== Sys2Proof/Machine/Ports.lean ====
section
/-! DEFINITION. Ports: what every bring-up transition and every link loss does, shared by the lane, link,
repair and safe-state commands (R87 to R94, R141, R144, R145, R213). -/

namespace Sys2Proof.Machine

/-! ## Registers of a port and of its lanes -/

/-- A field of PORT_STAT of a port. -/
def State.putPortStat (s : State) (p : Nat) (f : Field) (v : Nat) : State := s.put (s.portStat p) f v

/-- PORT_MEAS of a logical port. -/
def State.portMeas (s : State) (p : Nat) : Nat := Reg.portMeas (s.portTile p) (p % 8)

/-- LANE_CTRL of the tile that serves a port. -/
def State.laneCtrl (s : State) (p : Nat) : Nat := Reg.laneCtrl (s.portTile p)

/-- LINK_CTRL of the tile that serves a port. -/
def State.linkCtrl (s : State) (p : Nat) : Nat := Reg.linkCtrl (s.portTile p)

/-- LINK_ERR of a logical port. -/
def State.linkErr (s : State) (p : Nat) : Nat := Reg.linkErr (s.portTile p) (p % 8)

/-- LINK_ERR2 of a logical port. -/
def State.linkErr2 (s : State) (p : Nat) : Nat := Reg.linkErr2 (s.portTile p) (p % 8)

/-- LINK_STAT `lstate` (R147): 0 down, 1 INIT in progress, 2 up, 3 retraining. -/
def State.lstate (s : State) (p : Nat) : Nat := s.get (s.linkStat p) Fld.linkStatLstate

/-- Set LINK_STAT `lstate`. -/
def State.setLstate (s : State) (p v : Nat) : State := s.put (s.linkStat p) Fld.linkStatLstate v

/-- PORT_CHG of a port. -/
def State.stampChange (s : State) (p : Nat) (attached : Bool) : State :=
  let a := Reg.portChg p
  let s := s.put a Fld.portChgChgEpoch (s.get Reg.routeEpoch Fld.routeEpochCurEpoch)
  (s.put a Fld.portChgChanged 1).put a Fld.portChgAttached (b2n attached)

/-- Do `f` for every element of a list. -/
def State.forAll {α : Type} (s : State) (l : List α) (f : State → α → State) : State := l.foldl f s

/-- The working lanes of a port by position (R91, R94). -/
def State.portWorking (s : State) (p : Nat) : List Nat :=
  let x := s.port p
  (if x.laneA then [0] else []) ++ (if x.laneB then [1] else [])

/-- The positions in use of a port that is up: by PORT_STAT `width` (R106). -/
def State.portInUse (s : State) (p : Nat) : List Nat :=
  match s.get (s.portStat p) Fld.portStatWidth with
  | 0 => [0, 1]
  | 1 => [0]
  | 2 => [1]
  | _ => s.portWorking p

/-! ## Sending on the lanes in use (R80, R87) -/

/-- The mission encoding is in force: from ALIGN on (R87). -/
def State.mission (s : State) (p : Nat) : Bool := decide (4 ≤ s.portState p)

/-- Send one block on the lane at a position of a port. -/
def State.laneBlock (s : State) (p pos : Nat) (data : Bool) (b : List Byte) : State :=
  s.sendBlock (s.portLane p pos) pos (s.flag (s.portStat p) Fld.portStatPrecoded) data b

/-- Send a control: one block of a pair on each lane in use (R80). -/
def State.sendCtl (s : State) (p : Nat) (c : Ctl) : State :=
  let s := s.emit (.ctl p c)
  if s.mission p then s.forAll (s.portInUse p) (fun s pos => s.laneBlock p pos false c.bytes) else s

/-- Send a flit: its even unit on lane a and its odd unit on lane b, or both on the one lane in use (R80). -/
def State.sendData (s : State) (p : Nat) (flit : List Byte) : State :=
  let s := s.emit (.flit p flit)
  let u := unitsOf flit
  match s.portInUse p with
  | [a, b] => (s.laneBlock p a true u.1).laneBlock p b true u.2
  | [a] => (s.laneBlock p a true u.1).laneBlock p a true u.2
  | _ => s

/-- A lane of a port starts its stream afresh, with a marker (R81): the mission encoding begins (log 125). -/
def State.startStream (s : State) (p : Nat) : State :=
  s.forAll (s.portWorking p) (fun s pos =>
    let k := s.portLane p pos
    (s.setLane k { (s.lane k) with txBits := [], txScr := 0, txLevel := 0 }).sendMarker k pos
      (s.flag (s.portStat p) Fld.portStatPrecoded))

/-- The receivers of a port's lanes present their termination, or cease to (R578). -/
def State.terminate (s : State) (p : Nat) (on : Bool) : State :=
  s.forAll (s.portLanes p) (fun s k => s.emit (.termination k on))

/-- A lane of the port presents its receiver's termination (R578): outside OFF, and in OFF while its port sends a test
pattern. -/
def State.terminates (s : State) (p : Nat) : Bool := s.portState p != 0 || (s.port p).pattern != 0

/-- Make a port's lanes idle: no signal, clock or marker lock, not in use and not retired. -/
def State.idleLanes (s : State) (p : Nat) : State :=
  s.forAll (s.portLanes p) (fun s k =>
    let a := s.laneStat k
    let s := (s.put a Fld.laneStatSig 0).put a Fld.laneStatCdrLock 0
    let s := (s.put a Fld.laneStatAmLock 0).put a Fld.laneStatInUse 0
    let s := (s.put a Fld.laneStatRetired 0).setLane k { (s.lane k) with goodRun := 0, badRun := 0, uncorrRun := 0 }
    s.emit (.laneIdle k))

/-- Count a discarded control block on each lane in use (R86). -/
def State.ctlBad (s : State) (p : Nat) : State :=
  s.forAll (s.portInUse p) (fun s pos => s.bump (s.laneErr (s.portLane p pos)) Fld.laneErrCtlBad 1)

/-! ## Leaving ACTIVE -/

/-- Entry to EXCHANGE: the exchange starts afresh (R87, R93). -/
def State.enterExchange (s : State) (p : Nat) : State :=
  (s.setPort p { (s.port p) with lastCap := none, capAcked := false, ackOk := false }).putPortStat p Fld.portStatState 5

/-- A port has left MEASURE and ACTIVE: ports held for reason 7 toward the same partner return to EXCHANGE (R87, R189). -/
def State.releaseHeld (s : State) (p fid : Nat) : State :=
  s.forAll allPorts (fun s q =>
    if q ≠ p ∧ s.portState q = 8 ∧ s.get (s.portStat q) Fld.portStatHeldReason = 7 ∧ s.partnerFid q = fid then
      s.enterExchange q
    else s)

/-- The packets of a link's replay store and of its egress side, taken back whole (R141). -/
def LinkSt.takeBack (l : LinkSt) : List WaitPkt :=
  l.storePkts.map (fun e => e.2.2) ++ (l.txPkts.map (fun t => t.wp)).filter (fun w =>
    !(l.storePkts.any (fun e => e.2.2.id == w.id)))

/-- The link of a port goes down (R141): the reorder buffer, incomplete packets, credits and pending NAKs are
discarded, and what is being forwarded of an incomplete packet is aborted (R124); the packets of the replay store are taken back whole and follow R145; queued requests are returned to
their endpoints (R174); numbering restarts at 0. The change is stamped (R213). -/
def State.linkLost (s : State) (p : Nat) : State :=
  if s.lstate p = 0 then s
  else
    let s := s.forAll ((s.link p).rxOpen.map (fun r => r.id)) State.abortPkt
    let l := s.link p
    let back := l.takeBack.filter (fun w => !w.aborted)
    let s := s.setLink p { LinkSt.init with downSince := some s.now, freed := [] }
    let s := (s.setLstate p 0).put (s.linkStat p) Fld.linkStatLeakPending 0
    let s := s.setOut p { (s.outp p) with queue := [], refusedReqs := [], window := 0, quota := 0 }
    let s := { s with announced := s.announced.filter (fun e => e.1 / 24 != p) }
    let s := { s with wait := s.wait ++ back.map (fun (w : WaitPkt) => { w with graceFrom := some s.now, charged := false }) }
    let s := s.stampChange p false
    s.rerouteWaiting (fun w => w.waitsFor p)

/-- The tail of leaving a state for DETECT or OFF: the link is lost, the partner's held ports move on. -/
def State.portLeave (s : State) (p st : Nat) : State :=
  let was := s.portState p
  let fid := s.partnerFid p
  let s := s.idleLanes p
  let s := (s.putPortStat p Fld.portStatState st).putPortStat p Fld.portStatWidth 3
  let s := s.putPortStat p Fld.portStatPrecoded 0
  let s := s.linkLost p
  if was = 6 ∨ was = 7 then s.releaseHeld p fid else s

/-- Enter DETECT (R87): the partner and the measurement are cleared (R107, R108). -/
def State.toDetect (s : State) (p : Nat) : State :=
  let off := s.portState p == 0
  let s := s.portLeave p 1
  let s := if off then s.terminate p true else s
  let s := (s.setWord (s.portPartner p) 0).put (s.portMeas p) Fld.portMeasValid 0
  s.setPort p { PortSt.init with firstDetect := off }

/-- A link-down event under R140 or R125: counted, and posted with its kind. -/
def State.countDown (s : State) (p kind : Nat) : State :=
  (s.bump (s.linkErr p) Fld.linkErrDownCount 1).postLink p kind

/-- A retrain that ends in DETECT makes the link down at that moment, which is counted (R140, R149). -/
def State.retrainEnds (s : State) (p : Nat) : State := if s.lstate p = 3 then s.countDown p 3 else s

/-- Enter DETECT and count one failure (R88): `fail_count` advances and a counting event is posted. A retrain that
ends so makes the link down (R140). -/
def State.failToDetect (s : State) (p : Nat) : State :=
  let s := (s.retrainEnds p).bump (s.portStat p) Fld.portStatFailCount 1
  (s.postLink p 0).toDetect p

/-- The interval between detect tries, in microseconds, after `k` consecutive failures (R88). -/
def detectIntervalUs (k : Nat) : Nat :=
  if k ≤ 8 then 100 else if 18 ≤ k then 100000 else min 100000 (100 * 2 ^ (k - 8))

/-- Enter OFF (R87, R578): the lanes are electrically idle and the receivers high-impedance. -/
def State.toOff (s : State) (p : Nat) : State :=
  let s := (s.portLeave p 0).terminate p false
  s.setPort p PortSt.init

/-- The serdes macro of a lane: eight lanes each (R15). -/
def macroOf (lane : Nat) : Nat := lane / 8

/-- A port's tile, or a macro of its lanes, has not left its reset for good: its channels are not open (R17). -/
def State.portUnopened (s : State) (p : Nat) : Bool :=
  s.unopened (s.portTile p) || (s.portLanes p).any (fun k => s.unopened (macroIsland (macroOf k)))

/-- A cause of OFF other than `hold`: not ENABLED, an island of the port still in reset, fenced, safe, lanes forced idle, unused, or
drained. -/
def State.offUnheld (s : State) (p : Nat) : Bool :=
  !s.enabled || s.portUnopened p || s.safe || s.flt.forcedLanes || s.isFenced (.tile (s.portTile p))
    || (s.laneRec p).width == 2 || (s.draining (p / 8) && !s.flt.drainWait)

/-- A cause of OFF holds for a port (R87): not ENABLED, held, fenced, safe, lanes forced idle, or unused. -/
def State.offCause (s : State) (p : Nat) : Bool :=
  s.offUnheld p || bit (s.get (s.laneCtrl p) Fld.laneCtrlHold) (p % 8)

/-- The test pattern that a port in OFF sends (R105): that of `prbs` while it is held and no other cause of OFF holds; 0 none. -/
def State.patternOf (s : State) (p : Nat) : Nat :=
  if s.portState p = 0 ∧ bit (s.get (s.laneCtrl p) Fld.laneCtrlHold) (p % 8) ∧ !s.offUnheld p then
    s.get (s.laneCtrl p) Fld.laneCtrlPrbs
  else 0

/-- A port in OFF sends its pattern on its lanes in place of idling, with its receivers terminated to check it; when the
pattern ends, the lanes idle again and the receivers are high-impedance (R105, R578). -/
def State.testPattern (s : State) (p : Nat) : State :=
  let n := s.patternOf p
  if s.portState p ≠ 0 ∨ n = (s.port p).pattern then s
  else
    let s := s.setPort p { (s.port p) with pattern := n }
    let s := s.forAll (s.portLanes p) (fun s k => s.emit (if n = 0 then .laneIdle k else .prbs k n))
    s.terminate p (n != 0)

/-- A port in OFF whose causes have all gone enters DETECT (R87). -/
def State.tryBringUp (s : State) (p : Nat) : State :=
  if s.portState p = 0 ∧ !s.offCause p then s.toDetect p else s

/-- A port whose causes of OFF hold goes to OFF; one that is there ends a pattern that it may no longer send. -/
def State.tryOff (s : State) (p : Nat) : State :=
  (if s.portState p ≠ 0 ∧ s.offCause p then s.toOff p else s).testPattern p

/-! ## Eligibility (R157, R178) -/

/-- The flits that the latest announcement of a VC lets a packet take (R157). -/
def State.credits (s : State) (p vc : Nat) : Nat := Table.getD s.announced 0 (24 * p + vc)

/-- The link of a fabric port carries packets; a Basil tile or a hub always takes them. -/
def State.carries (s : State) (o : Nat) : Bool := decide (144 ≤ o) || (s.portActive o && s.lstate o == 2)

/-- A waiting packet may be granted its output (R157): one for a Basil tile or a hub always, one for a fabric port while its
link carries packets and can charge it by the latest announcement. -/
def State.eligible (s : State) (w : WaitPkt) : Bool :=
  match w.out with
  | none => false
  | some o => s.carries o && (decide (144 ≤ o) || decide (w.pkt.size ≤ s.credits o (s.outRoute o w.pkt).vc))

/-- Packets of a port that are eligible now and were not in state `b` wait for their grant from now (R178). -/
def State.freshWaits (s b : State) (p : Nat) : State :=
  { s with wait := s.wait.map (fun (w : WaitPkt) =>
      if w.out = some p ∧ !b.eligible w ∧ s.eligible w then { w with ready := s.now } else w) }

/-! ## Retrain (R90, R91, R144) -/

/-- A macro's state beyond the registers. -/
def State.macroSt (s : State) (m : Nat) : MacroSt := Table.getD s.macros MacroSt.init m

/-- Replace a macro's state. -/
def State.setMacro (s : State) (m : Nat) (x : MacroSt) : State := { s with macros := Table.put s.macros m x }

/-- The present load of a macro, as its lanes report it. -/
def State.macroLoad (s : State) (m : Nat) : Nat := s.get (s.laneStat (8 * m)) Fld.laneStatLoad

/-- A load exceeds the recorded load by the margin of the load rule (R100). -/
def loadExceeds (load snap : Nat) : Bool := decide (13 * max snap 10 < 10 * load)

/-- LANE_EXP of a physical lane. -/
def State.laneExp (s : State) (k : Nat) : Nat := Reg.laneExp (s.tileOf (k / 16)) (k % 16)

/-- New coefficients of a lane (R99): held while `adapt_freeze` is set; in force unless the tile's `expert` is set (R73). -/
def State.setCoeff (s : State) (lane c : Nat) : State :=
  let a := s.laneExp lane
  if s.flag a Fld.laneExpAdaptFreeze then s
  else
    let s := s.setLane lane { (s.lane lane) with coeff := c }
    if s.flag (Reg.laneCtrl (s.tileOf (lane / 16))) Fld.laneCtrlExpert then s
    else
      let s := (s.put a Fld.laneExpTxPre (bits c 5 0)).put a Fld.laneExpTxMain (bits c 11 6)
      s.put a Fld.laneExpTxPost (bits c 17 12)

/-- Close the frame in progress: it takes the next number and is retained (R120, R135). -/
def LinkSt.close (l : LinkSt) : LinkSt :=
  if l.cur.flits.isEmpty then l
  else
    let f := { l.cur with seq := l.nextSeq }
    { l with cur := Frame.empty, nextSeq := (l.nextSeq + 1) % 0x10000, group := l.group ++ [f],
             groupRetx := false, store := l.store ++ [f] }

/-- A retrain cuts the transmitter short (R130): the frame in progress is closed and retained, no group waits for its SEAL, and
what is to be resent is decided by the INIT that follows. -/
def LinkSt.pause (l : LinkSt) : LinkSt :=
  { l.close with group := [], sealDue := false, half := false, curRetx := [], retxQ := [] }

/-- Start a retrain (R90): the equalization is that of the last snapshot; from ACTIVE to ALIGN, or to ADAPT when the load rule calls for it. Both lanes of a
two-lane port are tried (R91); the replay store stays; waiting packets that may take another port do (R144). -/
def State.startRetrain (s : State) (p : Nat) : State :=
  if s.portState p ≠ 7 then s
  else
    let fid := s.partnerFid p
    let adapt := (s.portLanes p).any (fun k => loadExceeds (s.macroLoad (macroOf k)) (s.macroSt (macroOf k)).snapLoad)
    let s := s.putPortStat p Fld.portStatState (if adapt then 3 else 4)
    let s := s.setPort p { (s.port p) with
      laneA := true, laneB := (s.laneRec p).width == 0, degradePos := none, lastCap := none,
      capAcked := false, ackOk := false, echoSent := 0, echoAnswers := [] }
    let s := s.forAll (s.portLanes p) (fun s k =>
      let a := s.laneStat k
      let s := (s.put a Fld.laneStatAmLock 0).put a Fld.laneStatRetired 0
      s.setCoeff k (s.lane k).snapCoeff)
    let s := s.forAll (s.portLanes p) (fun s k =>
      s.setLane k { (s.lane k) with goodRun := 0, badRun := 0, uncorrRun := 0 })
    let s := ((s.setLink p (s.link p).pause).setLstate p 3).put (s.linkStat p) Fld.linkStatLeakPending 0
    let s := s.rerouteWaiting (fun w => w.waitsFor p)
    s.releaseHeld p fid

/-- Start a retrain of one's own accord: the partner is asked with a RETRAIN pair (R86, R90). -/
def State.askRetrain (s : State) (p : Nat) : State :=
  if s.portState p = 7 then (s.sendCtl p .retrain).startRetrain p else s

/-! ## Registers that are written only while structured (R37) -/

/-- A command on a register of a block that the image configures: in INERT and LOADED it is discarded and posts
an informational "not structured" event (R37). -/
def State.ifStructured (s : State) (off : Nat) (f : State → State) : State :=
  if s.structured then f s else s.notice 61 off

end Sys2Proof.Machine
end

