-- ==== Sys2Proof/Machine/Xlat.lean ====
section
/-! DEFINITION. Xlat: two-stage translation, its caches, marks, faults and invalidations, and the memory
windows (R335 to R361). -/

namespace Sys2Proof.Machine

/-! ## Entries (R337, R338) -/

/-- Entry bit `valid`. -/
def pteValid (e : Word) : Bool := bit e.toNat 0
/-- Entry bit `leaf`. -/
def pteLeaf (e : Word) : Bool := bit e.toNat 1
/-- Entry bit `rd`. -/
def pteRd (e : Word) : Bool := bit e.toNat 2
/-- Entry bit `wr`. -/
def pteWr (e : Word) : Bool := bit e.toNat 3
/-- Entry bit `at`. -/
def pteAt (e : Word) : Bool := bit e.toNat 4
/-- Entry bit `a`. -/
def pteA (e : Word) : Bool := bit e.toNat 5
/-- Entry bit `d`. -/
def pteD (e : Word) : Bool := bit e.toNat 6
/-- Entry field `addr`, as an address. -/
def pteAddr (e : Word) : Nat := bits e.toNat 51 12 * 4096

/-- The table index of an input at a level (R338). -/
def tblIndex (x l : Nat) : Nat := bits x (47 - 9 * l) (39 - 9 * l)

/-- The page bits that a leaf at a level maps (R338). -/
def leafBits (l : Nat) : Nat := 39 - 9 * l

/-- The entry at level `l` is malformed (R338). -/
def pteBad (e : Word) (l : Nat) : Bool :=
  bits e.toNat 11 7 != 0 || (!pteLeaf e && (l == 3 || bits e.toNat 6 2 != 0))
    || (pteLeaf e && pteAddr e % 2 ^ leafBits l != 0)

/-- The permission that an access needs (R338). -/
def ptePermits (e : Word) : AccKind → Bool
  | .rd => pteRd e
  | .wr => pteWr e
  | .atm => pteRd e && pteWr e && pteAt e

/-- The access dirties its page (R340). -/
def accDirties : AccKind → Bool
  | .rd => false
  | _ => true

/-- The leaf needs a mark for the access (R340). -/
def pteNeedsMark (e : Word) (k : AccKind) : Bool := !pteA e || (accDirties k && !pteD e)

/-- The leaf with its mark made (R340). -/
def pteMarked (e : Word) (k : AccKind) : Word :=
  e ||| 0x20 ||| (if accDirties k then 0x40 else 0)

/-! ## Settings of an instance -/

/-- `s1_on` of an instance. -/
def State.s1On (s : State) (i : Nat) : Bool := s.flag (Reg.xlS1 i) Fld.xlS1S1On
/-- The stage-1 root. -/
def State.s1Root (s : State) (i : Nat) : Nat := s.get (Reg.xlS1 i) Fld.xlS1S1Root * 4096
/-- `s2_mode` of an instance. -/
def State.s2Mode (s : State) (i : Nat) : Nat := s.get (Reg.xlIcfg i) Fld.xlIcfgS2Mode
/-- The stage-2 root. -/
def State.s2RootOf (s : State) (i : Nat) : Nat := s.get (Reg.s2Root i) Fld.s2RootS2Root * 4096
/-- `cache_en`. -/
def State.cacheEn (s : State) : Bool := s.flag Reg.xlatCtrl Fld.xlatCtrlCacheEn

/-- Hardware marking is available on an instance (R341). -/
def State.marksOk (s : State) (i : Nat) : Bool :=
  let x := s.inst i
  s.flag (Reg.xlIcfg i) Fld.xlIcfgHwAd && s.atomicsOk ⟨x.vfLink, x.vfNum⟩

/-! ## Faults (R345, R346, R358) -/

/-- Code of an access in a fault record. -/
def accCode : AccKind → Nat
  | .rd => 0
  | .wr => 1
  | .atm => 2

/-- A translation fault: the fault queue, the instance's last record, and a coded message (R346). -/
def State.xlFault (s : State) (i : Nat) (req : XlatReq) (kind stage level addr : Nat) : State :=
  let s := (s.bump Reg.xlatStat Fld.xlatStatFaults 1).count ⟨0x702, none, some i, some addr, none, some false, 1⟩
  let (side, fid) := match req.who with
    | .target key _ => (1, key.src)
    | _ => (0, 0)
  let w0 := addr % 2 ^ 52 + level <<< 52 + stage <<< 54 + side <<< 55 + accCode req.acc <<< 56 + kind <<< 58 + 1 <<< 63
  let w1 := i + fid <<< 12 + (s.usSinceApply % 2 ^ 32) <<< 32
  let count := s.get Reg.faultq Fld.faultqCount
  let s :=
    if 64 ≤ count then s.put Reg.faultq Fld.faultqOverrun 1
    else
      let j := (s.get Reg.faultq Fld.faultqHead + count) % 64
      ((s.setWord (Reg.faultrec j 0) (BitVec.ofNat 64 w0)).setWord (Reg.faultrec j 1) (BitVec.ofNat 64 w1)).put
        Reg.faultq Fld.faultqCount (count + 1)
  let s :=
    if s.flag (Reg.xlFault0 i) Fld.xlFault0Valid then
      s.setWord (Reg.xlFault0 i) (s.word (Reg.xlFault0 i) ||| BitVec.ofNat 64 (1 <<< 62))
    else (s.setWord (Reg.xlFault0 i) (BitVec.ofNat 64 w0)).setWord (Reg.xlFault1 i) (BitVec.ofNat 64 w1)
  s.post (556 + i / 256) kind 1 (i % 256 + bits addr 51 8 <<< 8)

/-! ## Translation (R335, R338 to R342) -/

/-- The answer to a request: the bus address and the address that the dirty log records, a fault, or a walk to wait for. -/
inductive XRes where
  | hit (bus gpa : Nat)
  | fault
  | wait
deriving DecidableEq, Repr

/-- What a walk does next. -/
inductive WalkAct where
  | read (bus : Nat)
  | mark (m : MarkSt)
  | fault (kind stage level addr : Nat)
  | done (bus : Nat)
deriving DecidableEq, Repr

/-- A cached translation covers an input. -/
def TlbEnt.covers (t : TlbEnt) (x : Nat) : Bool := x / 2 ^ t.size == t.page

/-- A cached translation permits an access without a mark. -/
def TlbEnt.permits (t : TlbEnt) : AccKind → Bool
  | .rd => t.rd
  | .wr => t.wr && t.d
  | .atm => t.atm && t.d

/-- The translation cache's answer (R342). -/
def State.tlbHit (s : State) (i : Nat) (va : Bool) (x : Nat) (k : AccKind) : Option TlbEnt :=
  if s.cacheEn then s.xl.tlb.find? (fun t => t.inst == i && t.va == va && t.covers x && t.permits k) else none

/-- The stage-2 cache's answer. For a table read, an entry whose leaf could still need a dirty mark is passed over. -/
def State.s2Hit (s : State) (root x : Nat) (k : AccKind) (table : Bool) : Option TlbEnt :=
  if s.cacheEn then
    s.xl.s2c.find? (fun t => t.root == root && t.covers x && t.permits k && (!table || !t.wr || t.d))
  else none

/-- The deepest cached non-leaf entry for an input: the level to read next and its table (R342). -/
def State.walkStart (s : State) (stage key root x : Nat) : Nat × Nat :=
  if s.cacheEn then
    [2, 1, 0].foldl (fun best l =>
      if best.1 = 0 then
        match s.xl.walkc.find? (fun e => e.stage == stage && e.key == key && e.level == l
            && e.pre == x / 2 ^ (39 - 9 * l)) with
        | some e => (l + 1, e.table)
        | none => best
      else best) (0, root)
  else (0, root)

/-- Begin the stage-2 part of a walk for `x`: a table read, or the final address. -/
def State.walkS2 (s : State) (w : WalkSt) (x : Nat) : WalkSt × WalkAct :=
  let table := decide (w.s1Level < 4)
  let k := if table then AccKind.rd else w.req.acc
  let w := { w with s2In := x, inS2 := false, tblLeaf := 0, tblLeafAt := 0 }
  if w.s2Mode = 2 then (w, if table then .read x else .done x)
  else if w.s2Mode ≠ 1 then (w, .fault 1 1 0 x)
  else if 2 ^ 48 ≤ x then (w, .fault 7 1 0 x)
  else
    match s.s2Hit w.root2 x k table with
    | some t =>
      let bus := t.base + x % 2 ^ t.size
      let leaf : Word := BitVec.ofNat 64 (1 + 2 + 4 * b2n t.rd + 8 * b2n t.wr + 16 * b2n t.atm + 32 + 64 * b2n t.d)
      let w := { w with s2Level := (39 - t.size) / 9 }
      if table then ({ w with tblLeaf := leaf }, .read bus) else ({ w with s2Leaf := leaf }, .done bus)
    | none =>
      let (l, tbl) := s.walkStart 2 w.root2 w.root2 x
      ({ w with inS2 := true, s2Level := l, s2Table := tbl }, .read (tbl + 8 * tblIndex x l))

/-- The next step of a walk: the entry of the present stage-1 level, or the final address (R338, R339). -/
def State.walkNext (s : State) (w : WalkSt) : WalkSt × WalkAct :=
  if w.s1Level < 4 then s.walkS2 w (w.s1Table + 8 * tblIndex w.req.addr.toNat w.s1Level) else s.walkS2 w w.gpa

/-- A stage-2 leaf has been accepted and marked: go on to the table entry, or end. -/
def walkS2Leaf (w : WalkSt) : WalkSt × WalkAct :=
  let bus := pteAddr w.s2Leaf + w.s2In % 2 ^ leafBits w.s2Level
  if w.s1Level < 4 then
    ({ w with inS2 := false, tblLeaf := w.s2Leaf, tblLeafAt := w.s2LeafAt }, .read bus)
  else (w, .done bus)

/-- A stage-1 leaf has been accepted and marked: the final address follows. -/
def State.walkS1Leaf (s : State) (w : WalkSt) : WalkSt × WalkAct :=
  let b := leafBits w.s1Level
  s.walkNext { w with s1Bits := b, gpa := pteAddr w.s1Leaf + w.req.addr.toNat % 2 ^ b, s1Level := 4 }

/-- The mark attempts of a leaf are used up (R340). -/
def State.triesOut (s : State) (w : WalkSt) : Bool := decide (s.get Reg.xlatCtrl Fld.xlatCtrlAdTries ≤ w.tries)

/-- Judge a stage-2 entry (R338 to R341). -/
def State.walkS2Entry (s : State) (w : WalkSt) (e : Word) : WalkSt × WalkAct :=
  let table := decide (w.s1Level < 4)
  let k := if table then AccKind.rd else w.req.acc
  if !pteValid e then (w, .fault 1 1 w.s2Level w.s2In)
  else if pteBad e w.s2Level then (w, .fault 3 1 w.s2Level w.s2In)
  else if !pteLeaf e then
    let l := w.s2Level + 1
    ({ w with s2Level := l, s2Table := pteAddr e }, .read (pteAddr e + 8 * tblIndex w.s2In l))
  else if !ptePermits e k then (w, .fault 2 1 w.s2Level w.s2In)
  else
    let w := { w with s2Leaf := e, s2LeafAt := w.readAt }
    if pteNeedsMark e k then
      if s.triesOut w then (w, .fault 6 1 w.s2Level w.s2In)
      else if s.marksOk w.inst then (w, .mark ⟨w.s2LeafAt, e, pteMarked e k, 0⟩) else (w, .fault 4 1 w.s2Level w.s2In)
    else walkS2Leaf w

/-- Judge a stage-1 entry (R338 to R341): marking it writes its table, whose stage-2 leaf needs `wr` and its own
dirty mark. -/
def State.walkS1Entry (s : State) (w : WalkSt) (e : Word) : WalkSt × WalkAct :=
  let va := w.req.addr.toNat
  if !pteValid e then (w, .fault 1 0 w.s1Level va)
  else if pteBad e w.s1Level then (w, .fault 3 0 w.s1Level va)
  else if !pteLeaf e then s.walkNext { w with s1Level := w.s1Level + 1, s1Table := pteAddr e }
  else if !ptePermits e w.req.acc then (w, .fault 2 0 w.s1Level va)
  else
    let w := { w with s1Leaf := e, s1At := w.readAt }
    if pteNeedsMark e w.req.acc then
      if s.triesOut w then (w, .fault 6 0 w.s1Level va)
      else if !s.marksOk w.inst then (w, .fault 4 0 w.s1Level va)
      else if w.s2Mode = 1 ∧ !pteWr w.tblLeaf then (w, .fault 2 1 w.s2Level w.s2In)
      else if w.s2Mode = 1 ∧ !pteD w.tblLeaf then
        (w, .mark ⟨w.tblLeafAt, w.tblLeaf, pteMarked w.tblLeaf .wr, 2⟩)
      else (w, .mark ⟨w.s1At, e, pteMarked e w.req.acc, 1⟩)
    else s.walkS1Leaf w

/-- Judge the entry that a walk's read returned. -/
def State.walkEntry (s : State) (w : WalkSt) (e : Word) : WalkSt × WalkAct :=
  if w.inS2 then s.walkS2Entry w e else s.walkS1Entry w e

/-- Keep a list to its newest `n` entries. -/
def newest {α : Type} (n : Nat) (l : List α) : List α := l.drop (l.length - n)

/-- Put a non-leaf entry into the walk cache (R342). -/
def State.cacheWalk (s : State) (w : WalkSt) (e : Word) : State :=
  if pteValid e && !pteLeaf e && s.cacheEn then
    let ent : WalkEnt := if w.inS2 then ⟨2, w.root2, w.s2Level, w.s2In / 2 ^ (39 - 9 * w.s2Level), pteAddr e⟩
      else ⟨1, w.inst, w.s1Level, w.req.addr.toNat / 2 ^ (39 - 9 * w.s1Level), pteAddr e⟩
    { s with xl := { s.xl with walkc := newest 2048 (s.xl.walkc ++ [ent]) } }
  else s

/-- Put a stage-2 leaf that a walk has accepted into the stage-2 cache (R342): of a table's page, or of the final address. -/
def State.cacheS2 (s : State) (w : WalkSt) (e : Word) : State :=
  if s.cacheEn then
    let b := leafBits w.s2Level
    let t : TlbEnt := ⟨0, false, w.root2, w.s2In / 2 ^ b, b, pteAddr e, 0, pteRd e, pteWr e, pteRd e && pteWr e && pteAt e, pteD e⟩
    { s with xl := { s.xl with s2c := newest 4096 (s.xl.s2c ++ [t]) } }
  else s

/-- Put a finished walk into the translation cache (R342); the effective page is the smaller leaf (R339). -/
def State.cacheDone (s : State) (w : WalkSt) (bus : Nat) : State :=
  if s.cacheEn then
    let va := w.req.addr.toNat
    let b2 := if w.s2Mode = 1 then leafBits w.s2Level else 52
    let b1 := if w.s1On then w.s1Bits else 48
    let b := min b1 (min b2 48)
    let two (f : Word → Bool) : Bool := (!w.s1On || f w.s1Leaf) && (w.s2Mode != 1 || f w.s2Leaf)
    let t : TlbEnt := ⟨w.inst, w.req.stage1, w.root2, va / 2 ^ b, b, bus - bus % 2 ^ b, w.gpa - w.gpa % 2 ^ b, two pteRd, two pteWr,
      two (fun e => pteRd e && pteWr e && pteAt e), two pteD⟩
    { s with xl := { s.xl with tlb := newest 16384 (s.xl.tlb ++ [t]) } }
  else s

/-- Replace a walk. -/
def State.setWalk (s : State) (w : WalkSt) : State :=
  { s with xl := { s.xl with walks := s.xl.walks.map (fun x => if x.id = w.id then w else x) } }

/-- Drop a walk. -/
def State.dropWalk (s : State) (id : Nat) : State :=
  { s with xl := { s.xl with walks := s.xl.walks.filter (fun x => x.id != id) } }

/-- A finished request: the instance, the request, and its bus and logged addresses, or none for a fault. -/
structure XDone where
  inst : Nat
  req : XlatReq
  res : Option (Nat × Nat)
deriving DecidableEq, Repr

/-- Take a walk's next action: a mark of a stage-1 leaf is logged at its stage-2 input address (R324). The answer holds the walk's own request once it has ended. -/
def State.walkAct (s : State) (w : WalkSt) (a : WalkAct) : List XDone × State :=
  let f := s.instFunc w.inst
  match a with
  | .read bus =>
    let s := s.setWalk { w with readAt := bus, mark := none }
    ([], s.ask ⟨f.link, 0, f, w.inst, bus, 8, .walk w.id⟩)
  | .mark m =>
    let s := s.setWalk { w with mark := some m }
    let r : DmaReq := ⟨f.link, 0, f, w.inst, m.addr, 8, .mark w.id⟩
    ([], if m.which = 1 then s.hostWriteThen w.inst m.addr w.s2In [] false (.ask r) else s.ask r)
  | .fault kind stage level addr =>
    ([⟨w.inst, w.req, none⟩], (s.xlFault w.inst w.req kind stage level addr).dropWalk w.id)
  | .done bus => ([⟨w.inst, w.req, some (bus, w.gpa)⟩], (s.cacheDone w bus).dropWalk w.id)

/-- A new walk for a request. -/
def State.newWalk (s : State) (i : Nat) (req : XlatReq) : WalkSt :=
  let va := req.addr.toNat
  let on := req.stage1 && s.s1On i
  let (l, tbl) := s.walkStart 1 i (s.s1Root i) va
  { id := s.xl.nextWalk, inst := i, req := req, root1 := s.s1Root i, s1On := on, s2Mode := s.s2Mode i,
    root2 := s.s2RootOf i, s1Level := if on then l else 4, s1Table := tbl, inS2 := false, s2In := 0, s2Level := 0,
    s2Table := 0, s2Leaf := 0, s2LeafAt := 0, s1Leaf := 0, s1At := 0, s1Bits := 0, gpa := va, tblLeaf := 0,
    tblLeafAt := 0, readAt := 0, mark := none, tries := 0, waiters := [], restart := false }

/-- Start a walk (R342). -/
def State.startWalk (s : State) (i : Nat) (req : XlatReq) : List XDone × State :=
  let w := s.newWalk i req
  let s := (s.bump Reg.xlatStat Fld.xlatStatWalks 1).count ⟨0x701, none, some i, some req.addr.toNat, none, some false, 1⟩
  let s := { s with xl := { s.xl with walks := s.xl.walks ++ [w], nextWalk := w.id + 1 } }
  let (w, a) := s.walkNext w
  s.walkAct w a

/-- Translate one request (R335, R336, R342): a bypass, a cache hit, a fault at once, or a walk. -/
def State.translate (s : State) (i : Nat) (req : XlatReq) : XRes × State :=
  let va := req.addr.toNat
  let on := req.stage1 && s.s1On i
  if !on && s.s2Mode i == 2 then (.hit (va % 2 ^ 52) (va % 2 ^ 52), s)
  else if 2 ^ 48 ≤ va then (.fault, s.xlFault i req 7 (b2n (!on)) 0 va)
  else
    match s.tlbHit i req.stage1 va req.acc with
    | some t => (.hit (t.base + va % 2 ^ t.size) (t.gpa + va % 2 ^ t.size),
        s.count ⟨0x700, none, some i, some va, none, some false, 1⟩)
    | none =>
      match s.xl.walks.find? (fun w => w.inst == i && w.req.stage1 == req.stage1
          && w.req.addr.toNat / 4096 == va / 4096 && !w.restart) with
      | some w => (.wait, s.setWalk { w with waiters := w.waiters ++ [req] })
      | none =>
        if s.get Reg.xlatCtrl Fld.xlatCtrlWalkers ≤ s.xl.walks.length then
          (.wait, { s with xl := { s.xl with queued := s.xl.queued ++ [(i, req)] } })
        else
          match s.startWalk i req with
          | ([], s) => (.wait, s)
          | (d :: _, s) =>
            match d.res with
            | some (b, g) => (.hit b g, s)
            | none => (.fault, s)

/-- Translate the requests that waited for a walk that has ended, and start those that were queued. -/
def State.retranslate (s : State) (l : List (Nat × XlatReq)) : List XDone × State :=
  l.foldl (fun (ds, s) ir =>
    match s.translate ir.1 ir.2 with
    | (.hit b g, s) => (ds ++ [⟨ir.1, ir.2, some (b, g)⟩], s)
    | (.fault, s) => (ds ++ [⟨ir.1, ir.2, none⟩], s)
    | (.wait, s) => (ds, s)) ([], s)

/-- Take a walk's action; where the walk ends, its waiters and one queued request go on. -/
def State.walkStep (s : State) (w : WalkSt) (a : WalkAct) : List XDone × State :=
  match s.walkAct w a with
  | ([], s) => ([], s)
  | (ds, s) =>
    let q := s.xl.queued.take 1
    let s := { s with xl := { s.xl with queued := s.xl.queued.drop 1 } }
    let (ds', s) := s.retranslate (w.waiters.map (fun r => (w.inst, r)) ++ q)
    (ds ++ ds', s)

/-- A walk that an invalidation caught is discarded and starts again (R343). -/
def State.walkAgain (s : State) (w : WalkSt) : List XDone × State :=
  let w := { s.newWalk w.inst w.req with id := w.id, waiters := w.waiters }
  let (w, a) := s.walkNext w
  s.walkStep w a

/-- The table read of a walk has ended (R339, R345 kind 5). -/
def State.walkRead (s : State) (id : Nat) (res : ReadRes) : List XDone × State :=
  let s := { s with dma := s.dma.filter (fun r => r.why != ReadWhy.walk id) }
  match s.xl.walks.find? (fun w => w.id == id && w.mark.isNone) with
  | none => ([], s)
  | some w =>
    if w.restart then s.walkAgain w
    else
      match res with
      | .failed =>
        s.walkStep w (if w.inS2 then .fault 5 1 w.s2Level w.s2In else .fault 5 0 w.s1Level w.req.addr.toNat)
      | .entry e =>
        let s := s.cacheWalk w e
        let (w', a) := s.walkEntry w e
        let taken := match a with
          | .read _ | .done _ => w.inS2 && pteLeaf e
          | _ => false
        (if taken then s.cacheS2 w e else s).walkStep w' a

/-- The fault of a mark that ends a walk, at its own stage. -/
def WalkSt.markFault (w : WalkSt) (which kind : Nat) : WalkAct :=
  if which = 1 then .fault kind 0 w.s1Level w.req.addr.toNat else .fault kind 1 w.s2Level w.s2In

/-- A marking CAS has returned (R340): it succeeded, or the returned value is judged again, which tries again up to `ad_tries` times; that
of a table's leaf is judged as when the table was reached. A CAS that fails is an access to the table that fails: kind 5 (log 23). -/
def State.markDone (s : State) (id : Nat) (old : Word) (ok : Bool) : List XDone × State :=
  let s := { s with dma := s.dma.filter (fun r => r.why != ReadWhy.mark id) }
  match s.xl.walks.find? (fun w => w.id == id) with
  | none => ([], s)
  | some w =>
    match w.mark with
    | none => ([], s)
    | some m =>
      if w.restart then s.walkAgain w
      else if !ok then s.walkStep w (w.markFault m.which 5)
      else if old = m.old then
        let s := s.bump Reg.xlatStat Fld.xlatStatMarks 1
        let w := { w with mark := none, tries := 0 }
        if m.which = 0 then
          let (w, a) := walkS2Leaf { w with s2Leaf := m.new }
          (s.cacheS2 w m.new).walkStep w a
        else if m.which = 2 then
          let (w, a) := s.walkS1Entry { w with tblLeaf := m.new, readAt := w.s1At } w.s1Leaf
          s.walkStep w a
        else
          let (w, a) := s.walkS1Leaf { w with s1Leaf := m.new }
          s.walkStep w a
      else
        let w := { w with mark := none, tries := w.tries + 1, readAt := m.addr }
        let (w, a) := if m.which = 1 then s.walkS1Entry w old else s.walkS2Entry { w with inS2 := true } old
        s.walkStep w a

/-! ## Invalidation (R343, R344) -/

/-- Does a range of `len` pages from `a` touch a page of `2 ^ size` bytes numbered `page`? -/
def pageTouches (a len page size : Nat) : Bool :=
  let lo := a / 4096 * 4096
  decide (page * 2 ^ size < lo + 4096 * len ∧ lo < (page + 1) * 2 ^ size)

/-- A cached translation lies in a scope (R343). -/
def TlbEnt.inScope (t : TlbEnt) (scope i root a len : Nat) : Bool :=
  match scope with
  | 1 => t.inst == i
  | 2 => t.inst == i && pageTouches a len t.page t.size
  | 3 => t.root == root
  | 4 => t.root == root && pageTouches a len (t.gpa / 2 ^ t.size) t.size
  | _ => true

/-- Remove every cached entry of a scope, and make the walks in it start again. The stage-2 entries of an instance
are those of its root. -/
def State.invalidate (s : State) (scope i root a len : Nat) : State :=
  let x := s.xl
  { s with xl := { x with
      tlb := x.tlb.filter (fun t => !t.inScope scope i root a len)
      s2c := x.s2c.filter (fun t =>
        !(match scope with
          | 1 | 3 => t.root == root
          | 2 => false
          | 4 => t.root == root && pageTouches a len t.page t.size
          | _ => true))
      walkc := x.walkc.filter (fun e =>
        !(match scope with
          | 1 => (e.stage == 1 && e.key == i) || (e.stage == 2 && e.key == root)
          | 2 => e.stage == 1 && e.key == i && pageTouches a len e.pre (39 - 9 * e.level)
          | 3 => e.stage == 2 && e.key == root
          | 4 => e.stage == 2 && e.key == root && pageTouches a len e.pre (39 - 9 * e.level)
          | _ => true))
      walks := x.walks.map (fun w =>
        if (match scope with
          | 1 => w.inst == i
          | 2 => w.inst == i && pageTouches a len (w.req.addr.toNat / 4096) 12
          | 3 | 4 => w.root2 == root
          | _ => true) then { w with restart := true } else w) } }

/-- The manager's `go` (R343, R344, R356); a scope outside 1 to 5 covers nothing. -/
def doXlatInv (s : State) : State :=
  s.ifStructured Reg.xlatInv (fun s =>
    if s.flag Reg.xlatInv Fld.xlatInvBusy then s.put Reg.xlatInv Fld.xlatInvInvErr 1
    else
      let scope := s.get Reg.xlatInv Fld.xlatInvScope
      let i := s.get Reg.xlatInv Fld.xlatInvInst
      let a := (s.word Reg.invAddr).toNat
      let len := s.get Reg.invLen Fld.invLenLen
      let s := s.put Reg.xlatInv Fld.xlatInvBusy 1
      let s := { s with xl := { s.xl with mgrInv := ⟨true, scope, i, a, len⟩ } }
      if 1 ≤ scope ∧ scope ≤ 5 then s.invalidate scope i (s.s2RootOf i) a len else s)

/-- XLAT_INV. -/
def execXlatInv (s : State) : Answer := act s doXlatInv

/-- The tenant's `go` (R344, R361): scopes 1 and 2 of its own instance. -/
def doXlInv (i : Nat) (s : State) : State :=
  s.ifStructured (Reg.tXlInv i) (fun s =>
    if s.flag (Reg.tXlInv i) Fld.tXlInvBusy then s.put (Reg.tXlInv i) Fld.tXlInvErr 1
    else
      let scope := s.get (Reg.tXlInv i) Fld.tXlInvScope
      let a := (s.word (Reg.tInvAddr i)).toNat
      let len := s.get (Reg.tInvLen i) Fld.tInvLenLen
      let s := s.put (Reg.tXlInv i) Fld.tXlInvBusy 1
      let s := { s with xl := { s.xl with tenInv := Table.put s.xl.tenInv i ⟨true, scope, i, a, len⟩ } }
      if scope = 2 then s.invalidate 2 i (s.s2RootOf i) a len else s.invalidate 1 i (s.s2RootOf i) a len)

/-- XL_INV. -/
def execXlInv (inst : Fin 4096) (s : State) : Answer := act s (doXlInv inst)

/-- An access that used an entry of a scope may still wait to be issued (R343): a request on a host link, or a write that waits for its
word of the dirty log, of an instance in the scope. Table reads and marks belong to walks, which start again. -/
def State.invWaits (s : State) (v : InvSt) : Bool :=
  let inScope (i : Nat) : Bool :=
    match v.scope with
    | 1 | 2 => i == v.inst
    | 3 | 4 => s.s2RootOf i == s.s2RootOf v.inst
    | 5 => true
    | _ => false
  let access (r : DmaReq) : Bool := match r.why with | .walk _ | .mark _ | .dlogWord _ _ => false | _ => true
  s.dmaQ.any (fun r => access r && s.insts.any (fun e => e.2.bound && r.func == ⟨e.2.vfLink, e.2.vfNum⟩ && inScope e.1))
    || s.logWait.any (fun l => inScope l.inst)

/-- An invalidation completes and `busy` clears (R343), once no access that used its entries waits. -/
def doInvDone (t : Option (Fin 4096)) (s : State) : State :=
  match t with
  | none =>
    if s.invWaits s.xl.mgrInv then s
    else { s.put Reg.xlatInv Fld.xlatInvBusy 0 with xl := { s.xl with mgrInv := InvSt.init } }
  | some i =>
    if s.invWaits (Table.getD s.xl.tenInv InvSt.init i) then s
    else { s.put (Reg.tXlInv i) Fld.tXlInvBusy 0 with xl := { s.xl with tenInv := Table.del s.xl.tenInv i } }

/-- INV_DONE. -/
def execInvDone (tenant : Option (Fin 4096)) (s : State) : Answer := act s (doInvDone tenant)

/-! ## The fault queue, grants and windows (R358 to R361) -/

/-- A head write consumes records; a value that would make `count` negative is ignored (R358). -/
def doFaultqHead (h : Nat) (s : State) : State :=
  s.ifStructured Reg.faultq (fun s =>
    let used := subMod 6 h (s.get Reg.faultq Fld.faultqHead)
    let count := s.get Reg.faultq Fld.faultqCount
    if count < used then s
    else (s.put Reg.faultq Fld.faultqHead h).put Reg.faultq Fld.faultqCount (count - used))

/-- FAULTQ_HEAD_WRITE. -/
def execFaultqHeadWrite (head : BitVec 6) (s : State) : Answer := act s (doFaultqHead head.toNat)

/-- Entry `k` of XLAT.RSV_MAP (R353, R357): what it holds, its base and its length in units of 2 MiB. Entry k holds region k + 1,
at a place that the spec leaves open (log 12): the staging window, 2^20 peer records of 64 B, the window store of 32 MiB, a quarter
of the coherent region; the near-ring pool follows INST.CTRL. -/
def State.rsvEntry (s : State) (k : Nat) : Nat × Nat × Nat :=
  let g := s.get Reg.cohRegion Fld.cohRegionSizeGib
  if s.img.applied.isNone then (0, 0, 0)
  else
    match k with
    | 0 => (1, (Config.regionBase 1 g).toNat, 8)
    | 1 => (2, (Config.regionBase 2 g).toNat, 32)
    | 2 => (3, (Config.regionBase 3 g).toNat, 16)
    | 3 => if g = 0 then (0, 0, 0) else (4, 512 * (Config.directoryBase g).toNat, 128 * g)
    | 4 =>
      if s.get Reg.instCtrl Fld.instCtrlNrGib = 0 then (0, 0, 0)
      else (5, 512 * s.get Reg.instCtrl Fld.instCtrlNrBaseGib, 512 * s.get Reg.instCtrl Fld.instCtrlNrGib)
    | _ => (0, 0, 0)

/-- A span of device memory in bytes touches one of the entries of XLAT.RSV_MAP. -/
def State.touchesEntry (s : State) (a n k : Nat) : Bool :=
  let (_, base, len) := s.rsvEntry k
  decide (0 < n ∧ a < 2 ^ 21 * (base + len) ∧ 2 ^ 21 * base < a + n)

/-- A span of device memory in bytes touches a region of XLAT.RSV_MAP. -/
def State.touchesRsv (s : State) (a n : Nat) : Bool := (List.range 8).any (fun k => s.touchesEntry a n k)

/-- A grant write, discarded with an informational event when it touches a reserved region (R359). -/
def doDmGrant (i : Nat) (v : Word) (s : State) : State :=
  s.ifStructured (Reg.dmGrant i) (fun s =>
    let base := Fld.dmGrantDmBase.get v * 2 ^ 21
    let len := Fld.dmGrantDmLen.get v * 2 ^ 21
    if s.touchesRsv base len then s.notice 59 (Reg.dmGrant i)
    else (s.put (Reg.dmGrant i) Fld.dmGrantDmBase (Fld.dmGrantDmBase.get v)).put (Reg.dmGrant i) Fld.dmGrantDmLen
      (Fld.dmGrantDmLen.get v))

/-- DM_GRANT_WRITE. -/
def execDmGrantWrite (inst : Fin 4096) (value : BitVec 64) (s : State) : Answer := act s (doDmGrant inst value)

/-- A write of a window register (R351, R360): `reg` 0 WIN_CFG, 1 WIN_BASE, 2 WIN_LEN, 3 WIN_STAT. An enable of a
window of kind 0 whose base is beyond 48 bits, or of kind 1 without a grant, leaves `enable` at 0. -/
def doWindowWrite (i w reg : Nat) (v : Word) (s : State) : State :=
  s.ifStructured (Reg.winCfg i w) (fun s =>
    match reg with
    | 0 =>
      let bad := if Fld.winCfgKind.get v = 0 then decide (2 ^ 48 ≤ (s.word (Reg.winBase i w)).toNat)
        else s.get (Reg.dmGrant i) Fld.dmGrantDmLen == 0
      let v := BitVec.ofNat 64 (v.toNat % 2 ^ 49)
      s.setWord (Reg.winCfg i w) (if bad then Fld.winCfgEnable.put v 0 else v)
    | 1 => s.setWord (Reg.winBase i w) v
    | 2 => s.setWord (Reg.winLen i w) (BitVec.ofNat 64 (v.toNat % 2 ^ 49))
    | _ => s.put (Reg.winStat i w) Fld.winStatRejects (v.toNat % 2 ^ 32))

/-- WINDOW_WRITE. -/
def execWindowWrite (inst : Fin 4096) (w : Fin 128) (reg : Fin 4) (value : BitVec 64) (s : State) : Answer :=
  act s (doWindowWrite inst w reg value)

end Sys2Proof.Machine
end

