-- ==== Sys2Proof/Machine/Home.lean ====
section
/-! DEFINITION. Home: device memory at its Marjoram slices: lines, the directory, non-caching reads, writes and
atomics, and poisoned lines (R372, R383, R465 to R471). -/

namespace Sys2Proof.Machine

/-! ## Atomic operations (R372) -/

/-- The new value of an atomic operation on operands of `w` bytes (R372). -/
def atomicNew (op w m a b : Nat) : Nat :=
  let k := 8 * w
  let sm := toSigned k m; let sa := toSigned k a
  match op with
  | 0 => (m + a) % 2 ^ k
  | 1 => a % 2 ^ k
  | 2 => if m = a % 2 ^ k then b % 2 ^ k else m
  | 3 => if sa < sm then a % 2 ^ k else m
  | 4 => if sm < sa then a % 2 ^ k else m
  | 5 => min m (a % 2 ^ k)
  | _ => max m (a % 2 ^ k)

/-! ## Lines (R465, R466) -/

/-- The slice that homes a device address (R465). -/
def sliceOf (a : Nat) : Nat := bits a 9 6 ^^^ bits a 13 10 ^^^ bits a 17 14 ^^^ bits a 21 18

/-- The coherent region holds an address (R465, R486). -/
def State.inRegion (s : State) (a : Nat) : Bool :=
  let b := s.get Reg.cohRegion Fld.cohRegionBaseGib * 2 ^ 30
  decide (b ≤ a ∧ a < b + s.get Reg.cohRegion Fld.cohRegionSizeGib * 2 ^ 30)

/-- The directory bit of a caching agent (R466). -/
def cohBit : CohAgent → Nat
  | .core c => c
  | .dill e => 68 + e
  | .fennel e => 102 + e

/-- The directory entry of a line (R466). -/
def State.dirOf (s : State) (line : Nat) : BitVec 128 := Table.getD s.hand.dir 0 line

/-- Replace a directory entry. -/
def State.setDir (s : State) (line : Nat) (d : BitVec 128) : State :=
  { s with hand := { s.hand with dir := Table.set s.hand.dir 0 line d } }

/-- `excl` of a directory entry. -/
def dirExcl (d : BitVec 128) : Bool := d.toNat.testBit 127

/-- A line in an agent's cache. -/
def State.cachedAt (s : State) (a : CohAgent) (line : Nat) : Option (CohAgent × Nat × Mesi × List Byte) :=
  s.hand.cached.find? (fun e => e.1 == a && e.2.1 == line)

/-- Put a line into an agent's cache, or drop it. -/
def State.setCached (s : State) (a : CohAgent) (line : Nat) (v : Option (Mesi × List Byte)) : State :=
  let rest := s.hand.cached.filter (fun e => !(e.1 == a && e.2.1 == line))
  { s with hand := { s.hand with cached := match v with
    | some (st, d) => rest ++ [(a, line, st, d)]
    | none => rest } }

/-- The copy of a line that its owner holds, in its cache or its writeback buffer (R470). -/
def State.ownerData (s : State) (line : Nat) : Option (List Byte) :=
  match s.hand.cached.find? (fun e => e.2.1 == line && e.2.2.1 != Mesi.s) with
  | some e => some e.2.2.2
  | none => (s.hand.writeback.find? (fun e => e.2.1 == line
      && decide (s.dirOf line = BitVec.ofNat 128 (2 ^ cohBit e.1 + 2 ^ 127)))).map (fun e => e.2.2)

/-- A line of device memory as a reader sees it. -/
def State.lineData (s : State) (line : Nat) : List Byte :=
  match s.ownerData line with
  | some d => d
  | none => s.hbmRead (64 * line) 64

/-- A line is poisoned (R471). -/
def State.poisonedLine (s : State) (line : Nat) : Bool := s.rma.poisoned.contains line

/-- The lines that a span touches. -/
def linesOf (a n : Nat) : List Nat :=
  if n = 0 then [] else (List.range ((a + n - 1) / 64 + 1 - a / 64)).map (fun i => a / 64 + i)

/-- A span touches an armed lock line (R472). -/
def State.touchesLock (s : State) (a n : Nat) : Bool := (linesOf a n).any (fun l => s.rma.armed.contains l)

/-- The encoding of a directory entry is one of R466. -/
def dirLegal (d : BitVec 128) : Bool :=
  bits d.toNat 126 119 == 0 && (!dirExcl d || popcount d.toNat 119 == 1)

/-- A line's directory entry is found: any other encoding than those of R466 is an uncorrectable error of its slice, and the line is
poisoned. -/
def State.dirFound (s : State) (line : Nat) : State :=
  if dirLegal (s.dirOf line) then s
  else
    let s := { s with
      rma := { s.rma with poisoned := if s.poisonedLine line then s.rma.poisoned else s.rma.poisoned ++ [line] } }
    (s.setDir line 0).post (524 + 2 * sliceOf (64 * line)) 2 2 (64 * line)

/-- Count a directory access at a line's slice, and find its entry: whether it hits the directory cache is not stated: a free value
(log 6). -/
def State.dirCount (s : State) (line : Nat) : State :=
  if s.inRegion (64 * line) then
    let (w, s) := (s.dirFound line).fresh
    let k := sliceOf (64 * line)
    let s := s.count ⟨0xB00, some k, none, some (64 * line), none, none, 1⟩
    if w.toNat % 2 = 0 then s.bump (Reg.slCnt0 k) Fld.slCnt0DcHit 1
    else (s.bump (Reg.slCnt0 k) Fld.slCnt0DcMiss 1).count ⟨0xB01, some k, none, some (64 * line), none, none, 1⟩
  else s.count ⟨0xB00, some (sliceOf (64 * line)), none, some (64 * line), none, none, 1⟩

/-- Count a forward to an owner. -/
def State.fwdCount (s : State) (line : Nat) : State :=
  if (s.ownerData line).isSome then
    (s.bump (Reg.slCnt1 (sliceOf (64 * line))) Fld.slCnt1Fwd 1).count
      ⟨0xB02, some (sliceOf (64 * line)), none, some (64 * line), none, none, 1⟩
  else s

/-- The home of a line is shut (R17): the hub of its slice, or the controller of its stack, refuses transfers. -/
def State.homeShut (s : State) (line : Nat) : Bool :=
  s.islandShut (hubIsland (sliceOf (64 * line) / 4)) || s.islandShut (hbmIsland (64 * line / (hbmSize / 4)))

/-- The home of a line of a span is shut. -/
def State.spanShut (s : State) (a n : Nat) : Bool := (linesOf a n).any (fun l => s.homeShut l)

/-! ## Non-caching accesses (R467, R383): a refused one has no effect, and a read of it no data (R17, log 141) -/

/-- ReadNA: each line whole, the owner keeping its copy; none when a line is poisoned. -/
def State.devRead (s : State) (a n : Nat) : Option (List Byte) × State :=
  let ls := linesOf a n
  if s.spanShut a n then (none, s)
  else
    let s := (ls.foldl (fun s l => (s.dirCount l).fwdCount l) s).hbmCount 0xC00 a n
    let all := (ls.map (fun l => s.lineData l)).flatten
    (if ls.any (fun l => s.poisonedLine l) then none else some ((all.drop (a % 64)).take n), s)

/-- Bring a line home: every holder is invalidated, an owner's data merged (R467). -/
def State.recall (s : State) (line : Nat) : State :=
  let s := (s.dirCount line).fwdCount line
  let s := match s.ownerData line with
    | some d => s.hbmWrite (64 * line) d
    | none => s
  { s with hand := { s.hand with
      cached := s.hand.cached.filter (fun e => e.2.1 != line)
      dir := Table.del s.hand.dir line } }

/-- WriteNA: line by line; a write of a whole line clears its poison (R471). -/
def State.devWrite (s : State) (a : Nat) (data : List Byte) : State :=
  let n := data.length
  let ls := linesOf a n
  if s.spanShut a n then s
  else
    let s := ((ls.foldl (fun s l => s.recall l) s).hbmWrite a data).hbmCount 0xC01 a n
    { s with rma := { s.rma with poisoned := s.rma.poisoned.filter (fun l =>
        !(decide (a ≤ 64 * l ∧ 64 * l + 64 ≤ a + n))) } }

/-- AtomicNA: as WriteNA, then the operation in the slice; the former value, or none on a poisoned line (R372). -/
def State.devAtomic (s : State) (a op w op1 op2 : Nat) : Option Nat × State :=
  let ls := linesOf a w
  let shut := s.spanShut a w
  let s := if shut then s else ls.foldl (fun s l => s.recall l) s
  if shut || ls.any (fun l => s.poisonedLine l) then (none, s)
  else
    let m := leNat (s.hbmRead a w)
    (some m, s.hbmWrite a (leBytes (atomicNew op w m op1 op2) w))

/-! ## Grants (R348, R359) -/

/-- The base of an instance's grant. -/
def State.dmBase (s : State) (i : Nat) : Nat := s.get (Reg.dmGrant i) Fld.dmGrantDmBase * 2 ^ 21
/-- The length of an instance's grant. -/
def State.dmLen (s : State) (i : Nat) : Nat := s.get (Reg.dmGrant i) Fld.dmGrantDmLen * 2 ^ 21

/-- An extent lies in an instance's grant, and the grant touches no reserved region (R348). -/
def State.inGrant (s : State) (i off n : Nat) : Bool :=
  decide (off + n ≤ s.dmLen i) && !s.touchesRsv (s.dmBase i) (s.dmLen i)

end Sys2Proof.Machine
end

