-- ==== Sys2Proof/Machine/Transport.lean ====
section
/-! DEFINITION. Transport: peer records and their cache, sequence numbers, SYNCs, acknowledgements, the window,
failures of packets, shapers and meters, and the checks on every arrival (R222 to R250). -/

namespace Sys2Proof.Machine

/-! ## Peer records (R226 to R228) -/

/-- The peer index of a device and a traffic class (R226). -/
def peerIdx (fid tc : Nat) : Nat := 4 * fid + tcGroup tc

/-- A peer record. -/
def State.peer (s : State) (i : Nat) : PeerRec := Table.getD s.xp.peers PeerRec.init i

/-- Replace a peer record. -/
def State.setPeer (s : State) (i : Nat) (r : PeerRec) : State :=
  { s with xp := { s.xp with peers := Table.put s.xp.peers i r } }

/-- The device's incarnation (R230). -/
def State.inc (s : State) : Nat := s.get Reg.xportInc Fld.xportIncInc

/-- A record is in the peer state cache. -/
def State.peerCached (s : State) (i : Nat) : Bool := s.xp.cache.contains i

/-- The cache may evict a record (R227): nothing outstanding and no acknowledgement pending. -/
def State.evictable (s : State) (i : Nat) : Bool :=
  let r := s.peer i
  r.outstanding == 0 && r.unacked == 0

/-- Entries of the peer state cache (R227). -/
def peerCacheSize : Nat := 16384

/-- Put a record into the cache, evicting the least recently used record that may be evicted (R227): the cache lists
the least recently used first. The answer says whether it fits. -/
def State.bringIn (s : State) (i : Nat) : Bool × State :=
  let c := s.xp.cache
  if c.contains i then (true, { s with xp := { s.xp with cache := c.filter (fun j => j != i) ++ [i] } })
  else if c.length < peerCacheSize then (true, { s with xp := { s.xp with cache := c ++ [i] } })
  else
    match c.find? (fun j => s.evictable j) with
    | some j => (true, { s with xp := { s.xp with cache := c.filter (fun k => k != j) ++ [i] } })
    | none => (false, s)

/-- A record is needed and not cached: count the miss, and the hold when no entry can be freed (R227, R253). -/
def State.peerMiss (s : State) (p : Packet) (i : Nat) : State :=
  let s := (s.bump Reg.xportStat2 Fld.xportStat2CacheMiss 1).count ⟨0x404, none, some i, none, some p.tc, some (p.tc == 7), 1⟩
  if peerCacheSize ≤ s.xp.cache.length ∧ !(s.xp.cache.any (fun j => s.evictable j)) then
    s.bump Reg.xportStat3 Fld.xportStat3CacheFull 1
  else s

/-! ## Operations as the transport sees them (R241) -/

/-- The operations of the table. -/
def State.opList (s : State) : List (Nat × OpSt) := s.rma.ops

/-- Change an operation that is present. -/
def State.modOp (s : State) (o : Nat) (f : OpSt → OpSt) : State :=
  match Table.find s.rma.ops o with
  | some x => s.setOp o (f x)
  | none => s

/-- Give the waiting packets of a peer consecutive numbers from `n` on; the answer is the number after the last. -/
def renumber (i : Nat) : Nat → List (Nat × OutPkt) → Nat × List (Nat × OutPkt)
  | n, [] => (n, [])
  | n, (j, o) :: t =>
    if j = i then
      let (m, t') := renumber i ((n + 1) % 2 ^ 24) t
      (m, (j, { o with pkt := { o.pkt with seq := n } }) :: t')
    else
      let (m, t') := renumber i n t
      (m, (j, o) :: t')

/-- The first number held by a waiting packet of a peer; `tx_next` with none. -/
def State.firstWaiting (s : State) (i : Nat) : Nat :=
  match s.xp.waiting.find? (fun w => w.1 == i) with
  | some w => w.2.pkt.seq
  | none => (s.peer i).txNext

/-- Number the waiting packets of a peer again from `n` on: none of them has been sent (log 24). -/
def State.renumberFrom (s : State) (i n : Nat) : State :=
  let (m, l) := renumber i n s.xp.waiting
  ({ s with xp := { s.xp with waiting := l } }).setPeer i { s.peer i with txNext := m }

/-- Drop every packet of an operation that has not been sent (R241). A multicast copy goes alone (R206), so it stays, but where
its instance is reset (`copies`). -/
def State.dropUnsent (s : State) (o : Nat) (copies : Bool := false) : State :=
  let mine (q : OutPkt) : Bool := q.op == o && (copies || !q.pkt.route.mcast)
  let peers := ((s.xp.waiting.filter (fun w => mine w.2)).map (fun w => w.1)).dedup
  let firsts := peers.map (fun i => (i, s.firstWaiting i))
  let x := s.xp
  let s := { s with
    xp := { x with
      waiting := x.waiting.filter (fun w => !mine w.2)
      cacheOut := x.cacheOut.filter (fun w => !mine w.2)
      shapers := x.shapers.map (fun e => (e.1, { e.2 with queue := e.2.queue.filter (fun q => !mine q) })) }
    rma := { s.rma with fetches := s.rma.fetches.filter (fun f => f.op != o) } }
  firsts.foldl (fun s f => s.renumberFrom f.1 f.2) s

/-- An operation ends with a status: a job waits for JOB_COMPLETE, a get being served is dropped. -/
def State.finishOp (s : State) (o status : Nat) : State :=
  match Table.find s.rma.ops o with
  | none => s
  | some x =>
    if x.done then s
    else
      let s := s.dropUnsent o
      match x.kind with
      | .serveGet | .pull => s.dropOp o
      | _ => s.setOp o { x with done := true, status := status }

/-- An operation that has failed ends once every packet sent is acknowledged or has failed (R241). -/
def State.settle (s : State) (o : Nat) : State :=
  match Table.find s.rma.ops o with
  | none => s
  | some x =>
    match x.fail with
    | some st => if x.sentPkts ≤ x.ackedPkts then s.finishOp o st else s
    | none => s

/-- A packet or the local side of an operation fails: the first failure's status stands (R241). -/
def State.failOp (s : State) (o status : Nat) : State :=
  match Table.find s.rma.ops o with
  | none => s
  | some x =>
    if x.done then s
    else
      let s := if x.fail.isNone then (s.setOp o { x with fail := some status }).dropUnsent o else s
      s.settle o

/-- A packet of an operation has been acknowledged or has failed. -/
def State.opSettled (s : State) (o : Nat) : State :=
  (s.modOp o (fun x => { x with ackedPkts := x.ackedPkts + 1 })).settle o

/-! ## Packets sent (R229, R232, R236) -/

/-- A path exists for a packet (R191, R202, R206). -/
def State.routable (s : State) (hub : Nat) (p : Packet) : Bool :=
  if p.route.mcast then
    let i := ((List.range 16).find? (fun i => bit p.route.mask i)).getD 0
    !(s.peerPorts (if p.route.mdim then 16 + i else i)).isEmpty
  else p.route.dst == s.fid || (s.dstInRange p.route.dst && (s.route202 hub p.route.dst).1.isSome)

/-- Hand a packet to the router at a hub: a multicast copy, or a packet with a fresh route choice. The answer says whether
it has a path. -/
def State.launch (s : State) (hub : Nat) (p : Packet) : Bool × State :=
  if p.route.mcast then
    let i := ((List.range 16).find? (fun i => bit p.route.mask i)).getD 0
    s.injectCopy hub p p.route.mdim i
  else s.inject hub (s.pktHub p) p

/-- Remove a sent packet that has failed. -/
def State.dropSent (s : State) (q : SentPkt) : State :=
  let s := { s with xp := { s.xp with sent := s.xp.sent.filter (fun x => !(x.idx == q.idx && x.seq == q.seq)) } }
  (s.setPeer q.idx { s.peer q.idx with outstanding := (s.peer q.idx).outstanding - 1 }).opSettled q.op

/-- Launch a copy of a sequenced packet. A multicast copy whose member is not in the peer map fails alone with "no route"
(R206); any other packet that finds no path is left to its retry timer. -/
def State.launchSent (s : State) (q : SentPkt) : State :=
  match s.launch q.hub q.pkt with
  | (true, s) => s
  | (false, s) => if q.pkt.route.mcast then (s.failOp q.op 2).dropSent q else s

/-- The time of the last send or arrival of a peer is now (R228). -/
def State.touchPeer (s : State) (i : Nat) : State := s.setPeer i { s.peer i with lastUs := s.usSinceApply }

/-- The fields of a copy that leaves now: incarnation and piggybacked acknowledgement (R230, R232). -/
def State.stamp (s : State) (i : Nat) (p : Packet) : Packet :=
  let r := s.peer i
  { p with seqd := true, inc := s.inc, ackv := true, ackNext := r.rxNext, limit := r.rxLimit }.seal

/-- Send the first copy of a sequenced packet, whose number is assigned (R229). -/
def State.sendNow (s : State) (i : Nat) (o : OutPkt) : State :=
  let p := s.stamp i { o.pkt with attempt := if o.pkt.op = opNcomp then o.pkt.attempt else 1 }
  let r := s.peer i
  let s := s.setPeer i { r with outstanding := r.outstanding + 1, lastUs := s.usSinceApply, unacked := 0 }
  let q : SentPkt := ⟨i, p.seq, p, 1, o.hub, o.op, false⟩
  let s := { s with xp := { s.xp with sent := s.xp.sent ++ [q] } }
  let s := s.count ⟨0x400, none, some p.sInst, none, some p.tc, some (p.tc == 7 || (s.op o.op).mgr), 1⟩
  let s := if 0 < p.plen then s.count ⟨0x502, some (s.physUnit 1 (s.op o.op).engine), some p.sInst, some p.base, some p.tc, some (s.op o.op).mgr, p.plen⟩ else s
  (s.modOp o.op (fun x => { x with sentPkts := x.sentPkts + 1 })).launchSent q

/-- A SYNC (R230): it carries `tx_next` and the incarnation, on the class of the first packet it precedes. -/
def State.syncPkt (s : State) (i tc seq : Nat) : Packet :=
  { Packet.zero with
    op := opSync, tc := tc, src := s.fid, seq := seq, inc := s.inc,
    route := { RouteWord.zero with dst := i / 4 } }.seal

/-- Send the SYNC that a peer's record names (R230). -/
def State.sendSync (s : State) (i : Nat) : State :=
  let r := s.peer i
  (((s.touchPeer i).bump Reg.xportStat2 Fld.xportStat2SyncTx 1).launch r.syncHub (s.syncPkt i r.syncTc r.syncSeq)).2

/-- Start the synchronization of the sending direction (R230): the waiting packets of the peer follow the SYNC. -/
def State.startSync (s : State) (i tc hub : Nat) : State :=
  let n := s.firstWaiting i
  let r := s.peer i
  (s.setPeer i { r with
    syncPending := true, txSync := false, syncTries := 1, syncSeq := n, syncTc := tc, syncHub := hub }).sendSync i

/-- Give a packet its number and send it, or let it wait at the limit or behind a SYNC (R229, R230). -/
def State.sequence (s : State) (i : Nat) (o : OutPkt) : State :=
  let r := s.peer i
  let s := if r.syncPending || (r.txSync && !r.down) then s else s.startSync i o.pkt.tc o.hub
  let r := s.peer i
  let o := { o with pkt := { o.pkt with seq := r.txNext } }
  let free := r.txSync && !r.syncPending && laterMod 24 r.txLimit r.txNext && !(s.xp.waiting.any (fun w => w.1 == i))
  let s := (s.setPeer i { r with txNext := (r.txNext + 1) % 2 ^ 24 }).stampJob o.op 3 false
  if free then s.sendNow i o else { s with xp := { s.xp with waiting := s.xp.waiting ++ [(i, o)] } }

/-- A packet leaves for its peer: by its record when that is cached (R227). -/
def State.transmit (s : State) (o : OutPkt) : State :=
  let i := peerIdx o.pkt.route.dst o.pkt.tc
  if s.peerCached i then (s.bringIn i).2.sequence i o
  else
    let s := s.peerMiss o.pkt o.pkt.sInst
    { s with xp := { s.xp with cacheOut := s.xp.cacheOut ++ [(i, o)] } }

/-- Send the packets of a peer that wait at the limit, oldest first, while `tx_limit` allows (R229). -/
def State.windowSend (s : State) (i : Nat) : State :=
  let r := s.peer i
  if !r.txSync || r.syncPending then s
  else
    s.xp.waiting.foldl (fun s w =>
      if w.1 == i && laterMod 24 r.txLimit w.2.pkt.seq then
        ({ s with xp := { s.xp with waiting := s.xp.waiting.filter (fun x => !(x.1 == i && x.2.pkt.seq == w.2.pkt.seq)) } }).sendNow
          i w.2
      else s) s

/-! ## Acknowledgements (R232 to R234) -/

/-- Bit `k` of the receive map stands for `rx_next + k`. -/
def PeerRec.mapBytes (r : PeerRec) : List Byte :=
  leBytes ((List.range 256).foldl (fun n k =>
    if r.rxMap.contains ((r.rxNext + k) % 2 ^ 24) then n + 2 ^ k else n) 0) 32

/-- Advance `rx_limit` (R234). -/
def PeerRec.advanceLimit (r : PeerRec) : PeerRec :=
  let l := (r.rxNext + r.rxWin) % 2 ^ 24
  if laterMod 24 l r.rxLimit then { r with rxLimit := l } else r

/-- Send a standalone ACK (R232), on the class of the packet that caused it. -/
def State.sendAck (s : State) (i tc : Nat) : State :=
  let r := (s.peer i).advanceLimit
  let s := s.setPeer i { r with unacked := 0, lastUs := s.usSinceApply }
  let p : Packet := { Packet.zero with
    op := opAck, tc := tc, ackv := true, plen := 32, src := s.fid, inc := s.inc, ackNext := r.rxNext,
    limit := r.rxLimit, route := { RouteWord.zero with dst := i / 4 }, payload := r.mapBytes }
  (s.launch r.hub p.seal).2

/-- The answer of an atomic has been acknowledged: its kept result is freed (R375). -/
def State.freeResult (s : State) (p : Packet) : State :=
  if p.op = opAtomicRsp then
    { s with rma := { s.rma with results := s.rma.results.filter (fun a => !(a.xid == p.xid && a.dst == p.route.dst)) } }
  else s

/-- A sent packet is acknowledged: its retry timer stops. -/
def State.ackPkt (s : State) (q : SentPkt) : State :=
  let r := s.peer q.idx
  let s := { s with xp := { s.xp with sent := s.xp.sent.filter (fun x => !(x.idx == q.idx && x.seq == q.seq)) } }
  let s := s.setPeer q.idx { r with outstanding := r.outstanding - 1 }
  (s.freeResult q.pkt).opSettled q.op

/-- An ACK whose `ack_next` is the number of the SYNC that waits ends the synchronization (R230). -/
def State.syncDone (s : State) (i next : Nat) : State :=
  let r := s.peer i
  if r.syncPending ∧ next = r.syncSeq then
    s.setPeer i { r with txSync := true, down := false, syncPending := false, txUna := next }
  else s

/-- Take an acknowledgement, of an ACK or carried by a packet (R233): `acked` are further numbers received. -/
def State.onAck (s : State) (i next limit : Nat) (acked : List Nat) : State :=
  let r := s.peer i
  if !atOrAfterMod 24 next r.txUna then s
  else
    let r := { r with txUna := next, txLimit := if laterMod 24 limit r.txLimit then limit else r.txLimit }
    let s := s.setPeer i r
    let done := s.xp.sent.filter (fun q => q.idx == i && (laterMod 24 next q.seq || acked.contains q.seq))
    done.foldl (fun s q => s.ackPkt q) s

/-- The numbers that an ACK's payload acknowledges. -/
def ackList (next : Nat) (payload : List Byte) : List Nat :=
  let m := leNat (payload.take 32)
  ((List.range 256).filter (fun k => m.testBit k)).map (fun k => (next + k) % 2 ^ 24)

/-! ## Failures of packets and peers (R230, R237 to R239) -/

/-- Every outstanding packet to a peer fails with a status. -/
def State.failPeer (s : State) (i status : Nat) : State :=
  let l := s.xp.sent.filter (fun q => q.idx == i)
  let s := { s with xp := { s.xp with sent := s.xp.sent.filter (fun q => q.idx != i) } }
  let s := s.setPeer i { s.peer i with outstanding := 0 }
  l.foldl (fun s q => (s.failOp q.op status).opSettled q.op) s

/-- Every packet of a peer that waits behind a SYNC fails with a status (R230). -/
def State.failWaiting (s : State) (i status : Nat) : State :=
  let l := s.xp.waiting.filter (fun w => w.1 == i)
  let n := s.firstWaiting i
  let s := { s with xp := { s.xp with waiting := s.xp.waiting.filter (fun w => w.1 != i) } }
  let s := s.setPeer i { s.peer i with txNext := n }
  l.foldl (fun s w => s.failOp w.2.op status) s

/-- Packets that wait at the limit when the sending direction has lost its synchronization follow a new SYNC. -/
def State.resyncWaiting (s : State) (i : Nat) : State :=
  match s.xp.waiting.find? (fun w => w.1 == i) with
  | some w => s.startSync i w.2.pkt.tc w.2.hub
  | none => s

/-- Sends that await a COMP or a pull from a peer fail when it has restarted (R399). -/
def State.failSends (s : State) (fid status : Nat) : State :=
  s.rma.ops.foldl (fun s e => if e.2.kind == .send && e.2.dst == fid && e.2.started then s.failOp e.1 status else s) s

/-- The peer has restarted (R230): every outstanding packet to it fails with status 5. -/
def State.peerRestart (s : State) (i : Nat) : State :=
  let s := (s.failPeer i 5).failSends (i / 4) 5
  (s.setPeer i { s.peer i with txSync := false, syncPending := false }).resyncWaiting i

/-- The peer is set down (R239): every outstanding packet to it fails with status 32. -/
def State.peerDown (s : State) (i : Nat) : State :=
  let s := s.setPeer i { s.peer i with down := true }
  ((s.failPeer i 32).bump Reg.xportStat3 Fld.xportStat3PeerFail 1).resyncWaiting i

/-- A SYNC whose tries are used up: the peer is down, and what waits behind the SYNC fails as well (R230). -/
def State.syncFailed (s : State) (i : Nat) : State :=
  let s := s.setPeer i { s.peer i with down := true, syncPending := false }
  ((s.failPeer i 32).failWaiting i 32).bump Reg.xportStat3 Fld.xportStat3PeerFail 1

/-! ## Answers (R224, R237, R240) -/

/-- A shaper's rate in 10 Mb/s, its burst in bytes. -/
def State.shaperRate (s : State) (k : Nat) : Nat := s.get (Reg.shaperCfg k) Fld.shaperCfgRate
/-- Burst of a shaper in bytes. -/
def State.shaperBurst (s : State) (k : Nat) : Nat := 64 * s.get (Reg.shaperCfg k) Fld.shaperCfgBurst

/-- The credit now, in eight-hundredths of a byte (R243, R244): it rises while a packet waits or while it is negative,
up to the burst. -/
def State.creditNow (s : State) (k : Nat) (q : ShaperSt) : Int :=
  let top : Int := 800 * s.shaperBurst k
  let dt : Int := (s.now - q.creditAt : Nat)
  if q.queue.isEmpty ∧ 0 ≤ q.credit then min q.credit top
  else
    let c := q.credit + s.shaperRate k * dt
    min (if q.queue.isEmpty then min c 0 else c) top

/-- A shaper whose credit is brought up to now. -/
def State.settleCredit (s : State) (k : Nat) (q : ShaperSt) : ShaperSt :=
  { q with credit := s.creditNow k q, creditAt := s.now }

/-- Queue a packet at the shaper of the instance that sends it (R243). -/
def State.queueOut (s : State) (o : OutPkt) : State :=
  let k := 8 * o.pkt.sInst + o.pkt.tc
  let q := s.settleCredit k (Table.getD s.xp.shapers ShaperSt.init k)
  { s with xp := { s.xp with shapers := Table.put s.xp.shapers k { q with queue := q.queue ++ [o] } } }

/-- A packet back to the sender of `p`. -/
def State.reply (s : State) (p : Packet) (op : Nat) : Packet :=
  { Packet.zero with
    op := op, tc := p.tc, src := s.fid, sInst := p.tInst, tInst := p.sInst, xid := p.xid,
    route := { RouteWord.zero with dst := p.src } }

/-- The hub that answers for an instance. -/
def State.replyHub (s : State) (p : Packet) : Nat := s.pktHub p

/-- Send a negative completion from the target (R231, R236, R237): it names the failed packet and copies its `try`. -/
def State.sendNcomp (s : State) (p : Packet) (reason : Nat) : State :=
  if p.seqd then
    let n := { s.reply p opNcomp with
      pidx := p.pidx, base := p.base, xlen := p.xlen, key := p.key, attempt := p.attempt,
      aux := reason % 256 + (p.seq % 2 ^ 24) <<< 8 }
    s.queueOut ⟨n, 0, s.replyHub p, 0⟩
  else s

/-- Send a COMP for a transfer (R240). -/
def State.sendComp (s : State) (p : Packet) : State := s.queueOut ⟨s.reply p opComp, 0, s.replyHub p, 0⟩

/-! ## Shapers and meters (R243 to R249) -/

/-- The colour of a packet. -/
inductive Colour where
  | green | yellow | red
deriving DecidableEq, Repr

/-- A meter whose tokens, in eightieths of a byte, are brought up to now and cut to its depths (R249). -/
def State.settleTokens (s : State) (k : Nat) (q : ShaperSt) : ShaperSt :=
  let m := Reg.meterRate k
  let dt := s.now - q.tokAt
  { q with
    tokC := min (80 * 1024 * s.get m Fld.meterRateCbs) (q.tokC + s.get m Fld.meterRateCir * dt)
    tokP := min (80 * 1024 * s.get m Fld.meterRatePbs) (q.tokP + s.get m Fld.meterRatePir * dt)
    tokAt := s.now }

/-- Meter a packet of `n` bytes (R245): the tokens, in eightieths of a byte, rise since the last packet. Drop mode
uses one bucket; three-colour mode is the colour-blind marker of RFC 2698. TC0 knows no yellow (R248). -/
def State.meter (s : State) (k n : Nat) (q : ShaperSt) : Colour × ShaperSt :=
  let q := s.settleTokens k q
  let c := q.tokC
  let p := q.tokP
  let b := 80 * n
  if s.flag Reg.shapeCtrl Fld.shapeCtrlMode then
    if p < b then (.red, q)
    else if c < b then
      if k % 8 = 0 then (.red, q) else (.yellow, { q with tokP := p - b })
    else (.green, { q with tokP := p - b, tokC := c - b })
  else if c < b then (.red, q) else (.green, { q with tokC := c - b })

/-- Replace a shaper and show its credit (R256). -/
def State.setShaper (s : State) (k : Nat) (q : ShaperSt) : State :=
  ({ s with xp := { s.xp with shapers := Table.put s.xp.shapers k q } }).put (Reg.shaperStat k) Fld.shaperStatCredit
    (fromSigned 32 (q.credit / 800))

/-- Credit and tokens of a shaper as they stand now: what a change of its rate, its burst or its meter begins from, and is cut
to (R244, R249). -/
def State.settleShaper (s : State) (k : Nat) : State := s.setShaper k (s.settleTokens k (s.settleCredit k (Table.getD s.xp.shapers ShaperSt.init k)))

/-- An operation's first packet has left the policer; the wait is that of a descriptor, which a get served for another
device has none of (R250). -/
def State.firstOut (s : State) (k o : Nat) : State :=
  match Table.find s.rma.ops o with
  | some x =>
    if x.firstAt.isNone then
      let s := (s.setOp o { x with firstAt := some s.now }).stampJob o 2 false
      if x.kind == .serveGet || x.kind == .pull then s
      else s.raise (Reg.shaperStat k) Fld.shaperStatWaitHwm (s.now - x.polledAt)
    else s
  | none => s

/-! ## The turn of a shaper (R244) -/

/-- The engine that a queued packet leaves from: that of its operation; an answer of the target side, which belongs to no
operation, counts with its hub (log 139). -/
def State.outEngine (s : State) (o : OutPkt) : Nat := if o.op = 0 then 1000 + o.hub else (s.op o.op).engine

/-- A shaper has a packet ready to leave (R243, R246). -/
def State.shaperReady (s : State) (k : Nat) (q : ShaperSt) : Bool :=
  !q.queue.isEmpty && !q.paused && (s.shaperRate k == 0 || decide (0 ≤ s.creditNow k q))

/-- The shapers of an engine that have a packet ready to leave, in the order of instance and class. -/
def State.readyShapers (s : State) (e : Nat) : List Nat :=
  (s.xp.shapers.filter (fun x => (x.2.queue.head?.map (fun o => s.outEngine o)) == some e && s.shaperReady x.1 x.2)).map
    (fun x => x.1)

/-- It is the turn of shaper `k` at engine `e`: TC0 goes first, and the other classes take turns by instance and class. -/
def State.shaperTurn (s : State) (e k : Nat) : Bool :=
  let l := s.readyShapers e
  let last := Table.getD s.xp.shaperPtr 32767 e
  if l.any (fun j => j % 8 == 0) then l.contains k && k % 8 == 0
  else ((l.find? (fun j => decide (last < j))).or l.head?) == some k

/-- Another class than TC0 has had its turn. -/
def State.tookTurn (s : State) (e k : Nat) : State :=
  if k % 8 = 0 then s else { s with xp := { s.xp with shaperPtr := Table.put s.xp.shaperPtr e k } }

/-- A packet for which there is no path fails its operation with "no route" (R191); an operation is counted once. -/
def State.failNoRoute (s : State) (o : Nat) : State :=
  match Table.find s.rma.ops o with
  | none => s
  | some x => (if x.fail.isNone && !x.done then s.bump Reg.routeStat Fld.routeStatNoRoute 1 else s).failOp o 2

/-- Send a packet that has passed the policer, or that passes none (R229). -/
def State.sendOut (s : State) (o : OutPkt) : State :=
  if s.routable o.hub o.pkt then s.transmit o else s.failNoRoute o.op

/-- The head of a shaper leaves once its credit is zero or more (R243) and it is its turn (R244), is metered (R245), and is
sent, marked, or dropped (R246 to R248). -/
def State.release (s : State) (k : Nat) : State :=
  let q := Table.getD s.xp.shapers ShaperSt.init k
  match q.queue with
  | [] => s
  | o :: rest =>
    let n := 64 + o.pkt.plen
    let e := s.outEngine o
    if !s.shaperTurn e k then s
    else
      let q := s.settleCredit k q
      let s := s.tookTurn e k
      let (col, q) := s.meter k n q
      match col with
      | .red =>
        let s := (s.bump (Reg.meterCnt k) Fld.meterCntRed 1).count ⟨0x405, none, some (k / 8), none, some (k % 8), some false, 1⟩
        if s.get Reg.shapeCtrl Fld.shapeCtrlPolTries ≤ o.drops + 1 then
          (s.setShaper k { q with queue := rest }).failOp o.op 33
        else s.setShaper k { q with queue := { o with drops := o.drops + 1 } :: rest, paused := true }
      | _ =>
        let s := if col = .yellow then (s.bump (Reg.meterCnt k) Fld.meterCntYellow 1).count
            ⟨0x406, none, some (k / 8), none, some (k % 8), some false, 1⟩ else s
        let q := if s.shaperRate k = 0 then q else { q with credit := q.credit - 800 * (n : Int) }
        let s := (s.setShaper k { q with queue := rest }).firstOut k o.op
        s.sendOut { o with pkt := { o.pkt with de := col == .yellow } }

/-! ## Multicast (R205, R206) -/

/-- A FID from group, row and column. -/
def mkFid (g r k : Nat) : Nat := 256 * g + 16 * r + k

/-- The member that bit `i` of a mask names: column `i` of this device's row, or row `i` of its column. -/
def State.memberFid (s : State) (mdim : Bool) (i : Nat) : Nat :=
  if mdim then mkFid s.group i s.col else mkFid s.group s.row i

/-- The route word of the copy for bit `i`: one hop with the mask cut to that bit; for the device's own bit, one that crosses
the exchange alone. -/
def State.copyRoute (s : State) (mdim : Bool) (i : Nat) : RouteWord :=
  let f := s.memberFid mdim i
  if f = s.fid then { RouteWord.zero with dst := f }
  else ⟨f, 0, false, 0, b2n mdim, 2 ^ i % 256, 2 ^ i / 256, 0, 0, true, mdim⟩

/-- Multicast a packet to the members of a mask: one copy for each set bit, each sent by itself. -/
def State.multicast (s : State) (send : State → OutPkt → State) (o : OutPkt) (mdim : Bool) (mask : Nat) : State :=
  ((List.range 16).filter (fun i => bit mask i)).foldl (fun s i =>
    send s { o with pkt := { o.pkt with route := s.copyRoute mdim i } }) s

/-- The mask of a list of rows or columns. -/
def maskOf (l : List Nat) : Nat := l.foldl (fun m i => m ||| 2 ^ i) 0

/-- Where a packet of a collective goes: to one device, or by multicast along the row or the column. -/
inductive CopyTo where
  | one (fid : Nat)
  | many (mdim : Bool) (mask : Nat)
deriving DecidableEq, Repr

/-- Send a packet to one device or to many. -/
def State.sendTo (s : State) (send : State → OutPkt → State) (o : OutPkt) : CopyTo → State
  | .one f => send s { o with pkt := { o.pkt with route := { RouteWord.zero with dst := f } } }
  | .many d m => s.multicast send o d m

/-! ## Arrivals (R231) -/

/-- The transport unit's counting event (R225, R231). -/
def State.xportEvent (s : State) : State := s.postZero 324

/-- Find an open transfer record (R240); responses have records of their own. -/
def State.recOf (s : State) (k : XferKey) (rsp : Bool) : Option XferRec :=
  (s.xp.recs.find? (fun e => e.1 == k && e.2.isRsp == rsp)).map (fun e => e.2)

/-- Replace or open a transfer record. -/
def State.setRec (s : State) (k : XferKey) (r : XferRec) : State :=
  let rest := s.xp.recs.filter (fun e => !(e.1 == k && e.2.isRsp == r.isRsp))
  { s with xp := { s.xp with recs := rest ++ [(k, r)] } }

/-- Free a transfer record. -/
def State.freeRec (s : State) (k : XferKey) (rsp : Bool) : State :=
  { s with xp := { s.xp with recs := s.xp.recs.filter (fun e => !(e.1 == k && e.2.isRsp == rsp)) } }

/-- The key of a packet's transfer. -/
def pktKey (p : Packet) : XferKey := ⟨p.src, p.sInst, p.xid⟩

/-- The packet belongs to a transfer of more than one packet (R240). -/
def multiPkt (p : Packet) : Bool :=
  (p.op == opPut || p.op == opGetRsp || p.op == opSend) && decide (4096 < p.xlen)

/-- The packets of a transfer (R223). -/
def pktCount (p : Packet) : Nat := (p.xlen + 4095) / 4096

/-- Open transfer records (R240). -/
def maxRecs : Nat := 65536

/-- The register block of a logical engine: its physical number (R19, R384). -/
def State.rae (s : State) (e : Nat) : Nat := s.physUnit 1 e

/-- The engine of an instance's hub that serves a transfer at the target, chosen from `src`, `s_inst` and `xid` (R368);
the choice itself is not stated: free, and the next one that is not fenced (log 25). -/
def State.servingEngine (s : State) (p : Packet) : Nat :=
  let e (k : Nat) : Nat := 4 * s.instHub p.tInst + ((Config.servingChoice p.src p.sInst p.xid).toNat + k) % 4
  (((List.range 4).find? (fun k => !s.isFenced (.rae (s.rae (e k))))).map e).getD (e 0)

/-- A packet that answers a reason at the target fails its transfer (R380): the record is marked and a held final packet
discarded. -/
def State.failRec (s : State) (p : Packet) : State :=
  let k := pktKey p
  match s.recOf k (p.op == opGetRsp) with
  | none => s
  | some r =>
    let s := s.setRec k { r with failed := true, held := none }
    if r.held.isSome then s.bump (Reg.raeCnt1 (s.rae (s.servingEngine p))) Fld.raeCnt1FinalDrop 1 else s

/-- The instance that a packet is judged by at check 8 of R231: a COLL packet's is that of its communicator, and a
management communicator passes (R430). -/
def State.targetInst (s : State) (p : Packet) : Option Nat :=
  if p.op = opColl then
    let c := p.aux % 4096
    let e := (s.word (Reg.commEnt c 0)).toNat
    if bit e 0 then none else some (bits e 27 16)
  else some p.tInst

/-- Check 8 of R231 and R318: the target instance takes the packet. -/
def State.instTakes (s : State) (p : Packet) : Bool :=
  match s.targetInst p with
  | none => true
  | some i =>
    match s.instState i with
    | 1 | 5 => true
    | 2 => p.op == opGetRsp || p.op == opAtomicRsp || p.op == opComp || p.op == opNcomp
        || (multiPkt p && (s.recOf (pktKey p) (p.op == opGetRsp)).isSome)
    | _ => false

/-- Take the lowest numbers received off the bottom of the map (R231). -/
def advanceRx : Nat → PeerRec → PeerRec
  | 0, r => r
  | n + 1, r =>
    if r.rxMap.contains r.rxNext then
      advanceRx n { r with rxNext := (r.rxNext + 1) % 2 ^ 24, rxMap := r.rxMap.filter (fun x => x != r.rxNext) }
    else r

/-- Mark a number received (R231). -/
def PeerRec.mark (r : PeerRec) (seq : Nat) : PeerRec :=
  (advanceRx 257 { r with rxMap := r.rxMap ++ [seq] }).advanceLimit

/-- Take an arrival out of its hub's inbound queue; the answer is the hub. -/
def State.takeInbound (s : State) (p : Packet) : Nat × State :=
  match s.xp.inbound.find? (fun e => e.2 == p) with
  | some e => (e.1, { s with xp := { s.xp with inbound := s.xp.inbound.erase e } })
  | none => (s.pktHub p, s)

/-- An accepted packet counts toward the next acknowledgement (R232). -/
def State.countAck (s : State) (i tc : Nat) : State :=
  let r := s.peer i
  let n := r.unacked + 1
  let s := s.setPeer i { r with unacked := n, ackTc := if r.unacked = 0 then tc else r.ackTc }
  if s.get Reg.xportCtrl2 Fld.xportCtrl2AckPkts ≤ n then s.sendAck i tc else s

/-- The packet types of R224 that R231 hands to a consumer. -/
def knownOp (op : Nat) : Bool := decide ((1 ≤ op ∧ op ≤ 13) ∨ (16 ≤ op ∧ op ≤ 18))

/-- The checks of R231, in order. The answer is true where the packet is handed to its consumer. `full` tells whether a
resource that the packet needs is used up: it is then answered with reason 4, and its number stays unreceived. -/
def State.acceptIf (s : State) (p : Packet) (full : State → Bool) : Bool × State :=
  let (hub, s) := s.takeInbound p
  if p.crc ≠ p.crcOf then (false, (s.bump Reg.xportStat3 Fld.xportStat3CrcE2e 1).xportEvent)
  else if !knownOp p.op then (false, s.bump Reg.xportStat3 Fld.xportStat3SeqOor 1)
  else
    let i := peerIdx p.src p.tc
    let needs := p.seqd || p.op == opSync || p.op == opAck
    if needs && !s.peerCached i then
      let s := s.peerMiss p p.tInst
      (false, { s with xp := { s.xp with cacheIn := s.xp.cacheIn ++ [(i, hub, p)] } })
    else if !p.seqd then (true, s)
    else
      let s := (s.bringIn i).2.touchPeer i
      let r := s.peer i
      if !r.valid || r.peerInc != p.inc then (false, s.sendNcomp p 5)
      else
        let s := if p.ackv then s.onAck i p.ackNext p.limit [] else s
        let s := s.setPeer i { s.peer i with hub := hub }
        let r := s.peer i
        if !atOrAfterMod 24 p.seq r.rxNext || r.rxMap.contains p.seq then
          (false, ((s.bump Reg.xportStat Fld.xportStatDup 1).count ⟨0x402, none, some p.tInst, none, some p.tc, some (p.tc == 7), 1⟩).sendAck i p.tc)
        else if 256 ≤ subMod 24 p.seq r.rxNext then
          (false, (s.bump Reg.xportStat3 Fld.xportStat3SeqOor 1).xportEvent)
        else if (multiPkt p && (s.recOf (pktKey p) (p.op == opGetRsp)).isNone && decide (maxRecs ≤ s.xp.recs.length))
            || full s then
          (false, (s.bump Reg.xportStat2 Fld.xportStat2XferFull 1).sendNcomp p 4)
        else if !s.instTakes p then
          (false, (((s.setPeer i (r.mark p.seq)).countAck i p.tc).sendNcomp p 6).failRec p)
        else
          let r := r.mark p.seq
          (true, (s.setPeer i { r with used := min 255 (r.used + 1) }).countAck i p.tc)

/-- The checks of R231 for a packet that needs nothing but a transfer record. -/
def State.accept (s : State) (p : Packet) : Bool × State := s.acceptIf p (fun _ => false)

/-- Open the record of a packet's transfer, or count the packet in it (R240). -/
def State.countRec (s : State) (p : Packet) (quiet : Bool) : State :=
  let k := pktKey p
  let rsp := p.op == opGetRsp
  match s.recOf k rsp with
  | some r => s.setRec k { r with accepted := r.accepted + 1 }
  | none => s.setRec k ⟨pktCount p, 1, 0, none, false, peerIdx p.src p.tc, p.tInst, rsp, quiet, p⟩

/-- Bytes that a hub's inbound queue holds (R234, R235): packets not yet handled, waiting for a record or for
matching, being placed, and final packets held. -/
def State.inboundBytes (s : State) (h : Nat) : Nat :=
  let sz (p : Packet) : Nat := 64 * p.size
  let x := s.xp
  x.inbound.foldl (fun n e => if e.1 = h then n + sz e.2 else n) 0
    + x.cacheIn.foldl (fun n e => if e.2.1 = h then n + sz e.2.2 else n) 0
    + x.held.foldl (fun n e => if s.pktHub e.2.2 = h then n + sz e.2.2 else n) 0
    + s.mt.waiting.foldl (fun n p => if s.pktHub p = h then n + sz p else n) 0
    + x.placing.foldl (fun n e => if e.hub = h then n + sz e.pkt else n) 0
    + x.recs.foldl (fun n e => match e.2.held with
        | some p => if s.pktHub p = h then n + sz p else n
        | none => n) 0
    + s.colls.colls.foldl (fun n c => if s.commHub c.comm = h then
        n + (c.segs.filter (fun g => !g.admitted)).foldl (fun n g => n + g.ins.foldl (fun n i =>
          n + i.got.foldl (fun n e => n + 64 + e.2.length) 0) 0) 0 else n) 0

/-- Occupancy of a hub's inbound queue of 1 MiB, in percent (R235). -/
def State.inboundPct (s : State) (h : Nat) : Nat := 100 * s.inboundBytes h / 2 ^ 20

/-- The window update of one record (R235). -/
def State.updateWindow (s : State) (i : Nat) : State :=
  let r := s.peer i
  let q := s.inboundPct r.hub
  let init := s.get Reg.xportCtrl Fld.xportCtrlInitWin
  let win :=
    if s.get Reg.xportCtrl Fld.xportCtrlHiMark ≤ q then max 1 (r.rxWin / 2)
    else if q ≤ s.get Reg.xportCtrl Fld.xportCtrlLoMark ∧ r.rxWin * 3 ≤ r.used * 4 then
      min (max (s.get Reg.xportCtrl Fld.xportCtrlMaxWin) init) (r.rxWin + s.get Reg.xportCtrl Fld.xportCtrlWinStep)
    else if 1000 * s.get Reg.xportCtrl2 Fld.xportCtrl2IdleResetMs ≤ s.usSinceApply - r.lastUs then init
    else r.rxWin
  s.setPeer i { r with rxWin := win, used := 0 }.advanceLimit

end Sys2Proof.Machine
end

