-- ==== Sys2Proof/Machine/Engine.lean ====
section
/-! DEFINITION. Engine: what a remote access engine does for its operations: transfer IDs, payload fetches, packets,
placements in host and device memory, and the triggers that an arrival fires (R362 to R380, R459). -/

namespace Sys2Proof.Machine

/-! ## Numbers -/

/-- A transfer ID is held by an outstanding operation (R364). -/
def State.xidUsed (s : State) (x : Nat) : Bool :=
  s.rma.ops.any (fun e => !e.2.done && (e.2.xid == x || e.2.rspXid == x) && e.2.kind != .serveGet && e.2.kind != .pull)

/-- Draw transfer IDs until one is free and is not `avoid` (R364, R391). -/
def State.drawXid (s : State) (e avoid : Nat) : Nat → Nat × State
  | 0 =>
    let c := Table.getD s.rma.xidCount 0 e
    ((e % 16) <<< 28 + c, { s with rma := { s.rma with xidCount := Table.put s.rma.xidCount e ((c + 1) % 2 ^ 28) } })
  | f + 1 =>
    let c := Table.getD s.rma.xidCount 0 e
    let x := (e % 16) <<< 28 + c
    let s := { s with rma := { s.rma with xidCount := Table.put s.rma.xidCount e ((c + 1) % 2 ^ 28) } }
    if s.xidUsed x || x == avoid then s.drawXid e avoid f else (x, s)

/-- A fresh transfer ID of an engine. -/
def State.newXid (s : State) (e avoid : Nat) : Nat × State := s.drawXid e avoid 2048

/-- A submission ring. -/
def State.sq (s : State) (i r : Nat) : SqSt := Table.getD s.sqs SqSt.init (ringKey i r)

/-- The chain of a job is still open: its `last` entry has not been read (R302). -/
def State.chainOpen (s : State) (o : Nat) (x : OpSt) : Bool :=
  match x.ring with
  | some r => !(s.sq x.inst r).chain.isEmpty && (s.sq x.inst r).chainOp == o
  | none => false

/-- The `fence` of a job is met (R295): every earlier job of its ring has completed. -/
def State.fenceMet (s : State) (o : Nat) (x : OpSt) : Bool :=
  !x.fence || x.ring.isNone || !(s.rma.ops.any (fun e => decide (e.1 < o) && e.2.inst == x.inst && e.2.ring == x.ring))

/-- The engine may act on a job: its chain is closed and its fence met (R295, R302). -/
def State.mayStart (s : State) (o : Nat) (x : OpSt) : Bool := !s.chainOpen o x && s.fenceMet o x

/-- Operations in progress at an engine (R366): not those served for others, nor receives handed to matching. -/
def State.opsAt (s : State) (e : Nat) : Nat :=
  (s.rma.ops.filter (fun x => x.2.engine == e && x.2.kind != .serveGet && x.2.kind != .pull
    && !(x.2.kind == .recv && x.2.started))).length

/-- A new operation. -/
def State.addOp (s : State) (x : OpSt) : Nat × State :=
  let o := s.rma.nextOp
  (o, { s with rma := { s.rma with ops := Table.put s.rma.ops o x, nextOp := o + 1 } })

/-! ## Buffers (R367) -/

/-- Bytes `off` to `off + n` of a concatenation of segments, as spans. -/
def sliceSegs : List (Nat × Nat) → Nat → Nat → List (Nat × Nat)
  | [], _, _ => []
  | (a, len) :: t, off, n =>
    if n = 0 then []
    else if len ≤ off then sliceSegs t (off - len) n
    else
      let k := min n (len - off)
      (a + off, k) :: sliceSegs t 0 (n - k)

/-- Cut spans at page boundaries, each with its offset in the packet. -/
def pieces (off : Nat) : List (Nat × Nat) → List (Nat × Nat × Nat)
  | [] => []
  | (a, n) :: t => ((cutSpan 4096 8192 a n).map (fun c => (off + (c.1 - a), c.1, c.2))) ++ pieces (off + n) t

/-- The pieces of an operation's local buffer for `n` bytes from `off` on. -/
def OpSt.pieces (x : OpSt) (off n : Nat) : List (Nat × Nat × Nat) := Machine.pieces 0 (sliceSegs x.segs off n)

/-- Bytes of packet `pidx` of a transfer of `len` bytes (R223). -/
def pktBytes (len pidx : Nat) : Nat := min 4096 (len - 4096 * pidx)

/-- Packets of a transfer of `len` bytes (R223). -/
def pktsOf (len : Nat) : Nat := (len + 4095) / 4096

/-! ## Packets of an operation (R363, R390) -/

/-- Packet `pidx` of an operation's transfer. -/
def State.opPacket (s : State) (x : OpSt) (pidx : Nat) (payload : List Byte) : Packet :=
  let last := decide (pidx + 1 = pktsOf x.length)
  let base : Packet := { Packet.zero with
    tc := x.tc, src := s.fid, sInst := x.inst, tInst := x.tInst, xid := x.xid, pidx := pidx, base := x.remote,
    xlen := x.length, plen := payload.length, payload := payload, route := { RouteWord.zero with dst := x.dst } }
  match x.kind with
  | .send => { base with op := opSend, aux := x.key % 65536 }
  | .serveGet => { base with op := opGetRsp, final := x.final && last }
  | .pull => { base with op := opGetRsp }
  | _ => { base with op := opPut, key := x.key, final := x.final && last }

/-- The hub of a logical engine. -/
def hubOf (e : Nat) : Nat := min 3 (e / 4)

/-! ## Payload fetches (R367, R369) -/

/-- Who an operation's reads are translated for: the target side of a get being served, else the local side. -/
def OpSt.readFor (x : OpSt) (o pidx : Nat) : XlatFor :=
  if x.kind == .serveGet then .target ⟨x.dst, x.tInst, x.rspXid⟩ pidx else .loc o pidx

/-- A fetch of an operation. -/
def State.fetchOf (s : State) (o pidx : Nat) : Option FetchSt :=
  s.rma.fetches.find? (fun f => f.op == o && f.pidx == pidx)

/-- Replace or drop a fetch. -/
def State.setFetch (s : State) (f : FetchSt) : State :=
  { s with rma := { s.rma with fetches := s.rma.fetches.map (fun g => if g.op = f.op ∧ g.pidx = f.pidx then f else g) } }

/-- Drop a fetch. -/
def State.dropFetch (s : State) (o pidx : Nat) : State :=
  { s with rma := { s.rma with fetches := s.rma.fetches.filter (fun f => !(f.op == o && f.pidx == pidx)) } }

/-- A get being served fails at the target (R371, R381): NCOMP naming the GET_REQ, and no further response. A pull's
failure fails its send too (R399). -/
def State.serveFail (s : State) (o reason : Nat) : State :=
  match Table.find s.rma.ops o with
  | none => s
  | some x =>
    let s := match x.req with
      | some p => s.sendNcomp p reason
      | none => s
    let s := if x.kind == .pull then s.finishOp x.idx reason else s
    s.failOp o reason

/-- The window of a packet rejects it (R349): one more of its `rejects`. Only PUT, GET_REQ and ATOMIC use windows. -/
def State.winCount (s : State) (p : Packet) : State :=
  if p.op = opPut ∨ p.op = opGetReq ∨ p.op = opAtomic then s.bump (Reg.winStat p.tInst (p.key % 128)) Fld.winStatRejects 1 else s

/-- The local side of an operation fails: status 35 for a translation fault, 36 for a DMA failure (R368, R371). -/
def State.localFail (s : State) (o status : Nat) : State :=
  match Table.find s.rma.ops o with
  | none => s
  | some x =>
    match x.kind with
    | .serveGet =>
      let s := match x.req with
        | some p => if status = 35 then s.winCount p else s
        | none => s
      s.serveFail o (if status = 35 then 7 else 16)
    | .pull => s.serveFail o 16
    | _ => s.failOp o status

/-- One piece of a fetch: translate it and read it, or wait for its walk. -/
def State.fetchPiece (s : State) (o pidx : Nat) (x : OpSt) (c : Nat × Nat × Nat) : State :=
  if (s.fetchOf o pidx).isNone then s
  else
    match s.translate x.inst ⟨BitVec.ofNat 64 c.2.1, .rd, true, x.readFor o pidx⟩ with
    | (.hit bus _, s) => s.hostRead x.inst bus c.2.2 (fun k => .payload o pidx (c.1 + k))
    | (.wait, s) =>
      match s.fetchOf o pidx with
      | some f => s.setFetch { f with todo := f.todo ++ [c] }
      | none => s
    | (.fault, s) => s.localFail o 35

/-- Fetch `n` bytes from `off` of an operation's buffer in host memory, as its packet `pidx`. -/
def State.startFetch (s : State) (o pidx off n : Nat) (resend : Option (Nat × Nat)) : State :=
  match Table.find s.rma.ops o with
  | none => s
  | some x =>
    let s := { s with rma := { s.rma with fetches := s.rma.fetches ++ [⟨o, pidx, resend, [], n, []⟩] } }
    (x.pieces off n).foldl (fun s c => s.fetchPiece o pidx x c) s

/-- A translation that a fetch waited for has ended. -/
def State.fetchXlat (s : State) (o pidx va : Nat) (res : Option (Nat × Nat)) : State :=
  match s.fetchOf o pidx, res with
  | none, _ => s
  | some _, none => s.localFail o 35
  | some f, some (bus, _) =>
    match f.todo.find? (fun c => c.2.1 == va) with
    | none => s
    | some c =>
      (s.setFetch { f with todo := f.todo.erase c }).hostRead (s.op o).inst bus c.2.2 (fun k => .payload o pidx (c.1 + k))

/-- Bytes of a fetch arrive. The answer holds the whole payload once it has come. -/
def State.fetchData (s : State) (o pidx off : Nat) (data : List Byte) : Option (FetchSt × List Byte) × State :=
  match s.fetchOf o pidx with
  | none => (none, s)
  | some f =>
    let f := { f with need := f.need - data.length, got := Table.put f.got off data }
    if f.need = 0 then (some (f, (f.got.map (fun e => e.2)).flatten), (s.dropFetch o pidx).stampJob o 4 false) else (none, s.setFetch f)

/-- Queue a packet of an operation at its shaper. -/
def State.queueOp (s : State) (o : Nat) (p : Packet) : State :=
  s.queueOut ⟨p, o, hubOf (s.op o).engine, 0⟩

/-- Packets that an operation may fetch ahead (R367): `prefetch` beyond those that the window lets it send. -/
def State.fetchRoom (s : State) (x : OpSt) : Nat :=
  let r := s.peer (peerIdx x.dst x.tc)
  let room := if r.txSync && laterMod 24 r.txLimit r.txNext then subMod 24 r.txLimit r.txNext else 0
  s.get (Reg.raeCtrl (s.rae x.engine)) Fld.raeCtrlPrefetch + room

/-- Build the next packets of a transfer while the fetch depth allows (R367, R369). -/
def State.pumpOp (s : State) (o : Nat) : Nat → State
  | 0 => s
  | f + 1 =>
    match Table.find s.rma.ops o with
    | none => s
    | some x =>
      if !x.started || x.done || x.fail.isSome || decide (pktsOf x.length ≤ x.nextPkt)
          || decide (x.sentPkts + s.fetchRoom x ≤ x.nextPkt) then s
      else
        match x.kind with
        | .put | .send | .serveGet | .pull =>
          let i := x.nextPkt
          let n := pktBytes x.length i
          let s := s.setOp o { x with nextPkt := i + 1 }
          let s :=
            if x.dev then
              let a := match x.segs with | (a, _) :: _ => a | [] => 0
              match s.devRead (a + 4096 * i) n with
              | (some d, s) => s.queueOp o (s.opPacket x i d)
              | (none, s) => s.serveFail o 17
            else s.startFetch o i (4096 * i) n none
          s.pumpOp o f
        | _ => s

/-- Let every transfer go on as its window allows. -/
def State.pumpAll (s : State) : State := s.rma.ops.foldl (fun s e => s.pumpOp e.1 320) s

/-- Send a sent packet again, with its next attempt number (R236): a payload from host memory is fetched again. -/
def State.resend (s : State) (q : SentPkt) : State :=
  let s := (s.bump Reg.xportStat Fld.xportStatRetx 1).count ⟨0x401, none, some q.pkt.sInst, none, some q.pkt.tc, some (q.pkt.tc == 7 || (s.op q.op).mgr), 1⟩
  let put (s : State) (q : SentPkt) : State := { s with xp := { s.xp with sent := s.xp.sent.map (fun (x : SentPkt) =>
    if x.idx = q.idx ∧ x.seq = q.seq then q else x) } }
  let q := { q with attempt := q.attempt + 1, nacked := false }
  let p := s.stamp q.idx { q.pkt with attempt := if q.pkt.op = opNcomp then q.pkt.attempt else q.attempt }
  let q := { q with pkt := p }
  let s := put s q
  let s := s.setPeer q.idx { s.peer q.idx with lastUs := s.usSinceApply, unacked := 0 }
  match Table.find s.rma.ops q.op with
  | some x =>
    if (p.op == opPut || p.op == opSend || p.op == opGetRsp) && !x.dev && x.inline.isEmpty && decide (0 < p.plen) then
      s.startFetch q.op p.pidx (4096 * p.pidx) p.plen (some (q.idx, q.seq))
    else s.launchSent q
  | none => s.launchSent q

/-- A payload fetched again leaves in its resent packet. -/
def State.resendData (s : State) (i seq : Nat) (data : List Byte) : State :=
  match s.xp.sent.find? (fun q => q.idx == i && q.seq == seq) with
  | none => s
  | some q =>
    let p := s.stamp i { q.pkt with payload := data }
    let s := { s with xp := { s.xp with sent := s.xp.sent.map (fun (x : SentPkt) =>
      if x.idx = i ∧ x.seq = seq then { x with pkt := p } else x) } }
    (s.touchPeer i).launchSent { q with pkt := p }

/-! ## Triggers (R459) -/

/-- The triggers whose configuration a register lists. -/
def State.trigList (s : State) : List Nat :=
  s.regs.filterMap (fun e => if 0x1410000 ≤ e.1 ∧ e.1 < 0x1430000 ∧ (e.1 - 0x1410000) % 32 = 0
    then some ((e.1 - 0x1410000) / 32) else none)

/-- A trigger. -/
def State.trig (s : State) (t : Nat) : TrigSt := Table.getD s.hand.trigs TrigSt.init t

/-- Replace a trigger. -/
def State.setTrig (s : State) (t : Nat) (x : TrigSt) : State :=
  { s with hand := { s.hand with trigs := Table.put s.hand.trigs t x } }

/-- A trigger fires (R459): the firing is added to `pending`, and the first of those not delivered gives the trigger its
place in its cluster's order. The event record is that of the latest firing (log 26). -/
def State.fire (s : State) (t : Nat) (e1 e2 e3 e4 : Word) : State :=
  let first := s.get (Reg.trigStat t) Fld.trigStatPending == 0
  let s := s.bump (Reg.trigStat t) Fld.trigStatPending 1
  let x := s.trig t
  let n := s.hand.fireOrder
  let s := s.setTrig t { x with
    queued := !x.running, order := (if first then n else x.order), ev1 := e1, ev2 := e2, ev3 := e3, ev4 := e4 }
  if first then { s with hand := { s.hand with fireOrder := n + 1 } } else s

/-- A PUT transfer through window `w` counts complete: its arrival triggers fire. -/
def State.fireArrival (s : State) (w : Nat) (p : Packet) : State :=
  s.trigList.foldl (fun s t =>
    let a := Reg.trigCfg t
    if s.flag a Fld.trigCfgEnable && s.get a Fld.trigCfgKind == 1 && s.get a Fld.trigCfgInst == p.tInst
        && s.get a Fld.trigCfgSel == w then
      s.fire t (BitVec.ofNat 64 (p.src + p.sInst <<< 18)) (BitVec.ofNat 64 p.xid) (BitVec.ofNat 64 p.base)
        (BitVec.ofNat 64 p.xlen)
    else s) s

/-! ## Placement (R368, R370, R378 to R380) -/

/-- The status of a local operation for a reason of its placement (R371, R409). -/
def placeStatus (reason : Nat) : Nat := if reason = 7 then 35 else 36

/-- Remove a placement. -/
def State.dropPlace (s : State) (pl : Place) : State :=
  { s with xp := { s.xp with placing := s.xp.placing.filter (fun x => !(x.pkt == pl.pkt && x.op == pl.op)) } }

/-- A placement fails (R371, R378, R380): NCOMP to the sender, the transfer marked failed, and the operation that it
serves failed as well. A packet whose address does not translate fails check 7 of its window (R349). -/
def State.placeFail (s : State) (pl : Place) (reason : Nat) : State :=
  let s := if reason = 7 then s.winCount pl.pkt else s
  let s := ((s.dropPlace pl).sendNcomp pl.pkt reason).failRec pl.pkt
  if pl.op = 0 then s else s.failOp pl.op (placeStatus reason)

/-- Who a placement's writes are translated for. -/
def Place.who (pl : Place) : XlatFor :=
  if pl.op = 0 then .target (pktKey pl.pkt) pl.pkt.pidx else .loc pl.op pl.pkt.pidx

/-- Write one translated piece of a placement. -/
def State.placeWrite (s : State) (pl : Place) (bus gpa : Nat) (data : List Byte) : State :=
  s.hostWrite pl.inst bus gpa data (!pl.pkt.final)

/-- Translate the pieces of a placement: those that wait are kept, and with any fault there is none. -/
def State.placePieces (s : State) (pl : Place) : List (Nat × List Byte) → Option Place × State
  | [] => (some pl, s)
  | (va, data) :: t =>
    match s.translate pl.inst ⟨BitVec.ofNat 64 va, .wr, true, pl.who⟩ with
    | (.hit bus gpa, s) => s.placePieces { pl with ready := pl.ready ++ [(bus, gpa, data)] } t
    | (.wait, s) => s.placePieces { pl with todo := pl.todo ++ [(va, data)] } t
    | (.fault, s) => (none, s)

/-- Write a placement whose pieces have all been translated: a fault of one places no byte of its packet (R346). -/
def State.placeAll (s : State) (pl : Place) : State :=
  if pl.todo.isEmpty then pl.ready.foldl (fun s c => s.placeWrite pl c.1 c.2.1 c.2.2) s else s

/-- Begin the placement of a packet in host memory at the given spans. -/
def State.startPlace (s : State) (pl : Place) (spans : List (Nat × Nat)) (data : List Byte) : State :=
  match s.placePieces pl ((pieces 0 spans).map (fun c => (c.2.1, (data.drop c.1).take c.2.2))) with
  | (some pl, s) => { s with xp := { s.xp with placing := s.xp.placing ++ [pl] } }.placeAll pl
  | (none, s) => s.placeFail pl 7

/-- A translation that a placement waited for has ended (R346). -/
def State.placeXlat (s : State) (pl : Place) (va : Nat) (res : Option (Nat × Nat)) : State :=
  match res with
  | none => s.placeFail pl 7
  | some (bus, gpa) =>
    match pl.todo.find? (fun c => c.1 == va) with
    | none => s
    | some c =>
      let new := { pl with todo := pl.todo.erase c, ready := pl.ready ++ [(bus, gpa, c.2)] }
      let s := { s with xp := { s.xp with placing := s.xp.placing.map (fun (x : Place) =>
        if x.pkt = pl.pkt ∧ x.op = pl.op then new else x) } }
      s.placeAll new

end Sys2Proof.Machine
end

