-- ==== Sys2Proof/Machine/Target.lean ====
section
/-! DEFINITION. Target: what the target does with an accepted packet: window checks, puts, gets, atomics and their
responses (R347 to R350, R368 to R380). -/

namespace Sys2Proof.Machine

/-! ## Memory windows (R347 to R349) -/

/-- The window that a packet names. -/
def winOf (p : Packet) : Nat := p.key % 128

/-- The window is of kind 1, device memory. -/
def State.winDev (s : State) (p : Packet) : Bool := s.flag (Reg.winCfg p.tInst (winOf p)) Fld.winCfgKind

/-- Checks 1 to 6 of R349, and check 7 for a window of kind 1 (R348). -/
def State.winTakes (s : State) (p : Packet) : Bool :=
  let c := Reg.winCfg p.tInst (winOf p)
  let base := (s.word (Reg.winBase p.tInst (winOf p))).toNat
  let len := s.get (Reg.winLen p.tInst (winOf p)) Fld.winLenLen
  s.flag c Fld.winCfgEnable
    && p.key / 128 == s.get c Fld.winCfgTag
    && (!s.flag c Fld.winCfgSrcChk || p.src == s.get c Fld.winCfgSrcFid)
    && s.flag c (if p.op = opPut then Fld.winCfgWr else if p.op = opGetReq then Fld.winCfgRd else Fld.winCfgAtomic)
    && decide (base ≤ p.base ∧ p.base + p.xlen ≤ base + len)
    && decide (4096 * p.pidx + p.plen ≤ p.xlen)
    && (!s.winDev p || s.inGrant p.tInst p.base p.xlen)

/-- Reject a packet (R349): reason 7, one more of the window's rejects, and the transfer fails (R380). -/
def State.winReject (s : State) (p : Packet) : State :=
  ((s.winCount p).sendNcomp p 7).failRec p

/-- The device address of an offset in an instance's grant (R348). -/
def State.devAddr (s : State) (i off : Nat) : Nat := s.dmBase i + off

/-! ## Puts -/

/-- Place a put's packet by its own address (R368): host memory through Parsley, device memory at its slices. -/
def State.placePut (s : State) (p : Packet) : State :=
  let pl : Place := ⟨s.instHub p.tInst, p, p.tInst, 0, winOf p, [], []⟩
  let a := p.base + 4096 * p.pidx
  if s.winDev p then
    let s := s.devWrite (s.devAddr p.tInst a) p.payload
    { s with xp := { s.xp with placing := s.xp.placing ++ [pl] } }
  else s.startPlace pl [(a, p.plen)] p.payload

/-- The operation that a response names (R370): the GET, or the receive that pulls. -/
def State.rspOp (s : State) (p : Packet) : Option (Nat × OpSt) :=
  s.rma.ops.find? (fun e =>
    let x := e.2
    let (b, n) := if x.kind == .recv then (0, x.op1) else (x.remote, x.length)
    (x.kind == .get || x.kind == .recv) && x.started && !x.done && x.rspXid == p.xid && x.inst == p.tInst
      && x.dst == p.src && p.base == b && p.xlen == n)

/-- Place a response at the local buffer (R370). -/
def State.placeRsp (s : State) (p : Packet) : State :=
  match s.rspOp p with
  | none => s
  | some (o, x) =>
    s.startPlace ⟨s.instHub p.tInst, p, p.tInst, o, 0, [], []⟩ (sliceSegs x.segs (4096 * p.pidx) p.plen) p.payload

/-- Place a packet of a transfer. -/
def State.placeByOp (s : State) (p : Packet) : State := if p.op = opGetRsp then s.placeRsp p else s.placePut p

/-- A transfer counts complete at this device: COMP (R240), and what completes here: a GET (R370), a pulled receive
(R396), or the arrival triggers of a put (R459). -/
def State.xferDone (s : State) (p : Packet) (o : Nat) : State :=
  let s := s.sendComp p
  if p.op = opPut then s.fireArrival (winOf p) p
  else
    match Table.find s.rma.ops o with
    | none => s
    | some x =>
      let s := if x.kind == .get then
          ((s.setOp o { x with lenM1 := x.length - 1 }).stampJob o 7 false).bump (Reg.raeCnt0 (s.rae x.engine)) Fld.raeCnt0Gets 1 else s
      s.finishOp o 0

/-- The operation of a transfer that has its record here: 0 for a put. -/
def State.recOp (s : State) (r : XferRec) : Nat :=
  if r.isRsp then match s.rspOp r.first with | some (o, _) => o | none => 0 else 0

/-- `check` of R378: release a held final packet, or complete the transfer. -/
def State.checkRec (s : State) (k : XferKey) (rsp : Bool) : State :=
  match s.recOf k rsp with
  | none => s
  | some r =>
    if r.failed then s
    else
      match r.held with
      | some p => if r.placed + 1 = r.count then (s.setRec k { r with held := none }).placeByOp p else s
      | none =>
        if r.placed = r.count then
          let o := s.recOp r
          let s := s.freeRec k rsp
          if r.quiet then s else s.xferDone r.first o
        else s

/-- `arrive` of R378: a packet of a transfer that has a record, or of one packet. -/
def State.arriveXfer (s : State) (p : Packet) : State :=
  if multiPkt p then
    let k := pktKey p
    match s.recOf k (p.op == opGetRsp) with
    | none => s
    | some r =>
      if r.failed then s
      else if p.final then (s.setRec k { r with held := some p }).checkRec k r.isRsp
      else s.placeByOp p
  else s.placeByOp p

/-- A record that has failed discards further packets (R380). -/
def State.recFailed (s : State) (p : Packet) : Bool :=
  match s.recOf (pktKey p) (p.op == opGetRsp) with
  | some r => r.failed
  | none => false

/-- An arrival for an instance whose link is lost, or in D3hot, is held (R285, R287). -/
def State.mustHold (s : State) (i : Nat) : Bool := s.instState i == 5 || s.d3hot (s.instLink i)

/-- Hold an arrival; in the safe state nothing is held (R289). -/
def State.hold (s : State) (p : Packet) : State :=
  if s.safe then s.sendNcomp p 9
  else
    let (id, s) := s.newId
    { s with heldArr := s.heldArr ++ [⟨id, s.instLink p.tInst, ⟨s.instHub p.tInst, p, p.tInst, 0, 0, [], []⟩,
      s.instState p.tInst == 5⟩] }

/-- A put's packet that has been counted (R349, R378, R472). -/
def State.putBody (s : State) (p : Packet) : State :=
  if s.recFailed p then s
  else if s.mustHold p.tInst then s.hold p
  else if !s.winTakes p then s.winReject p
  else if s.winDev p && s.touchesLock (s.devAddr p.tInst (p.base + 4096 * p.pidx)) p.plen then
    (s.sendNcomp p 7).failRec p
  else s.arriveXfer p

/-- A put's packet that has been accepted. -/
def State.servePut (s : State) (p : Packet) : State := (if multiPkt p then s.countRec p false else s).putBody p

/-! ## Gets (R369 to R371) -/

/-- The operation that serves a GET_REQ. -/
def State.getOp (s : State) (p : Packet) (kind : OpKind) (segs : List (Nat × Nat)) (dev : Bool) : OpSt :=
  { OpSt.init with
    kind := kind, inst := p.tInst, engine := s.servingEngine p, tc := p.tc, dst := p.src, tInst := p.sInst,
    final := p.final, remote := p.base, length := p.xlen, segs := segs, xid := p.aux, rspXid := p.xid,
    started := true, dev := dev, polledAt := s.now, req := some p }

/-- Serve a rendezvous pull at the sender (R391, R399). -/
def State.servePull (s : State) (p : Packet) : State :=
  match s.rma.ops.find? (fun e => e.2.kind == .send && e.2.started && !e.2.done && e.2.inst == p.tInst
      && e.2.xid == p.xid && e.2.dst == p.src && decide (p.xlen ≤ e.2.length)) with
  | none => s.sendNcomp p 27
  | some (o, x) =>
    let (n, s) := s.addOp { s.getOp p .pull x.segs false with idx := o }
    s.pumpOp n 320

/-- Serve an accepted GET_REQ (R369, R391). -/
def State.serveGet (s : State) (p : Packet) : State :=
  if p.xid ≠ p.aux then s.servePull p
  else if s.mustHold p.tInst then s.hold p
  else if !s.winTakes p then s.winReject p
  else
    let dev := s.winDev p
    let a := if dev then s.devAddr p.tInst p.base else p.base
    let (n, s) := s.addOp (s.getOp p .serveGet [(a, p.xlen)] dev)
    s.pumpOp n 320

/-- A GET_RSP that has been counted (R370, R285). -/
def State.rspBody (s : State) (p : Packet) : State :=
  if s.recFailed p then s else if s.mustHold p.tInst then s.hold p else s.arriveXfer p

/-- An accepted GET_RSP (R370): placed, held, or stray. A GET_REQ carries `final` 0 (R363), so the source, which knows
its GET's `final`, takes the response of highest index as the flagged final write (log 29). -/
def State.serveRsp (s : State) (p : Packet) : State :=
  match s.rspOp p with
  | none => s.bump (Reg.raeCnt1 (s.rae (p.xid / 2 ^ 28))) Fld.raeCnt1Stray 1
  | some (_, x) =>
    if x.fail.isSome then s
    else
      let p := { p with final := p.final || (x.final && decide (p.pidx + 1 = pktsOf x.length)) }
      (if multiPkt p then s.countRec p false else s).rspBody p

/-! ## Atomics (R372 to R375) -/

/-- The operand size of an ATOMIC (R363). -/
def atomSize (p : Packet) : Nat := if bit p.aux 4 then 16 else 8

/-- Answer an ATOMIC and keep the result until the answer is acknowledged (R374, R375). -/
def State.atomRsp (s : State) (p : Packet) (status : Nat) (old : List Byte) : State :=
  let w := atomSize p
  let r := { s.reply p opAtomicRsp with
    locked := true, base := p.base, xlen := w, plen := w, aux := status, payload := padTo w old }
  let s := { s with rma := { s.rma with results := s.rma.results ++ [(⟨s.servingEngine p, p.xid, p.src⟩ : AtomRes)] } }
  s.queueOut ⟨r, 0, s.replyHub p, 0⟩

/-- Count an ATOMIC executed at its engine (R386). -/
def State.atomCount (s : State) (p : Packet) : State :=
  s.bump (Reg.raeCnt1 (s.rae (s.servingEngine p))) Fld.raeCnt1Atomics 1

/-- Host memory takes the operation (R372), and hardware atomics are usable (R374). -/
def State.hostAtomOk (s : State) (p : Packet) : Bool :=
  let op := p.aux % 16
  (if bit p.aux 4 then op == 2 else decide (op ≤ 2)) && s.atomicsOk (s.instFunc p.tInst)

/-- Issue a host-memory atomic at its bus address (R272), logged as a write (R324); one that has become unusable while its address
was translated is not executed (R374). -/
def State.hostAtom (s : State) (p : Packet) (bus gpa : Nat) : State :=
  let f := s.instFunc p.tInst
  if !s.hostAtomOk p then s.atomRsp p 1 []
  else s.hostWriteThen p.tInst bus gpa [] false (.ask ⟨f.link, 0, f, p.tInst, bus, atomSize p, .hostAtomic p⟩)

/-- The result store of the packet's engine is full: the packet waits in the inbound queue (R375). -/
def State.atomFull (s : State) (p : Packet) : Bool :=
  decide (1024 ≤ (s.rma.results.filter (fun a => a.engine == s.servingEngine p)).length)

/-- Execute an accepted ATOMIC (R374). -/
def State.serveAtomic (s : State) (p : Packet) : State :=
  if s.mustHold p.tInst then s.hold p
  else if !s.winTakes p then s.winReject p
  else
    let (op, w, a, b) := atomicArgs p
    if s.winDev p then
      let d := s.devAddr p.tInst p.base
      if s.touchesLock d w then s.sendNcomp p 7
      else
        match s.devAtomic d op w a b with
        | (some m, s) => (s.atomCount p).atomRsp p 0 (leBytes m w)
        | (none, s) => s.sendNcomp p 17
    else if !s.hostAtomOk p then s.atomRsp p 1 []
    else
      let pl : Place := ⟨s.instHub p.tInst, p, p.tInst, 0, winOf p, [(p.base, [])], []⟩
      match s.translate p.tInst ⟨BitVec.ofNat 64 p.base, .atm, true, pl.who⟩ with
      | (.hit bus gpa, s) => s.hostAtom p bus gpa
      | (.wait, s) => { s with xp := { s.xp with placing := s.xp.placing ++ [pl] } }
      | (.fault, s) => s.winReject p

/-- An ATOMIC_RSP (R374): the operation completes with the returned value, or with status 39; otherwise it is stray. -/
def State.serveAtomRsp (s : State) (p : Packet) : State :=
  match s.rma.ops.find? (fun e => e.2.kind == .atomic && e.2.started && !e.2.done && e.2.xid == p.xid
      && e.2.inst == p.tInst && e.2.dst == p.src) with
  | none => s.bump (Reg.raeCnt1 (s.rae (p.xid / 2 ^ 28))) Fld.raeCnt1Stray 1
  | some (o, x) =>
    if p.aux % 256 = 0 then
      ((s.setOp o { x with result := padTo 16 p.payload, lenM1 := atomLen x - 1 }).stampJob o 7 false).finishOp o 0
    else (s.stampJob o 7 false).finishOp o 39
where
  /-- The operand size of an atomic job. -/
  atomLen (x : OpSt) : Nat := if x.wide then 16 else 8

/-! ## Completions at the source (R241, R370) -/

/-- A COMP (R241): it completes the transfer that its `xid` names, unless that has failed; the COMP of a response
transfer ends the get that was served, and with a pull its send (R398). -/
def State.serveComp (s : State) (p : Packet) : State :=
  match s.rma.ops.find? (fun e => !e.2.done && e.2.xid == p.xid && e.2.inst == p.tInst && e.2.dst == p.src
      && e.2.kind != .get && e.2.kind != .atomic && e.2.kind != .recv && e.2.kind != .coll) with
  | none => s
  | some (o, x) =>
    if x.fail.isSome then s
    else
      let s := s.raise (Reg.classHwm x.tc) Fld.classHwmCmplHwm (s.now - x.firstAt.getD s.now)
      match x.kind with
      | .serveGet => s.finishOp o 0
      | .pull => (s.finishOp x.idx 0).finishOp o 0
      | _ =>
        let s := (s.setOp o { x with lenM1 := x.length - 1 }).stampJob o 7 false
        let s := if x.kind == .put || x.kind == .putInl then s.bump (Reg.raeCnt0 (s.rae x.engine)) Fld.raeCnt0Puts 1 else s
        s.finishOp o 0

/-- The packet that a negative completion answers (R238, R580): by device, number and transfer ID. -/
def State.nackedPkt (s : State) (p : Packet) : Option SentPkt :=
  s.xp.sent.find? (fun q => q.idx / 4 == p.src && q.seq == p.aux / 256 % 2 ^ 24 && q.pkt.xid == p.xid)

/-- The operation that a negative completion's `xid` names. -/
def State.nackedOp (s : State) (p : Packet) : Nat :=
  match s.nackedPkt p with
  | some q => q.op
  | none =>
    match s.rma.ops.find? (fun e => !e.2.done && e.2.xid == p.xid && e.2.inst == p.tInst && e.2.dst == p.src) with
    | some (o, _) => o
    | none => 0

/-- A negative completion (R237, R238). The peer record of one that a transit device sent is that of the packet it answers
(R580): the arrival is noted there (R228). -/
def State.serveNcomp (s : State) (p : Packet) : State :=
  let s := match s.nackedPkt p with
    | some q => if p.seqd then s else s.touchPeer q.idx
    | none => s
  let s := (s.bump Reg.xportStat Fld.xportStatNackRx 1).count ⟨0x403, none, some p.tInst, none, some p.tc, some (p.tc == 7), 1⟩
  let reason := p.aux % 256
  match reason with
  | 1 | 3 | 4 =>
    match s.nackedPkt p with
    | some q =>
      if p.attempt < q.attempt then s
      else { s with xp := { s.xp with sent := s.xp.sent.map (fun (x : SentPkt) =>
        if x.idx = q.idx ∧ x.seq = q.seq then { x with nacked := true } else x) } }
    | none => s
  | 2 =>
    match s.nackedPkt p with
    | some q => if p.attempt < q.attempt then s else (s.failOp q.op 2).dropSent q
    | none => s
  | 5 =>
    let i := peerIdx p.src p.tc
    let s := s.peerRestart i
    if (s.peer i).syncPending then s else s.startSync i p.tc (s.peer i).hub
  | r =>
    let s := s.failOp (s.nackedOp p) r
    match s.nackedPkt p with
    | some q => s.dropSent q
    | none => s

/-- A response timer expires (R376). -/
def State.respTimeout (s : State) (xid : Nat) : State :=
  match s.rma.ops.find? (fun e => (e.2.kind == .get || e.2.kind == .atomic) && e.2.started && !e.2.done
      && e.2.xid == xid) with
  | some (o, _) => s.finishOp o 32
  | none => s

end Sys2Proof.Machine
end

