-- ==== Sys2Proof/Machine/Match.lean ====
section
/-! DEFINITION. Match: matching contexts, their lists and walks, the two protocols, and exhaustion (R387 to R420). -/

namespace Sys2Proof.Machine

/-! ## Contexts -/

/-- A context's lists. -/
def State.ctx (s : State) (d : Nat) : CtxSt := Table.getD s.mt.ctx CtxSt.init d

/-- Replace a context's lists, and show what its registers read of them (R420). -/
def State.setCtx (s : State) (d : Nat) (c : CtxSt) : State :=
  let s := { s with mt := { s.mt with ctx := Table.put s.mt.ctx d c } }
  ((s.put (Reg.ctxStat d) Fld.ctxStatPreCount c.posted.length).put (Reg.ctxStat d) Fld.ctxStatUxeCount
    c.unexp.length).put (Reg.ctxCfg d) Fld.ctxCfgWalking (b2n c.walk.isSome)

/-- A Dill engine, by logical number, is in service. -/
def State.dillUp (s : State) (e : Nat) : Bool := decide (e < 32) && !s.isFenced (.dill (s.physUnit 2 e))

/-- Contexts pinned to a Dill engine. -/
def State.pinsOf (s : State) (e : Nat) : Nat :=
  (s.mt.ctx.filter (fun c => s.flag (Reg.ctxCfg c.1) Fld.ctxCfgPinned && s.get (Reg.ctxCfg c.1) Fld.ctxCfgEngine == e)).length

/-- A decision of a context's engine, as Tarragon counts it, with the entries visited (R525). -/
def State.dillCount (s : State) (d i tc visits : Nat) : State :=
  let u := some (s.physUnit 2 (s.get (Reg.ctxCfg d) Fld.ctxCfgEngine))
  (s.count ⟨0x800, u, some i, none, some tc, some false, 1⟩).count ⟨0x801, u, some i, none, some tc, some false, visits⟩

/-- Pin a context that has work (R400): to the in-service engine of the instance's hub with the fewest contexts pinned,
the lowest number on a tie. -/
def State.pin (s : State) (d i : Nat) : State :=
  if s.flag (Reg.ctxCfg d) Fld.ctxCfgPinned then s
  else
    let es := ((List.range 8).map (fun k => 8 * s.instHub i + k)).filter (fun e => s.dillUp e)
    match es with
    | [] => s
    | e :: t =>
      let best := t.foldl (fun b e => if s.pinsOf e < s.pinsOf b then e else b) e
      (s.put (Reg.ctxCfg d) Fld.ctxCfgPinned 1).put (Reg.ctxCfg d) Fld.ctxCfgEngine best

/-- The instance that owns a context. -/
def State.ctxInst (s : State) (d : Nat) : Nat := s.get (Reg.ctxCfg d) Fld.ctxCfgInst

/-- The source ID of a message (R388). -/
def srcId (p : Packet) : BitVec 32 := BitVec.ofNat 32 (p.src + p.sInst <<< 18)

/-- A posted receive matches a message (R389). -/
def Posted.matches (r : Posted) (b : Word) (sid : BitVec 32) : Bool :=
  (r.bits ^^^ b) &&& ~~~ r.ign == 0 && (r.sid ^^^ sid) &&& ~~~ r.sign == 0

/-- A receive with both masks zero. -/
def Posted.exact (r : Posted) : Bool := r.ign == 0 && r.sign == 0

/-! ## Delivery (R396) -/

/-- The buffer length of a receive. -/
def recvLen (x : OpSt) : Nat := x.length

/-- Place the payload of one packet of a message in a receive's buffer; bytes beyond it are discarded. `copy` tells a
payload that comes from the bounce pool. -/
def State.placeMsg (s : State) (o : Nat) (p : Packet) (copy : Bool) : State :=
  match Table.find s.rma.ops o with
  | none => s
  | some x =>
    let n := min p.plen (recvLen x - 4096 * p.pidx)
    s.startPlace ⟨s.instHub x.inst, p, x.inst, o, b2n copy, [], []⟩ (sliceSegs x.segs (4096 * p.pidx) n) (p.payload.take n)

/-- Send the pull of a rendezvous or spilled message (R390, R391). -/
def State.sendPull (s : State) (o : Nat) (m : Packet) (n : Nat) : State :=
  match Table.find s.rma.ops o with
  | none => s
  | some x =>
    let (rx, s) := s.newXid x.engine m.xid
    let s := s.setOp o { x with
      xid := m.xid, rspXid := rx, dst := m.src, tInst := m.sInst, tc := m.tc, op1 := min n (recvLen x) }
    let p : Packet := { Packet.zero with
      op := opGetReq, tc := m.tc, src := s.fid, sInst := x.inst, tInst := m.sInst, xid := m.xid, aux := rx,
      xlen := min n (recvLen x), route := { RouteWord.zero with dst := m.src } }
    s.queueOp o p

/-- Record where an eager message's packets go. -/
def State.setMsg (s : State) (k : XferKey) (t : MsgTo) : State :=
  { s with mt := { s.mt with msgs := s.mt.msgs.filter (fun e => e.1 != k) ++ [(k, t)] } }

/-- A stored or discarded packet of an eager message counts in its record (R398). -/
def State.countPlaced (s : State) (p : Packet) : State :=
  let k := pktKey p
  if multiPkt p then
    match s.recOf k false with
    | some r => (s.setRec k { r with placed := r.placed + 1 }).checkRec k false
    | none => s
  else s.sendComp p

/-- Send one packet of an eager message where its message goes (R392, R396, R397). -/
def State.routeMsg (s : State) (p : Packet) (t : MsgTo) : State :=
  match t with
  | .recv o => s.placeMsg o p false
  | .drop => s
  | .file d ix =>
    let c := s.ctx d
    let s := s.setCtx d { c with unexp := c.unexp.map (fun u =>
      if u.index = ix then { u with payload := Table.put u.payload p.pidx p.payload } else u) }
    s.countPlaced p

/-- Give the packets of a message that wait for its decision their way. -/
def State.flushMsg (s : State) (k : XferKey) (t : MsgTo) : State :=
  let l := s.mt.waiting.filter (fun p => pktKey p == k)
  let s := { s with mt := { s.mt with waiting := s.mt.waiting.filter (fun p => pktKey p != k) } }
  let s := s.setMsg k t
  l.foldl (fun s p => s.routeMsg p t) s

/-- What a receive's entry carries of its message (R309, R396). -/
def State.recvTakes (s : State) (o : Nat) (b : Word) (sid : BitVec 32) (n : Nat) : State :=
  s.modOp o (fun x => { x with
    lenM1 := n - 1, trunc := decide (recvLen x < n), result := leBytes b.toNat 8 ++ leBytes sid.toNat 4 ++ [0, 0, 0, 0],
    granted := true, nextPkt := 0, op2 := pktsOf n })

/-- Deliver an arriving message to a receive. -/
def State.deliverMsg (s : State) (m : Packet) (o : Nat) : State :=
  let s := s.recvTakes o (BitVec.ofNat 64 m.base) (srcId m) m.xlen
  if m.op = opSendRdv then s.sendPull o m m.xlen
  else (s.placeMsg o m false).flushMsg (pktKey m) (.recv o)

/-- Deliver an unexpected message to a receive: from the bounce pool, or by a pull. -/
def State.deliverUnexp (s : State) (u : Unexp) (o : Nat) : State :=
  let s := s.recvTakes o u.bits u.sid u.n
  if u.rdv || u.spilled then s.sendPull o u.pkt u.n
  else
    let s := u.payload.foldl (fun s e =>
      s.placeMsg o { u.pkt with pidx := e.1, plen := e.2.length, payload := e.2 } true) s
    s.setMsg (pktKey u.pkt) (.recv o)

/-! ## The lists (R395, R397, R408) -/

/-- A limit of a context: 0 leaves the pool alone to bound it. -/
def overLimit (lim n : Nat) : Bool := lim != 0 && decide (1024 * lim ≤ n)

/-- Answer a message with a reason, and discard it. -/
def State.refuseMsg (s : State) (m : Packet) (reason : Nat) : State :=
  let s := (s.sendNcomp m reason).failRec m
  if m.op = opSend then s.flushMsg (pktKey m) .drop else s

/-- File an unexpected message (R397). -/
def State.fileUnexp (s : State) (d : Nat) (m : Packet) : State :=
  let c := s.ctx d
  if s.mt.freeUnexp = 0 ∨ overLimit (s.get (Reg.ctxCfg d) Fld.ctxCfgUxeLim) c.unexp.length then
    (s.bump Reg.matchStat1 Fld.matchStat1Full 1).refuseMsg m 25
  else
    let rdv := m.op == opSendRdv
    let chunks := if rdv then 0 else (m.xlen + 255) / 256
    let spill := decide (s.mt.freeBounce < chunks)
    let ix := s.mt.nextIndex
    let u : Unexp := ⟨ix, BitVec.ofNat 64 m.base, srcId m, rdv, spill, m.tc, c.nextAseq, m.xlen, m.xid,
      if spill then 0 else chunks, if rdv || spill then [] else [(m.pidx, m.payload)], { m with payload := [] }⟩
    let s := s.setCtx d { c with unexp := c.unexp ++ [u], nextAseq := c.nextAseq + 1 }
    let s := { s with mt := { s.mt with
      freeUnexp := s.mt.freeUnexp - 1, freeBounce := s.mt.freeBounce - (if spill then 0 else chunks),
      nextIndex := (ix + 1) % 2 ^ 24 } }
    let s := (s.bump Reg.matchStat1 Fld.matchStat1Filed 1).count
      ⟨0x802, some (s.physUnit 2 (s.get (Reg.ctxCfg d) Fld.ctxCfgEngine)), some m.tInst, none, some m.tc, some false, 1⟩
    if spill then ((s.bump Reg.matchStat1 Fld.matchStat1Spilled 1).freeRec (pktKey m) false).flushMsg (pktKey m) .drop
    else if rdv then s
    else (s.countPlaced m).flushMsg (pktKey m) (.file d ix)

/-- The entries of the wildcard list before the first that stops the loop of `arrive` (R395). -/
def wildVisits (h : Option Posted) (b : Word) (sid : BitVec 32) : List Posted → Nat
  | [] => 0
  | r :: t =>
    if (match h with | some x => decide (x.pseq < r.pseq) | none => false) then 0
    else if r.matches b sid then 1
    else 1 + wildVisits h b sid t

/-- The choice of `arrive` (R395): the receive taken, the earliest posted that matches, and the wildcard entries visited. -/
def CtxSt.arrivePick (c : CtxSt) (m : Packet) : Option Posted × Nat :=
  let b : Word := BitVec.ofNat 64 m.base
  let h := c.posted.find? (fun r => r.exact && r.bits == b && r.sid == srcId m)
  let wild := c.posted.filter (fun r => !r.exact)
  let w := (wild.find? (fun r => r.matches b (srcId m))).filter (fun r =>
    match h with | some x => decide (r.pseq < x.pseq) | none => true)
  (w.or h, wildVisits h b (srcId m) wild)

/-- A receive as the lists hold it. -/
def postedOf (x : OpSt) (o pseq ix : Nat) : Posted :=
  ⟨ix, x.desc.w2, x.desc.w5, BitVec.ofNat 32 x.desc.w6.toNat, BitVec.ofNat 32 (x.desc.w6.toNat / 2 ^ 32), pseq, o,
    if x.chained then (x.segs.length + 3) / 4 else 0⟩

/-- The choice of `post` (R395): the earliest unexpected message that matches, and the arrival list entries visited. -/
def CtxSt.postPick (c : CtxSt) (r : Posted) : Option Unexp × Nat :=
  let u := c.unexp.find? (fun u => r.matches u.bits u.sid)
  (u, if r.exact then 0 else match u with
    | some y => (c.unexp.takeWhile (fun z => z.aseq != y.aseq)).length + 1
    | none => c.unexp.length)

/-- What the walk of an item takes, and the entries it visits. -/
def State.pickOf (s : State) (d : Nat) (it : CtxItem) : Option MatchPick × Nat :=
  let c := s.ctx d
  match it with
  | .msg m => ((c.arrivePick m).1.map .posted, (c.arrivePick m).2)
  | .recv o =>
    let r := postedOf (s.op o) o c.nextPseq s.mt.nextIndex
    ((c.postPick r).1.map .unexp, (c.postPick r).2)

/-- Unlink the entry taken (R404): it leaves its list and its pool. -/
def State.commitPick (s : State) (d : Nat) (p : MatchPick) : State :=
  let c := s.ctx d
  match p with
  | .posted r =>
    let s := s.setCtx d { c with posted := c.posted.filter (fun x => x.pseq != r.pseq) }
    { s with mt := { s.mt with freePosted := s.mt.freePosted + 1, freeSeg := s.mt.freeSeg + r.segLines } }.bump
      Reg.matchStat0 Fld.matchStat0MPosted 1
  | .unexp u =>
    let s := s.setCtx d { c with unexp := c.unexp.filter (fun z => z.aseq != u.aseq) }
    { s with mt := { s.mt with freeUnexp := s.mt.freeUnexp + 1, freeBounce := s.mt.freeBounce + u.chunks } }.bump
      Reg.matchStat0 Fld.matchStat0MUnexp 1

/-- Deliver the entry taken to the other side of the match (R396). -/
def State.deliverPick (s : State) (it : CtxItem) (p : MatchPick) : State :=
  match it, p with
  | .msg m, .posted r => s.deliverMsg m r.op
  | .recv o, .unexp u => s.deliverUnexp u o
  | _, _ => s

/-- File a receive that no unexpected message matches, or end it where no entry is left for it (R408). -/
def State.filePosted (s : State) (d o : Nat) : State :=
  let c := s.ctx d
  let r := postedOf (s.op o) o c.nextPseq s.mt.nextIndex
  if s.mt.freePosted = 0 ∨ s.mt.freeSeg < r.segLines
      ∨ overLimit (s.get (Reg.ctxCfg d) Fld.ctxCfgPreLim) c.posted.length then
    (s.bump Reg.matchStat1 Fld.matchStat1Full 1).finishOp o 28
  else
    let s := s.setCtx d { c with posted := c.posted ++ [r], nextPseq := c.nextPseq + 1 }
    { s with mt := { s.mt with
      freePosted := s.mt.freePosted - 1, freeSeg := s.mt.freeSeg - r.segLines,
      nextIndex := (s.mt.nextIndex + 1) % 2 ^ 24 } }

/-- File an item that nothing matches. -/
def State.fileItem (s : State) (d : Nat) (it : CtxItem) : State :=
  match it with
  | .msg m => s.fileUnexp d m
  | .recv o => s.filePosted d o

/-- Count entries visited for an item (R416), and the decision where it is made (R525). -/
def State.countWalk (s : State) (d : Nat) (it : CtxItem) (v : Nat) : State :=
  let s := s.bump Reg.matchStat2 Fld.matchStat2Visits v
  match it with
  | .msg m => s.dillCount d m.tInst m.tc v
  | .recv o => s.dillCount d (s.op o).inst (s.op o).tc v

/-- Run the walk of an item from the entry numbered `n` on (R395): decide, unlink and deliver, or file. -/
def State.runItem (s : State) (d : Nat) (it : CtxItem) (n : Nat) : State :=
  let (p, v) := s.pickOf d it
  let s := s.countWalk d it (v - n)
  match p with
  | some p => (s.commitPick d p).deliverPick it p
  | none => s.fileItem d it

/-! ## The context queue (R392, R394, R387) -/

/-- Put an item into a context's queue and pin the context (R394, R400). -/
def State.enterCtx (s : State) (d i : Nat) (it : CtxItem) : State :=
  let c := s.ctx d
  (s.setCtx d { c with queue := c.queue ++ [it] }).pin d i

/-- The packet's turn has come (R392, R393): every lower number of its peer index has been received, and no message of its instance
with a lower number waits still. -/
def State.turnOf (s : State) (i idx seq : Nat) : Bool :=
  laterMod 24 (s.peer idx).rxNext seq
    && !s.xp.held.any (fun h => h.1 == idx && h.2.2.tInst == i && laterMod 24 seq h.2.1)

/-- A message whose turn has come is handed to its context (R387, R392, R393, R410). -/
def doMatchHandover (i idx seq : Nat) (s : State) : State :=
  match s.xp.held.find? (fun h => h.1 == idx && h.2.1 == seq && h.2.2.tInst == i) with
  | none => s
  | some h =>
    if !s.turnOf i idx seq then s
    else
      let p := h.2.2
      let s := { s with xp := { s.xp with held := s.xp.held.erase h } }
      let k := p.aux % 65536
      let x := s.inst i
      if x.ctx ≤ k then s.refuseMsg p 24
      else if (s.ctx (x.ctxBase + k)).resetting then s.refuseMsg p 26
      else s.enterCtx (x.ctxBase + k) i (.msg p)

/-- MATCH_HANDOVER. -/
def execMatchHandover (inst : Fin 4096) (idx : Fin 1048576) (seq : BitVec 24) (s : State) : Answer :=
  act s (doMatchHandover inst idx seq.toNat)

/-- A SEND or SEND_RDV that has been counted (R392): the first packet waits for its order, any other for its message. -/
def State.sendBody (s : State) (p : Packet) : State :=
  if s.recFailed p then s
  else if s.mustHold p.tInst then s.hold p
  else if p.op = opSendRdv ∨ p.pidx = 0 then
    { s with xp := { s.xp with held := s.xp.held ++ [(peerIdx p.src p.tc, p.seq, p)] } }
  else
    match s.mt.msgs.find? (fun e => e.1 == pktKey p) with
    | some e => s.routeMsg p e.2
    | none => { s with mt := { s.mt with waiting := s.mt.waiting ++ [p] } }

/-- An accepted SEND or SEND_RDV. -/
def State.serveSend (s : State) (p : Packet) : State := (if multiPkt p then s.countRec p false else s).sendBody p

/-! ## Which context an engine serves (R400) -/

/-- A context may run an operation: it is not being reset or moved, and no walk is open (R394, R402). -/
def CtxSt.idle (c : CtxSt) : Bool := c.walk.isNone && !c.resetting && c.migrateTo.isNone

/-- A context has something that its engine can do now: an interrupted walk, or the next item of its queue. -/
def CtxSt.ready (c : CtxSt) : Bool := (c.walk.isSome || !c.queue.isEmpty) && !c.resetting && c.migrateTo.isNone

/-- The engine that a context is pinned to, where that engine is in service. -/
def State.engineOf (s : State) (d : Nat) : Option Nat :=
  let e := s.get (Reg.ctxCfg d) Fld.ctxCfgEngine
  if s.flag (Reg.ctxCfg d) Fld.ctxCfgPinned && s.dillUp e then some e else none

/-- The priority of a context. -/
def State.prioOf (s : State) (d : Nat) : Nat := s.get (Reg.ctxCfg d) Fld.ctxCfgPrio

/-- The contexts of an engine that have work. -/
def State.readyAt (s : State) (e : Nat) : List Nat :=
  (s.mt.ctx.filter (fun c => c.2.ready && s.engineOf c.1 == some e)).map (fun c => c.1)

/-- The first of some contexts after the one last served, round robin. -/
def nextRound (last : Option Nat) (l : List Nat) : Option Nat :=
  match last with
  | some d => (l.find? (fun x => decide (d < x))).or l.head?
  | none => l.head?

/-- The context that an engine serves next: one that has waited through `age` decisions of higher-priority contexts, else the highest
priority with work, round robin within it. -/
def State.serveNext (s : State) (e : Nat) : Option Nat :=
  let l := s.readyAt e
  let old := l.filter (fun d => decide (s.get Reg.matchCtrl Fld.matchCtrlAge ≤ (s.ctx d).waited))
  let l := if old.isEmpty then l else old
  let p := l.foldl (fun p d => min p (s.prioOf d)) 3
  nextRound (Table.find s.mt.served (4 * e + p)) (l.filter (fun d => s.prioOf d == p))

/-- The engine of a context serves it now. -/
def State.engineServes (s : State) (d : Nat) : Bool :=
  match s.engineOf d with
  | some e => s.serveNext e == some d
  | none => false

/-- An engine serves a context: its wait ends, and that of the engine's contexts of lower priority grows. -/
def State.serveCtx (s : State) (d : Nat) : State :=
  let p := s.prioOf d
  match s.engineOf d with
  | none => s
  | some e =>
    let low := (s.readyAt e).filter (fun x => decide (p < s.prioOf x))
    let s := low.foldl (fun s x => s.setCtx x { s.ctx x with waited := (s.ctx x).waited + 1 }) s
    let s := { s with mt := { s.mt with served := Table.put s.mt.served (4 * e + p) d } }
    s.setCtx d { s.ctx d with waited := 0 }

/-- The engine of a context takes the next item of its queue (R394); a context that found no engine in service when work came is
pinned first. -/
def State.takeItem (s : State) (d : Nat) (go : State → State) : State :=
  let s := s.pin d (s.ctxInst d)
  let c := s.ctx d
  if c.idle && s.engineServes d then go ((s.serveCtx d).setCtx d { c with queue := c.queue.tail, waited := 0 }) else s

/-- The next item of a context is an arriving message: decide it. -/
def doArrive (d : Nat) (s : State) : State :=
  match (s.ctx d).queue with
  | .msg m :: _ => s.takeItem d (fun s => s.runItem d (.msg m) 0)
  | _ => s

/-- ARRIVE. -/
def execArrive (d : Fin 65536) (s : State) : Answer := act s (doArrive d)

/-- The next item of a context is a receive: decide it. -/
def doPost (d : Nat) (s : State) : State :=
  match (s.ctx d).queue with
  | .recv o :: _ => s.takeItem d (fun s => s.runItem d (.recv o) 0)
  | _ => s

/-- POST. -/
def execPost (d : Fin 65536) (s : State) : Answer := act s (doPost d)

/-! ## Interrupted walks (R402 to R404) -/

/-- Why a walk of a context may be interrupted (R402): its instance quiesces, it is reset or moved, or a context of
higher priority has work on the same engine. -/
def State.walkCause (s : State) (d : Nat) : Bool :=
  let c := s.ctx d
  c.resetting || c.migrateTo.isSome || s.instState (s.ctxInst d) == 2
    || s.mt.ctx.any (fun e => e.1 != d && !e.2.queue.isEmpty && s.flag (Reg.ctxCfg e.1) Fld.ctxCfgPinned
        && s.get (Reg.ctxCfg e.1) Fld.ctxCfgEngine == s.get (Reg.ctxCfg d) Fld.ctxCfgEngine
        && decide (s.prioOf e.1 < s.prioOf d))

/-- The walk of an item as it stops at a restart point (R403), with what it has done so far: nothing but visits before an entry, the
unlink at a commit, all of it once handed over or filed. A point that the walk does not have stops nothing. -/
def State.stopAt (s : State) (d : Nat) (it : CtxItem) (stop : WalkStop) : Option (State × MatchWalk) :=
  let (p, v) := s.pickOf d it
  match stop, p with
  | .entry n, _ => if n = 0 ∨ n < v then some (s.bump Reg.matchStat2 Fld.matchStat2Visits n, ⟨it, n, 0, none⟩) else none
  | .commit, some p => some ((s.countWalk d it v).commitPick d p, ⟨it, v, 1, some p⟩)
  | .commit, none => none
  | .handed, _ => some (s.runItem d it 0, ⟨it, v, 2, none⟩)

/-- A walk of the context's next item is interrupted at a restart point (R402, R403). -/
def doWalkInterrupt (d : Nat) (stop : WalkStop) (s : State) : State :=
  let c := s.ctx d
  match c.queue with
  | it :: t =>
    if c.walk.isNone && s.walkCause d then
      match (s.setCtx d { c with queue := t }).stopAt d it stop with
      | some (s, w) => (s.setCtx d { s.ctx d with walk := some w }).bump Reg.matchStat2 Fld.matchStat2Interrupts 1
      | none => s
    else s
  | [] => s

/-- WALK_INTERRUPT. -/
def execWalkInterrupt (point : WalkPoint) (s : State) : Answer := act s (doWalkInterrupt point.ctx point.stop)

/-- Finish the delivery of a walk that has unlinked its entry (R404, R406). Where its receive has ended meanwhile, the sender of the
message hears of it with a reason (R287, R412). -/
def State.finishWalk (s : State) (w : MatchWalk) (reason : Nat) : State :=
  let alive (o : Nat) : Bool := (Table.find s.rma.ops o).isSome && !(s.op o).done
  match w.item, w.pick with
  | .msg m, some (.posted r) => if alive r.op then s.deliverMsg m r.op else s.refuseMsg m reason
  | .recv o, some (.unexp u) =>
    if alive o then s.deliverUnexp u o else if u.rdv || u.spilled then s.sendNcomp u.pkt reason else s
  | _, _ => s

/-- Go on with a walk from its recorded state (R404): with the entry after the last one visited, with the delivery of the entry
recorded, or with the next operation. -/
def State.resumeMatch (s : State) (d : Nat) (w : MatchWalk) : State :=
  if w.progress = 0 then s.runItem d w.item w.visited else s.finishWalk w 6

/-- An interrupted walk resumes on the engine that serves its context (R404). -/
def doWalkResume (d : Nat) (s : State) : State :=
  let c := s.ctx d
  match c.walk with
  | some w =>
    if c.ready && s.engineServes d then ((s.serveCtx d).setCtx d { c with walk := none, waited := 0 }).resumeMatch d w else s
  | none => s

/-- WALK_RESUME. -/
def execWalkResume (d : Fin 65536) (s : State) : Answer := act s (doWalkResume d)

/-- An idle context is unpinned (R400). -/
def doUnpin (d : Nat) (s : State) : State :=
  let c := s.ctx d
  if c.queue.isEmpty && c.walk.isNone then s.put (Reg.ctxCfg d) Fld.ctxCfgPinned 0 else s

/-- UNPIN. -/
def execUnpin (d : Fin 65536) (s : State) : Answer := act s (doUnpin d)

/-- A move of a context to another engine (R405); during a reset it waits (R412). -/
def doMigrate (d to_ : Nat) (s : State) : State :=
  s.ifStructured (Reg.ctxCfg d) (fun s =>
    let s := s.put (Reg.ctxCfg d) Fld.ctxCfgMigTo to_
    if !s.dillUp to_ then s.post (400 + to_) 59 0 (Reg.ctxCfg d)
    else
      (s.setCtx d { s.ctx d with migrateTo := some to_ }).put (Reg.ctxCfg d) Fld.ctxCfgBusy 1)

/-- MIGRATE. -/
def execMigrate (d : Fin 65536) (migTo : Fin 32) (s : State) : Answer := act s (doMigrate d migTo)

/-- The move ends: the context is pinned to its new engine, and an interrupted walk may resume there (R405). -/
def doMigrateEnd (d : Nat) (s : State) : State :=
  let c := s.ctx d
  match c.migrateTo with
  | some e =>
    if c.resetting then s
    else
      ((((s.setCtx d { c with migrateTo := none }).put (Reg.ctxCfg d) Fld.ctxCfgPinned 1).put
        (Reg.ctxCfg d) Fld.ctxCfgEngine e).put (Reg.ctxCfg d) Fld.ctxCfgBusy 0)
  | none => s

/-- MIGRATE_END. -/
def execMigrateEnd (d : Fin 65536) (s : State) : Answer := act s (doMigrateEnd d)

/-! ## Reset of a context (R406, R410) -/

/-- Abandon an item at progress 0. A receive ends with `rcv`, or with no entry when that is none. -/
def State.abandonItem (s : State) (reason : Nat) (rcv : Option Nat) (it : CtxItem) : State :=
  match it with
  | .msg m => s.refuseMsg m reason
  | .recv o =>
    match rcv with
    | some st => s.finishOp o st
    | none => s.modOp o (fun x => { x with done := true, silent := true })

/-- Abandon the queue of a context, and its walk where that has unlinked nothing yet; one that has finishes its delivery (R406). -/
def State.abandonWork (s : State) (d reason : Nat) (rcv : Option Nat) : State :=
  let c := s.ctx d
  let s := s.setCtx d { c with walk := none, queue := [] }
  let s := match c.walk with
    | some w => if w.progress = 0 then s.abandonItem reason rcv w.item else s.finishWalk w reason
    | none => s
  c.queue.foldl (fun s it => s.abandonItem reason rcv it) s

/-- End the walk of a context that has unlinked its entry. -/
def State.endTaken (s : State) (d reason : Nat) : State :=
  let c := s.ctx d
  match c.walk with
  | some w => if w.progress = 1 then (s.setCtx d { c with walk := none }).finishWalk w reason else s
  | none => s

/-- Empty a context's lists (R410): receives end, unexpected rendezvous and spilled messages are answered with reason
26, payloads are freed. -/
def State.emptyCtx (s : State) (d : Nat) (rcv : Option Nat) : State :=
  let s := s.abandonWork d 26 rcv
  let c := s.ctx d
  let s := s.setCtx d { c with posted := [], unexp := [] }
  let s := { s with mt := { s.mt with
    freePosted := s.mt.freePosted + c.posted.length
    freeSeg := s.mt.freeSeg + c.posted.foldl (fun n r => n + r.segLines) 0
    freeUnexp := s.mt.freeUnexp + c.unexp.length
    freeBounce := s.mt.freeBounce + c.unexp.foldl (fun n u => n + u.chunks) 0 } }
  let s := c.posted.foldl (fun s r => s.abandonItem 26 rcv (.recv r.op)) s
  c.unexp.foldl (fun s u => if u.rdv || u.spilled then s.sendNcomp u.pkt 26 else s) s

/-- A context's `reset` bit (R410). -/
def doCtxReset (d : Nat) (s : State) : State :=
  s.ifStructured (Reg.ctxCfg d) (fun s =>
    let s := s.emptyCtx d (some 29)
    (s.setCtx d { s.ctx d with resetting := true }).put (Reg.ctxCfg d) Fld.ctxCfgBusy 1)

/-- CTX_RESET. -/
def execCtxReset (d : Fin 65536) (s : State) : Answer := act s (doCtxReset d)

/-- The reset of a context ends: `busy` clears unless a move waits, and a PF0 event is raised (R410, R412). -/
def doCtxResetEnd (d : Nat) (s : State) : State :=
  let c := s.ctx d
  if c.resetting then
    ((s.setCtx d { c with resetting := false }).put (Reg.ctxCfg d) Fld.ctxCfgBusy (b2n c.migrateTo.isSome)).raiseEvent 5
  else s

/-- CTX_RESET_END. -/
def execCtxResetEnd (d : Fin 65536) (s : State) : Answer := act s (doCtxResetEnd d)

/-! ## Receives, pools, entries -/

/-- A RECV of the same ring, of an earlier descriptor, has not entered its context queue yet (R394). -/
def State.recvBefore (s : State) (o : Nat) (x : OpSt) : Bool :=
  x.ring.isSome && s.rma.ops.any (fun e => decide (e.1 < o) && e.2.kind == .recv && e.2.inst == x.inst && e.2.ring == x.ring
    && !e.2.started && !e.2.done)

/-- A RECV job (R387, R394, R301). -/
def doRecv (o : Nat) (s : State) : State :=
  match Table.find s.rma.ops o with
  | none => s
  | some x =>
    if x.kind != .recv || x.started || x.done || !s.mayStart o x || s.recvBefore o x then s
    else if x.bad then s.finishOp o 34
    else
      let k := x.key % 65536
      let i := s.inst x.inst
      if i.ctx ≤ k then s.finishOp o 24
      else if (s.ctx (i.ctxBase + k)).resetting then s.finishOp o 29
      else (s.setOp o { x with started := true }).enterCtx (i.ctxBase + k) x.inst (.recv o)

/-- RECV. -/
def execRecv (job : Nat) (s : State) : Answer := act s (doRecv job)

/-- The words of a posted receive (R418). -/
def State.postedWords (s : State) (r : Posted) : List Word :=
  let x := s.op r.op
  [r.bits, r.ign, BitVec.ofNat 64 (r.sid.toNat + r.sign.toNat <<< 32), BitVec.ofNat 64 r.pseq,
    BitVec.ofNat 64 (match x.segs with | (a, _) :: _ => a | [] => 0),
    BitVec.ofNat 64 ((x.length - 1) % 2 ^ 32 + (x.idx % 65536) <<< 32 + x.sq <<< 48 + b2n x.chained <<< 54
      + b2n x.irq <<< 55 + b2n x.quiet <<< 56),
    x.cookie]

/-- The words of an unexpected message (R418). -/
def unexpWords (u : Unexp) : List Word :=
  [u.bits, BitVec.ofNat 64 (u.sid.toNat + b2n u.rdv <<< 32 + b2n u.spilled <<< 33 + u.tc <<< 34),
    BitVec.ofNat 64 u.aseq, BitVec.ofNat 64 u.n, BitVec.ofNat 64 u.xid]

/-- The entry of a list with an index, as the words that the spec states. -/
def State.entryWords (s : State) (unx : Bool) (index : Nat) : Option (List Word) :=
  if unx then ((s.mt.ctx.map (fun c => c.2.unexp)).flatten.find? (fun u => u.index == index)).map unexpWords
  else ((s.mt.ctx.map (fun c => c.2.posted)).flatten.find? (fun r => r.index == index)).map s.postedWords

/-- Store words of an entry; those that are device-private are free values (R418, log 6). -/
def State.putEntry (s : State) (ws : List Word) : State :=
  (List.range 8).foldl (fun s w =>
    match ws[w]? with
    | some v => s.setWord (Reg.entData w) v
    | none =>
      let (v, s) := s.fresh
      s.setWord (Reg.entData w) v) s

/-- The `go` of MATCH.ENT_SEL (R417). What an entry not in use reads is not stated: free values. -/
def doEntryRead (unx : Bool) (index : Nat) (s : State) : State :=
  s.ifStructured Reg.entSel (fun s =>
    let s := (s.put Reg.entSel Fld.entSelIndex index).put Reg.entSel Fld.entSelList (b2n unx)
    match s.entryWords unx index with
    | some ws => (s.putEntry ws).put Reg.entSel Fld.entSelInUse 1
    | none => (s.putEntry []).put Reg.entSel Fld.entSelInUse 0)

/-- ENTRY_READ. -/
def execEntryRead (list : Bool) (index : Nat) (s : State) : Answer := act s (doEntryRead list index)

/-- Fill the pools of R407 and R414. -/
def State.fillPools (s : State) (v : Word) : State :=
  { s with mt := { s.mt with
    freePosted := Fld.matchPoolPreM.get v * 2 ^ 20, freeUnexp := Fld.matchPoolUxeM.get v * 2 ^ 20
    freeBounce := Fld.matchPoolBounceMib.get v * 4096, freeSeg := Fld.matchPoolSegMib.get v * 2 ^ 14 } }

/-- A write of MATCH.POOL (R414). -/
def doPoolWrite (v : Word) (s : State) : State :=
  s.ifStructured Reg.matchPool (fun s =>
    let g := s.get Reg.cohRegion Fld.cohRegionSizeGib
    let pre := min 16 (Fld.matchPoolPreM.get v)
    let uxe := min 16 (Fld.matchPoolUxeM.get v)
    let fits := decide (72 * (pre + uxe) + Fld.matchPoolBounceMib.get v + Fld.matchPoolSegMib.get v ≤ 512 * g)
    if s.imgState = 2 ∧ fits ∧ !(s.insts.any (fun e => decide (0 < e.2.ctx))) then
      let w := Fld.matchPoolUxeM.put (Fld.matchPoolPreM.put (BitVec.ofNat 64 (v.toNat % 2 ^ 32)) pre) uxe
      (s.setWord Reg.matchPool w).fillPools w
    else s.notice 59 Reg.matchPool)

/-- POOL_WRITE. -/
def execPoolWrite (value : BitVec 64) (s : State) : Answer := act s (doPoolWrite value)

end Sys2Proof.Machine
end

