-- ==== Sys2Proof/Machine/Coll.lean ====
section
/-! DEFINITION. Coll: communicators, the group tree, collectives and their segments, and failures (R421 to R441). -/

namespace Sys2Proof.Machine

/-! ## Communicator entries (R421 to R425) -/

/-- Bytes `off` to `off + n` of a communicator's entry, as a number. -/
def State.commField (s : State) (c off n : Nat) : Nat :=
  (List.range n).foldl (fun v k =>
    let b := off + k
    v + bits (s.word (Reg.commEnt c (b / 8))).toNat (8 * (b % 8) + 7) (8 * (b % 8)) <<< (8 * k)) 0

/-- `mgmt` of an entry. -/
def State.commMgmt (s : State) (c : Nat) : Bool := bit (s.commField c 0 1) 0
/-- The member instance of this device. -/
def State.commInst (s : State) (c : Nat) : Nat := s.commField c 2 2 % 4096
/-- The tree arity. -/
def State.commK (s : State) (c : Nat) : Nat := s.commField c 4 1
/-- The leader row of this device's group. -/
def State.leadRow (s : State) (c : Nat) : Nat := s.commField c 5 1 % 16
/-- The leader column of this device's group. -/
def State.leadCol (s : State) (c : Nat) : Nat := s.commField c 5 1 / 16
/-- The member rows. -/
def State.memberRows (s : State) (c : Nat) : List Nat := (List.range 16).filter (fun r => bit (s.commField c 6 2) r)
/-- The member columns. -/
def State.memberCols (s : State) (c : Nat) : List Nat := (List.range 16).filter (fun k => bit (s.commField c 8 2) k)
/-- The number of member groups, as the entry states it. -/
def State.commGroups (s : State) (c : Nat) : Nat := s.commField c 10 2
/-- The member groups. -/
def State.gmap (s : State) (c : Nat) : Nat := s.commField c 48 128
/-- The tree position of a member group (R423). -/
def State.posOf (s : State) (c g : Nat) : Nat := popcount (s.gmap c) g
/-- The group at a tree position. -/
def State.groupAt (s : State) (c p : Nat) : Nat :=
  ((List.range 1024).filter (fun g => bit (s.gmap c) g)).getD p 0
/-- This device's tree position. -/
def State.tpos (s : State) (c : Nat) : Nat := s.posOf c s.group
/-- The leader of this device's group. -/
def State.leaderFid (s : State) (c : Nat) : Nat := mkFid s.group (s.leadRow c) (s.leadCol c)
/-- This device is its group's leader (R424). -/
def State.isLeader (s : State) (c : Nat) : Bool := s.fid == s.leaderFid c
/-- This device is its row's leader (R424). -/
def State.isRowLeader (s : State) (c : Nat) : Bool := s.col == s.leadCol c
/-- The leader of this device's row. -/
def State.rowLeaderFid (s : State) (c : Nat) : Nat := mkFid s.group s.row (s.leadCol c)
/-- The parent of a position (R424). -/
def parentPos (k p : Nat) : Nat := (p - 1) / k
/-- The children of a position (R424). -/
def State.childPos (s : State) (c p : Nat) : List Nat :=
  let k := s.commK c
  ((List.range (min k 32)).map (fun j => k * p + 1 + j)).filter (fun q => decide (q < s.commGroups c))
/-- The leader of the parent group. -/
def State.parentFid (s : State) (c : Nat) : Nat :=
  let b := s.commField c 14 1
  mkFid (s.groupAt c (parentPos (s.commK c) (s.tpos c))) (b % 16) (b / 16)
/-- The leader of child `j`. -/
def State.childFid (s : State) (c j : Nat) : Nat :=
  let b := s.commField c (16 + j) 1
  mkFid (s.groupAt c (s.commK c * s.tpos c + 1 + j)) (b % 16) (b / 16)
/-- The neighbours of this group in the tree: position and leader. -/
def State.neighbours (s : State) (c : Nat) : List (Nat × Nat) :=
  let p := s.tpos c
  (if p = 0 then [] else [(parentPos (s.commK c) p, s.parentFid c)])
    ++ (s.childPos c p).map (fun q => (q, s.childFid c (q - (s.commK c * p + 1))))

/-- The neighbour of position `i` toward position `r` (R425). -/
def towardPos (k i : Nat) : Nat → Nat → Nat
  | 0, _ => parentPos k i
  | f + 1, q => if q ≤ i then parentPos k i else if parentPos k q = i then q else towardPos k i f (parentPos k q)

/-- The device of a rank (R423). -/
def State.rankFid (s : State) (c rank : Nat) : Nat :=
  let rs := s.memberRows c; let cs := s.memberCols c
  let n := rs.length * cs.length
  mkFid (s.groupAt c (rank / n)) (rs.getD (rank % n / cs.length) 0) (cs.getD (rank % cs.length) 0)

/-- Members of a communicator. -/
def State.memberCount (s : State) (c : Nat) : Nat :=
  s.commGroups c * (s.memberRows c).length * (s.memberCols c).length

/-- `valid` of a communicator. -/
def State.commValid (s : State) (c : Nat) : Bool := s.flag (Reg.commCtl c) Fld.commCtlValid

/-- The first failing check of R422, or 0. -/
def State.commCheck (s : State) (c : Nat) : Nat :=
  let rows := s.commField c 6 2; let cols := s.commField c 8 2
  let okLead (b : Nat) : Bool := bit rows (b % 16) && bit cols (b / 16)
  let p := s.tpos c
  let leads := [s.commField c 5 1] ++ (if p = 0 then [] else [s.commField c 14 1])
    ++ (s.childPos c p).map (fun q => s.commField c (16 + (q - (s.commK c * p + 1))) 1)
  if popcount (s.gmap c) 1024 ≠ s.commGroups c then 1
  else if !(bit (s.gmap c) s.group && bit rows s.row && bit cols s.col) then 2
  else if leads.any (fun b => !okLead b) then 3
  else if !(decide (2 ≤ s.commK c ∧ s.commK c ≤ 32) || s.commGroups c == 1) then 4
  else if !s.commMgmt c && s.instState (s.commInst c) != 1 then 5
  else 0

/-- Forget the collectives of a communicator whose failure has been noticed. -/
def State.forgetFailed (s : State) (c : Nat) : State :=
  { s with colls := { s.colls with failed := s.colls.failed.filter (fun e => e.1 != c) } }

/-- Set `valid` of a communicator (R422, R429, R449): its numbers start from 0. `err` keeps the last refusal. -/
def doCommValid (c : Nat) (s : State) : State :=
  s.ifStructured (Reg.commCtl c) (fun s =>
    if s.commValid c then s
    else
      let e := s.commCheck c
      let a := Reg.commCtl c
      if e = 0 then
        ((((s.forgetFailed c).put a Fld.commCtlValid 1).put a Fld.commCtlCseq 0).put a Fld.commCtlLeader
          (b2n (s.isLeader c))).put a Fld.commCtlTpos (s.tpos c)
      else s.put a Fld.commCtlErr e)

/-- COMM_VALID. -/
def execCommValid (c : Fin 4096) (s : State) : Answer := act s (doCommValid c)

/-! ## Collectives in progress -/

/-- A collective at this device. -/
def State.coll (s : State) (c n : Nat) : Option CollSt := s.colls.colls.find? (fun x => x.comm == c && x.seq == n)

/-- Replace or add a collective, and show the count in progress (R449). -/
def State.setColl (s : State) (x : CollSt) : State :=
  let rest := s.colls.colls.filter (fun y => !(y.comm == x.comm && y.seq == x.seq))
  let s := { s with colls := { s.colls with colls := rest ++ [x] } }
  s.put (Reg.commCtl x.comm) Fld.commCtlPending
    (s.colls.colls.filter (fun y => y.comm == x.comm && y.op != 0)).length

/-- A Fennel engine is fenced with no spare left for it (R513). -/
def State.fennelGone (s : State) (e : Nat) : Bool :=
  s.isFenced (.fennel (s.physUnit 3 e)) && s.spares.getD 3 0xFF == 0xFF && !s.flt.spareOp.any (fun o => o.1 == 3 && o.2.1 == e)

/-- The logical engine of a communicator: 4h + (ID mod 4), or the next of the hub where that is gone (R513). -/
def State.commEngine (s : State) (c : Nat) : Nat :=
  let e (k : Nat) : Nat := 4 * s.commHub c + (c + k) % 4
  (((List.range 4).find? (fun k => !s.fennelGone (e k))).map e).getD (e 0)

/-- Give back the store that a collective holds. -/
def State.freeStore (s : State) (x : CollSt) : State :=
  let e := s.commEngine x.comm
  let held := x.segs.foldl (fun n g => n + g.reserve) 0
  { s with colls := { s.colls with storeUsed := Table.put s.colls.storeUsed e (Table.getD s.colls.storeUsed 0 e - held) } }

/-- Drop a collective with its inputs. -/
def State.dropColl (s : State) (x : CollSt) : State :=
  let s := s.freeStore x
  let s := { s with colls := { s.colls with
    colls := s.colls.colls.filter (fun y => !(y.comm == x.comm && y.seq == x.seq)) } }
  s.put (Reg.commCtl x.comm) Fld.commCtlPending
    (s.colls.colls.filter (fun y => y.comm == x.comm && y.op != 0)).length

/-- The exact-sum mode applies (R436). -/
def CollSt.exactOn (x : CollSt) : Bool := x.mode == 2 && x.cop == 0 && (fpOf x.dtype).isSome && x.dtype != 6

/-- The mode in effect: 2 acts as 1 where it does not apply (R436). -/
def CollSt.modeOn (x : CollSt) : Nat := if x.mode = 2 then (if x.exactOn then 2 else 1) else x.mode

/-- Elements of a segment (R437). -/
def State.segElems (s : State) (x : CollSt) : Nat :=
  let n := elemSize x.dtype x.cop
  if x.modeOn = 2 then 128
  else if x.modeOn = 1 then 16384 / n
  else 1024 * s.get Reg.collCtrl Fld.collCtrlSegKib / n

/-- Segments of a collective. -/
def State.segCount (s : State) (x : CollSt) : Nat := max 1 (ceilDiv x.count (s.segElems x))

/-- Bytes of segment `i` as stored in memory. -/
def State.segBytes (s : State) (x : CollSt) (i : Nat) : Nat :=
  min (s.segElems x) (x.count - i * s.segElems x) * elemSize x.dtype x.cop

/-- The offset of segment `i` in a buffer. -/
def State.segOff (s : State) (x : CollSt) (i : Nat) : Nat := i * s.segElems x * elemSize x.dtype x.cop

/-- The position of the root's group: 0 for kinds without a root. -/
def State.rootPos (s : State) (x : CollSt) : Nat :=
  if x.kind = 1 ∨ x.kind = 2 then s.posOf x.comm (fidGroup (s.rankFid x.comm x.root)) else 0

/-- The device of the root. -/
def State.rootFid (s : State) (x : CollSt) : Nat := s.rankFid x.comm x.root

/-- The neighbours that send to this group leader on the way up (R431, R432). -/
def State.upFromFids (s : State) (x : CollSt) : List Nat :=
  let p := s.tpos x.comm; let r := s.rootPos x
  let t := if p = r then none else some (towardPos (s.commK x.comm) p 1024 r)
  ((s.neighbours x.comm).filter (fun n => some n.1 != t)).map (fun n => n.2)

/-- The leader to which this group leader sends on the way up; none at the root's position. -/
def State.upToFid (s : State) (x : CollSt) : Option Nat :=
  let p := s.tpos x.comm; let r := s.rootPos x
  if p = r then none
  else ((s.neighbours x.comm).find? (fun n => n.1 == towardPos (s.commK x.comm) p 1024 r)).map (fun n => n.2)

/-- Inputs that the engine expects at its combining point (R437): the largest of its stages. -/
def State.expects (s : State) (x : CollSt) : Nat :=
  let c := x.comm
  let row := if s.isRowLeader c then (s.memberCols c).length else 1
  let col := if s.isLeader c then (s.memberRows c).length else 1
  let tree := if s.isLeader c then 1 + (s.upFromFids x).length else 1
  max row (max col tree)

/-- The reservation of a segment (R437). -/
def State.reservation (s : State) (x : CollSt) : Nat :=
  let n := s.expects x
  match x.modeOn with
  | 0 => 2 * 1024 * s.get Reg.collCtrl Fld.collCtrlSegKib
  | 1 => (n + 1) * 16384
  | _ => (n + 1) * 128 * 274

/-- An empty segment. -/
def SegSt.init (i : Nat) : SegSt := ⟨i, false, 0, [], none, false, none, none, false, false⟩

/-- A segment of a collective. -/
def CollSt.seg (x : CollSt) (i : Nat) : SegSt :=
  (x.segs.find? (fun g => g.index == i)).getD (SegSt.init i)

/-- Replace or add a segment. -/
def CollSt.setSeg (x : CollSt) (g : SegSt) : CollSt :=
  { x with segs := x.segs.filter (fun h => h.index != g.index) ++ [g] }

/-! ## Packets of collectives (R430) -/

/-- Cut a list of elements, as bytes, into payloads of at most 4,096 bytes that hold whole elements (R437). -/
def packElems : List (List Byte) → List Byte → List (List Byte)
  | [], cur => [cur]
  | e :: t, cur => if 4096 < cur.length + e.length then cur :: packElems t e else packElems t (cur ++ e)

/-- A COLL packet (R430), without its destination. -/
def State.collPkt (s : State) (c n phase : Nat) (x : CollSt) (seg : Nat) (exact : Bool) (xlen pidx : Nat)
    (payload : List Byte) : Packet :=
  { Packet.zero with
    op := opColl, tc := 6, src := s.fid, sInst := s.commInst c, base := n % 2 ^ 32 + seg <<< 32, xlen := xlen, pidx := pidx,
    plen := payload.length, payload := payload
    aux := c + phase <<< 12 + x.dtype <<< 15 + x.cop <<< 19 + x.mode <<< 22 + b2n exact <<< 24 }

/-- Send elements of a segment to a member, in packets of whole elements. -/
def State.sendSeg (s : State) (x : CollSt) (g phase : Nat) (exact : Bool) (elems : List (List Byte)) (dst : CopyTo) :
    State :=
  let n := (elems.map (fun e => e.length)).foldl (fun a b => a + b) 0
  let parts := packElems elems []
  ((List.range parts.length).zip parts).foldl (fun s e =>
    s.sendTo State.queueOut ⟨s.collPkt x.comm x.seq phase x g exact n e.1 e.2, x.op, s.commHub x.comm, 0⟩ dst) s

/-- An input has come whole. -/
def CollIn.whole (i : CollIn) : Bool := i.got.foldl (fun n e => n + e.2.length) 0 == i.xlen

/-- The bytes of an input. -/
def CollIn.bytes (i : CollIn) : List Byte := (i.got.map (fun e => e.2)).flatten

/-! ## Combining (R431, R434 to R436) -/

/-- A partial result: elements, or exact partials. -/
inductive Part where
  | raw (l : List Nat)
  | exact (l : List Exact)
deriving DecidableEq, Repr

/-- An input read as a partial. -/
def CollSt.part (x : CollSt) (i : CollIn) : Part :=
  if x.exactOn then
    let f := (fpOf x.dtype).getD fp64
    if i.exact then .exact (exactList i.bytes.length i.bytes)
    else .exact ((chunk (valSize x.dtype) i.bytes.length i.bytes).map (Exact.ofVal f))
  else .raw (chunk (upSize x.dtype x.cop) i.bytes.length i.bytes)

/-- Combine two partials. -/
def CollSt.join (x : CollSt) : Part → Part → Part
  | .raw a, .raw b => .raw (combineLists x.dtype x.cop a b)
  | .exact a, .exact b => .exact (List.zipWith Exact.add a b)
  | a, _ => a

/-- Combine a stage's partials in order (R434). -/
def CollSt.joinAll (x : CollSt) : List Part → Part
  | [] => .raw []
  | p :: t => t.foldl (fun a b => x.join a b) p

/-- A partial as the elements of packets. -/
def CollSt.elems (x : CollSt) : Part → List (List Byte)
  | .raw l => l.map (fun v => leBytes v (upSize x.dtype x.cop))
  | .exact l => l.map (fun e => e.bytes)

/-- A partial travels in the exact format. -/
def Part.isExact : Part → Bool
  | .exact _ => true
  | .raw _ => false

/-- The final result of a partial, rounded once (R435, R436). -/
def CollSt.final (x : CollSt) : Part → List Byte
  | .raw l => finalBytes x.dtype x.cop l
  | .exact l => unchunk (valSize x.dtype) (l.map (Exact.round ((fpOf x.dtype).getD fp64)))

/-- The partials of a stage from the given devices, if all have come whole: in order of arrival in arrival mode, else in
the order of `srcs` (R434). -/
def CollSt.stage (x : CollSt) (g : SegSt) (srcs : List Nat) : Option (List Part) :=
  let ins := g.ins.filter (fun i => srcs.contains i.src)
  if srcs.all (fun f => ins.any (fun i => i.src == f && i.whole)) then
    if x.modeOn = 0 then some (ins.map x.part)
    else some (srcs.filterMap (fun f => (ins.find? (fun i => i.src == f)).map x.part))
  else none

/-- The row stage at a row leader: its row's members by column. -/
def State.rowSrcs (s : State) (c : Nat) : List Nat := (s.memberCols c).map (fun k => mkFid s.group s.row k)

/-- The column stage at a group leader: the other row leaders, with the own row's partial in its place. -/
def State.colStage (s : State) (x : CollSt) (g : SegSt) (own : Part) : Option (List Part) :=
  let c := x.comm
  let others := ((s.memberRows c).filter (fun r => r != s.row)).map (fun r => mkFid s.group r (s.leadCol c))
  match x.stage g others with
  | none => none
  | some _ =>
    if x.modeOn = 0 then (x.stage g others).map (fun l => own :: l)
    else some ((s.memberRows c).filterMap (fun r =>
      if r = s.row then some own
      else (g.ins.find? (fun i => i.src == mkFid s.group r (s.leadCol c))).map x.part))

/-- The tree stage at a group leader: the group's own partial first, then its neighbours by position (R434). -/
def State.treeStage (s : State) (x : CollSt) (g : SegSt) (own : Part) : Option (List Part) :=
  (x.stage g (s.upFromFids x)).map (fun l => own :: l)

/-- What the up phase of a segment yields at this device, once its inputs have come: nothing yet, or the partial and
where it goes; no destination means that the result is final here. -/
def State.upValue (s : State) (x : CollSt) (g : SegSt) : Option (Part × Option Nat) :=
  let c := x.comm
  if !s.isRowLeader c then
    (x.stage g [s.fid]).map (fun l => (x.joinAll l, some (s.rowLeaderFid c)))
  else
    match x.stage g (s.rowSrcs c) with
    | none => none
    | some row =>
      let p := x.joinAll row
      if !s.isLeader c then some (p, some (s.leaderFid c))
      else
        match s.colStage x g p with
        | none => none
        | some col =>
          match s.treeStage x g (x.joinAll col) with
          | none => none
          | some tree =>
            let p := x.joinAll tree
            match s.upToFid x with
            | some f => some (p, some f)
            | none =>
              if x.kind = 2 ∧ s.rootFid x ≠ s.fid then some (p, some (s.rootFid x)) else some (p, none)

/-! ## The down phase (R431, R432) -/

/-- Where this device sends a result on its way down: along the tree, and by multicast down its column and along its row. -/
def State.downTo (s : State) (x : CollSt) (src : Nat) : List CopyTo :=
  let c := x.comm
  let tree := if s.isLeader c then
      ((s.neighbours c).filter (fun n => n.2 != src && (x.kind == 1 || decide (s.tpos c < n.1)))).map (fun n => .one n.2)
    else []
  let col := if s.isLeader c then [.many true (maskOf ((s.memberRows c).filter (fun r => r != s.row)))] else []
  let row := if s.isRowLeader c then [.many false (maskOf ((s.memberCols c).filter (fun k => k != s.col)))] else []
  tree ++ col ++ row

/-- The key under which a collective's result is placed. -/
def State.collKey (s : State) (x : CollSt) : XferKey := ⟨s.fid, (s.op x.op).inst, (s.op x.op).xid⟩

/-- Place a segment's result in the receive buffer (R428, R431). -/
def State.placeColl (s : State) (x : CollSt) (i : Nat) (data : List Byte) : State :=
  match Table.find s.rma.ops x.op with
  | none => s
  | some o =>
    let p : Packet := { Packet.zero with
      op := opColl, src := s.fid, sInst := o.inst, tInst := o.inst, xid := o.xid, pidx := i, plen := data.length, payload := data }
    s.startPlace ⟨s.commHub x.comm, p, o.inst, x.op, 0, [], []⟩ [(o.desc.w5.toNat + s.segOff x i, data.length)] data

/-- A result has come whole at this device: pass it on, and place it unless this device is a broadcast's root. -/
def State.spread (s : State) (x : CollSt) (g : SegSt) (src : Nat) (data : List Byte) : State :=
  let n := elemSize x.dtype x.cop
  let elems := if data.isEmpty then [] else (chunk n data.length data).map (fun v => leBytes v n)
  let s := (s.downTo x src).foldl (fun s d => s.sendSeg x g.index 1 false elems d) s
  if x.kind = 1 ∧ s.rootFid x = s.fid then s.setColl (x.setSeg { g with result := some data, placed := true })
  else if x.kind = 0 then s.setColl (x.setSeg { g with result := some data, placed := true })
  else (s.setColl (x.setSeg { g with result := some data })).placeColl x g.index data

/-! ## Progress of a segment and of a collective -/

/-- A segment is finished at this device: its result is placed, or, where nothing is placed, its input has gone. The root of a
broadcast that leads its row, and not its group, still passes the data on along its row. -/
def State.segOver (s : State) (x : CollSt) (g : SegSt) : Bool :=
  match x.kind with
  | 2 => if s.rootFid x = s.fid then g.placed else g.upSent
  | 1 =>
    if s.rootFid x = s.fid then g.upSent && (s.isLeader x.comm || !s.isRowLeader x.comm || g.placed) else g.placed
  | _ => g.placed

/-- Operand bytes combined at this device, as Tarragon counts them (R525). -/
def State.combined (s : State) (x : CollSt) (g : SegSt) : State :=
  s.count ⟨0x901, some (s.physUnit 3 (s.commEngine x.comm)), some (s.op x.op).inst, none, none, some false,
    g.ins.foldl (fun n i => n + i.xlen) 0⟩

/-- One step of a segment's progress: the up phase, a result that is final here, or a result that has come down. -/
def State.advanceSeg (s : State) (c n i : Nat) : State :=
  match s.coll c n with
  | none => s
  | some x =>
    let g := x.seg i
    if x.op = 0 ∨ !g.admitted then s
    else
      match g.down, g.result with
      | some d, none =>
        if d.whole then
          if x.kind = 2 then
            let data := x.final (x.part d)
            (s.setColl (x.setSeg { g with result := some data })).placeColl x i data
          else s.spread x g d.src d.bytes
        else s
      | _, _ =>
        if g.upSent then s
        else if x.kind = 1 then
          match g.own with
          | some data =>
            if s.rootFid x ≠ s.fid then s
            else
              let g := { g with upSent := true }
              let n := elemSize x.dtype x.cop
              let elems := (chunk n data.length data).map (fun v => leBytes v n)
              if s.isLeader c then (s.setColl (x.setSeg g)).spread x g s.fid data
              else (s.setColl (x.setSeg g)).sendSeg x i 1 false elems (.one (s.leaderFid c))
          | none => s
        else
          match s.upValue x g with
          | none => s
          | some (p, some dst) =>
            let s := s.combined x g
            (s.setColl (x.setSeg { g with upSent := true })).sendSeg x i 0 p.isExact (x.elems p) (.one dst)
          | some (p, none) =>
            let s := s.combined x g
            let g := { g with upSent := true }
            let s := s.setColl (x.setSeg g)
            let data := x.final p
            if x.kind = 2 then (s.setColl (x.setSeg { g with result := some data })).placeColl x i data
            else s.spread x g s.fid data

/-- A collective ends with status 0 once every segment is over (R431, R432, R448). -/
def State.collOver (s : State) (c n : Nat) : State :=
  match s.coll c n with
  | none => s
  | some x =>
    if x.op ≠ 0 ∧ (List.range (s.segCount x)).all (fun i => s.segOver x (x.seg i)) then
      let moved := x.segs.foldl (fun n g => n + (match g.result with | some d => d.length | none => 0)) 0
      let places := x.kind = 3 ∨ (x.kind = 2 ∧ s.rootFid x = s.fid) ∨ (x.kind = 1 ∧ s.rootFid x ≠ s.fid)
      let s := s.modOp x.op (fun o => { o with lenM1 := if places then moved - 1 else 0 })
      let s := s.count ⟨0x900, some (s.physUnit 3 (s.commEngine c)), some (s.op x.op).inst, none, none, some false, 1⟩
      ((s.finishOp x.op 0).dropColl x).bump Reg.collStat Fld.collStatDone 1
    else s

/-- Segments of a collective in flight at once (R437). -/
def CollSt.depth (x : CollSt) : Nat := if x.modeOn = 2 then 2 else 4

/-- Admit one segment if the engine's store can hold its reservation (R433, R437); the member's own input follows. -/
def State.admitSeg (s : State) (c n i : Nat) : State :=
  match s.coll c n with
  | none => s
  | some x =>
    let g := x.seg i
    let e := s.commEngine c
    let used := Table.getD s.colls.storeUsed 0 e
    let r := s.reservation x
    if g.admitted then s
    else if 4194304 < used + r then
      if g.waited then s
      else (s.bump Reg.collStat1 Fld.collStat1AdmWait 1).setColl (x.setSeg { g with waited := true })
    else
      let s := { s with colls := { s.colls with storeUsed := Table.put s.colls.storeUsed e (used + r) } }
      s.setColl (x.setSeg { g with admitted := true, reserve := r })

/-- Give a collective's own input of a segment to its combining point. -/
def State.ownInput (s : State) (c n i : Nat) (data : List Byte) : State :=
  match s.coll c n with
  | none => s
  | some x =>
    let g := x.seg i
    let up := unchunk (if x.exactOn then valSize x.dtype else upSize x.dtype x.cop)
      (if x.exactOn then chunk (valSize x.dtype) data.length data else upElems x.dtype x.cop data)
    let g := { g with own := some data, ins := g.ins ++ [⟨s.fid, false, up.length, [(0, up)]⟩] }
    ((s.setColl (x.setSeg g)).advanceSeg c n i).collOver c n

/-- This member has an input: reduce and allreduce everywhere, broadcast at the root; a barrier's is empty. -/
def State.hasInput (s : State) (x : CollSt) : Bool := x.kind == 2 || x.kind == 3 || (x.kind == 1 && s.rootFid x == s.fid)

/-- Start one admitted segment of a collective whose descriptor has been taken: fetch its input, or use an empty one. -/
def State.beginSeg (s : State) (c n i : Nat) : State :=
  match s.coll c n with
  | none => s
  | some x =>
    let g := x.seg i
    if x.op = 0 ∨ !g.admitted ∨ g.own.isSome ∨ (s.fetchOf x.op i).isSome then s
    else if x.kind = 0 then s.ownInput c n i []
    else if s.hasInput x then s.startFetch x.op i (s.segOff x i) (s.segBytes x i) none
    else s.advanceSeg c n i

/-- Admit and start the next segments of a collective, up to its depth. -/
def State.pumpColl (s : State) (c n : Nat) : State :=
  match s.coll c n with
  | none => s
  | some x =>
    if x.op = 0 then s
    else
      let todo := (List.range (s.segCount x)).filter (fun i => !s.segOver x (x.seg i))
      (todo.take x.depth).foldl (fun s i => (s.admitSeg c n i).beginSeg c n i) s

/-! ## Failures (R439 to R441) -/

/-- Send a fail packet to the members next to this device, except where the notice came from (R439). -/
def State.floodFail (s : State) (x : CollSt) (status src : Nat) : State :=
  let c := x.comm
  let row := .many false (maskOf ((s.memberCols c).filter (fun k => k != s.col && mkFid s.group s.row k != src)))
  let col := .many true (maskOf ((s.memberRows c).filter (fun r => r != s.row && mkFid s.group r s.col != src)))
  let tree := if s.isLeader c then ((s.neighbours c).filter (fun n => n.2 != src)).map (fun n => CopyTo.one n.2) else []
  ([row, col] ++ tree).foldl (fun s d =>
    let p := s.collPkt c x.seq 6 x 0 false (status % 256) 0 []
    s.sendTo State.queueOut ⟨{ p with aux := p.aux % 2 ^ 15 }, 0, s.commHub c, 0⟩ d) s

/-- A collective fails on this device: it completes with the status, its inputs are discarded, and the notice goes on. -/
def State.failColl (s : State) (x : CollSt) (status src : Nat) : State :=
  let s := if x.op = 0 then s else (s.finishOp x.op status).bump Reg.collStat Fld.collStatFailed 1
  let s := { s with colls := { s.colls with failed := s.colls.failed ++ [(x.comm, x.seq, status)] } }
  (s.dropColl x).floodFail x status src

/-- A global service ends at the root (R442 to R444): `busy` clears with its status, and PF0 event 6 is raised. -/
def State.endSvc (s : State) (status : Nat) : State :=
  if s.colls.svcOp = 0 then s
  else
    let s := (s.dropOp s.colls.svcOp).put Reg.gsvc Fld.gsvcBusy 0
    { s with colls := { s.colls with svcOp := 0 } }.put Reg.gsvc Fld.gsvcStatus status |>.raiseEvent 6

/-- A service one of whose packets has failed ends with status 3 (R444). -/
def State.sweepSvc (s : State) : State :=
  if s.colls.svcOp ≠ 0 ∧ ((s.op s.colls.svcOp).fail.isSome ∨ (s.op s.colls.svcOp).done) then s.endSvc 3 else s

/-- Collectives whose operation has failed or has gone end here (R439, R441): a failed packet or a local failure is
flooded; an operation that ended for its instance is not. -/
def State.sweepColls (s : State) : State :=
  s.colls.colls.foldl (fun s x =>
    if x.op = 0 then s
    else
      match Table.find s.rma.ops x.op with
      | none => s.dropColl x
      | some o =>
        match o.fail with
        | some st => s.failColl x st s.fid
        | none => if o.done then (s.dropColl x).bump Reg.collStat Fld.collStatFailed 1 else s) s.sweepSvc

/-- `abort` of a communicator (R440). -/
def State.abortComm (s : State) (c : Nat) : State :=
  let s := (s.colls.colls.filter (fun x => x.comm == c)).foldl (fun s x =>
    let s := if x.op = 0 then s else (s.finishOp x.op 6).bump Reg.collStat Fld.collStatFailed 1
    s.dropColl x) s
  (s.forgetFailed c).put (Reg.commCtl c) Fld.commCtlValid 0

/-- COMM_CTL's `abort` bit. -/
def doCommAbort (c : Nat) (s : State) : State := s.ifStructured (Reg.commCtl c) (fun s => s.abortComm c)

/-- COMM_ABORT. -/
def execCommAbort (c : Fin 4096) (s : State) : Answer := act s (doCommAbort c)

/-! ## Jobs (R426, R428, R429) -/

/-- A COLL job breaks R428. -/
def State.collBad (s : State) (x : OpSt) : Bool :=
  let w2 := x.desc.w2.toNat
  let c := w2 % 4096; let kind := bits w2 14 12; let dtype := bits w2 18 15; let cop := bits w2 21 19
  let mode := bits w2 23 22; let root := bits w2 41 24
  let w3 := x.desc.w3.toNat; let count := w3 % 2 ^ 32
  x.bad || x.tc != 6 || x.dst != 0 || x.tInst != 0 || x.final || x.chained
    || w2 >>> 42 != 0 || w3 >>> 32 != 0 || x.desc.w6 != 0 || x.desc.w7 != 0
    || !s.commValid c || s.commMgmt c || s.commInst c != x.inst
    || decide (3 < kind) || decide (6 < dtype) || decide (2 < mode)
    || (3 ≤ cop && cop ≤ 5 && (fpOf dtype).isSome)
    || (if kind = 0 then count != 0 else count == 0)
    || decide (2 ^ 32 < count * elemSize dtype cop)
    || (if kind = 1 ∨ kind = 2 then decide (s.memberCount c ≤ root) else root != 0)

/-- The status that a notice has carried for a collective (R439). -/
def State.noticed (s : State) (c n : Nat) : Option Nat :=
  (s.colls.failed.find? (fun e => e.1 == c && e.2.1 == n)).map (fun e => e.2.2)

/-- A collective job is taken (R428, R429): checked, numbered, joined with its early arrivals, and started. Beyond
`depth` in progress it waits. One whose failure has been noticed completes with the status carried (R439). -/
def State.startColl (s : State) (o kind : Nat) : State :=
  match Table.find s.rma.ops o with
  | none => s
  | some x =>
    if x.kind != .coll || x.started || x.done || bits x.desc.w2.toNat 14 12 != kind || !s.mayStart o x then s
    else if s.collBad x then s.finishOp o 34
    else
      let w2 := x.desc.w2.toNat
      let c := w2 % 4096
      let a := Reg.commCtl c
      if s.get Reg.collCtrl Fld.collCtrlDepth ≤ s.get a Fld.commCtlPending then s
      else
        let n := s.get a Fld.commCtlCseq
        let s := s.put a Fld.commCtlCseq ((n + 1) % 2 ^ 32)
        let (xid, s) := s.newXid x.engine 0
        let count := x.desc.w3.toNat % 2 ^ 32
        let dtype := bits w2 18 15; let cop := bits w2 21 19
        let len := count * elemSize dtype cop
        let s := s.setOp o { x with started := true, xid := xid, rspXid := xid, segs := [(x.desc.w4.toNat, len)], length := len }
        let y : CollSt := ⟨c, n, o, kind, dtype, cop, bits w2 23 22, bits w2 41 24, count,
          match s.coll c n with | some e => e.segs | none => []⟩
        match s.noticed c n with
        | some st => (s.finishOp o st).bump Reg.collStat Fld.collStatFailed 1
        | none => (s.setColl y).pumpColl c n

/-- BARRIER. -/
def execBarrier (job : Nat) (s : State) : Answer := act s (fun s => s.startColl job 0)
/-- BROADCAST. -/
def execBroadcast (job : Nat) (s : State) : Answer := act s (fun s => s.startColl job 1)
/-- REDUCE. -/
def execReduce (job : Nat) (s : State) : Answer := act s (fun s => s.startColl job 2)
/-- ALLREDUCE. -/
def execAllreduce (job : Nat) (s : State) : Answer := act s (fun s => s.startColl job 3)

/-! ## Arrivals (R430 to R433) -/

/-- An input joined to a segment's list: a further packet of one already there, or a new one. -/
def joinIn (l : List CollIn) (src : Nat) (exact : Bool) (p : Packet) : List CollIn :=
  if l.any (fun i => i.src == src) then
    l.map (fun i => if i.src = src then { i with got := Table.put i.got p.pidx p.payload } else i)
  else l ++ [⟨src, exact, p.xlen, [(p.pidx, p.payload)]⟩]

/-- The phase of a COLL packet (R430). -/
def collPhase (p : Packet) : Nat := bits p.aux 14 12

/-- A collective of this device that is over: its number has been taken, and it is in progress no more. -/
def State.collGone (s : State) (c n : Nat) : Bool :=
  (s.coll c n).isNone && laterMod 32 (s.get (Reg.commCtl c) Fld.commCtlCseq) n

/-- A packet of a segment that has passed R231: kept with its collective, early where the descriptor has not been taken
(R433), and discarded where its collective is over. While the member's host link is lost it is answered with reason 9 (R441). `down` tells a result from an input; the leg's packet to a reduce's root counts as a result. -/
def State.collArrive (s : State) (p : Packet) (down : Bool) : State :=
  let c := p.aux % 4096
  let n := p.base % 2 ^ 32; let i := p.base / 2 ^ 32
  if !s.commValid c then s.sendNcomp p 6
  else if !s.commMgmt c && s.instState (s.commInst c) == 5 then s.sendNcomp p 9
  else if (s.noticed c n).isSome || s.collGone c n then s
  else
    let s := match s.coll c n with
      | some _ => s
      | none => s.setColl ⟨c, n, 0, if down then 1 else 3, bits p.aux 18 15, bits p.aux 21 19, bits p.aux 23 22, 0, 0, []⟩
    match s.coll c n with
    | none => s
    | some x =>
      let fresh := !(x.segs.any (fun g => g.index == i))
      let s := if x.op = 0 ∧ fresh then s.bump Reg.collStat Fld.collStatEarly 1 else s
      let s := s.admitSeg c n i
      match s.coll c n with
      | none => s
      | some x =>
        let g := x.seg i
        let leg := p.src == s.leaderFid c && !s.isLeader c && !down
        let g := if down || leg then
            { g with down := match g.down with
              | some d => some { d with got := Table.put d.got p.pidx p.payload }
              | none => some ⟨p.src, bit p.aux 24, p.xlen, [(p.pidx, p.payload)]⟩ }
          else { g with ins := joinIn g.ins p.src (bit p.aux 24) p }
        (((s.setColl (x.setSeg g)).advanceSeg c n i).collOver c n).pumpColl c n

/-- COLL_UP: an input of a combining point. -/
def doCollUp (p : Packet) (s : State) : State :=
  if p.op ≠ opColl ∨ collPhase p ≠ 0 then s
  else match s.accept p with
  | (true, s) => s.collArrive p false
  | (false, s) => s

/-- COLL_UP. -/
def execCollUp (pkt : Packet) (s : State) : Answer := act s (doCollUp pkt)

/-- COLL_DOWN: a result on its way down, or a broadcast's data. -/
def doCollDown (p : Packet) (s : State) : State :=
  if p.op ≠ opColl ∨ collPhase p ≠ 1 then s
  else match s.accept p with
  | (true, s) => s.collArrive p true
  | (false, s) => s

/-- COLL_DOWN. -/
def execCollDown (pkt : Packet) (s : State) : Answer := act s (doCollDown pkt)

/-- An engine's store has room: segments that waited are admitted (R433, R437). -/
def doSegmentAdmit (e : Nat) (s : State) : State :=
  s.colls.colls.foldl (fun s x =>
    if s.commEngine x.comm = e then
      let s := (x.segs.filter (fun g => !g.admitted)).foldl (fun s g =>
        ((s.admitSeg x.comm x.seq g.index).beginSeg x.comm x.seq g.index).advanceSeg x.comm x.seq g.index) s
      (s.pumpColl x.comm x.seq).collOver x.comm x.seq
    else s) s

/-- SEGMENT_ADMIT. -/
def execSegmentAdmit (e : Fin 16) (s : State) : Answer := act s (doSegmentAdmit e)

/-- A fail packet (R439): the collective completes with the carried status, and the notice goes on; later notices are
ignored. -/
def doFailPacket (p : Packet) (s : State) : State :=
  if p.op ≠ opColl ∨ collPhase p ≠ 6 then s
  else match s.accept p with
  | (false, s) => s
  | (true, s) =>
    let c := p.aux % 4096; let n := p.base % 2 ^ 32
    let s := s.bump Reg.collStat1 Fld.collStat1FailRx 1
    if !s.commValid c then s.sendNcomp p 6
    else if (s.noticed c n).isSome then s
    else
      match s.coll c n with
      | some x => s.failColl x (p.xlen % 256) p.src
      | none => s.failColl ⟨c, n, 0, 0, 0, 0, 0, 0, 0, []⟩ (p.xlen % 256) p.src

/-- FAIL_PACKET. -/
def execFailPacket (pkt : Packet) (s : State) : Answer := act s (doFailPacket pkt)

/-- A segment's result has been placed (R431). -/
def State.collPlaced (s : State) (o i : Nat) : State :=
  match s.colls.colls.find? (fun x => x.op == o) with
  | none => s
  | some x =>
    ((s.setColl (x.setSeg { x.seg i with placed := true })).collOver x.comm x.seq).pumpColl x.comm x.seq

end Sys2Proof.Machine
end

