-- ==== Sys2Proof/Machine/Lock.lean ====
section
/-! DEFINITION. Lock: Sorrel cores as the other units see them, their registers, and the Savory queued locks: arming,
acquiring, releasing, cancelling and forced hand-overs (R450, R451, R472 to R480, R490, R491). -/

namespace Sys2Proof.Machine

/-! ## Cores (R450, R451) -/

/-- A Sorrel core, by physical number. -/
def State.core (s : State) (c : Nat) : CoreSt := Table.getD s.hand.cores CoreSt.init c

/-- Replace a core. -/
def State.setCore (s : State) (c : Nat) (x : CoreSt) : State :=
  { s with hand := { s.hand with cores := Table.put s.hand.cores c x } }

/-- The logical number that a physical core serves, if any (R19). -/
def State.logicalCore (s : State) (c : Nat) : Option Nat := (List.range 64).find? (fun u => s.physUnit 4 u == c)

/-- The current window of a core. -/
def CoreSt.window (x : CoreSt) : Window := x.windows.getD x.wix Window.init

/-- Replace the current window. -/
def CoreSt.setWindow (x : CoreSt) (w : Window) : CoreSt := { x with windows := setIdx x.windows x.wix w }

/-- The value of register `r`: shared, of the current window, or zero (R451). -/
def CoreSt.reg (x : CoreSt) (r : Nat) : Word :=
  if r < 8 then x.shared.getD r 0 else if r < 24 then x.window.regs.getD (r - 8) 0 else 0

/-- Write register `r`: writes to `z` are discarded (R451). -/
def CoreSt.setReg (x : CoreSt) (r : Nat) (v : Word) : CoreSt :=
  if r < 8 then { x with shared := setIdx x.shared r v }
  else if r < 24 then x.setWindow { x.window with regs := setIdx x.window.regs (r - 8) v }
  else x

/-! ## The armed line (R472) -/

/-- Field of a lock line. -/
def State.lockField (s : State) (line off n : Nat) : Nat := leNat (((s.lineData line).drop off).take n)

/-- Write a field of a lock line: copies in caches are recalled first. -/
def State.setLockField (s : State) (line off n v : Nat) : State :=
  (s.recall line).hbmWrite (64 * line + off) (leBytes v n)

/-- The line is armed. -/
def State.lockArmed (s : State) (line : Nat) : Bool := s.rma.armed.contains line
/-- `owner`, with `held`. -/
def State.lockOwner (s : State) (line : Nat) : Nat := s.lockField line 0 8
/-- `held`. -/
def State.lockHeld (s : State) (line : Nat) : Bool := bit (s.lockOwner line) 63
/-- `owner` [38:0]. -/
def State.lockOwnerId (s : State) (line : Nat) : Nat := s.lockOwner line % 2 ^ 39
/-- The waiters of a line, in order of arrival. -/
def State.lockQueue (s : State) (line : Nat) : List LockWaiter := s.hand.lockWait.filter (fun w => w.line == line)

/-- Replace the list of waiters and bring a line's `waiters` in step. -/
def State.setWaiters (s : State) (line : Nat) (l : List LockWaiter) : State :=
  let s := { s with hand := { s.hand with lockWait := l } }
  s.setLockField line 16 4 (s.lockQueue line).length

/-- The owner identity of a packet's sender: its source ID (R388). -/
def lockSrc (p : Packet) : Nat := p.src + p.sInst <<< 18

/-- The owner identity of a handler: its instance's source ID and its logical core's number + 1. -/
def State.lockCoreId (s : State) (c : Nat) : Nat :=
  s.fid + (s.core c).inst <<< 18 + ((s.logicalCore c).getD 0 + 1) <<< 32

/-- Give a lock to an owner: one more grant. -/
def State.lockTake (s : State) (line owner xid : Nat) : State :=
  let s := s.setLockField line 0 8 (owner % 2 ^ 39 + 2 ^ 63)
  let s := s.setLockField line 20 8 (s.lockField line 20 8 + 1)
  (s.setLockField line 28 4 xid).bump Reg.lockCnt Fld.lockCntGrants 1

/-- A waiting `lkacq` returns `v`: the handler goes on behind it. -/
def State.wakeCore (s : State) (c : Nat) (v : Word) : State :=
  let x := s.core c
  match x.lockWait with
  | some (rd, _) => s.setCore c { (x.setReg rd v) with lockWait := none, pc := (x.pc + 4) % 65536 }
  | none => s

/-- The head waiter becomes the owner, or the lock is free (R475). -/
def State.lockPass (s : State) (line : Nat) : State :=
  match s.lockQueue line with
  | [] => (s.setLockField line 0 8 0).setLockField line 28 4 0
  | w :: _ =>
    let s := (s.setWaiters line (s.hand.lockWait.erase w)).lockTake line w.owner w.xid
    match w.core, w.pkt with
    | some c, _ => s.wakeCore c 0
    | none, some p => s.sendComp p
    | none, none => s

/-! ## Checks (R474) -/

/-- The line of a lock operation: the target instance's grant holds it, and it lies in the coherent region (check 1). -/
def State.lockLine (s : State) (i off : Nat) : Option Nat :=
  let a := s.dmBase i + off
  if off + 64 ≤ s.dmLen i ∧ s.inRegion a then some (a / 64) else none

/-- Checks 2 to 5 of R474 for operation `op` by a requester. -/
def State.lockPasses (s : State) (op line key who : Nat) : Bool :=
  if op = 0 then !s.lockArmed line
  else
    s.lockArmed line && s.lockField line 8 4 == key
      && (match op with
        | 1 => !(s.lockHeld line && s.lockOwnerId line == who)
        | 2 => s.lockHeld line && s.lockOwnerId line == who
        | 3 => !s.lockHeld line && (s.lockQueue line).isEmpty
        | _ => true)

/-- Arm a line: overwritten, and recorded (R472, R474). -/
def State.lockArm (s : State) (i line key : Nat) : State :=
  let s := (s.recall line).hbmWrite (64 * line) (leBytes 0 8 ++ leBytes key 4 ++ leBytes (i + 2 ^ 15) 2 ++ leBytes 0 50)
  { s with rma := { s.rma with armed := s.rma.armed ++ [line], poisoned := s.rma.poisoned.filter (fun l => l != line) } }

/-- Disarm a line: zeroed. -/
def State.lockDisarm (s : State) (line : Nat) : State :=
  let s := (s.recall line).hbmWrite (64 * line) (leBytes 0 64)
  { s with rma := { s.rma with armed := s.rma.armed.filter (fun l => l != line) } }

/-- The waiter pool has no entry left (R476). -/
def State.waitersFull (s : State) : Bool :=
  decide (1024 * s.get Reg.lockCtrl Fld.lockCtrlWaitersK ≤ s.hand.lockWait.length)

/-- An ACQUIRE of a packet would find the waiter pool empty (R476): it is answered before its number is received. -/
def State.lockPoolFull (s : State) (p : Packet) : Bool :=
  match s.lockLine p.tInst p.base with
  | none => false
  | some l => s.instTakes p && !s.mustHold p.tInst && s.lockPasses 1 l p.key (lockSrc p) && s.lockHeld l && s.waitersFull

/-! ## LOCK packets (R473 to R477) -/

/-- The effect of a lock operation that has passed its checks (R474, R475, R477): ARM, ACQUIRE, RELEASE, DISARM and
CANCEL. An ACQUIRE of a free lock takes it at once, and any other joins the queue; a RELEASE makes the head waiter the
owner in the same step; a CANCEL removes the matching waiter, or releases an acquire already granted. -/
def State.lockAct (s : State) (p : Packet) (op l : Nat) : State :=
  match op with
  | 0 => (s.lockArm p.tInst l p.key).sendComp p
  | 1 =>
    if s.lockHeld l then s.setWaiters l (s.hand.lockWait ++ [⟨l, lockSrc p, p.xid, p.src, p.sInst, none, some p⟩])
    else (s.lockTake l (lockSrc p) p.xid).sendComp p
  | 2 => (s.lockPass l).sendComp p
  | 3 => (s.lockDisarm l).sendComp p
  | _ =>
    match (s.lockQueue l).find? (fun w => w.owner == lockSrc p && w.xid == p.xid && w.core.isNone) with
    | some w => s.setWaiters l (s.hand.lockWait.erase w)
    | none =>
      if s.lockHeld l && s.lockOwnerId l == lockSrc p && s.lockField l 28 4 == p.xid then s.lockPass l else s

/-- Serve an accepted LOCK packet: the checks of R474, of which a failed one answers with reason 7, then its effect. -/
def State.lockServe (s : State) (p : Packet) (op : Nat) : State :=
  if s.mustHold p.tInst then s.hold p
  else
    match s.lockLine p.tInst p.base with
    | none => s.sendNcomp p 7
    | some l => if s.lockPasses op l p.key (lockSrc p) then s.lockAct p op l else s.sendNcomp p 7

/-- A LOCK packet of operation `op` arrives. -/
def State.onLock (s : State) (p : Packet) (op : Nat) : State :=
  if p.op ≠ opLock ∨ p.aux % 8 ≠ op then s
  else
    match s.acceptIf p (fun s => op == 1 && s.lockPoolFull p) with
    | (false, s) => if op = 1 ∧ s.lockPoolFull p then s.bump Reg.lockCnt Fld.lockCntPoolFull 1 else s
    | (true, s) => s.lockServe p op

/-- LOCK_ARM. -/
def execLockArm (pkt : Packet) (s : State) : Answer := act s (fun s => s.onLock pkt 0)

/-- LOCK_ACQUIRE. -/
def execLockAcquire (pkt : Packet) (s : State) : Answer := act s (fun s => s.onLock pkt 1)

/-- LOCK_RELEASE. -/
def execLockRelease (pkt : Packet) (s : State) : Answer := act s (fun s => s.onLock pkt 2)

/-- LOCK_DISARM. -/
def execLockDisarm (pkt : Packet) (s : State) : Answer := act s (fun s => s.onLock pkt 3)

/-- LOCK_CANCEL. -/
def execLockCancel (pkt : Packet) (s : State) : Answer := act s (fun s => s.onLock pkt 4)

/-- The waiters that satisfy `sel` leave their queues. -/
def State.dropWaiters (s : State) (sel : LockWaiter → Bool) : State :=
  let lines := ((s.hand.lockWait.filter sel).map (fun w => w.line)).dedup
  let s := { s with hand := { s.hand with lockWait := s.hand.lockWait.filter (fun w => !sel w) } }
  lines.foldl (fun s l => s.setWaiters l s.hand.lockWait) s

/-- The wait of a stopped `lkacq` is cancelled (R455, R477). -/
def State.cancelCore (s : State) (c : Nat) : State := s.dropWaiters (fun w => w.core == some c)

/-- RESET and REMOVE of an instance disarm every lock in its grant; its waiters are answered with reason 7, or 1 from
`lkacq` (R479). -/
def State.disarmGrant (s : State) (i : Nat) : State :=
  let mine := s.rma.armed.filter (fun l => decide (s.dmBase i ≤ 64 * l ∧ 64 * l < s.dmBase i + s.dmLen i))
  mine.foldl (fun s l =>
    let q := s.lockQueue l
    let s := { s with hand := { s.hand with lockWait := s.hand.lockWait.filter (fun w => w.line != l) } }
    let s := q.foldl (fun s w =>
      match w.core, w.pkt with
      | some c, _ => s.wakeCore c 1
      | none, some p => s.sendNcomp p 7
      | none, none => s) s
    s.lockDisarm l) s

/-! ## Forced hand-over (R478, R490, R491) -/

/-- Write the next record of LOCK.LOG. -/
def State.lockLog (s : State) (line former new : Nat) : State :=
  let j := s.get Reg.lockLogIdx Fld.lockLogIdxNext
  let s := s.setWord (Reg.lockLog j 0) (BitVec.ofNat 64 (line % 2 ^ 31 + (s.usSinceApply % 2 ^ 32) <<< 32))
  let s := s.setWord (Reg.lockLog j 1) (BitVec.ofNat 64 former)
  let s := s.setWord (Reg.lockLog j 2) (BitVec.ofNat 64 new)
  let s := s.setWord (Reg.lockLog j 3) 0
  let s := if j = 63 then s.put Reg.lockLogIdx Fld.lockLogIdxWrapped 1 else s
  s.put Reg.lockLogIdx Fld.lockLogIdxNext ((j + 1) % 64)

/-- A write of LOCK.FORCE: with `go`, the lock held by `expect` passes to its head waiter or becomes free (R478). The
comparison is with `owner` [38:0], the field's width. -/
def doForcedHandover (v : Word) (s : State) : State :=
  s.ifStructured Reg.lockForce (fun s =>
    let s := s.put Reg.lockForce Fld.lockForceFline (Fld.lockForceFline.get v)
    if Fld.lockForceGo.get v = 0 then s
    else
      let l := s.get Reg.lockForce Fld.lockForceFline
      let former := s.lockOwner l
      if !s.lockArmed l then s.put Reg.lockForce Fld.lockForceFerr 1
      else if !s.lockHeld l then s.put Reg.lockForce Fld.lockForceFerr 2
      else if s.lockOwnerId l ≠ s.get Reg.lockForceOwn Fld.lockForceOwnExpect then s.put Reg.lockForce Fld.lockForceFerr 3
      else
        let s := (s.lockPass l).put Reg.lockForce Fld.lockForceFerr 0
        let s := (s.lockLog l former (s.lockOwner l)).bump Reg.lockCnt Fld.lockCntForced 1
        s.post (525 + 2 * sliceOf (64 * l)) 59 0 Reg.lockForce)

/-- FORCED_HANDOVER. -/
def execForcedHandover (value : BitVec 64) (s : State) : Answer := act s (doForcedHandover value)

end Sys2Proof.Machine
end

