-- ==== Sys2Proof/Machine/Arrive.lean ====
section
/-! DEFINITION. Arrive: the commands of the transport, of shaping and policing, and of remote access at the target
(R224 to R250, R368 to R381). -/

namespace Sys2Proof.Machine

/-- What follows any event that may have let operations go on or fail: collectives whose operation has failed are
swept, and transfers fetch as far as their windows allow. -/
def State.goOn (s : State) : State := s.sweepColls.pumpAll

/-! ## Shapers and meters (R243 to R248) -/

/-- SHAPER_RELEASE. -/
def execShaperRelease (inst : Fin 4096) (tc : Fin 8) (s : State) : Answer :=
  act s (fun s => (s.release (8 * inst.val + tc.val)).goOn)

/-- The pause of a shaper queue after a red drop ends (R246). -/
def doPolicerBackoffEnd (k : Nat) (s : State) : State :=
  let q := Table.getD s.xp.shapers ShaperSt.init k
  if q.paused then s.setShaper k { q with paused := false } else s

/-- POLICER_BACKOFF_END. -/
def execPolicerBackoffEnd (inst : Fin 4096) (tc : Fin 8) (s : State) : Answer :=
  act s (doPolicerBackoffEnd (8 * inst.val + tc.val))

/-! ## The peer state cache (R227) -/

/-- A record has come into the cache: its waiting arrivals return to their hubs' queues, the window update that it missed is
made, once, with `used` 0 (R235, log 137), and its waiting packets are sequenced. -/
def State.peerIn (s : State) (i : Nat) : State :=
  let x := s.xp
  let arr := x.cacheIn.filter (fun e => e.1 == i)
  let out := x.cacheOut.filter (fun e => e.1 == i)
  let s := { s with xp := { x with
    cacheIn := x.cacheIn.filter (fun e => e.1 != i), cacheOut := x.cacheOut.filter (fun e => e.1 != i)
    inbound := x.inbound ++ arr.map (fun (e : Nat × Nat × Packet) => e.2) } }
  let r := s.peer i
  let s := if r.missed then (s.setPeer i { r with missed := false, used := 0 }).updateWindow i else s
  out.foldl (fun s e => s.sequence i e.2) s

/-- A fetched record arrives and takes an entry, unless none can be freed. -/
def doPeerFetchDone (i : Nat) (s : State) : State :=
  if s.xp.cacheIn.any (fun e => e.1 == i) || s.xp.cacheOut.any (fun e => e.1 == i) then
    match s.bringIn i with
    | (true, s) => (s.peerIn i).goOn
    | (false, s) => s
  else s

/-- PEER_FETCH_DONE. -/
def execPeerFetchDone (idx : Fin 1048576) (s : State) : Answer := act s (doPeerFetchDone idx)

/-- A record becomes evictable: a waiting arrival takes its entry, else a held descriptor (R227). -/
def doPeerEvictable (i : Nat) (s : State) : State :=
  if s.peerCached i && s.evictable i && decide (peerCacheSize ≤ s.xp.cache.length) then
    match (s.xp.cacheIn.map (fun e => e.1) ++ s.xp.cacheOut.map (fun e => e.1)).head? with
    | some j =>
      if s.peerCached j then s
      else (({ s with xp := { s.xp with cache := s.xp.cache.filter (fun k => k != i) ++ [j] } }).peerIn j).goOn
    | none => s
  else s

/-- PEER_EVICTABLE. -/
def execPeerEvictable (idx : Fin 1048576) (s : State) : Answer := act s (doPeerEvictable idx)

/-- WINDOW_SEND. -/
def execWindowSend (idx : Fin 1048576) (s : State) : Answer := act s (fun s => (s.windowSend idx.val).goOn)

/-! ## Data packets (R231, R368 to R374, R390 to R392) -/

/-- Hand an accepted packet to its consumer, by its type. -/
def State.serve (s : State) (p : Packet) : State :=
  if p.op = opPut then s.servePut p
  else if p.op = opGetReq then s.serveGet p
  else if p.op = opGetRsp then s.serveRsp p
  else if p.op = opAtomic then s.serveAtomic p
  else if p.op = opAtomicRsp then s.serveAtomRsp p
  else if p.op = opSend ∨ p.op = opSendRdv then s.serveSend p
  else if p.op = opLock then s.lockServe p (p.aux % 8)
  else s

/-- Hand a held arrival to its consumer: it has been counted in its record (R285, R287). -/
def State.serveHeld (s : State) (p : Packet) : State :=
  if p.op = opPut then s.putBody p
  else if p.op = opGetRsp then s.rspBody p
  else if p.op = opSend ∨ p.op = opSendRdv then s.sendBody p
  else s.serve p

/-- A packet of type `op` arrives: the checks of R231, then its consumer. -/
def State.arrival (s : State) (op : Nat) (p : Packet) : State :=
  if p.op ≠ op then s
  else
    match s.accept p with
    | (true, s) => (s.serve p).goOn
    | (false, s) => s.goOn

/-- PUT. -/
def execPut (pkt : Packet) (s : State) : Answer := act s (fun s => s.arrival opPut pkt)

/-- GET_REQ. -/
def execGetReq (pkt : Packet) (s : State) : Answer := act s (fun s => s.arrival opGetReq pkt)

/-- GET_RSP. -/
def execGetRsp (pkt : Packet) (s : State) : Answer := act s (fun s => s.arrival opGetRsp pkt)

/-- ATOMIC: with the engine's result store full, it waits in the inbound queue (R375). -/
def execAtomic (pkt : Packet) (s : State) : Answer :=
  act s (fun s => if s.atomFull pkt then s else s.arrival opAtomic pkt)

/-- ATOMIC_RSP. -/
def execAtomicRsp (pkt : Packet) (s : State) : Answer := act s (fun s => s.arrival opAtomicRsp pkt)

/-- SEND. -/
def execSend (pkt : Packet) (s : State) : Answer := act s (fun s => s.arrival opSend pkt)

/-- SEND_RDV. -/
def execSendRdv (pkt : Packet) (s : State) : Answer := act s (fun s => s.arrival opSendRdv pkt)

/-- COMP (R241). -/
def doComp (p : Packet) (s : State) : State :=
  if p.op ≠ opComp then s
  else
    match s.accept p with
    | (true, s) => (s.serveComp p).goOn
    | (false, s) => s.goOn

/-- COMP. -/
def execComp (pkt : Packet) (s : State) : Answer := act s (doComp pkt)

/-- NCOMP (R238). -/
def doNcomp (p : Packet) (s : State) : State :=
  if p.op ≠ opNcomp then s
  else
    match s.accept p with
    | (true, s) => (s.serveNcomp p).goOn
    | (false, s) => s.goOn

/-- NCOMP. -/
def execNcomp (pkt : Packet) (s : State) : Answer := act s (doNcomp pkt)

/-- ACK (R233): the cumulative number, the numbers of its payload, and the limit. -/
def doAck (p : Packet) (s : State) : State :=
  if p.op ≠ opAck then s
  else
    match s.accept p with
    | (true, s) =>
      let i := peerIdx p.src p.tc
      let s := ((s.bringIn i).2.touchPeer i).syncDone i p.ackNext
      ((s.onAck i p.ackNext p.limit (ackList p.ackNext p.payload)).windowSend i).goOn
    | (false, s) => s

/-- ACK. -/
def execAck (pkt : Packet) (s : State) : Answer := act s (doAck pkt)

/-- A peer has restarted: what its earlier incarnation left here goes (R230, R411, R477): open transfer records,
messages that wait for their turn, and lock waiters. -/
def State.forgetPeer (s : State) (i : Nat) : State :=
  let gone := s.xp.recs.filter (fun e => e.2.idx == i)
  let s := { s with xp := { s.xp with recs := s.xp.recs.filter (fun e => e.2.idx != i) } }
  let s := gone.foldl (fun s e =>
    if e.2.held.isSome then s.bump (Reg.raeCnt1 (s.rae (s.servingEngine e.2.first))) Fld.raeCnt1FinalDrop 1 else s) s
  let held := s.xp.held.filter (fun h => h.1 == i)
  let s := { s with xp := { s.xp with held := s.xp.held.filter (fun h => h.1 != i) } }
  let s := held.foldl (fun s h => s.refuseMsg h.2.2 26) s
  let mine (p : Packet) : Bool := peerIdx p.src p.tc == i
  let late := s.mt.waiting.filter mine
  let s := { s with mt := { s.mt with waiting := s.mt.waiting.filter (fun p => !mine p) } }
  let s := late.foldl (fun s p => s.sendNcomp p 26) s
  s.dropWaiters (fun w => match w.pkt with | some p => peerIdx p.src p.tc == i | none => false)

/-- SYNC (R230). -/
def doSync (p : Packet) (s : State) : State :=
  if p.op ≠ opSync then s
  else
    match s.accept p with
    | (false, s) => s
    | (true, s) =>
      let i := peerIdx p.src p.tc
      let s := (s.bringIn i).2
      let r := s.peer i
      let s := if r.valid && r.peerInc != p.inc then (s.peerRestart i).forgetPeer i else s
      let win := s.get Reg.xportCtrl Fld.xportCtrlInitWin
      let l := (p.seq + win) % 2 ^ 24
      let s := s.setPeer i { s.peer i with
        rxNext := p.seq, peerInc := p.inc, rxMap := [], rxWin := win, valid := true
        rxLimit := if r.valid && r.peerInc == p.inc && !laterMod 24 l r.rxLimit then r.rxLimit else l,
        lastUs := s.usSinceApply, hub := s.pktHub p }
      (s.sendAck i p.tc).goOn

/-- SYNC. -/
def execSync (pkt : Packet) (s : State) : Answer := act s (doSync pkt)

/-! ## Timers (R232, R235, R236, R238 to R240, R376) -/

/-- The acknowledgement delay of a peer ends (R232). -/
def doAckTimer (i : Nat) (s : State) : State :=
  if (s.peer i).unacked = 0 then s else s.sendAck i (s.peer i).ackTc

/-- ACK_TIMER. -/
def execAckTimer (idx : Fin 1048576) (s : State) : Answer := act s (doAckTimer idx)

/-- Resend a packet, or set its peer down once it has had `retry_max` attempts (R236, R239). -/
def State.retry (s : State) (q : SentPkt) : State :=
  if s.get Reg.xportCtrl Fld.xportCtrlRetryMax ≤ q.attempt then s.peerDown q.idx else s.resend q

/-- A retry timer expires: that of a packet, or that of the SYNC of its peer (R230, R236). -/
def doRetryTimeout (i seq : Nat) (s : State) : State :=
  let r := s.peer i
  if r.syncPending ∧ r.syncSeq = seq then
    if s.get Reg.xportCtrl Fld.xportCtrlRetryMax ≤ r.syncTries then (s.syncFailed i).goOn
    else
      (s.setPeer i { r with syncTries := r.syncTries + 1 }).sendSync i
  else
    match s.xp.sent.find? (fun q => q.idx == i && q.seq == seq) with
    | some q => (s.retry q).goOn
    | none => s

/-- RETRY_TIMEOUT. -/
def execRetryTimeout (idx : Fin 1048576) (seq : BitVec 24) (s : State) : Answer := act s (doRetryTimeout idx seq.toNat)

/-- The delay after a negative completion of reason 1, 3 or 4 ends (R238). -/
def doNackResend (i seq : Nat) (s : State) : State :=
  match s.xp.sent.find? (fun q => q.idx == i && q.seq == seq && q.nacked) with
  | some q => (s.retry q).goOn
  | none => s

/-- NACK_RESEND. -/
def execNackResend (idx : Fin 1048576) (seq : BitVec 24) (s : State) : Answer := act s (doNackResend idx seq.toNat)

/-- Every window period: each valid cached record is updated, and a valid record that is not cached misses the update (R235). -/
def doWindowUpdate (s : State) : State :=
  let s := s.xp.cache.foldl (fun s i => if (s.peer i).valid then s.updateWindow i else s) s
  s.xp.peers.foldl (fun s e =>
    if e.2.valid && !s.peerCached e.1 then s.setPeer e.1 { e.2 with missed := true } else s) s

/-- WINDOW_UPDATE. -/
def execWindowUpdate (s : State) : Answer := act s doWindowUpdate

/-- A transfer record that has received nothing for `xfer_idle_ms` is freed without completion (R240, R380). -/
def doXferIdle (k : XferKey) (s : State) : State :=
  match s.xp.recs.find? (fun e => e.1 == k) with
  | none => s
  | some e =>
    let s := s.freeRec k e.2.isRsp
    if e.2.held.isSome then s.bump (Reg.raeCnt1 (s.rae (s.servingEngine e.2.first))) Fld.raeCnt1FinalDrop 1 else s

/-- XFER_IDLE. -/
def execXferIdle (key : XferKey) (s : State) : Answer := act s (doXferIdle key)

/-- A response timer expires (R376). -/
def execResponseTimeout (xid : BitVec 32) (s : State) : Answer := act s (fun s => (s.respTimeout xid.toNat).goOn)

/-! ## Placement (R370, R379, R396) -/

/-- What a placed packet counts for: a record of more than one packet, a transfer of one, a matched message, or a segment
of a collective. -/
def State.placedPkt (s : State) (pl : Place) : State :=
  let p := pl.pkt
  let s := s.count ⟨0x503, some (s.rae (s.servingEngine p)), some pl.inst, some p.base, some p.tc, some false, p.plen⟩
  if p.op = opColl then s.collPlaced pl.op p.pidx
  else if p.op = opSend then
    let s := if pl.win = 0 then s.countPlaced p else s
    let s := s.modOp pl.op (fun x => { x with nextPkt := x.nextPkt + 1 })
    match Table.find s.rma.ops pl.op with
    | some x => if x.op2 ≤ x.nextPkt then s.finishOp pl.op 0 else s
    | none => s
  else if multiPkt p then
    let k := pktKey p
    match s.recOf k (p.op == opGetRsp) with
    | some r => (s.setRec k { r with placed := r.placed + 1 }).checkRec k r.isRsp
    | none => s
  else s.xferDone p pl.op

/-- The placement of a packet has ended: every piece has been issued and performed, or one has failed. -/
def doPlacementDone (k : XferKey) (pidx : Nat) (res : PlaceResult) (s : State) : State :=
  match s.xp.placing.find? (fun pl => pktKey pl.pkt == k && pl.pkt.pidx == pidx && pl.pkt.op != opAtomic) with
  | none => s
  | some pl =>
    match res with
    | .failed r => (s.placeFail pl r.toNat).goOn
    | .placed => if pl.todo.isEmpty then ((s.dropPlace pl).placedPkt pl).goOn else s

/-- PLACEMENT_DONE. -/
def execPlacementDone (key : XferKey) (pidx : BitVec 20) (ok : PlaceResult) (s : State) : Answer :=
  act s (doPlacementDone key pidx.toNat ok)

/-! ## High-water marks (R250) -/

/-- Read and clear a field of a mark. -/
def State.takeMark (s : State) (a : Nat) (f : Field) : State := (s.emit (.readData (BitVec.ofNat 64 (s.get a f)))).put a f 0

/-- A read of a read-clear alias returns the mark and clears it in the same access. -/
def doHwmReadClear (m : HwmMark) (s : State) : State :=
  match m with
  | .shaper i t => s.takeMark (Reg.shaperStat (8 * i.val + t.val)) Fld.shaperStatWaitHwm
  | .cls t => s.takeMark (Reg.classHwm t.val) Fld.classHwmCmplHwm
  | .port p t => s.takeMark (Reg.portHwm p.val t.val) Fld.portHwmResHwm

/-- HWM_READ_CLEAR. -/
def execHwmReadClear (mark : HwmMark) (s : State) : Answer := act s (doHwmReadClear mark)

end Sys2Proof.Machine
end

