-- ==== Sys2Proof/Machine/Lanes.lean ====
section
/-! DEFINITION. Lanes: bring-up, the capability exchange, the measurement, adaptation, the load rule and degrade
(R75 to R112, R572, R578). -/

namespace Sys2Proof.Machine

/-! ## DETECT, WAKE and ADAPT -/

/-- Write a detected echo of a lane (R97). -/
def State.putEcho (s : State) (lane : Nat) (e : Echo) : State :=
  (s.put (s.laneStat lane) Fld.laneStatReflCm (min e.cm 0xFFF)).put (s.laneStat lane) Fld.laneStatReflDb e.db

/-- Consecutive successful tries of a lane. -/
def tryCount (n : Nat) (hit : Bool) : Nat := if hit then n + 1 else 0

/-- One DETECT interval (R87, R88): three tries in a row on both lanes, or on one lane when the other has not
done so 10 ms later, enter WAKE. The first try after OFF measures the largest echo (R97). -/
def doDetectTry (p : Nat) (hitA hitB : Bool) (echoA echoB : Echo) (s : State) : State :=
  if s.portState p ≠ 1 then s
  else
    let x := s.port p
    let two := (s.laneRec p).width == 0
    let s := if x.firstDetect then
        let s := s.putEcho (s.portLane p 0) echoA
        if two then s.putEcho (s.portLane p 1) echoB else s
      else s
    let a := tryCount x.triesA hitA
    let b := if two then tryCount x.triesB hitB else 0
    let okA := decide (3 ≤ a)
    let okB := two && decide (3 ≤ b)
    let waited := if okA != okB then
        x.waitedUs + detectIntervalUs (s.get (s.portStat p) Fld.portStatFailCount) else 0
    let wake := (okA && (okB || !two)) || (okA != okB && decide (10000 ≤ waited))
    let s := s.setPort p { x with
      triesA := a, triesB := b, waitedUs := waited, laneA := okA, laneB := okB, firstDetect := false }
    if wake then s.putPortStat p Fld.portStatState 2 else s

/-- DETECT_TRY. -/
def execDetectTry (p : Fin 144) (hitA hitB : Bool) (echoA echoB : Echo) (s : State) : Answer :=
  act s (doDetectTry p hitA hitB echoA echoB)

/-- Both ends see valid training frames: WAKE to ADAPT, with signal and clock on every working lane (R87). -/
def doTrainingFramesValid (p : Nat) (s : State) : State :=
  if s.portState p ≠ 2 then s
  else
    let s := s.forAll (s.portWorking p) (fun s pos =>
      let a := s.laneStat (s.portLane p pos)
      (s.put a Fld.laneStatSig 1).put a Fld.laneStatCdrLock 1)
    s.putPortStat p Fld.portStatState 3

/-- TRAINING_FRAMES_VALID. -/
def execTrainingFramesValid (p : Fin 144) (s : State) : Answer := act s (doTrainingFramesValid p)

/-- The lanes of a macro. -/
def macroLanes (m : Nat) : List Nat := (List.range 8).map (fun i => 8 * m + i)

/-- Record a macro's snapshot: its present load, and its lanes' coefficients (R90, R99, R100). -/
def State.snapshot (s : State) (m : Nat) : State :=
  let load := s.macroLoad m
  let s := s.setMacro m { (s.macroSt m) with snapLoad := load }
  s.forAll (macroLanes m) (fun s k =>
    (s.put (s.laneStat k) Fld.laneStatSnapLoad load).setLane k { (s.lane k) with snapCoeff := (s.lane k).coeff })

/-- Start a re-measure of a macro in which setpoints may fall (R101): one that runs already may fall from now on. -/
def State.mayFall (s : State) (m : Nat) : State :=
  s.setMacro m { (s.macroSt m) with measuring := true, mayFall := true }

/-- Both ends report ready: ADAPT to ALIGN (R87). Each lane's loss is recorded; a loss above 32 dB posts an
informational event (R97, R98); the coefficients are derived and the snapshot recorded (R99). The mission encoding begins
(R81, R87). A full bring-up re-measures the macros of its lanes, and their setpoints may fall (R101). -/
def doAdaptReady (p lossA lossB : Nat) (s : State) : State :=
  if s.portState p ≠ 3 then s
  else
    let full := s.lstate p ≠ 3
    let s := s.forAll (s.portWorking p) (fun s pos =>
      let k := s.portLane p pos
      let loss := if pos = 0 then lossA else lossB
      let s := s.put (s.laneStat k) Fld.laneStatLossDb (min loss 255)
      let s := s.setCoeff k (Config.coefficients k).toNat
      let s := if 128 < loss then s.noticePort p else s
      let s := s.snapshot (macroOf k)
      if full then s.mayFall (macroOf k) else s)
    (s.startStream p).putPortStat p Fld.portStatState 4

/-- ADAPT_READY. -/
def execAdaptReady (p : Fin 144) (lossA lossB : Nat) (s : State) : Answer := act s (doAdaptReady p lossA lossB)

/-! ## Degrade (R102 to R104) -/

/-- Retire the lane at position `pos`: the port runs on the other lane; the degrade is counted (R102, R104). -/
def State.retireLane (s : State) (p pos : Nat) : State :=
  let k := s.portLane p pos
  let s := (s.put (s.laneStat k) Fld.laneStatRetired 1).put (s.laneStat k) Fld.laneStatInUse 0
  let s := s.putPortStat p Fld.portStatWidth (if pos = 0 then 2 else 1)
  (s.bump (s.portStat p) Fld.portStatDegradeCount 1).postLink p 1

/-- A lane of an ACTIVE two-lane port fails (R102): DEGRADE is sent on the surviving lane. -/
def State.laneFailure (s : State) (p pos : Nat) : State :=
  if s.portState p = 7 ∧ s.get (s.portStat p) Fld.portStatWidth = 0 then
    let s := s.retireLane p pos
    (s.setPort p { (s.port p) with degradePos := some pos }).sendCtl p (.degrade pos)
  else s

/-- The failed lane goes electrically idle at this end (R102 step 4). -/
def State.idleRetired (s : State) (p pos : Nat) : State :=
  let s := s.setPort p { (s.port p) with degradePos := none }
  s.emit (.laneIdle (s.portLane p pos))

/-- A DEGRADE arrives (R102, R103): this end follows and answers. Where both ends named the same lane the two act
as each other's acknowledgement; where they named different lanes, or the lane named is the last in use, both lanes
are retired and the port goes to DETECT. Whether that second retirement adds to `degrade_count`, and whether the return to
DETECT counts as a failure, is not said: here neither (DESIGN CHOICE, log 130). -/
def doDegrade (p pos : Nat) (s : State) : State :=
  if s.portState p ≠ 7 then s.ctlBad p
  else
    match s.get (s.portStat p) Fld.portStatWidth, (s.port p).degradePos with
    | 0, _ => ((s.retireLane p pos).idleRetired p pos).sendCtl p (.degradeAck pos)
    | _, some q => if q = pos then s.idleRetired p pos else s.toDetect p
    | w, none => if w = pos + 1 then s.toDetect p else s.sendCtl p (.degradeAck pos)

/-- DEGRADE. -/
def execDegrade (p : Fin 144) (pos : Fin 2) (s : State) : Answer := act s (doDegrade p pos)

/-- A DEGRADE_ACK ends the degrade that this end started (R102); with none in progress it has no meaning (R86). -/
def doDegradeAck (p pos : Nat) (s : State) : State :=
  if s.portState p = 7 ∧ (s.port p).degradePos = some pos then s.idleRetired p pos else s.ctlBad p

/-- DEGRADE_ACK. -/
def execDegradeAck (p : Fin 144) (pos : Fin 2) (s : State) : Answer := act s (doDegradeAck p pos)

/-! ## Markers and codewords (R84, R85, R112) -/

/-- Marker search is on (R111). -/
def State.amAuto (s : State) (p : Nat) : Bool := s.flag (s.laneCtrl p) Fld.laneCtrlAmAuto

/-- The lane at a position has marker lock. -/
def State.locked (s : State) (p pos : Nat) : Bool := s.flag (s.laneStat (s.portLane p pos)) Fld.laneStatAmLock

/-- Marker lock is lost on a lane (R84, R88, R89, R102). -/
def State.lockLost (s : State) (p pos : Nat) : State :=
  let k := s.portLane p pos
  let s := (s.put (s.laneStat k) Fld.laneStatAmLock 0).bump (s.laneErr k) Fld.laneErrAmLoss 1
  let st := s.portState p
  let others := (s.portInUse p).any (fun q => q != pos && s.locked p q)
  if !(s.portInUse p).contains pos then s
  else if st = 7 ∧ others then s.laneFailure p pos
  else if 5 ≤ st ∧ st ≤ 8 then s.failToDetect p
  else s

/-- Every working lane of a port in ALIGN is locked, within 50 ns of skew: EXCHANGE (R84, R87). -/
def State.tryExchange (s : State) (p skewNs : Nat) : State :=
  if s.portState p = 4 ∧ s.amAuto p ∧ skewNs ≤ 50 ∧ !(s.portWorking p).isEmpty
      ∧ (s.portWorking p).all (fun q => s.locked p q) then
    s.enterExchange p
  else s

/-- A marker arrives (R84): three at the spacing with matching pattern, this lane's position and consecutive counts lock the
lane, whose signal and clock are then present (R109); two failed in a row lose the lock. The first of a run begins the
lane's codeword grid (R82). With `am_auto` clear there is no marker search. -/
def doAlignmentMarker (lane : Nat) (m : Marker) (s : State) : State :=
  match s.lanePort lane with
  | none => s
  | some (p, pos) =>
    if s.portState p < 4 ∨ !s.amAuto p then s
    else
      let l := s.lane lane
      if m.patternOk ∧ m.pos.val = pos then
        let run := if 0 < l.goodRun ∧ m.count.toNat = (l.lastCount + 1) % 65536 then l.goodRun + 1 else 1
        let s := s.setLane lane { l with goodRun := min run 3, lastCount := m.count.toNat, badRun := 0 }
        let s := if l.goodRun = 0 ∧ !s.locked p pos then
            s.setLane lane { (s.lane lane) with cw := 0, badCws := [], uncorrRun := 0 } else s
        let s := if 3 ≤ run then
            let a := s.laneStat lane
            ((s.put a Fld.laneStatSig 1).put a Fld.laneStatCdrLock 1).put a Fld.laneStatAmLock 1
          else s
        s.tryExchange p m.skewNs
      else
        let s := s.setLane lane { l with goodRun := 0, badRun := min (l.badRun + 1) 2 }
        if l.badRun + 1 = 2 ∧ s.locked p pos then s.lockLost p pos else s

/-- ALIGNMENT_MARKER. -/
def execAlignmentMarker (lane : Fin 288) (m : Marker) (s : State) : Answer := act s (doAlignmentMarker lane m)

/-- The blocks that a codeword completes pass the descrambler (R79). A control block whose type is in neither table is
discarded and counted (R86); the content of the others is that of its own command. A block that a bad codeword overlaps
is not read (R85). -/
def State.takeBlocks (s : State) (lane : Nat) (badCw badHead : Bool) : List (BitVec 257) → State
  | [] => s
  | b :: t =>
    let r := readBlock (s.lane lane).rxScr (lsbBits b.toNat 257)
    let s := s.setLane lane { (s.lane lane) with rxScr := r.2.2 }
    let s := if !badCw && !badHead && !r.1 && (Ctl.parse r.2.1).isNone then
        s.bump (s.laneErr lane) Fld.laneErrCtlBad 1 else s
    State.takeBlocks s lane badCw false t

/-- A codeword is decoded (R82, R85): up to 10 symbol errors are corrected; more make it uncorrectable, and four
such in a row fail the lane (R102). It is the next of the lane's grid, and the blocks that it completes are read. -/
def doCodeword (lane errs : Nat) (blocks : List (BitVec 257)) (s : State) : State :=
  let l := s.lane lane
  let good := decide (errs ≤ 10)
  let s := s.setLane lane { l with
    cw := l.cw + 1, uncorrRun := if good then 0 else (l.uncorrRun + 1) % 4,
    badCws := (if good then l.badCws else l.cw :: l.badCws).filter (fun c => decide (l.cw < c + 1239)) }
  let s := if good then s.bump (s.laneErr lane) Fld.laneErrCorrSym errs
    else s.bump (s.laneErr lane) Fld.laneErrUncorrCw 1
  match s.lanePort lane with
  | some (p, pos) =>
    let s := if s.mission p then s.takeBlocks lane (!good) (l.uncorrRun != 0) blocks else s
    if !good ∧ l.uncorrRun + 1 = 4 then s.laneFailure p pos else s
  | none => s

/-- CODEWORD. -/
def execCodeword (lane : Fin 288) (word : RxCodeword) (s : State) : Answer := act s (doCodeword lane word.errs word.blocks)

/-- The first message bit of a block of a lane's grid, which a marker begins (R81, R82). -/
def blockStart (blk : Nat) : Nat := 1912 * (blk / 16384 + 1) + 257 * blk

/-- A codeword overlaps a block (R85). -/
def overlaps (cw blk : Nat) : Bool := decide (blockStart blk / 3400 ≤ cw ∧ cw ≤ (blockStart blk + 256) / 3400)

/-- A block position is bad on a lane in use (R85). -/
def State.badBlock (s : State) (p blk : Nat) : Bool :=
  (s.portInUse p).any (fun pos => (s.lane (s.portLane p pos)).badCws.any (fun c => overlaps c blk))

/-- A flit lies in a bad block (R85, R116): it takes one position on two lanes and two on one. -/
def State.badFlit (s : State) (p : Nat) (f : RxFlit) : Bool :=
  s.badBlock p f.blk || ((s.portInUse p).length == 1 && s.badBlock p (f.blk + 1))

/-- Signal is lost on a lane (R89, R102). -/
def doLossOfSignal (lane : Nat) (s : State) : State :=
  let a := s.laneStat lane
  let s := (s.put a Fld.laneStatSig 0).put a Fld.laneStatCdrLock 0
  match s.lanePort lane with
  | none => s
  | some (p, pos) =>
    if s.portState p < 2 ∨ !(s.portInUse p).contains pos then s
    else if (s.portInUse p).all (fun q => !s.flag (s.laneStat (s.portLane p q)) Fld.laneStatSig) then
      s.failToDetect p
    else s.laneFailure p pos

/-- LOSS_OF_SIGNAL. -/
def execLossOfSignal (lane : Fin 288) (s : State) : Answer := act s (doLossOfSignal lane)

/-- A bring-up state with a maximum overruns it (R88). ALIGN's maximum applies while `am_auto` is 0 too (DESIGN CHOICE,
log 127): R112 keeps the port from going on, not from failing. -/
def doStateTimeout (p : Nat) (s : State) : State :=
  if 2 ≤ s.portState p ∧ s.portState p ≤ 6 then s.failToDetect p else s

/-- STATE_TIMEOUT. -/
def execStateTimeout (p : Fin 144) (s : State) : Answer := act s (doStateTimeout p)

/-! ## The capability exchange (R92 to R94, R188, R572) -/

/-- The device's own capability record for a port (R92). -/
def State.ownCap (s : State) (p : Nat) : CapRec :=
  let x := s.port p
  { part := 0x0144, step := BitVec.ofNat 8 s.fuse.stepping, pelong := 1, fid := BitVec.ofNat 18 s.fid,
    port := BitVec.ofNat 8 p, laneA := x.laneA, laneB := x.laneB,
    precode := s.flag (s.laneCtrl p) Fld.laneCtrlPrecodeReq, profile := BitVec.ofNat 8 s.topo.profile,
    role := BitVec.ofNat 2 (s.role p), classVc := BitVec.ofNat 8 s.classVc,
    groups := BitVec.ofNat 16 s.topo.groups, serial := s.fuse.serial }

/-- The relation between the FIDs of a link's two ends that a role requires (R188). -/
def State.relationOk (s : State) (role f : Nat) : Bool :=
  let c := s.col; let c' := fidCol f
  match role with
  | 1 => fidGroup f == s.group && fidRow f == s.row && c' != c &&
      (match s.topo.profile with
       | 2 => c' == c + 1 || c == c' + 1
       | 3 => c' == (c + 1) % s.topo.cols || c == (c' + 1) % s.topo.cols
       | _ => true)
  | 2 => fidGroup f == s.group && c' == c && fidRow f != s.row
  | 3 => fidGroup f != s.group && decide (fidGroup f < s.topo.groups)
  | _ => false

/-- The agreement checks of R93, in order: the reason of the first that fails. -/
def State.agree (s : State) (p : Nat) (c : CapRec) : Option Nat :=
  if c.part ≠ 0x0144 ∨ c.pelong ≠ 1 then some 1
  else if c.serial = s.fuse.serial then some 2
  else if c.classVc.toNat ≠ s.classVc then some 3
  else if c.profile.toNat ≠ s.topo.profile ∨ c.groups.toNat ≠ s.topo.groups then some 4
  else if c.role.toNat ≠ s.role p ∨ !s.relationOk (s.role p) c.fid.toNat then some 5
  else if 4 ≤ (allPorts.filter (fun q => q != p && (s.portState q == 6 || s.portState q == 7)
      && s.partnerFid q == c.fid.toNat)).length then some 6
  else none

/-- The reason code that HELD reports for a failed check (R93): check 6 gives reason 7. -/
def heldCode (check : Nat) : Nat := if check = 6 then 7 else check

/-- Enter HELD (R93, R94): the reason is set and one informational event posted. -/
def State.enterHeld (s : State) (p reason : Nat) : State :=
  let s := (s.putPortStat p Fld.portStatState 8).putPortStat p Fld.portStatHeldReason reason
  s.noticePort p

/-- Send the ECHO_REQ of the next number with the time of its sending (R86, R95); the unit of the timestamp is the model's
choice, 1 ns (log 125). -/
def State.sendEcho (s : State) (p : Nat) : State :=
  let x := s.port p
  (s.setPort p { x with echoSent := x.echoSent + 1 }).sendCtl p (.echoReq x.echoSent (BitVec.ofNat 64 s.now))

/-- The exchange ends when a CAP has been received and acknowledged and a matching CAP_ACK has come (R93): HELD,
or MEASURE with the width of the lanes working at both ends (R94) and precoding at either end's request (R76). -/
def State.tryAgree (s : State) (p : Nat) : State :=
  let x := s.port p
  match x.lastCap with
  | none => s
  | some c =>
    let own := x.sentCap.getD (s.ownCap p)
    if s.portState p ≠ 5 ∨ !x.capAcked ∨ !x.ackOk then s
    else match s.agree p c with
      | some n => s.enterHeld p (heldCode n)
      | none =>
        let a := own.laneA && c.laneA
        let b := own.laneB && c.laneB
        if !a && !b then s.retrainEnds p |>.toDetect p
        else
          let s := s.setPort p { x with laneA := a, laneB := b, echoSent := 0, echoAnswers := [] }
          let s := s.putPortStat p Fld.portStatWidth (if a && b then 0 else if a then 1 else 2)
          let s := s.putPortStat p Fld.portStatPrecoded
            (b2n (c.precode || own.precode))
          let s := s.forAll [0, 1] (fun s pos =>
            let k := s.portLane p pos
            if (if pos = 0 then a else b) then s.put (s.laneStat k) Fld.laneStatInUse 1
            else if (s.laneRec p).width = 0 then s.put (s.laneStat k) Fld.laneStatInUse 0 else s)
          (s.putPortStat p Fld.portStatState 6).sendEcho p

/-- Send a CAP, which the CAP_ACK is checked against (R87, R572). -/
def State.sendCap (s : State) (p : Nat) : State :=
  let c := s.ownCap p
  (s.setPort p { (s.port p) with sentCap := some c }).sendCtl p (.cap c)

/-- Every 1 µs in EXCHANGE or HELD the port sends a CAP (R87). -/
def doCapTimer (p : Nat) (s : State) : State :=
  if s.portState p = 5 ∨ s.portState p = 8 then s.sendCap p else s

/-- CAP_TIMER. -/
def execCapTimer (p : Fin 144) (s : State) : Answer := act s (doCapTimer p)

/-- A CAP arrives (R87, R93, R94, R107): the partner is recorded and the CAP acknowledged; changed content restarts
the exchange, in HELD too. -/
def doCap (p : Nat) (c : CapRec) (s : State) : State :=
  let st := s.portState p
  if st ≠ 5 ∧ st ≠ 8 then s.ctlBad p
  else
    let x := s.port p
    let changed := match x.lastCap with
      | some c' => decide (c' ≠ c)
      | none => false
    let s := if changed then s.enterExchange p else s
    let a := s.portPartner p
    let s := (s.put a Fld.portPartnerFid c.fid.toNat).put a Fld.portPartnerPort c.port.toNat
    let s := s.put a Fld.portPartnerValid 1
    let s := s.setPort p { (s.port p) with lastCap := some c, capAcked := true }
    (s.sendCtl p (.capAck (capCrc c))).tryAgree p

/-- CAP. -/
def execCap (p : Fin 144) (c : CapRec) (s : State) : Answer := act s (doCap p c)

/-- A CAP_ACK whose CRC matches the last CAP sent completes the exchange (R93, R572). -/
def doCapAck (p crc : Nat) (s : State) : State :=
  if s.portState p = 8 then s
  else if s.portState p ≠ 5 then s.ctlBad p
  else if (s.port p).sentCap.map capCrc = some crc then (s.setPort p { (s.port p) with ackOk := true }).tryAgree p
  else s

/-- CAP_ACK. -/
def execCapAck (p : Fin 144) (crc : BitVec 16) (s : State) : Answer := act s (doCapAck p crc.toNat)

/-! ## The measurement (R95, R96) -/

/-- An ECHO_REQ is answered with the request's bytes and the turnaround (R86), in EXCHANGE, MEASURE and ACTIVE. -/
def doEchoReq (p num : Nat) (stamp : Word) (turn : Nat) (s : State) : State :=
  if 5 ≤ s.portState p ∧ s.portState p ≤ 7 then s.sendCtl p (.echoRsp num stamp turn) else s.ctlBad p

/-- ECHO_REQ. -/
def execEchoReq (p : Fin 144) (num : BitVec 16) (stamp : BitVec 64) (turn : BitVec 32) (s : State) : Answer :=
  act s (doEchoReq p num.toNat stamp turn.toNat)

/-- An ECHO_RSP counts whenever it arrives before MEASURE ends; the answer to the latest request starts the next (R95).
Times are in units of 10 ps. -/
def doEchoRsp (p num elapsed turn : Nat) (s : State) : State :=
  if s.portState p ≠ 6 then s.ctlBad p
  else
    let x := s.port p
    if num < x.echoSent ∧ !(x.echoAnswers.any (fun e => e.1 == num)) then
      let s := s.setPort p { x with echoAnswers := x.echoAnswers ++ [(num, elapsed - turn)] }
      if num + 1 = x.echoSent ∧ x.echoSent < 16 then s.sendEcho p else s
    else s

/-- ECHO_RSP. -/
def execEchoRsp (p : Fin 144) (num : BitVec 16) (elapsed : Nat) (turn : BitVec 32) (s : State) : Answer :=
  act s (doEchoRsp p num.toNat elapsed turn.toNat)

/-- 20 µs with no answer: the next ECHO_REQ is sent (R95). -/
def doEchoTimeout (p : Nat) (s : State) : State :=
  if s.portState p = 6 ∧ (s.port p).echoSent < 16 then s.sendEcho p else s

/-- ECHO_TIMEOUT. -/
def execEchoTimeout (p : Fin 144) (s : State) : Answer := act s (doEchoTimeout p)

/-- Insert into a rising list. -/
def insertNat (n : Nat) : List Nat → List Nat
  | [] => [n]
  | m :: t => if n ≤ m then n :: m :: t else m :: insertNat n t

/-- The median of a list: for an even number of values, the mean of the middle two, rounded down (log 19). -/
def median (l : List Nat) : Nat :=
  let q := l.foldr insertNat []
  let n := q.length
  if n % 2 = 1 then q.getD (n / 2) 0 else (q.getD (n / 2 - 1) 0 + q.getD (n / 2) 0) / 2

/-- The length estimate in units of 0.1 m (R96), from `rtt` in units of 10 ps and `vel` in ps/m: rounded down, 0 where the
formula gives less, and 65,535 where it gives more than the field holds (DESIGN CHOICE, log 129). -/
def lengthDm (rtt vel : Nat) : Nat := min ((5 * rtt - 24000) * 10 / vel) 65535

/-- The cap L that a port advertises (R128), from `rtt` in units of 10 ps. -/
def capOf (rtt : Nat) : Nat := max 130 (ceilDiv (3 * (rtt + 10000)) 200)

/-- The free credits that this end advertises for a VC, and for the shared pool (R129): the carving less the flits
held in the pool. -/
def State.poolHeld (s : State) (p vc : Nat) (shared : Bool) : Nat :=
  (s.wait.filter (fun w => w.charged && w.inPort == some p && w.shared == shared && (shared || w.inVc == vc))).foldl
    (fun n w => n + w.pkt.size) 0

/-- The free flits of a VC's reserve at the receiver. -/
def State.freeReserve (s : State) (p vc : Nat) : Nat := s.reserve p vc - s.poolHeld p vc false

/-- The free flits of the shared pool at the receiver. -/
def State.freeShared (s : State) (p : Nat) : Nat := s.sharedPool p - s.poolHeld p 0 true

/-- Send INIT parts 0 and 1 (R118, R129): freed flits that wait to be returned are counted in the free space and
taken off the returns. -/
def State.sendInit (s : State) (p : Nat) : State :=
  let l := s.link p
  let cap := capOf (s.get (s.portMeas p) Fld.portMeasRtt)
  let s := s.setLink p { l with freed := [], myCap := cap }
  let part (n : Nat) : Ctl :=
    .init n ((List.range 12).map (fun i => s.freeReserve p (12 * n + i))) (s.freeShared p) cap l.nextExp
  (s.sendCtl p (part 0)).sendCtl p (part 1)

/-- The port enters ACTIVE (R87, R88, R129, R145, R189, R213): failures and the held reason are cleared, the change is
stamped when the partner differs, the link layer starts with INIT, and packets that wait choose again. -/
def State.enterActive (s : State) (p : Nat) : State :=
  let s := (s.putPortStat p Fld.portStatState 7).putPortStat p Fld.portStatFailCount 0
  let s := s.putPortStat p Fld.portStatHeldReason 0
  let who := (s.partnerFid p, s.get (s.portPartner p) Fld.portPartnerPort)
  let s := if Table.find s.route.partner p = some who then s else s.stampChange p true
  let s := { s with route := { s.route with partner := Table.put s.route.partner p who } }
  let l := s.link p
  let s := s.setLink p { l with
    initIn0 := none, initIn1 := none, initAcked := false, adopted := false, firstSent := false, downSince := none,
    replayWait := none }
  let s := (s.setLstate p 1).sendInit p
  s.rerouteWaiting (fun w => w.waitsFor p || w.held)

/-- MEASURE ends (R95, R96, R108): fewer than 8 answers fail; a median above 20 µs is HELD with reason 6; else ACTIVE. A
median that `rtt` cannot hold reads 2^24 - 1 (DESIGN CHOICE, log 128). -/
def doMeasureEnd (p : Nat) (s : State) : State :=
  let x := s.port p
  if s.portState p ≠ 6 ∨ x.echoSent < 16 then s
  else if x.echoAnswers.length < 8 then s.failToDetect p
  else
    let rtt := min (median (x.echoAnswers.map (fun e => e.2))) (2 ^ 24 - 1)
    let a := s.portMeas p
    let vel := s.get a Fld.portMeasVel
    let (len, s) := if vel = 0 then (fun q : Word × State => (q.1.toNat, q.2)) s.fresh else (lengthDm rtt vel, s)
    let s := ((s.put a Fld.portMeasRtt rtt).put a Fld.portMeasLengthDm len).put a Fld.portMeasValid 1
    if 2000000 < rtt then
      (s.enterHeld p 6).releaseHeld p (s.partnerFid p)
    else s.enterActive p

/-- MEASURE_END. -/
def execMeasureEnd (p : Fin 144) (s : State) : Answer := act s (doMeasureEnd p)

/-! ## Adaptation and the load rule (R99 to R101) -/

/-- An ADAPT pair asks for coefficients of this end's lane, or reports them (R86, R99). Their coding is not stated: the
new coefficients are a free value (log 6). -/
def doAdapt (p lane : Nat) (s : State) : State :=
  if s.portState p = 7 ∨ s.portState p = 3 then
    if (s.portLanes p).contains lane then
      let (w, s) := s.fresh
      s.setCoeff lane (w.toNat % 2 ^ 18)
    else s
  else s.ctlBad p

/-- ADAPT. -/
def execAdapt (p : Fin 144) (lane : Fin 288) (_coeff : BitVec 48) (s : State) : Answer := act s (doAdapt p lane)

/-- A lane of an ACTIVE port refines its coefficients and tells its partner with an ADAPT pair (R99); held while
`adapt_freeze` is set. -/
def doAdaptRefine (lane coeff : Nat) (s : State) : State :=
  match s.lanePort lane with
  | some (p, _) =>
    if s.portState p = 7 ∧ !s.flag (s.laneExp lane) Fld.laneExpAdaptFreeze then
      (s.setCoeff lane coeff).sendCtl p (.adapt lane coeff)
    else s
  | none => s

/-- ADAPT_REFINE. -/
def execAdaptRefine (lane : Fin 288) (coeff : BitVec 18) (s : State) : Answer :=
  act s (doAdaptRefine lane coeff.toNat)

/-- Evaluate the load rule (R100, R101): a rise starts a re-measure; during one it waits for its end. -/
def State.evalLoad (s : State) (m : Nat) : State :=
  let x := s.macroSt m
  if loadExceeds (s.macroLoad m) x.snapLoad then
    s.setMacro m (if x.measuring then { x with pendingRise := true } else { x with measuring := true, mayFall := false })
  else s

/-- A macro's load over 64 µs is evaluated (R99, R100). -/
def doLoadSample (m load : Nat) (s : State) : State :=
  (s.forAll (macroLanes m) (fun s k => s.put (s.laneStat k) Fld.laneStatLoad load)).evalLoad m

/-- LOAD_SAMPLE. -/
def execLoadSample (m : Fin 36) (load : Nat) (s : State) : Answer := act s (doLoadSample m load)

/-- The highest setpoint of a macro's domain in steps of 5 mV above 0.70 V (R543): 0.85 V, or while AVS has failed
the present VDD_CORE less 30 mV (R544). -/
def State.macroLimit (s : State) : Nat :=
  if s.flag Reg.avs Fld.avsAvsFail then min 30 (s.get Reg.avs Fld.avsCoreSet - 16) else 30

/-! ## The digital islands' domains and VDD_CORE (R543, R544) -/

/-- The islands whose domains VDD_CORE feeds: all but the serdes macros (R542). -/
def digitalIslands : List Nat := List.range 38

/-- The VDD_CORE setting that the digital islands call for (R543): the highest setpoint plus 30 mV, within 0.65 to 0.85 V, in the
steps of BAY.AVS; a raise that waits for the rail counts with its step. -/
def State.railWant (s : State) : Nat :=
  min 40 ((digitalIslands.foldl (fun n i => max n ((s.island i).setpoint + b2n (s.island i).rising)) 0) - 4)

/-- Ask the regulator for the setting that is called for, when it is not the present one and no request is unanswered. -/
def State.askRail (s : State) : State :=
  let want := s.railWant
  if s.flag Reg.avs Fld.avsAvsFail || s.side.avsBusy || want == s.get Reg.avs Fld.avsCoreSet then s
  else { s with side := { s.side with avsSet := want, avsBusy := true, avsTries := 0 } }.emit (.avs want)

/-- VDD_CORE lets an island raise its setpoint a step: it stands 30 mV above the new one. -/
def State.railAllows (s : State) (x : Island) : Bool := decide (x.setpoint + 1 ≤ s.get Reg.avs Fld.avsCoreSet + 4)

/-- BAY.AVS `isl_max` follows the highest digital setpoint (R568). -/
def State.noteIslMax (s : State) : State :=
  s.put Reg.avs Fld.avsIslMax (digitalIslands.foldl (fun n i => max n (s.island i).setpoint) 0)

/-- A digital island raises its setpoint a step, up to 0.82 V: at once where the rail allows it, else once the rail has been
raised; with AVS failed it does not (R544). -/
def State.raiseIsland (s : State) (i : Nat) : State :=
  let x := s.island i
  if 44 ≤ x.setpoint then s
  else if s.railAllows x then (s.setIsland i { x with setpoint := x.setpoint + 1, rising := false }).noteIslMax
  else if s.flag Reg.avs Fld.avsAvsFail then s
  else (s.setIsland i { x with rising := true }).askRail

/-- A digital island lowers its setpoint a step, down to 0.60 V, and the rail follows. -/
def State.lowerIsland (s : State) (i : Nat) : State :=
  let x := s.island i
  if x.setpoint = 0 then s else ((s.setIsland i { x with setpoint := x.setpoint - 1, rising := false }).noteIslMax).askRail

/-- When VDD_CORE has been sampled a digital island may move its setpoint a step: which one does, and which way, is left to it: free
(log 140). -/
def State.regulate (s : State) : State :=
  let v := (Config.avsMove s.freeCtr).toNat
  let s := { s with freeCtr := s.freeCtr + 1 }
  let i := v % 64
  if !digitalIslands.contains i || (s.island i).inReset then s
  else if bit v 6 then s.raiseIsland i else s.lowerIsland i

/-- A lane takes part in a re-measure unless it is retired (R101). -/
def State.measured (s : State) (k : Nat) : Bool :=
  !s.flag (s.laneStat k) Fld.laneStatRetired && (s.lanePort k).isSome

/-- A re-measure step ends (R100, R101): the setpoint rises a step while a lane is short; at the limit each short lane
posts a counting event; the re-measure of a `recal` or of a full bring-up may lower the setpoint a step at a time (log 20). When it stops,
the load and setpoint are the new snapshot, and a rise that came meanwhile is evaluated. -/
def doRemeasureEnd (m : Nat) (margins : List Nat) (target : Nat) (s : State) : State :=
  let x := s.macroSt m
  if !x.measuring then s
  else
    let s := s.forAll ((List.range 8).filter (fun i => s.measured (8 * m + i))) (fun s i =>
      s.put (s.laneStat (8 * m + i)) Fld.laneStatMargin (min (margins.getD i 0) 4095))
    let short := (List.range 8).filter (fun i => s.measured (8 * m + i) && decide (margins.getD i 0 < target))
    let stop (s : State) : State :=
      let s := s.setMacro m { (s.macroSt m) with measuring := false, mayFall := false, pendingRise := false }
      let s := s.snapshot m
      if x.pendingRise then s.evalLoad m else s
    if short.isEmpty then
      if x.mayFall ∧ 0 < x.setpoint then s.setMacro m { x with setpoint := x.setpoint - 1 }
      else stop s
    else if x.setpoint < s.macroLimit then s.setMacro m { x with setpoint := x.setpoint + 1, mayFall := false }
    else
      stop (s.forAll short (fun s i => match s.lanePort (8 * m + i) with
        | some (p, _) => s.postLink p 4
        | none => s))

/-- REMEASURE_END. -/
def execRemeasureEnd (m : Fin 36) (margins : List Nat) (target : Nat) (s : State) : Answer :=
  act s (doRemeasureEnd m margins target)

/-! ## LANE_CTRL commands (R105, R111) -/

/-- A RETRAIN pair takes the port from ACTIVE to ALIGN (R90); elsewhere it has no meaning (R86). -/
def doRetrain (p : Nat) (s : State) : State := if s.portState p = 7 then s.startRetrain p else s.ctlBad p

/-- RETRAIN. -/
def execRetrain (p : Fin 144) (s : State) : Answer := act s (doRetrain p)

/-- `restart` returns the port to DETECT; a port in OFF stays there (R87, R105). -/
def doLaneRestart (p : Nat) (s : State) : State :=
  s.ifStructured (s.laneCtrl p) (fun s => if s.portState p = 0 then s else (s.retrainEnds p).toDetect p)

/-- LANE_RESTART. -/
def execLaneRestart (p : Fin 144) (s : State) : Answer := act s (doLaneRestart p)

/-- `retrain` starts a retrain (R90, R105). -/
def doLaneRetrain (p : Nat) (s : State) : State := s.ifStructured (s.laneCtrl p) (fun s => s.askRetrain p)

/-- LANE_RETRAIN. -/
def execLaneRetrain (p : Fin 144) (s : State) : Answer := act s (doLaneRetrain p)

/-- `hold` holds the port in OFF, where it may send a test pattern, or releases it toward DETECT (R87, R105). -/
def doLaneHold (p : Nat) (hold : Bool) (s : State) : State :=
  s.ifStructured (s.laneCtrl p) (fun s =>
    let a := s.laneCtrl p
    let h := s.get a Fld.laneCtrlHold
    let h' := if hold then h ||| 2 ^ (p % 8) else h &&& (255 ^^^ 2 ^ (p % 8))
    let s := s.put a Fld.laneCtrlHold h'
    ((s.tryOff p).tryBringUp p).testPattern p)

/-- LANE_HOLD. -/
def execLaneHold (p : Fin 144) (hold : Bool) (s : State) : Answer := act s (doLaneHold p hold)

/-- `relane` retrains the port, which tries both lanes again (R90, R91). -/
def doLaneRelane (p : Nat) (s : State) : State := s.ifStructured (s.laneCtrl p) (fun s => s.askRetrain p)

/-- LANE_RELANE. -/
def execLaneRelane (p : Fin 144) (s : State) : Answer := act s (doLaneRelane p)

/-- The slot that a physical tile serves. -/
def State.slotOf (s : State) (tile : Nat) : Option Nat := (List.range 18).find? (fun j => s.tileOf j == tile)

/-- `recal` re-measures every macro of the tile; setpoints may fall (R101, R105). -/
def doLaneRecal (n : Nat) (s : State) : State :=
  s.ifStructured (Reg.laneCtrl n) (fun s =>
    match s.slotOf n with
    | some j => s.forAll [2 * j, 2 * j + 1] State.mayFall
    | none => s)

/-- LANE_RECAL. -/
def execLaneRecal (n : Fin 19) (s : State) : Answer := act s (doLaneRecal n)

/-- A write of `slip` shifts the receive codeword grid (R111); with `expert` clear it is discarded (R72). -/
def doSlip (n k b : Nat) (s : State) : State :=
  s.ifStructured (Reg.laneExp n k) (fun s =>
    if !s.flag (Reg.laneCtrl n) Fld.laneCtrlExpert then s.notice 61 (Reg.laneExp n k)
    else if s.flag (Reg.laneCtrl n) Fld.laneCtrlAmAuto ∨ b = 0 ∨ 3599 < b then s
    else match s.slotOf n with
      | some j =>
        let lane := 16 * j + k
        let l := s.lane lane
        s.setLane lane { l with grid := (l.grid + b) % 3600 }
      | none => s)

/-- SLIP. -/
def execSlip (n : Fin 19) (k : Fin 16) (bits : BitVec 12) (s : State) : Answer := act s (doSlip n k bits.toNat)

end Sys2Proof.Machine
end

