-- ==== Sys2Proof/Machine/Link.lean ====
section
/-! DEFINITION. Link: the Pelong link layer: frames, SEALs, credits, acknowledgement, retransmission, keep-alive and
the leak rule (R113 to R145). -/

namespace Sys2Proof.Machine

/-! ## Link protocol errors (R125) -/

/-- A link protocol error: a counting event, and the port goes to DETECT (R125). -/
def State.protocolError (s : State) (p : Nat) : State := (s.countDown p 2).toDetect p

/-- The link layer runs on a port (R87). -/
def State.linkRuns (s : State) (p : Nat) : Bool := s.portActive p

/-- A link control pair is meaningful only in ACTIVE (R86): elsewhere it is discarded and counted. -/
def State.onLink (s : State) (p : Nat) (f : State → State) : State :=
  if s.linkRuns p then f s else s.ctlBad p

/-! ## Frames and records (R113 to R115) -/

/-- The bytes of a frame record that the frame CRC covers: 0 to 1 and 6 to 8 (R114, R115). -/
def recBytes (seq hmap smap nflits : Nat) (abort : Bool) : List Byte :=
  leBytes seq 2 ++ leBytes hmap 1 ++ leBytes smap 1 ++ leBytes (nflits % 16 + 16 * b2n abort) 1

/-- The CRC of a frame (R115). -/
def frameCrc (flits : List (List Byte)) (seq hmap smap : Nat) (abort : Bool) : Nat :=
  crc32c (flits.flatten ++ recBytes seq hmap smap flits.length abort)

/-- The record of a frame in a SEAL (R114). -/
def Frame.record (f : Frame) : SealRec :=
  ⟨BitVec.ofNat 16 f.seq, BitVec.ofNat 32 (frameCrc f.flits f.seq f.hmap f.smap f.abort), BitVec.ofNat 8 f.hmap,
    BitVec.ofNat 8 f.smap, BitVec.ofNat 4 f.flits.length, f.abort⟩

/-- The number of the last frame delivered in order (R133). -/
def LinkSt.ack (l : LinkSt) : Nat := (l.nextExp + 0xFFFF) % 0x10000

/-! ## Acknowledgement at the transmitter (R125, R133, R135) -/

/-- A frame number names a frame never sent (R125). -/
def LinkSt.neverSent (l : LinkSt) (n : Nat) : Bool := laterMod 16 n ((l.nextSeq + 0xFFFF) % 0x10000)

/-- The frames and packets that stay in the replay store once `a` is acknowledged (R135): a frame stays while it is not
acknowledged, or a packet with a flit in it has not had its last flit acknowledged. -/
def LinkSt.retain (l : LinkSt) (a : Nat) : LinkSt :=
  let pk := l.storePkts.filter (fun e => laterMod 16 e.2.1 a)
  let open' := pk.map (fun e => e.2.2.id) ++ (l.txPkts.filter (fun t => t.started)).map (fun t => t.wp.id)
  let keep (f : Frame) : Bool := laterMod 16 f.seq a || f.ids.any (fun i => open'.contains i)
  { l with lastAck := a, storePkts := pk, store := l.store.filter keep }

/-- A cumulative acknowledgement arrives: an error when it names a frame never sent; it advances the store. -/
def State.takeAck (s : State) (p a : Nat) : Option State :=
  let l := s.link p
  if l.neverSent a then none
  else if laterMod 16 a l.lastAck then some (s.setLink p (l.retain a)) else some s

/-- Take an acknowledgement, and go on unless it is a protocol error. -/
def State.withAck (s : State) (p a : Nat) (f : State → State) : State :=
  match s.takeAck p a with
  | some s => f s
  | none => s.protocolError p

/-! ## The transmitter (R119 to R123, R126) -/

/-- Flits set aside for granted packets whose header has not been sent (R166). -/
def State.aside (s : State) (p vc : Nat) (shared : Bool) : Nat :=
  ((s.link p).txPkts.filter (fun t => !t.started && t.shared == shared && (vc == 24 || t.vc == vc))).foldl
    (fun n t => n + t.wp.pkt.size) 0
  + ((s.outp p).grants.filter (fun g => g.acct == shared &&
      (vc == 24 || (s.outRoute p g.wp.pkt).vc == vc))).foldl (fun n g => n + g.wp.pkt.size) 0

/-- The account that can be charged for `n` flits on a VC (R126): false the reserve, true the shared pool. -/
def State.account (s : State) (p vc n : Nat) : Option Bool :=
  let l := s.link p
  if n + s.aside p vc false ≤ Table.getD l.reserveFree 0 vc then some false
  else if n + s.aside p 24 true ≤ l.sharedFree
      ∧ Table.getD l.sharedHeld 0 vc + n + s.aside p vc true ≤ l.peerCap then some true
  else none

/-- Charge a packet when its header flit is sent (R126). -/
def LinkSt.charge (l : LinkSt) (vc n : Nat) (shared : Bool) : LinkSt :=
  if shared then { l with
    sharedFree := l.sharedFree - n, sharedHeld := Table.put l.sharedHeld vc (Table.getD l.sharedHeld 0 vc + n) }
  else { l with reserveFree := Table.put l.reserveFree vc (Table.getD l.reserveFree 0 vc - n) }

/-- The packet whose flit goes next (R122, R123): a started express packet, an express packet that may interrupt, the
started packet, or the first that waits. One that an express packet has passed sends a flit before the next passes (R169). -/
def nextTx (preempt : Bool) (l : List TxPkt) : Option TxPkt :=
  let ex := l.find? (fun t => t.wp.pkt.express && t.started)
  let cur := l.find? (fun t => t.started && !t.wp.pkt.express)
  let newEx := l.find? (fun t => t.wp.pkt.express && !t.started)
  match ex, cur, newEx with
  | some t, _, _ => some t
  | none, some c, some e => if preempt && !c.wp.pkt.isLocked && !c.yielded then some e else some c
  | none, some c, none => some c
  | none, none, _ => l.head?

/-- The frame in progress holds an express header flit. -/
def expressHeader (f : Frame) : Bool :=
  (List.range 8).any (fun i => bit f.hmap i && atBytes (f.flits.getD i []) 1 1 % 8 == 0)

/-- Send one flit of a new frame (R120 to R122, R126). -/
def State.sendFlit (s : State) (p : Nat) (t : TxPkt) : State :=
  let l := s.link p
  let isHead := !t.started
  let l := if isHead then l.charge t.vc t.wp.pkt.size t.shared else l
  let flit := t.flits.headD []
  let i := l.cur.flits.length
  let abort := t.wp.aborted && t.flits.length == 1 && t.started
  let cur : Frame := { l.cur with
    flits := l.cur.flits ++ [flit], hmap := l.cur.hmap + (if isHead then 2 ^ i else 0),
    smap := l.cur.smap + (if isHead && t.shared then 2 ^ i else 0), abort := abort,
    ids := if l.cur.ids.contains t.wp.id then l.cur.ids else l.cur.ids ++ [t.wp.id] }
  let t' := { t with flits := t.flits.drop 1, started := true, yielded := false, first := if isHead then l.nextSeq else t.first }
  let l := { l with cur := cur, firstSent := true }
  let l := if t'.flits.isEmpty then
      { l with txPkts := l.txPkts.filter (fun x => x.wp.id != t.wp.id),
               storePkts := l.storePkts ++ [(t'.first, l.nextSeq, t.wp)] }
    else { l with txPkts := l.txPkts.map (fun x => if x.wp.id = t.wp.id then t' else x) }
  let l := if isHead && t.wp.pkt.express then
      { l with txPkts := l.txPkts.map (fun x => if x.started && !x.wp.pkt.express then { x with yielded := true } else x) }
    else l
  let l := if cur.flits.length = 8 ∨ abort then
      let l := l.close
      { l with sealDue := l.group.length == 3 || expressHeader cur }
    else l
  ((s.setLink p l).sendData p flit).flitsTx p (t.wp.pkt.tc) 1

/-- A SEAL, NAK, KEEPALIVE or CREDIT carries the new `ack`: a CREDIT that only it made due is due no more (R121). -/
def LinkSt.acked (l : LinkSt) : LinkSt := { l with ackSent := l.ack, creditDue := l.creditDue && !l.freed.isEmpty }

/-- Send the SEAL of the group (R114, R118). -/
def State.sendSeal (s : State) (p : Nat) : State :=
  let l := s.link p
  (s.setLink p { l.acked with group := [], sealDue := false, kaDue := false }).sendCtl p
    (.seal (l.group.map Frame.record) l.ack)

/-- Send a NAK of up to eight missing numbers (R134), counted. -/
def State.sendNak (s : State) (p : Nat) : State :=
  let l := s.link p
  let nums := l.nakDue.take 8
  let missing := l.missing.map (fun e => if nums.contains e.1 then (e.1, e.2 + 1) else e)
  let s := s.setLink p { l.acked with nakDue := l.nakDue.drop 8, missing := missing }
  (s.bump (s.linkErr p) Fld.linkErrNakTx 1).sendCtl p (.nak nums l.ack)

/-- Send a REPLAY (R136, R137): the reorder buffer is emptied, and only the named frame and those after it count. -/
def State.sendReplay (s : State) (p n : Nat) : State :=
  let l := s.link p
  let s := s.setLink p { l with
    replayDue := none, reorder := [], missing := [], nakDue := [], replayWait := some n, replays := l.replays + 1 }
  (s.bump (s.linkErr p) Fld.linkErrReplayTx 1).sendCtl p (.replay n l.ack)

/-- Flits of an account freed and not returned, which the transmitter does not hold yet (R125, R127). -/
def LinkSt.freedOf (l : LinkSt) (vc : Nat) (shared : Bool) : Nat :=
  (l.freed.filter (fun e => e.2.1 == shared && (shared || e.1 == vc))).foldl (fun n e => n + e.2.2) 0

/-- Flits freed and not returned. -/
def LinkSt.freedFlits (l : LinkSt) : Nat := l.freed.foldl (fun n e => n + e.2.2) 0

/-- Freed flits summed by VC and account. -/
def sumFreed : List (Nat × Bool × Nat) → List (Nat × Bool × Nat) → List (Nat × Bool × Nat)
  | [], acc => acc
  | (vc, a, n) :: t, acc =>
    if acc.any (fun e => e.1 == vc && e.2.1 == a) then
      sumFreed t (acc.map (fun e => if e.1 = vc ∧ e.2.1 = a then (vc, a, e.2.2 + n) else e))
    else sumFreed t (acc ++ [(vc, a, n)])

/-- Send a CREDIT of up to seven records (R118, R121). -/
def State.sendCredit (s : State) (p : Nat) : State :=
  let l := s.link p
  let all := sumFreed l.freed []
  let recs := (all.take 7).map (fun e => (⟨BitVec.ofNat 5 e.1, e.2.1, BitVec.ofNat 16 e.2.2⟩ : CreditRec))
  (s.setLink p { l with freed := all.drop 7, creditDue := !(all.drop 7).isEmpty, ackSent := l.ack }).sendCtl p
    (.credit recs l.ack)

/-- The receive pool of a port holds no flit (R118). -/
def State.poolEmpty (s : State) (p : Nat) : Bool :=
  (s.link p).rxOpen.isEmpty && !(s.wait.any (fun w => w.charged && w.inPort == some p))

/-- Send a KEEPALIVE (R118, R139). -/
def State.sendKeepalive (s : State) (p : Nat) : State :=
  let l := s.link p
  (s.setLink p { l.acked with kaDue := false }).sendCtl p (.keepalive l.nextSeq l.ack (s.poolEmpty p))

/-- One flit of the retransmitted frame in progress, which is sealed alone when it is complete (R119, R120). -/
def State.sendRetx (s : State) (p : Nat) (f : Frame) : State :=
  let l := s.link p
  let cur := if l.curRetx.isEmpty then f.flits else l.curRetx
  let rest := cur.drop 1
  let first := l.curRetx.isEmpty
  let l := { l with firstSent := true }
  let l := if rest.isEmpty then
      { l with curRetx := [], retxQ := l.retxQ.drop 1, group := [f], groupRetx := true, sealDue := true }
    else { l with curRetx := rest }
  let s := if first then (s.bump (s.linkErr2 p) Fld.linkErr2RetxFrames 1).count ⟨0x102, some p, none, none, none, none, 1⟩ else s
  (s.setLink p l).sendData p (cur.headD [])

/-- A flit takes one block position on a two-lane port, and the next one too on a one-lane port (R80, R113). -/
def State.takePosition (s : State) (p : Nat) : State :=
  if s.get (s.portStat p) Fld.portStatWidth = 0 then s else s.setLink p { (s.link p) with half := true }

/-- The packet whose flit of a new frame is ready (R120, R135): none starts a frame while the replay store is full. -/
def State.flitReady (s : State) (p : Nat) : Option TxPkt :=
  let l := s.link p
  if l.cur.flits.isEmpty && decide (512 ≤ l.store.length) then none
  else nextTx (s.flag Reg.exchCtrl Fld.exchCtrlPreempt) l.txPkts

/-- A SEAL is due (R120): after a full group, an express header or a retransmission, or when the group or the frame in
progress has no flit ready to follow it; a new frame's group ends before a retransmission. -/
def State.sealNow (s : State) (p : Nat) : Bool :=
  let l := s.link p
  l.sealDue || ((!l.cur.flits.isEmpty || !l.group.isEmpty)
    && ((s.flitReady p).isNone || (l.curRetx.isEmpty && !l.retxQ.isEmpty)))

/-- What is due at a block position of a link that is up, in order (R119). -/
def State.sendNext (s : State) (p : Nat) : State :=
  let l := s.link p
  if s.sealNow p then (s.setLink p l.close).sendSeal p
  else if !l.nakDue.isEmpty then s.sendNak p
  else match l.replayDue, l.retxQ with
  | some n, _ => s.sendReplay p n
  | none, f :: _ => (s.sendRetx p f).takePosition p
  | none, [] =>
    if l.creditDue || decide (64 ≤ l.freedFlits) then s.sendCredit p
    else match s.flitReady p with
    | some t => (s.sendFlit p t).takePosition p
    | none => if l.kaDue then s.sendKeepalive p else s.sendCtl p .idle

/-- At a block position the transmitter sends the first item that is due (R119); the second position of a one-lane flit is
taken. Where the mission encoding is in force and no link layer runs, an IDLE pair goes (R87). -/
def doBlockPosition (p : Nat) (s : State) : State :=
  if !s.mission p then s
  else if !s.linkRuns p ∨ s.lstate p ≠ 2 then s.sendCtl p .idle
  else if (s.link p).half then s.setLink p { (s.link p) with half := false }
  else s.sendNext p

/-- BLOCK_POSITION. -/
def execBlockPosition (p : Fin 144) (s : State) : Answer := act s (doBlockPosition p)

/-! ## The receiver (R116, R122 to R125, R132, R134) -/

/-- A packet enters the port's receive pool with its header flit: it may leave before it is whole (R124). -/
def State.admitPkt (s : State) (p : Nat) (pk : Packet) (shared part : Bool) : Nat × State :=
  let (id, s) := s.newId
  let w : WaitPkt := ⟨id, pk, some p, pk.route.vc, shared, s.portTile p, p % 8, none, s.now, none, false, true, s.now, part⟩
  (id, { s with wait := s.wait ++ [w] })

/-- One flit of a delivered frame: a header flit opens a packet under R123, a payload flit extends the packet last
opened; the answer is none on a link protocol error. -/
def State.takeFlit (s : State) (p : Nat) (flit : List Byte) (head shared abort : Bool) : Option State :=
  let l := s.link p
  if head then
    let pk := Packet.ofHeader flit
    let okOpen := match l.rxOpen with
      | [] => true
      | [o] => pk.express && !o.pkt.express && !o.pkt.isLocked
      | _ => false
    let vc := pk.route.vc
    let room := (if shared then s.freeShared p else s.freeReserve p vc) - l.freedOf vc shared
    if !okOpen || !s.vcEnabled vc || decide (room < pk.size) then none
    else
      let need := payloadFlits pk.plen
      let (id, s) := (s.flitsRx p pk.tc 1).admitPkt p pk shared (need != 0)
      if need = 0 then some s
      else some (s.setLink p { (s.link p) with rxOpen := ⟨id, pk, shared, need, []⟩ :: (s.link p).rxOpen })
  else
    match l.rxOpen with
    | [] => none
    | o :: rest =>
      let s := s.flitsRx p o.pkt.tc 1
      if abort then some ((s.setLink p { (s.link p) with rxOpen := rest }).abortPkt o.id)
      else
        let o := { o with got := o.got ++ [flit] }
        if o.got.length = o.need then
          some ((s.setLink p { (s.link p) with rxOpen := rest }).wholePkt o.id ((o.got.flatten).take o.pkt.plen))
        else some (s.setLink p { (s.link p) with rxOpen := o :: rest })

/-- Deliver the flits of a frame from index `i` on. -/
def State.takeFlits (s : State) (p : Nat) (f : Frame) (i : Nat) : List (List Byte) → Option State
  | [] => some s
  | b :: t =>
    match s.takeFlit p b (bit f.hmap i) (bit f.smap i) (f.abort && t.isEmpty) with
    | some s => State.takeFlits s p f (i + 1) t
    | none => none

/-- A frame in order is delivered: it is missing no more, and a REPLAY that waits to be sent names the oldest number
still missing after its fourth NAK, or is not due (R136). -/
def LinkSt.deliver (l : LinkSt) (n : Nat) : LinkSt :=
  let next := (l.nextExp + 1) % 0x10000
  let missing := l.missing.filter (fun e => e.1 != n)
  { l with
    reorder := l.reorder.filter (fun e => e.1.seq != n), nextExp := next, missing := missing,
    nakDue := l.nakDue.filter (fun k => k != n), replays := 0,
    replayDue := if l.replayDue.isSome && missing.any (fun e => decide (4 ≤ e.2)) then some next else none }

/-- Deliver the frames of the reorder buffer that follow in order (R132). -/
def State.drainReorder (s : State) (p : Nat) : Nat → Option State
  | 0 => some s
  | n + 1 =>
    let l := s.link p
    match l.reorder.find? (fun e => e.1.seq == l.nextExp) with
    | none => some s
    | some (f, _) =>
      let s := s.setLink p (l.deliver f.seq)
      match s.takeFlits p f 0 f.flits with
      | some s => State.drainReorder s p n
      | none => none

/-- Mark every number from the next expected up to `to` (not included) missing (R134). -/
def LinkSt.markMissing (l : LinkSt) (upto : Nat) : LinkSt :=
  let n := subMod 16 upto l.nextExp
  let nums := ((List.range n).map (fun i => (l.nextExp + i) % 0x10000)).filter (fun k =>
    !(l.reorder.any (fun e => e.1.seq == k)) && !(l.missing.any (fun e => e.1 == k)))
  if l.replayWait.isSome then l
  else { l with missing := l.missing ++ nums.map (fun k => (k, 0)), nakDue := l.nakDue ++ nums }

/-- An accepted frame is delivered, reordered or discarded (R132, R136, R137). -/
def State.acceptFrame (s : State) (p : Nat) (f : Frame) : Option State :=
  let l := s.link p
  match l.replayWait with
  | some n =>
    if f.seq ≠ n then some s
    else
      (s.setLink p { l with replayWait := none, reorder := [(f, [])] }).drainReorder p 1
  | none =>
    if f.seq = l.nextExp then
      (s.setLink p { l with reorder := (f, []) :: l.reorder }).drainReorder p 65
    else if laterMod 16 f.seq l.nextExp then
      if l.reorder.any (fun e => e.1.seq == f.seq) then some s
      else if 64 ≤ l.reorder.length then some (s.setLink p { l with replayDue := some l.nextExp })
      else
        let l := l.markMissing f.seq
        some (s.setLink p { l with
          reorder := l.reorder ++ [(f, [])], missing := l.missing.filter (fun e => e.1 != f.seq),
          nakDue := l.nakDue.filter (fun k => k != f.seq) })
    else some s

/-- Take the frames of a good SEAL in order, each checked by its blocks and its CRC (R116). -/
def State.takeFrames (s : State) (p : Nat) : List SealRec → List RxFlit → Option State
  | [], _ => some s
  | r :: rs, fl =>
    let n := r.nflits.toNat
    let mine := fl.take n
    let bytes := mine.map (fun x => x.bytes)
    let ok := !(mine.any (fun x => s.badFlit p x))
      && frameCrc bytes r.seq.toNat r.hmap.toNat r.smap.toNat r.abort == r.crc.toNat
    let next := if ok then
        s.acceptFrame p ⟨r.seq.toNat, bytes, r.hmap.toNat, r.smap.toNat, r.abort, []⟩
      else some (s.bump (s.linkErr p) Fld.linkErrFrameBad 1)
    match next with
    | some s => State.takeFrames s p rs (fl.drop n)
    | none => none

/-- A SEAL is discarded with its group (R116): the spec does not say how many frames it adds to `frame_bad`; the model adds
the number of its records (DESIGN CHOICE, log 132). -/
def State.dropSeal (s : State) (p n : Nat) : State :=
  (s.setLink p { (s.link p) with sealLost := true }).bump (s.linkErr p) Fld.linkErrFrameBad n

/-- A good SEAL after a discarded one shows that every number before its first is sent (R134). -/
def LinkSt.learn (l : LinkSt) (recs : List SealRec) : LinkSt :=
  let first := match recs with
    | r :: _ => r.seq.toNat
    | [] => l.nextExp
  let m := if l.sealLost && laterMod 16 first l.nextExp then l.markMissing first else l
  { m with sealLost := false }

/-- A SEAL arrives at block position `blk` (R114, R116): a SEAL in a bad block, or one whose count does not match, discards
every flit since the last. -/
def doSeal (p : Nat) (flits : List RxFlit) (recs : List SealRec) (ack blk : Nat) (s : State) : State :=
  s.onLink p (fun s =>
    let countOk := recs.foldl (fun n r => n + r.nflits.toNat) 0 == flits.length
      && recs.all (fun r => decide (1 ≤ r.nflits.toNat ∧ r.nflits.toNat ≤ 8))
      && decide (1 ≤ recs.length ∧ recs.length ≤ 3)
    if s.badBlock p blk then s.dropSeal p recs.length
    else s.withAck p ack (fun s =>
      if !countOk then s.dropSeal p recs.length
      else match (s.setLink p ((s.link p).learn recs)).takeFrames p recs flits with
        | some s => s
        | none => s.protocolError p))

/-- SEAL. -/
def execSeal (p : Fin 144) (flits : List RxFlit) (recs : List SealRec) (ack : BitVec 16) (blk : Nat) (s : State) :
    Answer := act s (doSeal p flits recs ack.toNat blk)

/-! ## CREDIT, NAK, REPLAY, KEEPALIVE (R118, R126, R134, R137, R139) -/

/-- One returned record (R126, R129): a return never takes a VC's shared holding below 0. -/
def LinkSt.giveBack (l : LinkSt) (vc : Nat) (shared : Bool) (n : Nat) : LinkSt :=
  if shared then { l with
    sharedFree := l.sharedFree + n, sharedHeld := Table.put l.sharedHeld vc (Table.getD l.sharedHeld 0 vc - n) }
  else { l with reserveFree := Table.put l.reserveFree vc (Table.getD l.reserveFree 0 vc + n) }

/-- A CREDIT arrives. -/
def doCredit (p : Nat) (recs : List CreditRec) (ack : Nat) (s : State) : State :=
  s.onLink p (fun s => s.withAck p ack (fun s =>
    s.setLink p (recs.foldl (fun l r => l.giveBack r.vc.toNat r.shared r.flits.toNat) (s.link p))))

/-- CREDIT. -/
def execCredit (p : Fin 144) (recs : List CreditRec) (ack : BitVec 16) (s : State) : Answer :=
  act s (doCredit p recs ack.toNat)

/-- A NAK schedules resends of the named frames in the order named (R134): an acknowledged number is ignored, and one
never sent is an error (R125). -/
def doNak (p : Nat) (nums : List Nat) (ack : Nat) (s : State) : State :=
  s.onLink p (fun s => s.withAck p ack (fun s =>
    let l := s.link p
    if nums.any (fun n => l.neverSent n) then s.protocolError p
    else
      let again := nums.filterMap (fun n =>
        if laterMod 16 n l.lastAck then l.store.find? (fun f => f.seq == n) else none)
      s.setLink p { l with retxQ := l.retxQ ++ again }))

/-- NAK. -/
def execNak (p : Fin 144) (nums : List (BitVec 16)) (ack : BitVec 16) (s : State) : Answer :=
  act s (doNak p (nums.map (fun n => n.toNat)) ack.toNat)

/-- A REPLAY drops pending NAK requests and resends every retained frame from the named number (R137). -/
def doReplay (p first ack : Nat) (s : State) : State :=
  s.onLink p (fun s => s.withAck p ack (fun s =>
    let l := s.link p
    if l.neverSent first then s.protocolError p
    else
      let cur := if l.curRetx.isEmpty then [] else l.retxQ.take 1
      s.setLink p { l with retxQ := cur ++ l.store.filter (fun f => atOrAfterMod 16 f.seq first) }))

/-- REPLAY. -/
def execReplay (p : Fin 144) (first ack : BitVec 16) (s : State) : Answer := act s (doReplay p first.toNat ack.toNat)

/-- A KEEPALIVE reveals frames beyond the last received (R134, R139). -/
def doKeepalive (p next ack : Nat) (empty : Bool) (s : State) : State :=
  s.onLink p (fun s => s.withAck p ack (fun s =>
    let l := { s.link p with peerEmpty := empty }
    s.setLink p (if laterMod 16 next l.nextExp then l.markMissing next else l)))

/-- KEEPALIVE. -/
def execKeepalive (p : Fin 144) (next ack : BitVec 16) (empty : Bool) (s : State) : Answer :=
  act s (doKeepalive p next.toNat ack.toNat empty)

/-! ## INIT (R129, R130) -/

/-- The link is up once a pair has been adopted and both parts were acknowledged (R129, R147). -/
def State.tryUp (s : State) (p : Nat) : State :=
  let l := s.link p
  if l.initAcked ∧ l.adopted ∧ s.lstate p = 1 then (s.setLstate p 2).freshWaits s p else s

/-- Adopt a complete pair of INIT parts before the first frame (R129), and resume at the receiver's next expected
number (R130). -/
def State.adopt (s : State) (p : Nat) (res : List Nat) (shared cap next : Nat) : State :=
  let l := s.link p
  let oldest := match l.store with
    | f :: _ => f.seq
    | [] => l.nextSeq
  if laterMod 16 next l.nextSeq || laterMod 16 oldest next then s.protocolError p
  else
    let credits := (List.range 24).map (fun vc => (vc, res.getD vc 0))
    (s.setLink p { l with
      reserveFree := credits, sharedFree := shared, sharedHeld := [], peerCap := cap, adopted := true,
      curRetx := [], retxQ := l.store.filter (fun f => atOrAfterMod 16 f.seq next) }).tryUp p

/-- INIT values stay within the carving of the port (R46, R125): each VC's reserve, and the shared pool. The partner's own
carving is not told to this end: its own is the measure (DESIGN CHOICE, log 131). -/
def State.initFits (s : State) (p : Nat) (res : List Nat) (shared : Nat) : Bool :=
  (List.range 24).all (fun vc => decide (res.getD vc 0 ≤ s.reserve p vc)) && decide (shared ≤ s.sharedPool p)

/-- An INIT part arrives: a complete pair is acknowledged, and adopted before the first frame (R129); values beyond
the carving are an error (R125). -/
def doInit (p part : Nat) (res : List Nat) (shared cap next : Nat) (s : State) : State :=
  s.onLink p (fun s =>
    let l := s.link p
    let x := some (res, shared, cap, next)
    let l := if part = 0 then { l with initIn0 := x, initIn1 := none } else { l with initIn1 := x }
    let s := s.setLink p l
    match l.initIn0, l.initIn1 with
    | some (r0, _, _, _), some (r1, sh, cp, nx) =>
      let all := r0 ++ r1
      if !s.initFits p all sh then s.protocolError p
      else
        let s := (s.setLink p { l with initIn0 := none, initIn1 := none }).sendCtl p (.initAck 3)
        if l.firstSent then s else s.adopt p all sh cp nx
    | _, _ => s)

/-- INIT. -/
def execInit (p : Fin 144) (part : Fin 2) (reserve : List Nat) (shared cap : Nat) (next : BitVec 16) (s : State) :
    Answer := act s (doInit p part reserve shared cap next.toNat)

/-- An INIT_ACK that reports both parts stops the repeats (R129). -/
def doInitAck (p parts : Nat) (s : State) : State :=
  s.onLink p (fun s =>
    if parts = 3 then (s.setLink p { (s.link p) with initAcked := true }).tryUp p else s)

/-- INIT_ACK. -/
def execInitAck (p : Fin 144) (parts : BitVec 2) (s : State) : Answer := act s (doInitAck p parts.toNat)

/-- Until acknowledged, INIT is sent again every 1 µs (R129). -/
def doInitRepeat (p : Nat) (s : State) : State :=
  if s.linkRuns p ∧ !(s.link p).initAcked then s.sendInit p else s

/-- INIT_REPEAT. -/
def execInitRepeat (p : Fin 144) (s : State) : Answer := act s (doInitRepeat p)

/-- INIT not finished within 20 µs sends the port to DETECT (R129). -/
def doInitTimeout (p : Nat) (s : State) : State := if s.linkRuns p ∧ s.lstate p = 1 then s.toDetect p else s

/-- INIT_TIMEOUT. -/
def execInitTimeout (p : Fin 144) (s : State) : Answer := act s (doInitTimeout p)

/-! ## Timers (R121, R136, R138 to R143) -/

/-- 1 µs without a SEAL makes a KEEPALIVE due (R139). -/
def doKeepaliveTimer (p : Nat) (s : State) : State :=
  if s.lstate p = 2 then s.setLink p { (s.link p) with kaDue := true } else s

/-- KEEPALIVE_TIMER. -/
def execKeepaliveTimer (p : Fin 144) (s : State) : Answer := act s (doKeepaliveTimer p)

/-- 100 ns after the oldest freed flit, or after an unsent new acknowledgement, a CREDIT is due (R121). -/
def doCreditDue (p : Nat) (s : State) : State :=
  let l := s.link p
  if s.lstate p = 2 ∧ (!l.freed.isEmpty ∨ l.ackSent ≠ l.ack) then s.setLink p { l with creditDue := true } else s

/-- CREDIT_DUE. -/
def execCreditDue (p : Fin 144) (s : State) : Answer := act s (doCreditDue p)

/-- A NAKed frame not delivered is named again; after the fourth NAK a REPLAY names the oldest missing number (R136). -/
def doNakTimeout (p num : Nat) (s : State) : State :=
  let l := s.link p
  match l.missing.find? (fun e => e.1 == num) with
  | none => s
  | some (_, n) =>
    if n < 4 then
      if l.nakDue.contains num then s else s.setLink p { l with nakDue := l.nakDue ++ [num] }
    else s.setLink p { l with replayDue := some l.nextExp }

/-- NAK_TIMEOUT. -/
def execNakTimeout (p : Fin 144) (num : BitVec 16) (s : State) : Answer := act s (doNakTimeout p num.toNat)

/-- A frame named in a REPLAY not delivered makes the receiver send the REPLAY again (R136). -/
def doReplayTimeout (p : Nat) (s : State) : State :=
  let l := s.link p
  match l.replayWait with
  | some n => if l.replays < 4 then s.setLink p { l with replayDue := some n } else s
  | none => s

/-- REPLAY_TIMEOUT. -/
def execReplayTimeout (p : Fin 144) (s : State) : Answer := act s (doReplayTimeout p)

/-- After a fourth REPLAY with no advance of `ack`, the receiver starts a retrain (R138), posted as kind 5 (R496). R138 counts
it in LINK_ERR, where R149 lists no field for it: it is counted in none (DESIGN CHOICE, log 134). -/
def doReplayEscalation (p : Nat) (s : State) : State :=
  if s.linkRuns p ∧ 4 ≤ (s.link p).replays then
    ((s.setLink p { (s.link p) with replays := 0 }).postLink p 5).askRetrain p
  else s

/-- REPLAY_ESCALATION. -/
def execReplayEscalation (p : Fin 144) (s : State) : Answer := act s (doReplayEscalation p)

/-- 8 µs with no good SEAL or KEEPALIVE: the link is down (R140, R141). The timer does not run in a retrain. -/
def doLinkDownTimeout (p : Nat) (s : State) : State :=
  if s.linkRuns p then (s.countDown p 3).toDetect p else s

/-- LINK_DOWN_TIMEOUT. -/
def execLinkDownTimeout (p : Fin 144) (s : State) : Answer := act s (doLinkDownTimeout p)

/-- The effective window: free reserve credits and free shared credits (R142). -/
def LinkSt.window (l : LinkSt) : Nat := l.reserveFree.foldl (fun n e => n + e.2) 0 + l.sharedFree

/-- A quiet moment samples the window; a loss beyond the threshold, or a VC with fewer than 65 free reserve credits,
sets `leak_pending` (R142). -/
def doQuietMoment (p : Nat) (s : State) : State :=
  let l := s.link p
  if s.lstate p ≠ 2 ∨ !l.store.isEmpty ∨ !l.txPkts.isEmpty ∨ !l.peerEmpty then s
  else
    let w := l.window
    let a := s.linkStat p
    let s := (s.put a Fld.linkStatWindow w).put a Fld.linkStatLossPct ((5120 - w) * 100 / 5120)
    let low := (List.range 24).any (fun vc => s.vcEnabled vc && decide (Table.getD l.reserveFree 0 vc < 65))
    if s.get (s.linkCtrl p) Fld.linkCtrlLeakPct * 5120 < (5120 - w) * 100 ∨ low then s.put a Fld.linkStatLeakPending 1
    else s

/-- QUIET_MOMENT. -/
def execQuietMoment (p : Fin 144) (s : State) : Answer := act s (doQuietMoment p)

/-- A leak retrain (R143): counted, an informational event, and the retrain, unless `leak_en` is clear. -/
def leakRetrain (p : Nat) (s : State) : State :=
  if s.linkRuns p ∧ s.flag (s.linkStat p) Fld.linkStatLeakPending ∧ s.flag (s.linkCtrl p) Fld.linkCtrlLeakEn then
    ((s.bump (s.linkErr p) Fld.linkErrLeakRetrain 1).noticePort p).askRetrain p
  else s

/-- LEAK_IDLE: 10 µs of idle link with `leak_pending` set. -/
def execLeakIdle (p : Fin 144) (s : State) : Answer := act s (leakRetrain p)

/-- LEAK_FORCE: 100 ms with `leak_pending` set and no idle moment. -/
def execLeakForce (p : Fin 144) (s : State) : Answer := act s (leakRetrain p)

end Sys2Proof.Machine
end

