-- ==== Sys2Proof/Machine/Route.lean ====
section
/-! DEFINITION. Route: forwarding at a port tile, beacons, the group table and its banks, discovery (R185 to R221). -/

namespace Sys2Proof.Machine

/-! ## Forwarding (R193 to R195, R203, R247) -/

/-- Discard a packet past the hop limit or on an impossible VC (R195): counted, posted as kind 10 on source 16 n + 11,
and answered with "no route" if it is sequenced. -/
def State.hopDiscard (s : State) (p : Nat) (w : WaitPkt) : State :=
  let s := s.bump Reg.routeStat Fld.routeStatHopLimit 1
  let addr := w.pkt.route.dst + w.pkt.src <<< 18 + p <<< 36
  (s.post (16 * s.portTile p + 11) 10 1 addr).dropWait w 2

/-- The VC on which a packet arrived over a port is one that the rules could produce (R194, R195, R206): that of its class, stage
and order, a stage that the image enables, past the first after a global hop, and the first in a multicast copy. -/
def State.vcPossible (s : State) (port : Nat) (p : Packet) : Bool :=
  let r := p.route
  r.vc == vcNum (tcGroup p.tc) r.stage r.order && decide (r.stage < max 1 (bits s.classVc 6 5)) && decide (r.order < 2)
    && (s.role port != 3 || decide (0 < r.stage)) && (!r.mcast || r.stage == 0)

/-- The hub that a packet for this device is steered to: that of its target instance. -/
def State.steer (s : State) (p : Packet) : Nat := s.pktHub p

/-- Start a segment toward `dst` in this group, as a port tile does (R193): the order of a two-hop segment by
`best_order` with the tile's own toggle. -/
def State.startLocal (s : State) (unit : Nat) (r : RouteWord) : RouteWord × State :=
  let r := { r with segTgt := r.dst % 256, segPort := 0xFF }
  match s.bestOrder unit (r.dst % 256) id with
  | (some c, s) => ({ r with order := c.order }, s)
  | (none, s) => ({ r with order := if fidCol r.dst = s.col ∧ fidRow r.dst ≠ s.row then 1 else 0 }, s)

/-- The route word of a packet received on port `p`, with the segment that begins here started (R193). -/
def State.arriveRoute (s : State) (p : Nat) (r : RouteWord) : RouteWord × State :=
  let unit := 4 + s.portTile p
  if r.mcast || r.dst == s.fid then (r, s)
  else if s.role p = 3 then
    if r.nonmin ∧ s.group = r.via then
      match s.bestGateway unit (fidGroup r.dst) (fun land => 1 + rcHops land (r.dst % 256)) with
      | (some c, s) => (startSeg r c, s)
      | (none, s) => (r, s)
    else s.startLocal unit r
  else if s.topo.profile = 1 ∧ r.nonmin ∧ r.stage = 0 ∧ r.segPort = 0xFF ∧ r.segTgt = 16 * s.row + s.col then
    s.startLocal unit { r with stage := 1 }
  else (r, s)

/-- Forward one packet received on port `p` (R203): deliver it to its hub, discard it, or choose its port. -/
def State.forward (s : State) (p : Nat) (w : WaitPkt) : State :=
  if !s.vcPossible p w.pkt then s.hopDiscard p w
  else
    let (r, s) := s.arriveRoute p w.pkt.route
    let w := w.withRoute r
    match s.nextHop r with
    | .here =>
      if r.mcast || r.dst == s.fid then s.updWait { w with out := some (hubOut (s.steer w.pkt)) }
      else s.hopDiscard p w
    | _ =>
      if r.mcast || decide (s.maxHops r.nonmin ≤ r.hops) then s.hopDiscard p w
      else
        let (w, s) := s.choosePort w
        (s.updWait w).yellowCheck w

/-- Packets of a port that ROUTE_HOP forwards: beacons and discovery packets end here. -/
def WaitPkt.unrouted (w : WaitPkt) (p : Nat) : Bool :=
  w.inPort == some p && w.out.isNone && !w.held && w.pkt.op != opBeacon && w.pkt.op != opDiscQ && w.pkt.op != opDiscA

/-- A port tile takes its oldest unrouted packet, or offers its held packets a path again (R145, R203). -/
def doRouteHop (p : Nat) (s : State) : State :=
  match s.wait.find? (fun w => w.unrouted p) with
  | some w => s.forward p w
  | none => s.rerouteWaiting (fun w => w.inPort == some p && w.held)

/-- ROUTE_HOP. -/
def execRouteHop (p : Fin 144) (s : State) : Answer := act s (doRouteHop p)

/-- The grace period of a held packet ends (R145): it is flushed, its pool space freed, and answered with "link down". The count is
that of the port it waits for; R150 does not say whose counts a packet that waits for no known port: its arrival port's, or port 0's
for a packet of a hub (DESIGN CHOICE, log 133). -/
def doGraceExpiry (id : Nat) (s : State) : State :=
  match s.wait.find? (fun w => w.id == id && w.held) with
  | none => s
  | some w =>
    let p := match w.out with
      | some o => if o < 144 then o else 0
      | none => w.inPort.getD 0
    ((s.bump (s.linkErr2 p) Fld.linkErr2Flushed 1).count ⟨0x103, some p, none, none, some w.pkt.tc, none, 1⟩).dropWait w 1

/-- GRACE_EXPIRY. -/
def execGraceExpiry (id : Nat) (s : State) : Answer := act s (doGraceExpiry id)

/-! ## Beacons (R199, R200) -/

/-- Bytes of a list of 4-bit levels, an even index in the low half (R200). -/
def nibbles : List Nat → List Byte
  | a :: b :: t => BitVec.ofNat 8 (a % 16 + 16 * (b % 16)) :: nibbles t
  | [a] => [BitVec.ofNat 8 (a % 16)]
  | [] => []

/-- The payload of this device's beacon (R200). -/
def State.beaconBytes (s : State) : List Byte :=
  let rows := (List.range 16).map (fun i => if i = s.col then 0 else s.peerLevel i)
  let cols := (List.range 16).map (fun i => if i = s.row then 0 else s.peerLevel (16 + i))
  let ports := allPorts.map (fun p => s.level p)
  leBytes (s.fid + (s.route.bseq % 256) <<< 24) 4 ++ List.replicate 12 0 ++ nibbles rows ++ nibbles cols
    ++ nibbles ports ++ List.replicate 24 0

/-- The beacon packet: TC7, one header flit and two payload flits, on VC 18 (R199). -/
def State.beaconPkt (s : State) : Packet :=
  { Packet.zero with
    op := opBeacon, tc := 7, plen := 128, src := s.fid, route := { RouteWord.zero with vc := 18 },
    payload := s.beaconBytes }.seal

/-- A beacon goes to every row and column peer on its lowest-level port (R199). -/
def doBeaconPeriod (s : State) : State :=
  if !s.enabled then s
  else
    let pk := s.beaconPkt
    let s := s.forAll (List.range 32) (fun s i =>
      match s.pickPort 36 (s.peerPorts i) with
      | (some p, s) => (s.addFromHub 0 pk (some p)).2
      | (none, s) => s)
    { s with route := { s.route with bseq := (s.route.bseq + 1) % 256 } }

/-- BEACON_PERIOD. -/
def execBeaconPeriod (s : State) : Answer := act s doBeaconPeriod

/-- Take a packet of an operation code that ends at this device out of a port's pool. -/
def State.consumeOp (s : State) (p op : Nat) : State :=
  match s.wait.find? (fun w => w.inPort == some p && w.pkt.op == op && !w.part) with
  | some w => (s.removeWait w.id).freeFlits w
  | none => s

/-- The peer-map index of a port's partner. -/
def State.peerIndex (s : State) (p : Nat) : Option Nat :=
  match s.role p with
  | 1 => some (fidCol (s.partnerFid p))
  | 2 => some (16 + fidRow (s.partnerFid p))
  | _ => none

/-- A received beacon replaces the stored levels of its peer (R199). -/
def doBeacon (p : Nat) (b : BeaconRec) (s : State) : State :=
  let s := s.consumeOp p opBeacon
  match s.peerIndex p with
  | some i =>
    if s.portActive p then
      { s with route := { s.route with beacons := Table.put s.route.beacons i ⟨some b, true⟩ } }
    else s
  | none => s

/-- BEACON. -/
def execBeacon (p : Fin 144) (b : BeaconRec) (s : State) : Answer := act s (doBeacon p b)

/-- A peer's beacon is more than four periods old (R199): its levels read as 15. -/
def doBeaconStale (i : Nat) (s : State) : State :=
  let b := s.beaconSt i
  { s with route := { s.route with beacons := Table.put s.route.beacons i { b with fresh := false } } }

/-- BEACON_STALE. -/
def execBeaconStale (i : Fin 32) (s : State) : Answer := act s (doBeaconStale i)

/-! ## The group table and its banks (R207 to R210) -/

/-- The group table window (R208). -/
def groupWindow : Nat := 0x03000000

/-- Replace byte `i` of a candidate word; bits [31:25] stay zero (R207). -/
def setCandByte (w i : Nat) (b : Byte) : Nat :=
  (w &&& (0xFFFFFFFF ^^^ 255 <<< (8 * i)) ||| b.toNat <<< (8 * i)) % 2 ^ 25

/-- An entry of no valid candidate. -/
def entryZero : List Nat := List.replicate 8 0

/-- Write bytes of the shadow bank from an offset on; offsets from 0x8000 discard writes. -/
def bankWrite (bank : Table (List Nat)) (off : Nat) : List Byte → Table (List Nat)
  | [] => bank
  | b :: t =>
    let bank := if off < 0x8000 then
        let e := Table.getD bank entryZero (off / 32)
        let c := off % 32 / 4
        Table.put bank (off / 32) (setIdx e c (setCandByte (e.getD c 0) (off % 4) b))
      else bank
    bankWrite bank (off + 1) t

/-- A write through the group table window reaches the shadow bank (R208). -/
def doGroupTableWrite (off : Nat) (data : List Byte) (s : State) : State :=
  s.ifStructured (groupWindow + off) (fun s =>
    { s with route := { s.route with shadowBank := bankWrite s.route.shadowBank off data } })

/-- GROUP_TABLE_WRITE. -/
def execGroupTableWrite (off : Nat) (data : List Byte) (s : State) : Answer := act s (doGroupTableWrite off data)

/-- A port whose change is stamped at or after `shadow_epoch` (R209). -/
def State.changedSince (s : State) (epoch : Nat) : Bool :=
  allPorts.any (fun p => s.flag (Reg.portChg p) Fld.portChgChanged
    && atOrAfterMod 32 (s.get (Reg.portChg p) Fld.portChgChgEpoch) epoch)

/-- A commit is accepted, or refused, counted and posted (R209). -/
def doRouteCommit (s : State) : State :=
  s.ifStructured Reg.routeBank (fun s =>
    if s.flag Reg.routeBank Fld.routeBankBusy
        || s.changedSince (s.get Reg.routeBank Fld.routeBankShadowEpoch) then
      let s := (s.put Reg.routeBank Fld.routeBankCommitErr 1).bump Reg.routeStat Fld.routeStatCommitRefused 1
      s.notice 59 Reg.routeBank
    else
      let s := s.put Reg.routeBank Fld.routeBankBusy 1
      { s with route := { s.route with bankOp := .swap } })

/-- ROUTE_COMMIT. -/
def execRouteCommit (s : State) : Answer := act s doRouteCommit

/-- A copy of the active bank into the shadow bank starts (R210); ignored while a bank operation runs. -/
def doRouteCopy (s : State) : State :=
  s.ifStructured Reg.routeBank (fun s =>
    if s.flag Reg.routeBank Fld.routeBankBusy then s
    else
      let s := s.put Reg.routeBank Fld.routeBankBusy 1
      { s with route := { s.route with bankOp := .copy } })

/-- ROUTE_COPY. -/
def execRouteCopy (s : State) : Answer := act s doRouteCopy

/-- The swap or copy ends in every unit, and `busy` clears (R209, R210). A swap may open a path to a held packet, which is offered
one (R145). -/
def doBankOpEnd (s : State) : State :=
  let r := s.route
  match r.bankOp with
  | .none => s
  | .swap =>
    let s := { s with route := { r with activeBank := r.shadowBank, shadowBank := r.activeBank, bankOp := .none } }
    ((s.put Reg.routeBank Fld.routeBankActive (1 - s.get Reg.routeBank Fld.routeBankActive)).put
      Reg.routeBank Fld.routeBankBusy 0).rerouteWaiting WaitPkt.held
  | .copy =>
    let s := { s with route := { r with shadowBank := r.activeBank, bankOp := .none } }
    s.put Reg.routeBank Fld.routeBankBusy 0

/-- BANK_OP_END. -/
def execBankOpEnd (s : State) : Answer := act s doBankOpEnd

/-! ## Discovery (R211 to R214, R219) -/

/-- Raise `cur_epoch` to a later epoch (R212). -/
def State.raiseEpoch (s : State) (e : Nat) : State :=
  if laterMod 32 e (s.get Reg.routeEpoch Fld.routeEpochCurEpoch) then s.put Reg.routeEpoch Fld.routeEpochCurEpoch e
  else s

/-- The record of a port in an answer (R214). -/
def State.portRecord (s : State) (p : Nat) : Nat :=
  let a := Reg.portChg p
  s.get (s.portPartner p) Fld.portPartnerFid + s.get (s.portPartner p) Fld.portPartnerPort <<< 18
    + s.get (s.portPartner p) Fld.portPartnerValid <<< 26 + s.portState p <<< 27
    + s.get a Fld.portChgChanged <<< 31 + s.get a Fld.portChgChgEpoch <<< 32

/-- The words of bytes, eight bytes each. -/
def wordsOf : Nat → List Byte → List Word
  | 0, _ => []
  | n + 1, l => BitVec.ofNat 64 (leNat (l.take 8)) :: wordsOf n (l.drop 8)

/-- The 1,216 bytes of an answer (R214), as 152 words. -/
def State.discWords (s : State) : List Word :=
  let head := leBytes s.fid 3 ++ leBytes s.topo.profile 1 ++ leBytes s.fuse.serial.toNat 8
    ++ leBytes (s.get Reg.routeEpoch Fld.routeEpochCurEpoch) 4 ++ leBytes (s.get Reg.imgId Fld.imgIdImageId) 8
  wordsOf 152 (padTo 64 head ++ (allPorts.map (fun p => leBytes (s.portRecord p) 8)).flatten)

/-- After an answer of epoch E the device clears every `changed` bit stamped before E (R213). -/
def State.clearChanged (s : State) (e : Nat) : State :=
  s.forAll allPorts (fun s p =>
    if s.flag (Reg.portChg p) Fld.portChgChanged
        ∧ laterMod 32 e (s.get (Reg.portChg p) Fld.portChgChgEpoch) then s.put (Reg.portChg p) Fld.portChgChanged 0
    else s)

/-- A discovery packet: TC7 on VC 18 (R211). The answer's payload is R214's; a query's length is the model's choice, one flit
(log 136). -/
def State.discPkt (s : State) (m : DiscMsg) : Packet :=
  let body := match m with
    | .query q => (List.range 64).map (Config.discByte q.origin.toNat q.epoch.toNat q.path q.arrived)
    | .answer a => (a.words.map (fun (w : Word) => leBytes w.toNat 8)).flatten
  { Packet.zero with
    op := match m with | .query _ => opDiscQ | .answer _ => opDiscA
    tc := 7, plen := body.length, src := s.fid, route := { RouteWord.zero with vc := 18 }, payload := body }.seal

/-- The entries of the discovery buffer whose packets have not left (R211). -/
def State.discHeld (s : State) : List DiscEntry :=
  s.route.disc.filter (fun e => s.wait.any (fun w => w.id == e.id)
    || s.outs.any (fun o => o.2.grants.any (fun g => g.wp.id == e.id)))

/-- Place a query or an answer in the device's 16-entry buffer, bound for a port (R211): dropped when the buffer is full. The
answer says whether it was placed. -/
def State.discSend (s : State) (p : Nat) (m : DiscMsg) : Bool × State :=
  let held := s.discHeld
  if 16 ≤ held.length then (false, s)
  else
    let (w, s) := s.addFromHub 0 (s.discPkt m) (some p)
    (true, { s with route := { s.route with disc := held ++ [⟨w.id, p, m⟩] } })

/-- A discovery packet is handed to its link: it leaves the buffer. -/
def State.discSent (s : State) (id : Nat) : State :=
  match s.route.disc.find? (fun e => e.id == id) with
  | none => s
  | some e =>
    { s with route := { s.route with disc := s.route.disc.filter (fun x => x.id != id) } }.emit
      (match e.msg with | .query q => .discQ e.port q | .answer a => .discA e.port a)

/-- Send an answer along its way back; it is dropped where the next port is not ACTIVE, or the buffer is full (R211). -/
def State.sendAnswer (s : State) (back : List Nat) (status : Nat) (words : List Word) : Bool × State :=
  match back with
  | [] => (false, s)
  | p :: rest =>
    if s.portActive p then
      s.discSend p (.answer ⟨rest.map (fun n => BitVec.ofNat 8 n), BitVec.ofNat 4 status, words⟩)
    else (false, s)

/-- Store an answer at the originator: the status, the words of an answer, and `busy` clear (R219). -/
def State.discDone (s : State) (status : Nat) (words : List Word) : State :=
  let s := if status = 0 then
      s.forAll (List.range 152) (fun s i => s.setWord (Reg.discAns i) (words.getD i 0))
    else s
  (s.put Reg.discCmd Fld.discCmdStatus status).put Reg.discCmd Fld.discCmdBusy 0

/-- The `go` bit sends a query along DISC_PATH (R219), and the epoch written counts as received (R212): a malformed path has status 3, a first port that is not ACTIVE
status 2, and an empty path queries the device itself. -/
def doDiscGo (s : State) : State :=
  s.ifStructured Reg.discCmd (fun s =>
    let e := s.get Reg.discCmd Fld.discCmdEpoch
    let s := s.raiseEpoch e
    if s.flag Reg.discCmd Fld.discCmdBusy then s
    else
      let n := s.get Reg.discCmd Fld.discCmdPathLen
      let w := (s.word Reg.discPath).toNat
      let path := (List.range n).map (fun i => bits w (8 * i + 7) (8 * i))
      if 8 < n ∨ path.any (fun p => decide (144 ≤ p)) then s.discDone 3 []
      else match path with
        | [] => (s.discDone 0 s.discWords).clearChanged e
        | p :: rest =>
          if s.portActive p then
            ((s.put Reg.discCmd Fld.discCmdBusy 1).discSend p
              (.query ⟨BitVec.ofNat 18 s.fid, BitVec.ofNat 32 e, rest.map (fun n => BitVec.ofNat 8 n), []⟩)).2
          else s.discDone 2 [])

/-- DISC_GO. -/
def execDiscGo (s : State) : Answer := act s doDiscGo

/-- A query arrives (R211, R212): it is forwarded on its next port, answered with a failure, or answered. -/
def doDiscQ (p : Nat) (q : DiscQuery) (s : State) : State :=
  let s := (s.consumeOp p opDiscQ).raiseEpoch q.epoch.toNat
  let arrived := q.arrived ++ [BitVec.ofNat 8 p]
  let back := (arrived.map (fun b => b.toNat)).reverse
  match q.path with
  | [] =>
    match s.sendAnswer back 0 s.discWords with
    | (true, s) => s.clearChanged q.epoch.toNat
    | (false, s) => s
  | x :: rest =>
    if 144 ≤ x.toNat then (s.sendAnswer back 3 []).2
    else if s.portActive x.toNat then (s.discSend x.toNat (.query { q with path := rest, arrived := arrived })).2
    else (s.sendAnswer back 2 []).2

/-- DISC_Q. -/
def execDiscQ (p : Fin 144) (q : DiscQuery) (s : State) : Answer := act s (doDiscQ p q)

/-- An answer arrives: it is forwarded, or completes the query at the originator (R211). -/
def doDiscA (p : Nat) (a : DiscAnswer) (s : State) : State :=
  let s := s.consumeOp p opDiscA
  match a.back with
  | [] => if s.flag Reg.discCmd Fld.discCmdBusy then s.discDone a.status.toNat a.words else s
  | b => (s.sendAnswer (b.map (fun n => n.toNat)) a.status.toNat a.words).2

/-- DISC_A. -/
def execDiscA (p : Fin 144) (a : DiscAnswer) (s : State) : Answer := act s (doDiscA p a)

/-- No answer within 100 µs: status 1 (R211). -/
def doDiscTimeout (s : State) : State :=
  if s.flag Reg.discCmd Fld.discCmdBusy then s.discDone 1 [] else s

/-- DISC_TIMEOUT. -/
def execDiscTimeout (s : State) : Answer := act s doDiscTimeout

end Sys2Proof.Machine
end

