-- ==== Sys2Proof/Machine/Exchange.lean ====
section
/-! DEFINITION. Exchange: requests and grants at the 152 outputs, windows, ageing, express interruption, and the end of a
grant (R151 to R178). -/

namespace Sys2Proof.Machine

/-! ## Endpoints, classes and eligibility (R152, R156, R157) -/

/-- The endpoint that an output belongs to: the tile serving the port's slot, a Basil tile or a hub. -/
def State.outEp (s : State) (o : Nat) : Nat := if o < 144 then s.portTile o else 19 + (o - 144)

/-- A channel into an endpoint refuses every transfer (R17): islands 0 to 26 are those of the endpoints. -/
def State.epFenced (s : State) (ep : Nat) : Bool := s.islandShut ep

/-- The arbitration class of a traffic class (R156, R180). -/
def State.classOf (s : State) (tc : Nat) : Nat :=
  if tc = 0 then 0 else bits (s.word Reg.classMap).toNat (2 * tc + 1) (2 * tc)

/-- The waiting packets of an endpoint for an output, of some traffic classes, that are eligible. -/
def State.contending (s : State) (o ep : Nat) (tcs : List Nat) : List WaitPkt :=
  s.wait.filter (fun w => w.out == some o && w.ep == ep && tcs.contains w.pkt.tc && s.eligible w)

/-- The contender count (R157): distinct inputs that hold such a packet. -/
def State.contenders (s : State) (o ep : Nat) (tcs : List Nat) : Nat :=
  ((s.contending o ep tcs).map (fun w => w.lane)).dedup.length

/-- The traffic classes of a new request (R180): those that the map places in the class now, less those that a queued entry
of the endpoint serves. -/
def State.newTcs (s : State) (o ep cls : Nat) : List Nat :=
  (List.range 8).filter (fun t => s.classOf t == cls
    && !(s.outp o).queue.any (fun e => e.ep == ep && e.cls != cls && e.tcs.contains t))

/-- CREDIT_ANNOUNCE: what the link can charge on a VC now (R126, R157). Packets that become eligible by it wait from now
(R178). -/
def doCreditAnnounce (p vc : Nat) (s : State) : State :=
  let l := s.link p
  let res := Table.getD l.reserveFree 0 vc - s.aside p vc false
  let sh := min (l.sharedFree - s.aside p 24 true) (l.peerCap - (Table.getD l.sharedHeld 0 vc + s.aside p vc true))
  { s with announced := Table.put s.announced (24 * p + vc) (max res sh) }.freshWaits s p

/-- CREDIT_ANNOUNCE. -/
def execCreditAnnounce (p : Fin 144) (vc : Fin 24) (s : State) : Answer := act s (doCreditAnnounce p vc)

/-! ## Windows and the order of service (R162 to R165) -/

/-- Class 0 has used its quota of the window. -/
def OutSt.masked (x : OutSt) : Bool := decide (x.winQuota < x.winLen ∧ x.winQuota ≤ x.quota ∧ 0 < x.window)

/-- A window ends after its grants, or at once when no unmasked entry waits (R163). -/
def OutSt.endWindow (x : OutSt) : OutSt :=
  if x.winLen ≤ x.window ∨ x.queue.all (fun e => e.cls == 0 && x.masked) then { x with window := 0, quota := 0 } else x

/-- The class in which an entry is served: 1 for one raised by age. -/
def servedIn (age : Nat) (e : ReqEntry) : Nat :=
  if 2 ≤ e.cls ∧ (e.raised ∨ (e.turn = 0 ∧ age ≠ 0 ∧ age ≤ e.age)) then 1 else e.cls

/-- Entries in the order of service: by class, the oldest first, a masked class 0 left out, and an entry whose turn is
spent. -/
def OutSt.order (x : OutSt) (age : Nat) : List ReqEntry :=
  let open_ := x.queue.filter (fun e => e.turn != 1 && !(e.cls == 0 && x.masked))
  (List.range 4).flatMap (fun c => open_.filter (fun e => servedIn age e == c))

/-- Two entries are of one endpoint and class: an endpoint has at most one request per output and class (R157). -/
def ReqEntry.same (a b : ReqEntry) : Bool := a.ep == b.ep && a.cls == b.cls

/-! ## Flit lanes and interruption (R166 to R171) -/

/-- A packet is held interrupted (R169, R171). -/
def Grant.interrupted (g : Grant) : Bool := !g.heldBy.isEmpty

/-- A grant can be interrupted by an express packet (R168 to R170): once it has resumed, a flit of it moves first, which takes
less than the 1 ns that `now` counts. -/
def Grant.open_ (g : Grant) (now : Nat) : Bool :=
  !g.wp.pkt.express && !g.wp.pkt.isLocked && !g.interrupted && g.resumed.all (fun t => decide (t < now))

/-- The express packet ends: a packet that only it held interrupted resumes. -/
def Grant.release (g : Grant) (id now : Nat) : Grant :=
  if g.heldBy = [id] then { g with heldBy := [], resumed := some now }
  else { g with heldBy := g.heldBy.filter (fun i => i != id) }

/-- Change every grant in progress. -/
def State.onGrants (s : State) (f : Nat → Grant → Grant) : State :=
  { s with outs := s.outs.map (fun (e : Nat × OutSt) => (e.1, { e.2 with grants := e.2.grants.map (f e.1) })) }

/-- The lanes of an output: a port's own, or all eight. -/
def outLanes (o : Nat) : List Nat := if o < 144 then [o % 8] else List.range 8

/-- The lane of an output for a packet: one that is free, or one whose packet an express packet interrupts. -/
def State.laneFor (s : State) (o : Nat) (express : Bool) : Option Nat :=
  let g := (s.outp o).grants
  match (outLanes o).find? (fun k => !g.any (fun x => x.lane == k)) with
  | some k => some k
  | none =>
    if express && s.flag Reg.exchCtrl Fld.exchCtrlPreempt then
      (outLanes o).find? (fun k => g.all (fun x => x.lane != k || x.open_ s.now))
    else none

/-- An input flit lane can begin a packet: it carries none, or one that an express packet may pass (R171). -/
def State.inputFree (s : State) (ep lane : Nat) (express : Bool) : Bool :=
  s.outs.all (fun e => e.2.grants.all (fun g => g.wp.ep != ep || g.wp.lane != lane
    || (express && s.flag Reg.exchCtrl Fld.exchCtrlPreempt && g.open_ s.now)))

/-- The input that an endpoint hands a grant to: the next in round-robin order among those that hold an eligible packet and
whose lane is free; the packet is that input's oldest. The order is kept per class (R172). A fabric port must still be able to charge it (R166). -/
def State.handTo (s : State) (o : Nat) (e : ReqEntry) : Option (WaitPkt × Nat × Bool) :=
  let l := (s.contending o e.ep e.tcs).filter (fun w => s.inputFree e.ep w.lane w.pkt.express && (s.laneFor o w.pkt.express).isSome)
  let last := Table.getD (s.outp o).rr 7 (4 * e.ep + e.cls)
  let lane := ((List.range 32).map (fun k => (last + 1 + k) % 32)).find? (fun k => l.any (fun w => w.lane == k))
  match lane.bind (fun k => l.find? (fun w => w.lane == k)) with
  | none => none
  | some w =>
    let out := (s.laneFor o w.pkt.express).getD 0
    if 144 ≤ o then some (w, out, false)
    else (s.account o (s.outRoute o w.pkt).vc w.pkt.size).map (fun a => (w, out, a))

/-! ## Grants -/

/-- The ageing threshold in force at an output: that of its window (R165, R181). -/
def OutSt.ageIn (x : OutSt) (live : Nat) : Nat := if x.window = 0 then live else x.winAge

/-- The counts of a grant at its output: grants, the window and its limits, the waits of masked entries, ages (R163 to R165,
R181). -/
def OutSt.countGrant (x : OutSt) (e : ReqEntry) (live len quota : Nat) : OutSt :=
  let age := x.ageIn live
  let x := if x.window = 0 then { x with winLen := len, winQuota := quota, winAge := live } else x
  let turn := if e.turn = 0 then e.count else e.turn - 1
  let raised := servedIn age e == 1 && decide (2 ≤ e.cls)
  { x with
    window := x.window + 1
    quota := if e.cls = 0 then x.quota + 1 else x.quota
    queue := x.queue.map (fun q =>
      if q.same e then { q with turn := turn, raised := raised }
      else if 2 ≤ q.cls then { q with age := q.age + 1 } else q) }

/-- The times that a grant closes: the longest express wait at the output, and the residence at the ingress port (R178, R250). -/
def State.grantMarks (s : State) (o : Nat) (w : WaitPkt) : State :=
  let s := if w.pkt.express then s.raise (Reg.outHwm o) Fld.outHwmExpWaitHwm (s.now - w.ready) else s
  match w.inPort with
  | some p => s.raise (Reg.portHwm p (w.pkt.tc % 8)) Fld.portHwmResHwm (s.now - w.arrived)
  | none => s

/-- A grant is handed to an input: the packet leaves its pool, and its charge is set aside. What an express packet passes, at
its output lane and on its input lane, is held until it ends (R169, R171). -/
def State.grant (s : State) (o : Nat) (e : ReqEntry) (w : WaitPkt) (lane : Nat) (acct : Bool) : State :=
  let x := s.outp o
  let live := s.get Reg.arbQuota Fld.arbQuotaAge
  let age := x.ageIn live
  let hits := if e.cls = 0 then 0 else (x.queue.filter (fun q => q.cls == 0 && x.masked)).length
  let cut (k : Nat) (g : Grant) : Bool :=
    g.open_ s.now && ((k == o && g.lane == lane) || (g.wp.ep == w.ep && g.wp.lane == w.lane))
  let taken := x.grants.any (fun g => g.lane == lane && cut o g)
  let s := s.onGrants (fun k g => if cut k g then { g with heldBy := [w.id] } else g)
  let y := (s.outp o).countGrant e live (s.get Reg.arbQuota Fld.arbQuotaWindow) (s.get Reg.arbQuota Fld.arbQuotaQuota)
  let y := { y with
    grants := y.grants ++ [(⟨{ w with charged := false }, e.cls, lane, [], none, acct⟩ : Grant)]
    rr := Table.put y.rr (4 * e.ep + e.cls) w.lane }
  let s := (s.setOut o y.endWindow).bump (Reg.outCnt0 o) Fld.outCnt0Grants 1
  let s := s.count ⟨0x200, some o, none, none, some w.pkt.tc, none, 1⟩
  let s := s.bump (Reg.outCnt1 o) Fld.outCnt1MaskHits hits
  let s := if e.turn = 0 && servedIn age e != e.cls then s.bump (Reg.outCnt1 o) Fld.outCnt1Aged 1 else s
  let s := if taken then (s.bump (Reg.outCnt0 o) Fld.outCnt0Preempts 1).count ⟨0x201, some o, none, none, some w.pkt.tc, none, 1⟩
    else s
  let s := if w.pkt.locked && decide (4 < w.pkt.size) then s.post 619 59 0 Reg.exchCtrl else s
  ((s.removeWait w.id).freeFlits w).grantMarks o w

/-- Offer a grant opportunity to entries in their order of service; when `all` the entries of the queue have so declined, no
grant is offered until the pause ends (R166). -/
def State.offer (s : State) (o : Nat) (all : Bool) : List ReqEntry → State
  | [] => if all then s.setOut o { s.outp o with paused := true } else s
  | e :: t =>
    match s.handTo o e with
    | some (w, lane, acct) => s.grant o e w lane acct
    | none => (s.bump (Reg.outCnt1 o) Fld.outCnt1Declined 1).offer o all t

/-- An output is free to start a packet of an entry: a lane is free, or an express packet may interrupt one. -/
def State.canStart (s : State) (o : Nat) (e : ReqEntry) : Bool := (s.laneFor o (e.cls == 0)).isSome

/-- A grant opportunity (R166). An output whose port retrains, or whose endpoint is fenced, grants nothing (R174). -/
def doOpportunity (o : Nat) (s : State) : State :=
  let x := s.outp o
  if x.paused || s.epFenced (s.outEp o) || !s.carries o then s
  else
    let order := x.order (x.ageIn (s.get Reg.arbQuota Fld.arbQuotaAge))
    let l := order.filter (fun e => s.canStart o e)
    if l.isEmpty then s else s.offer o (l.length == order.length) l

/-- The pause after every entry declined ends: a new opportunity starts. -/
def doPauseEnd (o : Nat) (s : State) : State :=
  if (s.outp o).paused then doOpportunity o (s.setOut o { s.outp o with paused := false }) else s

/-! ## Requests (R155, R159, R160, R173) -/

/-- A transfer into a fenced endpoint is refused (R17, R174): a packet for a port is rerouted, and one for another endpoint
fails. -/
def State.refuseTransfer (s : State) (o ep cls : Nat) : State :=
  if o < 144 then s.rerouteWaiting (fun w => w.out == some o && w.ep == ep)
  else (s.contending o ep (s.newTcs o ep cls)).foldl (fun s w => s.dropWait w 2) s

/-- Enter a request in the pending queue (R159): in one of the 28 entries that any class may use, or, for class 0 once those are
taken, in one of the four that are kept for it; none is left otherwise. -/
def OutSt.enter (x : OutSt) (e : ReqEntry) : Option OutSt :=
  let common := (x.queue.filter (fun q => !q.kept)).length
  if common < 28 then some { x with queue := x.queue ++ [{ e with kept := false }] }
  else if e.cls = 0 ∧ x.queue.length - common < 4 then some { x with queue := x.queue ++ [{ e with kept := true }] }
  else none

/-- Queue a request, or refuse it (R159, R160). -/
def State.queueReq (s : State) (o : Nat) (e : ReqEntry) : State :=
  let x := s.outp o
  match x.enter e with
  | some y => (s.setOut o y).raise (Reg.outHwm o) Fld.outHwmPendHwm y.queue.length
  | none =>
    let s := s.setOut o { x with refusedReqs := x.refusedReqs.filter (fun r => r != (e.ep, e.cls)) ++ [(e.ep, e.cls)] }
    (s.bump (Reg.outCnt1 o) Fld.outCnt1Refused 1).count ⟨0x202, some o, none, none, e.tcs.head?, none, 1⟩

/-- A request that finds no pending entry and no grant is granted at once and not queued (R155): with a count above 1 the rest
of its turn is. One that is declined waits in the queue, which has then declined the opportunity. -/
def State.grantAtOnce (s : State) (o : Nat) (e : ReqEntry) : State :=
  match s.handTo o e with
  | some (w, lane, acct) =>
    let s := s.grant o e w lane acct
    if 1 < e.count then s.queueReq o { e with turn := e.count } else s
  | none => (s.queueReq o e).offer o true [e]

/-- A request (R155, R157, R159, R169): granted at once where nothing waits, queued, or refused; a class 0 request takes an
output at the next flit boundary of a packet that it may interrupt. -/
def doRequest (o ep cls : Nat) (s : State) : State :=
  let tcs := s.newTcs o ep cls
  let n := s.contenders o ep tcs
  let x := s.outp o
  if n = 0 || s.epFenced ep then s
  else if s.epFenced (s.outEp o) then s.refuseTransfer o ep cls
  else if x.queue.any (fun e => e.ep == ep && e.cls == cls) then
    s.setOut o { x with queue := x.queue.map (fun e =>
      if e.ep = ep ∧ e.cls = cls then
        let l := (e.tcs ++ tcs).dedup
        { e with tcs := l, count := s.contenders o ep l }
      else e) }
  else
    let e : ReqEntry := ⟨ep, cls, n, 0, 0, false, false, tcs⟩
    if x.queue.isEmpty && x.grants.isEmpty && !x.paused && s.carries o then s.grantAtOnce o e
    else
      let s := s.queueReq o e
      if cls == 0 && x.grants.any (fun g => g.open_ s.now) then doOpportunity o s else s

/-- A refused request is presented again (R160). -/
def doRequestRetry (o ep cls : Nat) (s : State) : State :=
  let x := s.outp o
  if x.refusedReqs.contains (ep, cls) then
    doRequest o ep cls (s.setOut o { x with refusedReqs := x.refusedReqs.filter (fun r => r != (ep, cls)) })
  else s

/-- A count update changes an entry from its next turn on, or removes it (R173). -/
def doCountUpdate (o ep cls : Nat) (s : State) : State :=
  let x := s.outp o
  let mine (e : ReqEntry) : Bool := e.ep == ep && e.cls == cls
  s.setOut o { x with
    queue := (x.queue.map (fun e => if mine e then { e with count := s.contenders o ep e.tcs } else e)).filter
      (fun e => !(mine e && e.count == 0)) }.endWindow

/-- COUNT_UPDATE. -/
def execCountUpdate (o : Fin 152) (ep : Fin 27) (cls : Fin 4) (s : State) : Answer := act s (doCountUpdate o ep cls)

/-! ## The end of a grant (R162, R167, R169) -/

/-- A turn that is spent ends with the last of its grants: the entry goes to the tail while its endpoint holds packets, at
age 0 and in its own class. -/
def State.endTurn (s : State) (o ep cls : Nat) : State :=
  let x := s.outp o
  match x.queue.find? (fun e => e.ep == ep && e.cls == cls && e.turn == 1) with
  | none => s
  | some e =>
    if x.grants.any (fun g => g.wp.ep == ep && g.cls == cls) then s
    else
      let n := s.contenders o ep e.tcs
      let rest := x.queue.filter (fun q => !q.same e)
      s.setOut o { x with queue := if n = 0 then rest
        else rest ++ [{ e with count := n, turn := 0, age := 0, raised := false }] }.endWindow

/-- The time at which a sampled job's header is handed to the egress link layer (R531). -/
def State.stampEgress (s : State) (p : Packet) : State :=
  if p.src = s.fid ∧ p.seqd then
    match s.xp.sent.find? (fun q => q.seq == p.seq && q.idx == peerIdx p.route.dst p.tc) with
    | some q => if q.op = 0 then s else (s.stampJob q.op 5 false).stampJob q.op 6 true
    | none => s
  else s

/-- The flits of a packet for its link; an aborted one is its header and an abort flit (R124). -/
def txFlits (w : WaitPkt) (p : Packet) : List (List Byte) :=
  if w.aborted then [p.header, List.replicate 64 0] else p.flits

/-- A granted packet reaches its output: the egress link, whose queue it enters, or the hub, which discards an aborted one. A
link that has gone down meanwhile gives it back; one that retrains takes it (R174). -/
def State.deliverOut (s : State) (o : Nat) (g : Grant) : State :=
  let w := g.wp
  if o < 144 then
    let s := s.stampEgress w.pkt
    if s.lstate o = 0 then
      if w.aborted then s
      else { s with wait := s.wait ++ [{ w with graceFrom := some s.now }] }.rerouteWaiting (fun x => x.id == w.id)
    else
      let r := s.outRoute o w.pkt
      let l := s.link o
      (s.setLink o { l with
        txPkts := l.txPkts ++ [⟨w, r.vc, txFlits w { w.pkt with route := r }, false, g.acct, 0, false⟩] }).discSent w.id
  else if o < 148 ∨ w.aborted then s
  else { s with xp := { s.xp with inbound := s.xp.inbound ++ [(o - 148, w.pkt)] } }

/-- A grant is over: what its packet held interrupted resumes. -/
def State.closeGrant (s : State) (o : Nat) (g : Grant) : State :=
  let x := s.outp o
  (s.setOut o { x with grants := x.grants.filter (fun y => y.wp.id != g.wp.id) }).onGrants
    (fun _ y => y.release g.wp.id s.now)

/-- GRANT_END: the packet that the lane carries has ended, with its last flit or an abort flit (R167); one that has still to
arrive has not. -/
def doGrantEnd (o lane : Nat) (s : State) : State :=
  match (s.outp o).grants.find? (fun g => g.lane == lane && !g.interrupted && !g.wp.part) with
  | none => s
  | some g => ((s.closeGrant o g).deliverOut o g).endTurn o g.wp.ep g.cls

/-- GRANT_END. -/
def execGrantEnd (o : Fin 152) (lane : Fin 8) (s : State) : Answer := act s (doGrantEnd o lane)

/-- A handshake that has not completed, or a grant for an output that the endpoint never requested (R175): reported on the source
of the endpoint's pair. A grant in progress counts as declined, its packet waits again, and its entry is removed. -/
def doHandshakeTimeout (o ep : Nat) (s : State) : State :=
  let report (s : State) : State := s.post (604 + ep / 2) 3 2 ep
  match (s.outp o).grants.find? (fun g => g.wp.ep == ep && !g.interrupted) with
  | none => report (s.bump (Reg.outCnt1 o) Fld.outCnt1Declined 1)
  | some g =>
    let s := (s.closeGrant o g).bump (Reg.outCnt1 o) Fld.outCnt1Declined 1
    let x := s.outp o
    let s := s.setOut o { x with queue := x.queue.filter (fun (e : ReqEntry) => !(e.ep == ep && e.cls == g.cls)) }.endWindow
    report { s with wait := s.wait ++ (if g.wp.aborted then [] else [g.wp]) }

/-- HANDSHAKE_TIMEOUT. -/
def execHandshakeTimeout (o : Fin 152) (ep : Fin 27) (s : State) : Answer := act s (doHandshakeTimeout o ep)

/-! ## A fenced endpoint (R17, R173, R174) -/

/-- An endpoint is fenced: its entries are removed, its packets in progress end with an abort flit, and the queues of its own
outputs are withdrawn (R124, R173, R174). -/
def State.fenceEndpoint (s : State) (ep : Nat) : State :=
  let own := (List.range 152).filter (fun o => s.outEp o == ep)
  let lost := (s.outs.filter (fun e => own.contains e.1)).flatMap (fun e => e.2.grants.map (fun g => g.wp.id))
  let s := { s with outs := s.outs.map (fun (e : Nat × OutSt) =>
      let x := e.2
      if own.contains e.1 then (e.1, { x with queue := [], grants := [], refusedReqs := [], paused := false, window := 0, quota := 0 })
      else (e.1, { x with
        queue := x.queue.filter (fun (q : ReqEntry) => q.ep != ep)
        grants := x.grants.map (fun (g : Grant) =>
          if g.wp.ep = ep then { g with wp := { g.wp with aborted := true, part := false } } else g)
        refusedReqs := x.refusedReqs.filter (fun (r : Nat × Nat) => r.1 != ep) }.endWindow)) }
  lost.foldl (fun s id => s.onGrants (fun _ g => g.release id s.now)) s

end Sys2Proof.Machine
end

