-- ==== Sys2Proof/Machine/Jobs.lean ====
section
/-! DEFINITION. Jobs: descriptors and their checks, the operations they make, and the commands that start each kind of
job (R295 to R302, R365, R366, R390, R473, R531). -/

namespace Sys2Proof

open Sys2Proof.Machine

/-! ## Descriptors (R295, R296) -/

/-- `op` of a descriptor. -/
def Desc.op (d : Desc) : Nat := bits d.w0.toNat 7 0
/-- `phase` of a descriptor. -/
def Desc.phase (d : Desc) : Bool := bit d.w0.toNat 63
/-- `first` of a descriptor. -/
def Desc.first (d : Desc) : Bool := bit d.w0.toNat 62
/-- `last` of a descriptor. -/
def Desc.last (d : Desc) : Bool := bit d.w0.toNat 61

/-- The descriptor that 64 bytes spell. -/
def Desc.ofBytes (l : List Byte) : Desc :=
  let w (k : Nat) : Word := BitVec.ofNat 64 (leNat ((l.drop (8 * k)).take 8))
  ⟨w 0, w 1, w 2, w 3, w 4, w 5, w 6, w 7⟩

/-- Bits `hi` to `lo` of a word are zero. -/
def zeroBits (w : Word) (hi lo : Nat) : Bool := bits w.toNat hi lo == 0

/-- Every reserved or zero bit of an entry is zero (R295, R296, R473). The operation fields of COLL are checked by R428. -/
def Desc.zerosOk (d : Desc) : Bool :=
  zeroBits d.w0 15 15 && zeroBits d.w0 60 46
    && (match d.op with
      | 0 => d.w2 == 0 && d.w3 == 0 && d.w4 == 0 && d.w5 == 0 && d.w6 == 0 && d.w7 == 0
      | 1 | 2 => d.w5 == 0 && d.w6 == 0 && d.w7 == 0
      | 3 => zeroBits d.w3 31 5
      | 4 => zeroBits d.w3 31 5
      | 5 => zeroBits d.w3 63 48 && d.w5 == 0 && d.w6 == 0 && d.w7 == 0
      | 6 => zeroBits d.w3 63 48 && d.w7 == 0
      | 7 => zeroBits d.w2 63 37 && zeroBits d.w3 31 3 && d.w4 == 0 && d.w5 == 0 && d.w6 == 0 && d.w7 == 0
      | 15 => d.w1 == 0 && zeroBits d.w3 62 32 && zeroBits d.w5 62 32 && zeroBits d.w7 62 32
      | _ => true)

/-- A segment of a SEG entry: its address, its length, and `valid` (R296). -/
def segOf (a l : Word) : Nat × Nat × Bool := (a.toNat, bits l.toNat 31 0 + 1, bit l.toNat 63)

/-- The three segments of a SEG entry. -/
def Desc.segs (d : Desc) : List (Nat × Nat × Bool) := [segOf d.w2 d.w3, segOf d.w4 d.w5, segOf d.w6 d.w7]

/-- The length of a descriptor's operation in bytes. -/
def Desc.length (d : Desc) : Nat :=
  match d.op with
  | 3 => bits d.w3.toNat 4 0 + 1
  | 4 => if bit d.w3.toNat 4 then 16 else 8
  | 7 => 0
  | _ => bits d.w3.toNat 31 0 + 1

end Sys2Proof

namespace Sys2Proof.Machine

/-- The kind of operation of an opcode (R296). -/
def opKind : Nat → Option OpKind
  | 0 => some .nop
  | 1 => some .put
  | 2 => some .get
  | 3 => some .putInl
  | 4 => some .atomic
  | 5 => some .send
  | 6 => some .recv
  | 7 => some .lock
  | 8 => some .coll
  | _ => none

/-- The opcode of a SEG entry. -/
def opSeg : Nat := 0x0F

/-- No valid segment of an entry follows an invalid one. -/
def segsInOrder (l : List (Nat × Nat × Bool)) : Bool :=
  match l.map (fun e => e.2.2) with
  | [a, b, c] => (a || (!b && !c)) && (b || !c)
  | _ => true

/-- The valid segments of the SEG entries of a chain. -/
def chainSegs (l : List Desc) : List (Nat × Nat) :=
  ((l.drop 1).map (fun d => (d.segs.filter (fun e => e.2.2)).map (fun e => (e.1, e.2.1)))).flatten

/-- Express is reachable (R49). -/
def State.expressOn (s : State) : Bool := bit s.classVc 0 && bit s.classVc 4

/-- The descriptor names a destination. -/
def OpKind.hasDst : OpKind → Bool
  | .put | .get | .putInl | .atomic | .send | .lock => true
  | _ => false

/-- The first entry of a job breaks R301, seen alone. -/
def State.firstBad (s : State) (d : Desc) : Bool :=
  !d.zerosOk
    || (match opKind d.op with
      | none => true
      | some k => k.hasDst && bits d.w0.toNat 10 8 == 0 && !s.expressOn
          && bits d.w0.toNat 45 28 != s.fid)

/-- A chain breaks R301. -/
def chainBad (l : List Desc) : Bool :=
  match l with
  | [] => true
  | [_] => false
  | d :: t =>
    let segs := chainSegs l
    !(d.op == 1 || d.op == 2 || d.op == 5 || d.op == 6)
      || t.any (fun e => e.op != opSeg || !e.zerosOk || !segsInOrder e.segs)
      || decide (64 < segs.length) || decide (23 < l.length)
      || segs.foldl (fun n e => n + e.2) 0 != d.length

/-! ## Operations (R366, R531) -/

/-- The operation that a job's first descriptor makes. -/
def opOfDesc (d : Desc) (inst engine cq idx sq : Nat) (ring : Option Nat) (now : Nat) : OpSt :=
  let w0 := d.w0.toNat
  let key := match d.op with
    | 5 | 6 => bits d.w3.toNat 47 32
    | _ => bits d.w3.toNat 63 32
  { OpSt.init with
    kind := (opKind d.op).getD .nop, inst := inst, engine := engine, ring := ring, cq := cq, cookie := d.w1, idx := idx,
    sq := sq, irq := bit w0 11, quiet := bit w0 12, fence := bit w0 13, final := bit w0 14, tc := bits w0 10 8,
    dst := bits w0 45 28, tInst := bits w0 27 16, remote := d.w2.toNat, length := d.length, key := key,
    segs := [(d.w4.toNat, d.length)], aop := bits d.w3.toNat 3 0, wide := bit d.w3.toNat 4,
    op1 := d.w4.toNat + d.w5.toNat <<< 64, op2 := d.w6.toNat + d.w7.toNat <<< 64,
    inline := if d.op = 3 then
        (leBytes d.w4.toNat 8 ++ leBytes d.w5.toNat 8 ++ leBytes d.w6.toNat 8 ++ leBytes d.w7.toNat 8).take d.length
      else [],
    polledAt := now, desc := d }

/-- A job taken by an engine is offered to sampling (R531, R532): every `period`-th eligible job, at most 16 at once. -/
def State.sampleJob (s : State) (o : Nat) (x : OpSt) (t0 : Nat) : State :=
  let a := Reg.sampCtrl
  let ok := s.flag a Fld.sampCtrlEnable && x.kind != .recv
    && passes (s.flag a Fld.sampCtrlInstEn) (s.get a Fld.sampCtrlInst) (some x.inst)
    && passes (s.flag a Fld.sampCtrlRingEn) (s.get a Fld.sampCtrlRing) x.ring
  if ok then
    let n := Table.getD s.mon.eligible 0 x.engine + 1
    let s := { s with mon := { s.mon with eligible := Table.put s.mon.eligible x.engine n } }
    if n % s.get a Fld.sampCtrlPeriod = 0 then
      if 16 ≤ (s.mon.sampled.filter (fun e => e.engine == x.engine)).length then
        s.bump Reg.sampCnt Fld.sampCntSkipped 1
      else
        { s with mon := { s.mon with sampled := s.mon.sampled ++ [⟨o, x.engine, t0, [(1, s.now)]⟩] } }
    else s
  else s

/-- Take a job at its engine: a new operation, counted and offered to sampling. -/
def State.takeJob (s : State) (x : OpSt) (t0 : Nat) : Nat × State :=
  let (o, s) := s.addOp x
  let s := s.count ⟨0x500, some (s.rae x.engine), some x.inst, some x.remote, some x.tc, some x.mgr, 1⟩
  (o, s.sampleJob o x t0)

/-- A completion ring. -/
def State.cq (s : State) (i r : Nat) : CqSt := Table.getD s.cqs CqSt.init (ringKey i r)

/-- Entries of a completion ring. -/
def State.cqSize (s : State) (i r : Nat) : Nat := 2 ^ s.get (Reg.cqCfg i r) Fld.cqCfgLogSize

/-- Replace a completion ring, and show its tail, phase and reserved slots. -/
def State.setCq (s : State) (i r : Nat) (q : CqSt) : State :=
  let n := s.cqSize i r
  let s := { s with cqs := Table.put s.cqs (ringKey i r) q }
  ((s.put (Reg.cqStat i r) Fld.cqStatTail (q.written % n)).put (Reg.cqStat i r) Fld.cqStatPhase
    (1 - q.written / n % 2)).put (Reg.cqStat i r) Fld.cqStatResv q.resv

/-- A completion ring has a slot to reserve (R311). -/
def State.cqRoom (s : State) (i r : Nat) : Bool :=
  let q := s.cq i r
  decide (q.written - q.consumed + q.resv < s.cqSize i r)

/-- Reserve a slot. -/
def State.cqReserve (s : State) (i r : Nat) : State := s.setCq i r { s.cq i r with resv := (s.cq i r).resv + 1 }

/-- An engine has room for one more operation (R366). -/
def State.opRoom (s : State) (e : Nat) : Bool :=
  decide (s.opsAt e < s.get (Reg.raeCtrl (s.rae e)) Fld.raeCtrlMaxOps)

/-! ## Starting a job (R191, R314, R364, R365) -/

/-- The peer quota of the instance allows an operation to a peer (R314). -/
def State.quotaOk (s : State) (x : OpSt) : Bool :=
  let idxOf (y : OpSt) : Nat := peerIdx y.dst y.tc
  let held := ((s.rma.ops.filter (fun e => e.2.inst == x.inst && e.2.started && !e.2.done && e.2.kind.hasDst)).map
    (fun e => idxOf e.2)).dedup
  held.contains (idxOf x) || decide (held.length < (s.inst x.inst).peerQuota)

/-- A check of R365 or R473 fails. -/
def State.jobBad (s : State) (x : OpSt) : Bool :=
  match x.kind with
  | .atomic =>
    let w := if x.wide then 16 else 8
    decide (6 < x.aop) || x.remote % w != 0 || (x.aop != 2 && x.op2 != 0) || x.chained
  | .lock =>
    x.chained || x.remote % 64 != 0 || decide (3 < bits x.desc.w3.toNat 2 0)
      || ((x.aop % 8 == 0 || x.aop % 8 == 3) && (x.dst != s.fid || x.tInst != x.inst))
  | _ => false

/-- Start a job of a kind: it waits for the end of its chain, for its fence and for the peer quota; it fails its checks with status 34, or with
status 2 where no path exists; else it takes its transfer ID and does its part. -/
def State.startJob (s : State) (o : Nat) (k : OpKind) (go : State → OpSt → State) : State :=
  match Table.find s.rma.ops o with
  | none => s
  | some x =>
    if x.kind != k || x.started || x.done || !s.mayStart o x then s
    else if x.bad || s.jobBad x then s.finishOp o 34
    else if !s.quotaOk x then s
    else if !s.routable (hubOf x.engine) { Packet.zero with route := { RouteWord.zero with dst := x.dst } } then
      (s.bump Reg.routeStat Fld.routeStatNoRoute 1).finishOp o 2
    else
      let (xid, s) := s.newXid x.engine 0
      let x := { x with started := true, xid := xid, rspXid := xid }
      go (s.setOp o x) x

/-- The single packet of an operation. -/
def State.soloPacket (s : State) (x : OpSt) (op : Nat) (len : Nat) (payload : List Byte) (aux : Nat) : Packet :=
  { Packet.zero with
    op := op, tc := x.tc, src := s.fid, sInst := x.inst, tInst := x.tInst, xid := x.xid, base := x.remote, xlen := len,
    plen := payload.length, payload := payload, key := x.key, aux := aux, route := { RouteWord.zero with dst := x.dst } }

/-- PUT_JOB (R367). -/
def doPutJob (o : Nat) (s : State) : State := (s.startJob o .put (fun s _ => s.pumpOp o 320)).goOn

/-- PUT_JOB. -/
def execPutJob (job : Nat) (s : State) : Answer := act s (doPutJob job)

/-- GET_JOB (R362, R363). -/
def doGetJob (o : Nat) (s : State) : State :=
  (s.startJob o .get (fun s x => s.queueOp o (s.soloPacket x opGetReq x.length [] x.xid))).goOn

/-- GET_JOB. -/
def execGetJob (job : Nat) (s : State) : Answer := act s (doGetJob job)

/-- PUT_INL (R30): the payload is the descriptor's. `final` has no effect (R365). -/
def doPutInl (o : Nat) (s : State) : State :=
  (s.startJob o .putInl (fun s x => s.queueOp o (s.soloPacket x opPut x.length x.inline 0))).goOn

/-- PUT_INL. -/
def execPutInl (job : Nat) (s : State) : Answer := act s (doPutInl job)

/-- ATOMIC_JOB (R363): operand 1, and operand 2 for compare-swap. -/
def doAtomicJob (o : Nat) (s : State) : State :=
  (s.startJob o .atomic (fun s x =>
    let w := if x.wide then 16 else 8
    let pay := leBytes x.op1 w ++ (if x.aop = 2 then leBytes x.op2 w else [])
    s.queueOp o { s.soloPacket x opAtomic pay.length pay (x.aop + 16 * b2n x.wide) with locked := true })).goOn

/-- ATOMIC_JOB. -/
def execAtomicJob (job : Nat) (s : State) : Answer := act s (doAtomicJob job)

/-- A SEND of the same ring, traffic class and target, of an earlier descriptor, has not queued its first packet yet: the messages of
one ring keep their order (R393). -/
def State.sendBefore (s : State) (o : Nat) : Bool :=
  let x := s.op o
  x.ring.isSome && s.rma.ops.any (fun e => decide (e.1 < o) && e.2.kind == .send && e.2.inst == x.inst && e.2.ring == x.ring
    && e.2.tc == x.tc && e.2.dst == x.dst && !e.2.done
    && (e.2.nextPkt == 0 || s.rma.fetches.any (fun f => f.op == e.1 && f.pidx == 0 && f.resend.isNone)))

/-- SEND_JOB (R390, R393): eager packets, or one SEND_RDV. -/
def doSendJob (o : Nat) (s : State) : State :=
  if s.sendBefore o then s
  else (s.startJob o .send (fun s x =>
    if x.length ≤ 256 * s.get (Reg.matchInst x.inst) Fld.matchInstEager then s.pumpOp o 320
    else
      let s := s.setOp o { x with nextPkt := pktsOf x.length }
      s.queueOp o { s.soloPacket x opSendRdv x.length [] (x.key % 65536) with key := 0 })).goOn

/-- SEND_JOB. -/
def execSendJob (job : Nat) (s : State) : Answer := act s (doSendJob job)

/-- LOCK_JOB (R473). -/
def doLockJob (o : Nat) (s : State) : State :=
  (s.startJob o .lock (fun s x =>
    s.queueOp o { s.soloPacket x opLock 64 [] (bits x.desc.w3.toNat 2 0) with locked := true })).goOn

/-- LOCK_JOB. -/
def execLockJob (job : Nat) (s : State) : Answer := act s (doLockJob job)

/-- A NOP completes when its turn comes under `fence` (R297). -/
def doNop (o : Nat) (s : State) : State :=
  match Table.find s.rma.ops o with
  | some x =>
    if x.kind != .nop || x.started || x.done || !s.mayStart o x then s
    else if x.bad then s.finishOp o 34
    else (s.setOp o { x with started := true }).finishOp o 0
  | none => s

/-- NOP. -/
def execNop (job : Nat) (s : State) : Answer := act s (doNop job)

end Sys2Proof.Machine
end

