-- ==== Sys2Proof/Machine/Rings.lean ====
section
/-! DEFINITION. Rings: submission and completion rings: enabling, polling, taking entries and chains, near rings and
their tail cache (R29, R298 to R311, R333, R334). -/

namespace Sys2Proof.Machine

/-! ## Ring data -/

/-- Replace a submission ring, and show `running` and `chain_open`. -/
def State.setSq (s : State) (i r : Nat) (q : SqSt) : State :=
  let s := { s with sqs := Table.put s.sqs (ringKey i r) q }
  (s.put (Reg.sqStat i r) Fld.sqStatRunning (b2n (decide (0 < q.jobs)))).put (Reg.sqStat i r) Fld.sqStatChainOpen
    (b2n (!q.chain.isEmpty))

/-- Entries of a submission ring. -/
def State.sqSize (s : State) (i r : Nat) : Nat := 2 ^ s.get (Reg.sqCfg i r) Fld.sqCfgLogSize
/-- The next index to read. -/
def State.sqHead (s : State) (i r : Nat) : Nat := s.get (Reg.sqStat i r) Fld.sqStatHead
/-- The ring is near. -/
def State.sqNear (s : State) (i r : Nat) : Bool := s.flag (Reg.sqCfg i r) Fld.sqCfgNear
/-- The ring's base. -/
def State.sqBaseOf (s : State) (i r : Nat) : Nat := (s.word (Reg.sqBase i r)).toNat

/-- Move the head on by one entry; the owned phase turns at the end of a lap (R298). -/
def State.stepHead (s : State) (i r : Nat) : State :=
  let h := s.sqHead i r + 1
  let a := Reg.sqStat i r
  if h = s.sqSize i r then (s.put a Fld.sqStatHead 0).put a Fld.sqStatPhase (1 - s.get a Fld.sqStatPhase)
  else s.put a Fld.sqStatHead h

/-- A ring is polled (R34, R283, R285, R287, R308, R317): enabled, its instance ACTIVE, its link in D0, its zeroing done. -/
def State.polls (s : State) (i r : Nat) : Bool :=
  s.enabled && !s.safe && s.flag (Reg.sqCfg i r) Fld.sqCfgEnable && s.instState i == 1 && !s.d3hot (s.instLink i)
    && !(s.sq i r).zeroing
    && (match (s.sq i r).engine with
      | some e => !s.isFenced (.rae (s.rae e))
      | none => false)

/-- The base in device memory of an instance's near-ring pages. -/
def State.nearBase (s : State) (i : Nat) : Nat :=
  s.get Reg.instCtrl Fld.instCtrlNrBaseGib * 2 ^ 30 + 65536 * (s.inst i).nrBase

/-- The VF BAR2 size of a link (R265, log 7). -/
def State.vfBar2 (s : State) (n : Nat) : Nat := 2 ^ (20 + min 10 (bits (s.cfg n 0 0x1C8) 13 8))

/-! ## Taking entries (R298 to R302, R311, R366) -/

/-- A slot of the ring's completion ring and room at its engine: what a job needs before its first entry is taken. -/
def State.jobRoom (s : State) (i r : Nat) : Bool :=
  s.cqRoom i (s.get (Reg.sqCfg i r) Fld.sqCfgCq) && s.opRoom ((s.sq i r).engine.getD 0)

/-- Take the first entry of a job. A job that is whole at once and breaks R301 completes with status 34. -/
def State.takeFirst (s : State) (i r : Nat) (d : Desc) (bad : Bool) : State :=
  let q := s.sq i r
  let cq := s.get (Reg.sqCfg i r) Fld.sqCfgCq
  let x := { opOfDesc d i (q.engine.getD 0) cq (s.sqHead i r) r (some r) s.now with bad := bad || s.firstBad d }
  let t0 := if s.sqNear i r then (match Table.find s.tailCache (ringKey i r) with | some l => l.at_ | none => s.now)
    else q.readAt
  let (o, s) := s.takeJob x t0
  let s := (s.cqReserve i cq).stepHead i r
  let q := { q with jobs := q.jobs + 1 }
  if d.last || bad then
    let s := s.setSq i r q
    if x.bad then s.finishOp o 34 else s
  else s.setSq i r { q with chain := [d], chainOp := o }

/-- Close a chain whose last entry has been read (R301, R302). -/
def State.closeChain (s : State) (i r : Nat) (l : List Desc) : State :=
  let q := s.sq i r
  let s := s.setSq i r { q with chain := [] }
  match Table.find s.rma.ops q.chainOp with
  | none => s
  | some x =>
    if x.bad || chainBad l then s.finishOp q.chainOp 34
    else s.setOp q.chainOp { x with chained := true, segs := chainSegs l }

/-- What an engine does with the entry that it reads: it is not owned, or its job finds no room, and it stays in the ring; or it is taken. -/
inductive Took where
  | notOwned | noRoom | taken
deriving DecidableEq, Repr

/-- Take an entry of a ring, as its next. -/
def State.takeEntry (s : State) (i r : Nat) (d : Desc) : Took × State :=
  if b2n d.phase ≠ s.get (Reg.sqStat i r) Fld.sqStatPhase then (.notOwned, s)
  else
    let q := s.sq i r
    if d.first || q.chain.isEmpty then
      if !s.jobRoom i r then (.noRoom, s)
      else
        let s := if q.chain.isEmpty then s
          else (s.setSq i r { q with chain := [] }).finishOp q.chainOp 34
        (.taken, s.takeFirst i r d (!d.first))
    else
      let l := q.chain ++ [d]
      let s := s.stepHead i r
      (.taken, if d.last then s.closeChain i r l else s.setSq i r { q with chain := l })

/-- An open chain is left in its ring when polling stops (R308, R317): its slot is released and the head returns. -/
def State.leaveChain (s : State) (i r : Nat) : State :=
  let q := s.sq i r
  if q.chain.isEmpty then s
  else
    let x := s.op q.chainOp
    let s := { s with mon := { s.mon with sampled := s.mon.sampled.filter (fun e => e.op != q.chainOp) } }
    let s := (s.dropOp q.chainOp).setSq i r { q with chain := [], jobs := q.jobs - 1 }
    let s := s.setCq i x.cq { s.cq i x.cq with resv := (s.cq i x.cq).resv - 1 }
    let a := Reg.sqStat i r
    let s := if s.sqHead i r < x.idx then s.put a Fld.sqStatPhase (1 - s.get a Fld.sqStatPhase) else s
    s.put a Fld.sqStatHead x.idx

/-! ## Polling (R305, R306) -/

/-- The interval after a poll (R306): an owned entry restores it, and with `backoff` an empty poll doubles it. -/
def State.pollResult (s : State) (i r : Nat) (found : Bool) : State :=
  let q := s.sq i r
  let poll := s.get (Reg.sqCfg i r) Fld.sqCfgPoll
  let ex := s.flag (Reg.instCfg i) Fld.instCfgExpert
  let ivl := if found then poll
    else if ex && s.flag (Reg.sqCfg i r) Fld.sqCfgBackoff then max q.ivl (min (s.get (Reg.sqCfg i r) Fld.sqCfgPollCeil) (2 * q.ivl))
    else q.ivl
  s.setSq i r { q with ivl := ivl }

/-- The bytes of a near ring's entry: the tail cache is read first (R29). -/
def State.nearEntry (s : State) (i r : Nat) : Desc :=
  let off := s.sqBaseOf i r + 64 * s.sqHead i r
  Desc.ofBytes (match Table.find s.tailCache (ringKey i r) with
    | some l => if l.off = off then l.data else s.hbmRead (s.nearBase i + off) 64
    | none => s.hbmRead (s.nearBase i + off) 64)

/-- Read a near ring: owned entries at once, up to `n` in a row. -/
def State.pollNear (s : State) (i r : Nat) : Nat → Bool → State
  | 0, found => s.pollResult i r found
  | n + 1, found =>
    match s.takeEntry i r (s.nearEntry i r) with
    | (.taken, s) => s.pollNear i r n true
    | (.noRoom, s) => s.pollResult i r true
    | (.notOwned, s) => s.pollResult i r found

/-- Entries of one far read (R305): up to four, in one request, to the end of the ring, and to the 16th of the row. -/
def State.farCount (s : State) (i r : Nat) : Nat :=
  let h := s.sqHead i r
  min (min (min 4 (16 - (s.sq i r).row)) (s.mrrs (s.instLink i) / 64)) (min (s.sqSize i r - h) (64 - h % 64))

/-- Issue the read of a far ring at its translated address. -/
def State.readFar (s : State) (i r bus : Nat) : State :=
  (s.setSq i r { s.sq i r with readAt := s.now }).hostRead i bus (64 * s.farCount i r) (fun _ => .ringPoll i r)

/-- Start the read of a far ring: its base passes stage 2 alone (R335). A fault ends the poll. -/
def State.pollFar (s : State) (i r : Nat) : State :=
  let va := s.sqBaseOf i r + 64 * s.sqHead i r
  let s := s.setSq i r { s.sq i r with polling := true }
  match s.translate i ⟨BitVec.ofNat 64 va, .rd, false, .ring r⟩ with
  | (.hit bus _, s) => s.readFar i r bus
  | (.wait, s) => s
  | (.fault, s) => s.setSq i r { s.sq i r with polling := false }

/-- The translation of a far read has ended. -/
def State.ringXlat (s : State) (i r : Nat) (res : Option (Nat × Nat)) : State :=
  match res with
  | some (bus, _) => if (s.sq i r).polling then s.readFar i r bus else s
  | none => s.setSq i r { s.sq i r with polling := false }

/-- Take entries in order up to the first that stays: how many were taken, and whether one was found owned. -/
def State.takeAll (s : State) (i r : Nat) : List Desc → Nat × Bool × State
  | [] => (0, false, s)
  | d :: t =>
    match s.takeEntry i r d with
    | (.taken, s) =>
      let (n, _, s) := s.takeAll i r t
      (n + 1, true, s)
    | (.noRoom, s) => (0, true, s)
    | (.notOwned, s) => (0, false, s)

/-- The entries of a far read. -/
def entriesOf : Nat → List Byte → List Desc
  | 0, _ => []
  | n + 1, l => if l.length < 64 then [] else Desc.ofBytes l :: entriesOf n (l.drop 64)

/-- A far read returns (R305): owned entries are taken, and the next are read at once, up to 16 in a row. -/
def State.ringData (s : State) (i r : Nat) (data : List Byte) : State :=
  let s := s.setSq i r { s.sq i r with polling := false }
  if !s.polls i r then s
  else
    let l := entriesOf 4 data
    let (n, owned, s) := s.takeAll i r l
    let row := (s.sq i r).row + n
    if n = l.length ∧ row < 16 then (s.setSq i r { s.sq i r with row := row }).pollFar i r
    else (s.setSq i r { s.sq i r with row := 0 }).pollResult i r (owned || decide (0 < row))

/-- Poll a ring once. -/
def State.pollRing (s : State) (i r : Nat) : State :=
  if !s.polls i r then s
  else if s.sqNear i r then s.pollNear i r 16 false
  else if (s.sq i r).polling then s
  else (s.setSq i r { s.sq i r with row := 0 }).pollFar i r

/-- RING_POLL. -/
def execRingPoll (inst : Fin 4096) (ring : Fin 64) (s : State) : Answer := act s (fun s => s.pollRing inst ring)

/-- KICK (R306): poll now and restore the interval. -/
def doKick (i r : Nat) (s : State) : State :=
  s.ifStructured (Reg.sqStat i r) (fun s =>
    (s.setSq i r { s.sq i r with ivl := s.get (Reg.sqCfg i r) Fld.sqCfgPoll }).pollRing i r)

/-- KICK. -/
def execKick (inst : Fin 4096) (ring : Fin 64) (s : State) : Answer := act s (doKick inst ring)

/-- A SEG entry that the ring has read is taken into its open chain (R301, R302). -/
def doSeg (i r : Nat) (d : Desc) (s : State) : State :=
  if d.op = opSeg ∧ s.polls i r then (s.takeEntry i r d).2 else s

/-- SEG. -/
def execSeg (inst : Fin 4096) (ring : Fin 64) (d : Desc) (s : State) : Answer := act s (doSeg inst ring d)

/-! ## Enabling (R304, R307, R308, R333) -/

/-- The polls per second that a ring costs (R307), as 125 × 10^6 / `poll`. -/
def pollCost (poll : Nat) : Rat := mkRat 125000000 (max 1 poll)

/-- The polls per second that the rings of an engine cost, other than ring `not`. -/
def State.pollUsed (s : State) (e skip : Nat) : Rat :=
  s.sqs.foldl (fun n q =>
    let i := q.1 / 64; let r := q.1 % 64
    if q.2.engine = some e ∧ q.1 ≠ skip ∧ s.flag (Reg.sqCfg i r) Fld.sqCfgEnable then
      n + pollCost (s.get (Reg.sqCfg i r) Fld.sqCfgPoll) else n) 0

/-- The poll budget of an engine. -/
def State.pollBudget (s : State) : Rat := mkRat (1000000 * s.get Reg.instCtrl Fld.instCtrlPollBudget) 1

/-- The engine of a hub with the most budget left, the lowest number on a tie (R307). -/
def State.pickEngine (s : State) (hub skip : Nat) : Nat :=
  ((List.range 4).map (fun k => 4 * hub + k)).foldl (fun b e =>
    if s.pollUsed e skip < s.pollUsed b skip then e else b) (4 * hub)

/-- `poll` is in its range: 1 to 125,000 for a near ring, 25 to 125,000 for a far one (R305). -/
def pollOk (near : Bool) (poll : Nat) : Bool := decide ((if near then 1 else 25) ≤ poll ∧ poll ≤ 125000)

/-- The first enable error of R333, or 0. -/
def State.sqCheck (s : State) (i r : Nat) (v : Word) : Nat :=
  let x := s.inst i
  let log := Fld.sqCfgLogSize.get v
  let near := Fld.sqCfgNear.get v == 1
  let size := 64 * 2 ^ log
  let base := s.sqBaseOf i r
  let poll := Fld.sqCfgPoll.get v
  let hub := s.instHub i
  let e := s.pickEngine hub (ringKey i r)
  if x.sq ≤ r then 1
  else if log < 6 ∨ 16 < log ∨ base % (if near then size else 4096) ≠ 0 then 2
  else if near ∧ (s.vfBar2 x.vfLink < base + size ∨ 65536 * x.nr64k < base + size) then 3
  else if !pollOk near poll then 4
  else if s.pollBudget < s.pollUsed e (ringKey i r) + pollCost poll then 5
  else if x.cq ≤ Fld.sqCfgCq.get v ∨ !s.flag (Reg.cqCfg i (Fld.sqCfgCq.get v)) Fld.cqCfgEnable then 6
  else if s.instState i ≠ 1 then 7
  else if 0 < (s.sq i r).jobs then 8
  else 0

/-- The fields of SQ_CFG that a write stores: with `expert` of the instance clear, `backoff` and `poll_ceil` keep their
derived values (R72, R306). -/
def State.sqFields (s : State) (i : Nat) (v : Word) : Word :=
  let v := BitVec.ofNat 64 (v.toNat % 2 ^ 48)
  if s.flag (Reg.instCfg i) Fld.instCfgExpert then v
  else Fld.sqCfgPollCeil.put (Fld.sqCfgBackoff.put v 0) (Fld.sqCfgPoll.get v)

/-- With `expert` of the instance clear, a write of SQ_CFG discards `backoff` and `poll_ceil`, which it carries, with an event (R72). -/
def State.sqEvent (s : State) (i r : Nat) : State :=
  if s.flag (Reg.instCfg i) Fld.instCfgExpert then s else s.notice 61 (Reg.sqCfg i r)

/-- The error of a `poll` asked for on an enabled ring (R305, R307): 4 out of range, 5 beyond the budget of its engine, or 0. -/
def State.pollErr (s : State) (i r poll : Nat) : Nat :=
  if !pollOk (s.sqNear i r) poll then 4
  else if s.pollBudget < s.pollUsed ((s.sq i r).engine.getD 0) (ringKey i r) + pollCost poll then 5
  else 0

/-- A write of an enabled ring's SQ_CFG stores `poll`, `backoff` and `poll_ceil` (R306, R307, R333): a `poll` with an error keeps the old
value, and a change of it restores the interval. -/
def State.changePoll (s : State) (i r : Nat) (v : Word) : State :=
  let a := Reg.sqCfg i r
  let old := s.get a Fld.sqCfgPoll
  let err := s.pollErr i r (Fld.sqCfgPoll.get v)
  let poll := if err = 0 then Fld.sqCfgPoll.get v else old
  let w := s.sqFields i (Fld.sqCfgPoll.put v poll)
  let s := ((s.put a Fld.sqCfgPoll poll).put a Fld.sqCfgBackoff (Fld.sqCfgBackoff.get w)).put a Fld.sqCfgPollCeil
    (Fld.sqCfgPollCeil.get w)
  let s := if err = 0 then s else s.put (Reg.sqStat i r) Fld.sqStatErr err
  if poll = old then s else s.setSq i r { s.sq i r with ivl := poll }

/-- A write of SQ_CFG with `enable` set: checked, assigned to an engine, started at index 0 on lap 0 (R307, R308). A near
ring is zeroed first (R300). -/
def doSqEnable (i r : Nat) (v : Word) (s : State) : State :=
  s.ifStructured (Reg.sqCfg i r) (fun s =>
    let a := Reg.sqCfg i r
    let s := s.sqEvent i r
    if s.flag a Fld.sqCfgEnable then s.changePoll i r v
    else
      let w := s.sqFields i v
      match s.sqCheck i r v with
      | 0 =>
        let near := Fld.sqCfgNear.get v == 1
        let e := s.pickEngine (s.instHub i) (ringKey i r)
        let s := s.setWord a (Fld.sqCfgEnable.put w 1)
        let s := (s.put (Reg.sqStat i r) Fld.sqStatHead 0).put (Reg.sqStat i r) Fld.sqStatPhase 1
        let s := { s with tailCache := Table.del s.tailCache (ringKey i r) }
        s.setSq i r { SqSt.init with engine := some e, ivl := Fld.sqCfgPoll.get v, zeroing := near }
      | err => (s.setWord a (Fld.sqCfgEnable.put w 0)).put (Reg.sqStat i r) Fld.sqStatErr err)

/-- SQ_ENABLE. -/
def execSqEnable (inst : Fin 4096) (ring : Fin 64) (value : BitVec 64) (s : State) : Answer :=
  act s (doSqEnable inst ring value)

/-- Stop the polling of a ring: an open chain is left in it, and a read in progress is not used. -/
def State.stopRing (s : State) (i r : Nat) : State :=
  let s := s.leaveChain i r
  let s := { s with
    dma := s.dma.filter (fun d => d.why != ReadWhy.ringPoll i r)
    dmaQ := s.dmaQ.filter (fun d => d.why != ReadWhy.ringPoll i r) }
  s.setSq i r { s.sq i r with polling := false, row := 0 }

/-- Clearing `enable` stops polling (R308). -/
def doSqDisable (i r : Nat) (s : State) : State :=
  s.ifStructured (Reg.sqCfg i r) (fun s =>
    let s := s.sqEvent i r
    if s.flag (Reg.sqCfg i r) Fld.sqCfgEnable then (s.stopRing i r).put (Reg.sqCfg i r) Fld.sqCfgEnable 0 else s)

/-- SQ_DISABLE. -/
def execSqDisable (inst : Fin 4096) (ring : Fin 64) (s : State) : Answer := act s (doSqDisable inst ring)

/-- The zeroing of a near ring ends (R300): its entries read zero, from the tail cache as from HBM (R29). -/
def doNearRingZeroed (i r : Nat) (s : State) : State :=
  let q := s.sq i r
  if q.zeroing then
    let a := s.nearBase i + s.sqBaseOf i r
    let n := 64 * s.sqSize i r
    let cells := s.rma.hbm.filter (fun c => !(decide (a ≤ c.1 ∧ c.1 < a + n)))
    let s := { s with rma := { s.rma with hbm := cells }, tailCache := Table.del s.tailCache (ringKey i r) }
    s.setSq i r { q with zeroing := false }
  else s

/-- NEAR_RING_ZEROED. -/
def execNearRingZeroed (inst : Fin 4096) (ring : Fin 64) (s : State) : Answer := act s (doNearRingZeroed inst ring)

/-- A write of CQ_CFG with `enable` set (R304, R334): a ring or vector beyond the allocation, a bad size or a misaligned
base refuses it with error 1 (log 30). It starts at index 0 on lap 0. A ring that is enabled keeps its size, and a vector that is
not allocated is not taken (R276). -/
def doCqEnable (i r : Nat) (v : Word) (s : State) : State :=
  s.ifStructured (Reg.cqCfg i r) (fun s =>
    let a := Reg.cqCfg i r
    let x := s.inst i
    let v := BitVec.ofNat 64 (v.toNat % 2 ^ 13)
    if s.flag a Fld.cqCfgEnable then
      let s := s.put a Fld.cqCfgIrqErr (Fld.cqCfgIrqErr.get v)
      if x.vectors ≤ Fld.cqCfgVector.get v then s.put (Reg.cqStat i r) Fld.cqStatErr 1
      else s.put a Fld.cqCfgVector (Fld.cqCfgVector.get v)
    else if x.cq ≤ r ∨ x.vectors ≤ Fld.cqCfgVector.get v ∨ Fld.cqCfgLogSize.get v < 6 ∨ 16 < Fld.cqCfgLogSize.get v
        ∨ (s.word (Reg.cqBase i r)).toNat % 64 ≠ 0 then
      (s.setWord a (Fld.cqCfgEnable.put v 0)).put (Reg.cqStat i r) Fld.cqStatErr 1
    else ((s.setWord a v).setCq i r CqSt.init).setWord (Reg.cqHead i r) 0)

/-- CQ_ENABLE. -/
def execCqEnable (inst : Fin 4096) (ring : Fin 64) (value : BitVec 64) (s : State) : Answer :=
  act s (doCqEnable inst ring value)

/-- Clearing `enable` of a completion ring is discarded while an enabled submission ring names it (R334). -/
def doCqDisable (i r : Nat) (s : State) : State :=
  s.ifStructured (Reg.cqCfg i r) (fun s =>
    if (List.range 64).any (fun q => s.flag (Reg.sqCfg i q) Fld.sqCfgEnable && s.get (Reg.sqCfg i q) Fld.sqCfgCq == r) then
      s.put (Reg.cqStat i r) Fld.cqStatErr 2
    else s.put (Reg.cqCfg i r) Fld.cqCfgEnable 0)

/-- CQ_DISABLE. -/
def execCqDisable (inst : Fin 4096) (ring : Fin 64) (s : State) : Answer := act s (doCqDisable inst ring)

/-- A CQ_HEAD write frees slots (R311): a value that makes the unconsumed count negative or larger than the ring is
ignored and sets error 3. -/
def doCqHead (i r h : Nat) (s : State) : State :=
  s.ifStructured (Reg.cqHead i r) (fun s =>
    let q := s.cq i r
    let n := s.cqSize i r
    let step := (h + n - q.consumed % n) % n
    if n ≤ h ∨ q.written < q.consumed + step then s.put (Reg.cqStat i r) Fld.cqStatErr 3
    else (s.setCq i r { q with consumed := q.consumed + step }).put (Reg.cqHead i r) Fld.cqHeadHead h)

/-- CQ_HEAD_WRITE. -/
def execCqHeadWrite (inst : Fin 4096) (ring : Fin 64) (head : BitVec 16) (s : State) : Answer :=
  act s (doCqHead inst ring head.toNat)

/-! ## Near rings (R29) -/

/-- Write bytes into a line of the tail cache; a write to another line brings that line in from device memory. -/
def State.tailWrite (s : State) (i r off : Nat) (data : List Byte) : State :=
  let line := off / 64 * 64
  let old := match Table.find s.tailCache (ringKey i r) with
    | some l => if l.off = line then l.data else s.hbmRead (s.nearBase i + line) 64
    | none => s.hbmRead (s.nearBase i + line) 64
  let k := off % 64
  let l : TailLine := ⟨line, s.now, (old.take k ++ data ++ old.drop (k + data.length)).take 64⟩
  { s with tailCache := Table.put s.tailCache (ringKey i r) l }

/-- Write a span of bytes into the tail cache, line by line: the last line written stays. -/
def State.tailSpan (s : State) (i r off : Nat) (data : List Byte) : State :=
  (linesOf off data.length).foldl (fun s l =>
    let a := max off (64 * l)
    s.tailWrite i r a ((data.drop (a - off)).take (64 * l + 64 - a))) s

/-- The enabled near ring of an instance that holds an offset of its pages. -/
def State.nearRingAt (s : State) (i off : Nat) : Option Nat :=
  (List.range 64).find? (fun r => s.flag (Reg.sqCfg i r) Fld.sqCfgEnable && s.sqNear i r
    && decide (s.sqBaseOf i r ≤ off ∧ off < s.sqBaseOf i r + 64 * s.sqSize i r))

/-- The tail cache line of an instance's engine that holds a byte of its near-ring pages, if one does. -/
def State.tailAt (s : State) (i a : Nat) : Option Byte :=
  (s.nearRingAt i a).bind (fun r =>
    (Table.find s.tailCache (ringKey i r)).bind (fun l => if l.off ≤ a ∧ a < l.off + 64 then l.data[a - l.off]? else none))

/-- What a host reads of an instance's near-ring pages: the tail cache over device memory, which it is written through to (R29). -/
def State.nearRead (s : State) (i off n : Nat) : List Byte :=
  (List.range n).map (fun k =>
    match s.tailAt i (off + k) with
    | some b => b
    | none => (s.hbmRead (s.nearBase i + off + k) 1).headD 0)

/-- A host write of an instance's near-ring pages (R29): into the tail cache of the ring's engine, and through to HBM. -/
def State.nearWrite (s : State) (i off : Nat) (data : List Byte) : State :=
  let s := match s.nearRingAt i off with
    | some r => s.tailSpan i r off data
    | none => s
  s.hbmWrite (s.nearBase i + off) data

/-- The first byte, the length and the direction of an access of a BAR. -/
def barSpan (x : BarAccess) : Nat × Nat × Bool :=
  match x.req with
  | .read len => (x.off, len, true)
  | .write data => (x.off, data.length, false)
  | .atomic len => (x.off, len, true)

end Sys2Proof.Machine
end

