-- ==== Sys2Proof/Machine/Complete.lean ====
section
/-! DEFINITION. Complete: the end of a job: its completion entry and interrupt, count triggers, the sampling record, and
what goes on when a translation ends (R309 to R312, R346, R459, R531, R532). -/

namespace Sys2Proof.Machine

/-! ## Completion entries (R309 to R312) -/

/-- The spec states `len_m1` of a job: bytes moved by one that succeeded, bytes of the message of a receive (R309, R428). -/
def OpSt.lenKnown (x : OpSt) : Bool :=
  match x.kind with
  | .recv => !x.result.isEmpty
  | .put | .get | .putInl | .atomic | .send | .coll => x.status == 0
  | _ => false

/-- The completion entry of a job (R309). -/
def OpSt.entry (x : OpSt) (len phase : Nat) : List Byte :=
  leBytes x.cookie.toNat 8
    ++ leBytes (x.idx % 2 ^ 16 + (x.sq % 64) <<< 16 + (x.status % 256) <<< 22 + b2n x.trunc <<< 30 + (len % 2 ^ 32) <<< 31
        + (phase % 2) <<< 63) 8
    ++ padTo 16 x.result

/-- Write an entry at its translated address, and send the ring's message after it (R270, R312). -/
def State.entryWrite (s : State) (e : EntryOut) (bus gpa : Nat) : State :=
  s.hostWriteThen e.inst bus gpa e.data false
    (if e.irq then .msix (s.get (Reg.cqCfg e.inst e.cq) Fld.cqCfgVector) else .none)

/-- Issue an entry: its ring's base passes stage 2 alone (R335). An entry whose address faults is lost. -/
def State.entryIssue (s : State) (e : EntryOut) : State :=
  match s.translate e.inst ⟨BitVec.ofNat 64 e.addr, .wr, false, .entry e.op⟩ with
  | (.hit bus gpa, s) => s.entryWrite e bus gpa
  | (.wait, s) => { s with rma := { s.rma with entries := s.rma.entries ++ [e] } }
  | (.fault, s) => s

/-- The translation of an entry's address has ended. -/
def State.entryXlat (s : State) (o : Nat) (res : Option (Nat × Nat)) : State :=
  match s.rma.entries.find? (fun e => e.op == o) with
  | none => s
  | some e =>
    let s := { s with rma := { s.rma with entries := s.rma.entries.filter (fun e => e.op != o) } }
    match res with
    | some (bus, gpa) => s.entryWrite e bus gpa
    | none => s

/-- Write a job's entry into its slot, or release the slot (R283, R287, R311, R312). -/
def State.slotDone (s : State) (o : Nat) (x : OpSt) : State :=
  let q := s.cq x.inst x.cq
  if x.silent || (x.quiet && x.status == 0) then s.setCq x.inst x.cq { q with resv := q.resv - 1 }
  else
    let n := s.cqSize x.inst x.cq
    let (free, s) := if x.lenKnown then (BitVec.ofNat 64 x.lenM1, s) else s.fresh
    let e : EntryOut := {
      op := o, inst := x.inst, cq := x.cq
      addr := (s.word (Reg.cqBase x.inst x.cq)).toNat + 32 * (q.written % n)
      data := x.entry free.toNat (1 - q.written / n % 2)
      irq := x.irq || (x.status != 0 && s.flag (Reg.cqCfg x.inst x.cq) Fld.cqCfgIrqErr) }
    (s.setCq x.inst x.cq { q with resv := q.resv - 1, written := q.written + 1 }).entryIssue e

/-! ## Count triggers (R459) -/

/-- A job has completed with its slot in completion ring `r`: the instance's count triggers on it count. -/
def State.fireCount (s : State) (i r : Nat) : State :=
  s.trigList.foldl (fun s t =>
    let a := Reg.trigCfg t
    if s.flag a Fld.trigCfgEnable && s.get a Fld.trigCfgKind == 2 && s.get a Fld.trigCfgInst == i
        && s.get a Fld.trigCfgSel == r then
      let c := s.get (Reg.trigStat t) Fld.trigStatCount + 1
      let arg := s.get (Reg.trigArg t) Fld.trigArgArg
      if 0 < arg ∧ arg ≤ c then (s.put (Reg.trigStat t) Fld.trigStatCount (c - arg)).fire t (BitVec.ofNat 64 c) 0 0 0
      else s.put (Reg.trigStat t) Fld.trigStatCount c
    else s) s

/-! ## Sampling records (R531, R532) -/

/-- A stage of a record: the time from t0, at most 0xFFFF_FFFE, or all ones when the job never reached it. -/
def stageOf (r : Sampled) (k : Nat) : Nat :=
  match r.stamps.find? (fun e => e.1 == k) with
  | some e => min (e.2 - r.t0) 0xFFFFFFFE
  | none => 0xFFFFFFFF

/-- The record of a sampled job (R531). -/
def sampleRecord (r : Sampled) (x : OpSt) (near : Bool) (apply : Nat) : List Byte :=
  let pair (j k : Nat) : List Byte := leBytes (stageOf r j) 4 ++ leBytes (stageOf r k) 4
  leBytes (x.inst % 4096 + (x.sq % 64) <<< 12 + (x.idx % 2 ^ 16) <<< 18 + x.desc.op <<< 34
      + (if x.silent || (x.quiet && x.status == 0) then 0xFF else x.status % 256) <<< 42 + (x.tc % 8) <<< 50 + b2n near <<< 53) 8
    ++ leBytes x.remote 8
    ++ leBytes (x.dst % 2 ^ 18 + ((x.length - 1) % 2 ^ 32) <<< 18) 8
    ++ leBytes (r.t0 - apply) 8
    ++ leBytes (stageOf r 1) 4 ++ leBytes (stageOf r 2) 4 ++ pair 3 4 ++ pair 5 6 ++ pair 7 8

/-- Unread sampling records. -/
def State.sampUnread (s : State) : Nat :=
  subMod 21 (s.get Reg.sampStat Fld.sampStatWr) (s.get Reg.sampStat Fld.sampStatRd)

/-- The unread count has reached `thresh`: one event until `irq_pend` is cleared. -/
def State.sampEvent (s : State) : State :=
  if s.get Reg.sampThr Fld.sampThrThresh ≤ s.sampUnread ∧ !s.flag Reg.sampStat Fld.sampStatIrqPend then
    (s.put Reg.sampStat Fld.sampStatIrqPend 1).raiseEvent 20
  else s

/-- Write the record of a job that ends, if it is sampled (R532). -/
def State.sampleEnd (s : State) (o : Nat) (x : OpSt) : State :=
  match s.mon.sampled.find? (fun r => r.op == o) with
  | none => s
  | some r =>
    let r := { r with stamps := r.stamps ++ [(8, s.now)] }
    let s := { s with mon := { s.mon with sampled := s.mon.sampled.filter (fun r => r.op != o) } }
    let n := s.get Reg.sampBuf Fld.sampBufLogN
    let wr := s.get Reg.sampStat Fld.sampStatWr
    let near := match x.ring with
      | some q => s.sqNear x.inst q
      | none => false
    if 2 ^ n ≤ s.sampUnread then s.bump Reg.sampCnt Fld.sampCntLost 1
    else
      let a := s.get Reg.sampBuf Fld.sampBufBase * 4096 + 64 * (wr % 2 ^ n)
      ((s.devWrite a (sampleRecord r x near s.applyNs)).put Reg.sampStat Fld.sampStatWr (wr + 1)).sampEvent

/-! ## The end of a job -/

/-- A job that has ended completes: slot, interrupt, triggers and record (R311, R312, R459, R532). It waits while its link
is in D3hot (R285). -/
def State.completeJob (s : State) (o : Nat) : State :=
  match Table.find s.rma.ops o with
  | none => s
  | some x =>
    if !x.done || (s.d3hot (s.instLink x.inst) && !x.silent) then s
    else
      let s := if x.status = 0 then s
        else s.count ⟨0x501, some (s.rae x.engine), some x.inst, some x.remote, some x.tc, some x.mgr, 1⟩
      let s := ((s.slotDone o x).sampleEnd o x).dropOp o
      let s := match x.ring with
        | some r => s.setSq x.inst r { s.sq x.inst r with jobs := (s.sq x.inst r).jobs - 1 }
        | none => s
      (s.fireCount x.inst x.cq).goOn

/-- A job completes; one of a collective that ended while its result is being placed waits for the placement to complete or fail
whole (R441). -/
def doJobComplete (o : Nat) (s : State) : State :=
  if s.xp.placing.any (fun pl => pl.op == o && pl.pkt.op == opColl) then s else s.completeJob o

/-- JOB_COMPLETE. -/
def execJobComplete (job : Nat) (s : State) : Answer := act s (doJobComplete job)

/-! ## Translations that end (R346) -/

/-- What waited for a translation goes on with its answer. -/
def State.resume (s : State) (d : XDone) : State :=
  let va := d.req.addr.toNat
  let placing (s : State) : Option Place :=
    s.xp.placing.find? (fun pl => pl.who == d.req.who && pl.inst == d.inst && pl.todo.any (fun c => c.1 == va))
  let place (s : State) : State :=
    match placing s with
    | some pl => s.placeXlat pl va d.res
    | none => s
  match d.req.who with
  | .probe => s
  | .ring r => s.ringXlat d.inst r d.res
  | .entry o => s.entryXlat o d.res
  | .loc o pidx => if d.req.acc = .rd then s.fetchXlat o pidx va d.res else place s
  | .target k pidx =>
    match d.req.acc with
    | .rd =>
      match s.rma.ops.find? (fun e => e.2.kind == .serveGet && e.2.dst == k.src && e.2.tInst == k.sInst
          && e.2.rspXid == k.xid) with
      | some (o, _) => s.fetchXlat o pidx va d.res
      | none => s
    | .wr => place s
    | .atm =>
      match placing s with
      | none => s
      | some pl =>
        let s := s.dropPlace pl
        match d.res with
        | some (bus, gpa) => s.hostAtom pl.pkt bus gpa
        | none => s.winReject pl.pkt

/-- Every translation that has ended. -/
def State.resumeAll (s : State) (l : List XDone) : State := (l.foldl (fun s d => s.resume d) s).goOn

/-- TRANSLATE: a request is made of the unit for what waits under it. -/
def doTranslate (i : Nat) (req : XlatReq) (s : State) : State :=
  if !s.structured then s
  else
    match s.translate i req with
    | (.hit b g, s) => s.resumeAll [⟨i, req, some (b, g)⟩]
    | (.fault, s) => s.resumeAll [⟨i, req, none⟩]
    | (.wait, s) => s

/-- TRANSLATE. -/
def execTranslate (inst : Fin 4096) (acc : XlatReq) (s : State) : Answer := act s (doTranslate inst acc)

/-- The table read of a walk ends. -/
def doWalkRead (w : Nat) (res : ReadRes) (s : State) : State :=
  let (l, s) := s.walkRead w res
  s.resumeAll l

/-- WALK_READ_DONE. -/
def execWalkReadDone (walk : Nat) (res : ReadRes) (s : State) : Answer := act s (doWalkRead walk res)

/-- A marking CAS returns. -/
def doMarkDone (w : Nat) (old : Word) (ok : Bool) (s : State) : State :=
  let (l, s) := s.markDone w old ok
  s.resumeAll l

/-- MARK_CAS_DONE. -/
def execMarkCasDone (walk : Nat) (old : BitVec 64) (ok : Bool) (s : State) : Answer := act s (doMarkDone walk old ok)

end Sys2Proof.Machine
end

