-- ==== Sys2Proof/Machine/Dma.lean ====
section
/-! DEFINITION. Dma: what the host answers to the device's reads and AtomicOps, and how they fail (R271 to R273, R278). -/

namespace Sys2Proof.Machine

/-- The source of host tile `n` numbered `j` (R495). -/
def hostSrc (n j : Nat) : Nat := 304 + 24 * n + j

/-- The outstanding request of a link under a tag. -/
def State.dmaAt (s : State) (n tag : Nat) : Option DmaReq := s.dma.find? (fun r => r.link == n && r.tag == tag)

/-- A request is no longer outstanding: the next that waits is issued. -/
def State.dmaOver (s : State) (r : DmaReq) : State :=
  ({ s with dma := s.dma.filter (fun x => !(x.link == r.link && x.tag == r.tag)) }).pumpDma r.link

/-- A payload has come whole (R367, R369, R432): it leaves in its packet, again in a resent one, or becomes the input of
a segment. -/
def State.payloadDone (s : State) (f : FetchSt) (data : List Byte) : State :=
  match f.resend with
  | some (i, seq) => s.resendData i seq data
  | none =>
    match Table.find s.rma.ops f.op with
    | none => s
    | some x =>
      if x.kind == .coll then
        match s.colls.colls.find? (fun c => c.op == f.op) with
        | some c => s.ownInput c.comm c.seq f.pidx data
        | none => s
      else (s.queueOp f.op (s.opPacket x f.pidx data)).pumpOp f.op 320

/-- The AtomicOps that wait to be issued on a link and may no longer be: an ATOMIC is not executed and a mark is not made (R273, R374). -/
def State.refuseAtomics (s : State) (n : Nat) : State :=
  let gone (r : DmaReq) : Bool := r.link == n && r.atomic && !s.atomicsOk r.func
  let l := s.dmaQ.filter gone
  l.foldl (fun s r =>
    match r.why with
    | .hostAtomic p => s.atomRsp p 1 []
    | .mark w => doMarkDone w 0 false s
    | _ => s) { s with dmaQ := s.dmaQ.filter (fun r => !gone r) }

/-- Data arrives for a request. -/
def State.dmaData (s : State) (r : DmaReq) (data : List Byte) : State :=
  match r.why with
  | .payload o pidx off =>
    match s.fetchData o pidx off data with
    | (some (f, l), s) => (s.payloadDone f l).goOn
    | (none, s) => s
  | .ringPoll i q => (s.ringData i q data).goOn
  | .dlogWord i w => (s.dlogArrive i w (leNat data)).refuseAtomics r.link
  | .walk w => doWalkRead w (.entry (BitVec.ofNat 64 (leNat data))) s
  | .mark _ | .hostAtomic _ | .write _ _ => s

/-- DMA_READ_COMPLETION. -/
def doDmaRead (n tag : Nat) (data : List Byte) (s : State) : State :=
  match s.dmaAt n tag with
  | none => s
  | some r =>
    match r.why with
    | .mark _ | .hostAtomic _ | .write _ _ => s
    | _ => if data.length = r.len then (s.dmaOver r).dmaData r data else s

/-- DMA_READ_COMPLETION. -/
def execDmaReadCompletion (link : Fin 4) (tag : Nat) (data : List Byte) (s : State) : Answer :=
  act s (doDmaRead link tag data)

/-- The writes that wait for a bitmap word that cannot be read go on: their pages are not logged, as one beyond `pages`
(R324, log 32). -/
def State.dlogLost (s : State) (i w : Nat) : State :=
  let go := s.logWait.filter (fun l => l.inst == i && l.word == w)
  let s := { s with logWait := s.logWait.filter (fun l => !(l.inst == i && l.word == w)) }
  go.foldl (fun s l =>
    ((s.put (Reg.dlogCtrl i) Fld.dlogCtrlOver 1).bump (Reg.dlogCtrl i) Fld.dlogCtrlOverCount 1).logged i l.addr l.data l.ro
      l.next) s

/-- A request fails (R271, R371, R374, R381): the operation that issued it fails. -/
def State.dmaLost (s : State) (r : DmaReq) : State :=
  match r.why with
  | .payload o _ _ => (s.localFail o 36).goOn
  | .ringPoll i q => (s.setSq i q { s.sq i q with polling := false, row := 0 }).pollResult i q false
  | .dlogWord i w => (s.dlogLost i w).refuseAtomics r.link
  | .walk w => doWalkRead w .failed s
  | .mark w => doMarkDone w 0 false s
  | .hostAtomic p => (s.sendNcomp p 16).goOn
  | .write _ _ => s

/-- A request fails by timeout, poison or loss: it is counted. -/
def State.dmaFailed (s : State) (r : DmaReq) : State :=
  ((s.dmaOver r).bump (Reg.hostErr r.link) Fld.hostErrDmaFail 1).dmaLost r

/-- COMPLETION_TIMEOUT (R271, R278). -/
def doCompletionTimeout (n tag : Nat) (s : State) : State :=
  match s.dmaAt n tag with
  | none => s
  | some r => ((s.aer r.func aerTimeout).postZero (hostSrc n 2)).dmaFailed r

/-- COMPLETION_TIMEOUT. -/
def execCompletionTimeout (link : Fin 4) (tag : Nat) (s : State) : Answer := act s (doCompletionTimeout link tag)

/-- A poisoned completion or write is received (R278): its data is discarded. -/
def doPoisonedTlp (n : Nat) (what : BadTlp) (s : State) : State :=
  match what with
  | .completion tag =>
    match s.dmaAt n tag with
    | none => s
    | some r => ((s.aer r.func aerPoisoned).postZero (hostSrc n 3)).dmaFailed r
  | .write fn => (s.aer ⟨n, fn⟩ aerPoisoned).postZero (hostSrc n 3)

/-- POISONED_TLP. -/
def execPoisonedTlp (link : Fin 4) (what : BadTlp) (s : State) : Answer := act s (doPoisonedTlp link what)

/-- A TLP whose ECRC fails is discarded (R278); a function whose ECRC Check Enable is clear checks none (R260). -/
def doEcrcError (f : Func) (s : State) : State :=
  if s.cfgBit f.link f.vf 0x118 8 then (s.aer f aerEcrc).postZero (hostSrc f.link 4) else s

/-- ECRC_ERROR. -/
def execEcrcError (link : Fin 4) (fn : Nat) (s : State) : Answer := act s (doEcrcError ⟨link, fn⟩)

/-- An AtomicOp completes (R272, R273, R374): the value read goes to the requester or to the mark; a refusal makes the
link one whose root port does not complete AtomicOps, before another that waits could leave. -/
def doAtomicopCompletion (n tag : Nat) (st : CplStatus) (old : List Byte) (s : State) : State :=
  match s.dmaAt n tag with
  | none => s
  | some r =>
    let refused (s : State) : State :=
      ((s.put (Reg.hostCtrl n) Fld.hostCtrlAtomicAvail 0).bump (Reg.hostErr n) Fld.hostErrAtomicUr 1).postZero (hostSrc n 8)
    match r.why with
    | .hostAtomic p =>
      if st = .ok then (((s.dmaOver r).atomCount p).atomRsp p 0 (old.take (atomSize p))).goOn
      else ((((refused s).dmaOver r).sendNcomp p 8).refuseAtomics n).goOn
    | .mark w =>
      if st = .ok then doMarkDone w (BitVec.ofNat 64 (leNat (old.take 8))) true (s.dmaOver r)
      else (doMarkDone w 0 false ((refused s).dmaOver r)).refuseAtomics n
    | _ => s

/-- ATOMICOP_COMPLETION. -/
def execAtomicopCompletion (link : Fin 4) (tag : Nat) (status : CplStatus) (old : List Byte) (s : State) : Answer :=
  act s (doAtomicopCompletion link tag status old)

/-- `atomic_retry` sets `atomic_avail` again (R273). -/
def execAtomicRetry (link : Fin 4) (s : State) : Answer :=
  act s (fun s => s.put (Reg.hostCtrl link.val) Fld.hostCtrlAtomicAvail 1)

end Sys2Proof.Machine
end

