-- ==== Sys2Proof/Machine/Coherence.lean ====
section
/-! DEFINITION. Coherence: caching agents at the Marjoram home: their requests, the answers of owners and sharers, a
line's busy period and its queue, and the loads and stores of Sorrel cores (R465 to R471, R488). -/

namespace Sys2Proof.Machine

/-! ## Directory entries -/

/-- Every caching agent (R466). -/
def cohAgents : List CohAgent :=
  (List.finRange 68).map CohAgent.core ++ (List.finRange 34).map CohAgent.dill ++ (List.finRange 17).map CohAgent.fennel

/-- The directory entry of one agent, or of the owner with `excl`. -/
def dirOne (a : CohAgent) (excl : Bool) : BitVec 128 := BitVec.ofNat 128 (2 ^ cohBit a + if excl then 2 ^ 127 else 0)

/-- The agents that a directory entry names. -/
def State.holders (s : State) (line : Nat) : List CohAgent := cohAgents.filter (fun a => (s.dirOf line).toNat.testBit (cohBit a))

/-- The owner that a directory entry names. -/
def State.owner (s : State) (line : Nat) : Option CohAgent := if dirExcl (s.dirOf line) then (s.holders line).head? else none

/-- The agents that hold the directory's interest in a line, but for one, become Shared or none. -/
def State.dropDir (s : State) (line : Nat) (a : CohAgent) : State :=
  s.setDir line (BitVec.ofNat 128 ((s.holders line).foldl (fun n b => if b = a then n else n + 2 ^ cohBit b) 0))

/-- A line's slice. -/
def lineSlice (line : Nat) : Nat := sliceOf (64 * line)

/-! ## Answers of holders (R467, R470) -/

/-- An owner answers a forward for GetS: its data comes home and it drops to S; one that has evicted the line answers
from its writeback buffer and keeps nothing. -/
def State.ownerShares (s : State) (line : Nat) (a : CohAgent) : State :=
  match s.cachedAt a line with
  | some (_, _, st, d) =>
    if st = .s then s
    else ((s.hbmWrite (64 * line) d).setCached a line (some (.s, d))).setDir line (dirOne a false)
  | none =>
    match s.hand.writeback.find? (fun e => e.1 == a && e.2.1 == line) with
    | some e => (s.hbmWrite (64 * line) e.2.2).dropDir line a
    | none => s.dropDir line a

/-- A holder gives a line up: an owner's data comes home. -/
def State.holderDrops (s : State) (line : Nat) (a : CohAgent) : State :=
  let s := if s.owner line = some a then
      (match s.ownerData line with | some d => s.hbmWrite (64 * line) d | none => s) else s
  (s.setCached a line none).dropDir line a

/-! ## Grants to a requester -/

/-- A GetS completes: Exclusive with no other holder, else Shared. -/
def State.grantS (s : State) (line : Nat) (a : CohAgent) : State :=
  let s := match s.owner line with
    | some b => if b = a then s else s.ownerShares line b
    | none => s
  let d := s.hbmRead (64 * line) 64
  if (s.holders line).all (fun b => b == a) then
    (s.setDir line (dirOne a true)).setCached a line (some (.e, d))
  else (s.setDir line (s.dirOf line ||| dirOne a false)).setCached a line (some (.s, d))

/-- A GetM or Upgrade completes: the requester alone holds the line, Modified. -/
def State.grantM (s : State) (line : Nat) (a : CohAgent) : State :=
  let d := s.lineData line
  let s := match s.ownerData line with
    | some d => s.hbmWrite (64 * line) d
    | none => s
  let s := { s with hand := { s.hand with cached := s.hand.cached.filter (fun e => e.2.1 != line) } }
  (s.setDir line (dirOne a true)).setCached a line (some (.m, d))

/-! ## Loads and stores of a core (R450, R458) -/

/-- Lines of a core's coherent cache: 32 KiB. -/
def coreLines : Nat := 512

/-- Make room in a core's cache: a line goes, an owned one to the writeback buffer; which one is
not stated: free (log 33). -/
def State.makeRoom (s : State) (a : CohAgent) : State :=
  let held := s.hand.cached.filter (fun e => e.1 == a)
  if held.length < coreLines then s
  else
    let (w, s) := s.fresh
    match held[w.toNat % held.length]? with
    | none => s
    | some (_, l, st, d) =>
      let s := s.setCached a l none
      if st = .s then s
      else { s with hand := { s.hand with writeback := s.hand.writeback ++ [(a, l, d)] } }

/-- A line that a core reaches without caching it: outside the region, busy, or still on its way home from the core. -/
def State.uncached (s : State) (a : CohAgent) (line : Nat) : Bool :=
  !s.inRegion (64 * line) || s.hand.busy.any (fun b => b.line == line)
    || s.hand.writeback.any (fun e => e.1 == a && e.2.1 == line)

/-- A core's load of device memory: from its cache, by a GetS, or uncached; none on an uncorrectable error. -/
def State.coreLoad (s : State) (c : Fin 68) (a n : Nat) : Option (List Byte) × State :=
  let line := a / 64
  let me := CohAgent.core c
  if s.uncached me line then s.devRead a n
  else
    match s.cachedAt me line with
    | some e => (some ((e.2.2.2.drop (a % 64)).take n), s)
    | none =>
      if s.poisonedLine line then (none, s)
      else
        let s := ((((s.makeRoom me).dirCount line).fwdCount line).hbmCount 0xC00 (64 * line) 64).grantS line me
        (some (((s.lineData line).drop (a % 64)).take n), s)

/-- A core's store to device memory: in its cache once it owns the line, else uncached. -/
def State.coreStore (s : State) (c : Fin 68) (a : Nat) (data : List Byte) : State :=
  let line := a / 64
  let me := CohAgent.core c
  if s.uncached me line || s.poisonedLine line then s.devWrite a data
  else
    let s := match s.cachedAt me line with
      | some (_, _, .m, _) | some (_, _, .e, _) => s
      | some _ => (s.dirCount line).grantM line me
      | none => ((((s.makeRoom me).dirCount line).fwdCount line).hbmCount 0xC00 (64 * line) 64).grantM line me
    match s.cachedAt me line with
    | some (_, _, _, d) =>
      let k := a % 64
      s.setCached me line (some (.m, (d.take k ++ data ++ d.drop (k + data.length)).take 64))
    | none => s

/-! ## Requests at the home (R467 to R469) -/

/-- The caching agent that a request comes from. -/
def CohReq.from_ : CohReq → Option CohAgent
  | .getS a | .getM a | .upgrade a => some a
  | _ => none

end Sys2Proof.Machine

namespace Sys2Proof.Machine

/-- The agents whose answers a caching request awaits before its grant. -/
def State.mustAnswer (s : State) (line : Nat) : CohReq → List CohAgent
  | .getS a => (match s.owner line with | some b => if b = a then [] else [b] | none => [])
  | .getM a | .upgrade a => (s.holders line).filter (fun b => b != a)
  | _ => []

/-- Accept a caching request: the line is busy until its grant has been answered. -/
def State.cohAccept (s : State) (line : Nat) (r : CohReq) (a : CohAgent) (waiting : List CohReq) : State :=
  let s := s.dirCount line
  let l := s.mustAnswer line r
  let s := if r = .upgrade a then s else s.fwdCount line
  { s with hand := { s.hand with busy := s.hand.busy ++ [⟨line, r, if l.isEmpty then [a] else l, waiting⟩] } }

/-- A non-caching write at the home; an armed lock line refuses it (R472). -/
def State.homeWrite (s : State) (a : Nat) (data : List Byte) : State :=
  match (linesOf a data.length).find? (fun l => s.rma.armed.contains l) with
  | some l => s.post (525 + 2 * lineSlice l) 59 0 (64 * l)
  | none => s.devWrite a data

/-- A non-caching atomic at the home. -/
def State.homeAtomic (s : State) (a op : Nat) (wide : Bool) (op1 op2 : Nat) : State :=
  let w := if wide then 16 else 8
  match (linesOf a w).find? (fun l => s.rma.armed.contains l) with
  | some l => s.post (525 + 2 * lineSlice l) 59 0 (64 * l)
  | none => (s.devAtomic a op w op1 op2).2

/-- The requests of a line that is not busy go on in order, up to the first that makes it busy. -/
def State.cohNext (s : State) (line : Nat) : List CohReq → State
  | [] => s
  | .readNA :: t => (s.devRead (64 * line) 64).2.cohNext line t
  | .writeNA a d :: t => (s.homeWrite a d).cohNext line t
  | .atomicNA a op wide x y :: t => (s.homeAtomic a op wide x y).cohNext line t
  | .getS a :: t => s.cohAccept line (.getS a) a t
  | .getM a :: t => s.cohAccept line (.getM a) a t
  | .upgrade a :: t => s.cohAccept line (.upgrade a) a t

/-- Requests queued at a slice. -/
def State.sliceQueued (s : State) (k : Nat) : Nat :=
  ((s.hand.busy.filter (fun b => lineSlice b.line == k)).map (fun b => b.waiting.length)).sum

/-- Lines busy at a slice. -/
def State.sliceBusy (s : State) (k : Nat) : Nat := (s.hand.busy.filter (fun b => lineSlice b.line == k)).length

/-- A request arrives at its slice: it is served, queued behind a busy line, or waits on the mesh when the queue is full
or 256 lines are busy; there it has no effect yet (R469). -/
def State.cohRequest (s : State) (line : Nat) (r : CohReq) : State :=
  let k := lineSlice line
  if !s.structured || (r.from_.isSome && !s.inRegion (64 * line)) then s
  else
    match s.hand.busy.find? (fun b => b.line == line) with
    | some b =>
      if 1024 ≤ s.sliceQueued k then s
      else
        { (s.bump (Reg.slCnt1 k) Fld.slCnt1BusyWait 1) with hand := { (s.bump (Reg.slCnt1 k) Fld.slCnt1BusyWait 1).hand with
          busy := s.hand.busy.map (fun x => if x.line = line then { b with waiting := b.waiting ++ [r] } else x) } }
    | none => if r.from_.isSome && decide (256 ≤ s.sliceBusy k) then s else s.cohNext line [r]

/-- GETS. -/
def execGets (a : CohAgent) (line : Nat) (s : State) : Answer := act s (fun s => s.cohRequest line (.getS a))

/-- GETM. -/
def execGetm (a : CohAgent) (line : Nat) (s : State) : Answer := act s (fun s => s.cohRequest line (.getM a))

/-- UPGRADE. -/
def execUpgrade (a : CohAgent) (line : Nat) (s : State) : Answer := act s (fun s => s.cohRequest line (.upgrade a))

/-- READNA. -/
def execReadna (line : Nat) (s : State) : Answer := act s (fun s => s.cohRequest line .readNA)

/-- WRITENA. -/
def execWritena (addr : Nat) (data : List Byte) (s : State) : Answer :=
  act s (fun s => s.cohRequest (addr / 64) (.writeNA addr data))

/-- ATOMICNA. -/
def execAtomicna (addr : Nat) (op : Fin 8) (wide : Bool) (op1 op2 : Nat) (s : State) : Answer :=
  act s (fun s => s.cohRequest (addr / 64) (.atomicNA addr op wide op1 op2))

/-- A writeback reaches the home (R467, R470): the owner's data is written; that of an agent that the directory no longer
shows as owner is discarded. -/
def State.putBack (s : State) (a : CohAgent) (line : Nat) (data : Option (List Byte)) : State :=
  let mine := s.owner line == some a
  let s := (s.setCached a line none)
  let s := { s with hand := { s.hand with writeback := s.hand.writeback.filter (fun e => !(e.1 == a && e.2.1 == line)) } }
  if mine then
    let s := match data with
      | some d => s.hbmWrite (64 * line) (d.take 64)
      | none => s
    s.setDir line 0
  else s

/-- PUTM. -/
def execPutm (a : CohAgent) (line : Nat) (data : List Byte) (s : State) : Answer :=
  act s (fun s => if s.structured then s.putBack a line (some data) else s)

/-- PUTE. -/
def execPute (a : CohAgent) (line : Nat) (s : State) : Answer :=
  act s (fun s => if s.structured then s.putBack a line none else s)

/-- The request that a busy line serves, where it awaits the answer of an agent that is not its requester. -/
def State.asked (s : State) (a : CohAgent) (line : Nat) : Option CohReq :=
  match s.hand.busy.find? (fun b => b.line == line) with
  | some b => if b.await.contains a && b.req.from_ != some a then some b.req else none
  | none => none

/-- An owner receives a forward. -/
def doForward (a : CohAgent) (line : Nat) (s : State) : State :=
  match s.asked a line with
  | some (.getS _) => s.ownerShares line a
  | some _ => if s.owner line = some a then s.holderDrops line a else s
  | none => s

/-- FORWARD. -/
def execForward (a : CohAgent) (line : Nat) (s : State) : Answer := act s (doForward a line)

/-- An agent receives an invalidation. -/
def doInvalidation (a : CohAgent) (line : Nat) (s : State) : State :=
  match s.asked a line with
  | some (.getM _) | some (.upgrade _) => if s.owner line = some a then s else s.holderDrops line a
  | _ => s

/-- INVALIDATION. -/
def execInvalidation (a : CohAgent) (line : Nat) (s : State) : Answer := act s (doInvalidation a line)

/-- An agent that must answer still holds what it must give up. -/
def State.stillHolds (s : State) (r : CohReq) (a : CohAgent) (line : Nat) : Bool :=
  match r with
  | .getS _ => s.owner line == some a
  | _ => (s.holders line).contains a

/-- A response reaches the home or the requester (R469): with the last, the line is no longer busy, and its queue goes on. -/
def doCoherentResponse (a : CohAgent) (line : Nat) (s : State) : State :=
  match s.hand.busy.find? (fun b => b.line == line) with
  | none => s
  | some b =>
    match b.req.from_ with
    | none => s
    | some q =>
      if !b.await.contains a then s
      else if a = q then
        let s := { s with hand := { s.hand with busy := s.hand.busy.filter (fun x => x.line != line) } }
        let s := match b.req with
          | .getS _ => s.grantS line q
          | _ => s.grantM line q
        s.cohNext line b.waiting
      else if s.stillHolds b.req a line then s
      else
        let rest := b.await.erase a
        { s with hand := { s.hand with busy := s.hand.busy.map (fun x =>
          if x.line = line then { b with await := if rest.isEmpty then [q] else rest } else x) } }

/-- COHERENT_RESPONSE. -/
def execCoherentResponse (a : CohAgent) (line : Nat) (s : State) : Answer := act s (doCoherentResponse a line)

/-- `go` of COH.DIR_SEL (R488). -/
def doDirRead (line : Nat) (s : State) : State :=
  s.ifStructured Reg.dirSel (fun s =>
    let s := s.put Reg.dirSel Fld.dirSelLine line
    let d := (s.dirOf (line % 2 ^ 31)).toNat
    (s.setWord (Reg.dirData 0) (BitVec.ofNat 64 d)).setWord (Reg.dirData 1) (BitVec.ofNat 64 (d / 2 ^ 64)))

/-- DIR_READ. -/
def execDirRead (line : Nat) (s : State) : Answer := act s (doDirRead line)

/-! ## An agent is fenced (R471) -/

/-- The slice asks a fenced agent for a Modified line (R471): the agent returns it, or the line is poisoned. Which is not stated: a
free choice (log 34). -/
def State.askModified (s : State) (line : Nat) (d : List Byte) : State :=
  let (w, s) := s.fresh
  if w.toNat % 2 = 1 then s.hbmWrite (64 * line) d
  else if s.poisonedLine line then s
  else { s with rma := { s.rma with poisoned := s.rma.poisoned ++ [line] } }

/-- Every slice clears the agent's bit, after it has asked for the agent's Modified lines (R471). -/
def State.agentFenced (s : State) (a : CohAgent) : State :=
  let owned := (s.hand.cached.filter (fun e => e.1 == a && e.2.2.1 == Mesi.m)).map (fun e => (e.2.1, e.2.2.2))
  let back := (s.hand.writeback.filter (fun e => e.1 == a && s.owner e.2.1 == some a)).map (fun e => e.2)
  let lines := (s.hand.dir.filter (fun e => e.2.toNat.testBit (cohBit a))).map (fun e => e.1)
  let s := (owned ++ back).foldl (fun s e => s.askModified e.1 e.2) s
  let s := { s with
    hand := { s.hand with
      cached := s.hand.cached.filter (fun e => e.1 != a)
      writeback := s.hand.writeback.filter (fun e => e.1 != a) } }
  let s := lines.foldl (fun s l => s.dropDir l a) s
  let mine := s.hand.busy.filter (fun b => b.req.from_ != some a && b.await.contains a)
  let s := mine.foldl (fun s b => doCoherentResponse a b.line s) s
  let left := s.hand.busy.map (fun (b : BusyLine) =>
    { b with waiting := b.waiting.filter (fun r => r.from_ != some a) })
  let s := { s with hand := { s.hand with busy := left } }
  let own := s.hand.busy.filter (fun b => b.req.from_ == some a)
  let s := { s with hand := { s.hand with busy := s.hand.busy.filter (fun b => b.req.from_ != some a) } }
  own.foldl (fun s b => s.cohNext b.line b.waiting) s

end Sys2Proof.Machine
end

