-- ==== Sys2Proof/Machine/Handler.lean ====
section
/-! DEFINITION. Handler: triggers, the dispatch of handlers to Sorrel cores, and how a handler ends (R453 to R455, R459,
R461 to R464, R481 to R485). -/

namespace Sys2Proof.Machine

/-! ## Cores and their memories -/

/-- Bytes of local data. -/
def localSize : Nat := 0x20000

/-- Bytes of a handler's spill area (R453). -/
def State.spillBytes (s : State) : Nat := 1024 * s.get Reg.handCtrl Fld.handCtrlSpillKib

/-- The first byte of the spill area. -/
def State.spillBase (s : State) : Nat := localSize - s.spillBytes

/-- Read a core's local data. -/
def CoreSt.localRead (x : CoreSt) (a n : Nat) : List Byte := readBytes x.localMem 0 a n

/-- Write a core's local data. -/
def CoreSt.localWrite (x : CoreSt) (a : Nat) (l : List Byte) : CoreSt := { x with localMem := writeBytes x.localMem 0 a l }

/-- The cluster that a core serves: that of its logical number, whose 16 cores a spare of another cluster may join (R18, R19). -/
def State.clusterOf (s : State) (c : Nat) : Nat := (s.logicalCore c).getD c / 16

/-- A core is out of service (R19, R500, R513): it has no logical number, is fenced, or its own island is still in reset (R17). -/
def State.coreOut (s : State) (c : Nat) : Bool :=
  (s.logicalCore c).isNone || s.isFenced (.core c) || s.unopened (clusterIsland (c / 17))

/-- `hold` of a core. -/
def State.coreHeld (s : State) (c : Nat) : Bool := s.flag (Reg.handCore c) Fld.handCoreHold

/-- `cstate` of a core (R482). -/
def State.cstate (s : State) (c : Nat) : Nat :=
  let x := s.core c
  if s.coreOut c then 4
  else if x.running then (if x.lockWait.isSome then 2 else 1)
  else if s.coreHeld c then 3
  else 0

/-! ## Time slots (R461) -/

/-- Charge the time that a core's handler has used in this frame to its instance. -/
def State.charge (s : State) (c : Nat) : State :=
  let x := s.core c
  if x.running && !x.mgr then
    let i := s.inst x.inst
    (s.setInst x.inst { i with slotUsed := i.slotUsed + (s.now - x.chargeNs) }).setCore c { x with chargeNs := s.now }
  else s

/-- Core time that an instance may use in a frame, in ns. -/
def State.slotTime (s : State) (i : Nat) : Nat := (s.inst i).hslots * s.get Reg.handCtrl Fld.handCtrlFrameUs * 1000 / 16

/-- Core time that an instance has used in this frame, that of its running handlers among it. -/
def State.slotSpent (s : State) (i : Nat) : Nat :=
  (s.inst i).slotUsed
    + ((s.hand.cores.filter (fun e => e.2.running && !e.2.mgr && e.2.inst == i)).map (fun e => s.now - e.2.chargeNs)).sum

/-- The instance has slot time left; a manager's handler needs none (log 35). -/
def State.slotLeft (s : State) (t : Nat) : Bool :=
  let a := Reg.trigCfg t
  let i := s.get a Fld.trigCfgInst
  s.flag a Fld.trigCfgMgr || decide (s.slotSpent i < s.slotTime i)

/-! ## The end of a handler (R463) -/

/-- The firings of a trigger that no handler has taken are dropped (R464, log 36). -/
def State.dropFirings (s : State) (t : Nat) : State :=
  (s.setTrig t { s.trig t with queued := false }).put (Reg.trigStat t) Fld.trigStatPending 0

/-- A core's handler ends with a result: it is stored and counted, may signal `err_vec`, and 1 to 6 post a coded message. -/
def State.handlerEnd (s : State) (c r : Nat) : State :=
  let x := s.core c
  if !x.running then s
  else
    let s := (s.charge c).cancelCore c
    let t := x.trig
    let s := s.setCore c { s.core c with running := false, lockWait := none }
    let a := Reg.trigStat t
    let s := s.put a Fld.trigStatLastRes r
    let s := if r = 0 then s else
      let s := s.bump a Fld.trigStatErrCount 1
      let s := if s.flag (Reg.trigCfg t) Fld.trigCfgErrIrq then s.signalVf x.inst (s.get (Reg.trigCfg t) Fld.trigCfgErrVec) else s
      if r ≤ 6 then s.postZero (456 + c) else s
    s.setTrig t { s.trig t with running := false, queued := s.get a Fld.trigStatPending != 0 }

/-- The cores that run a handler of an instance. -/
def State.coresOf (s : State) (i : Nat) : List Nat :=
  (s.hand.cores.filter (fun e => e.2.running && e.2.inst == i)).map (fun e => e.1)

/-- Stop every running handler of an instance (R464). -/
def State.stopHandlers (s : State) (i : Nat) : State := (s.coresOf i).foldl (fun s c => s.handlerEnd c 5) s

/-- Stop the running handler of a trigger. -/
def State.stopTrigger (s : State) (t : Nat) : State :=
  ((s.hand.cores.filter (fun e => e.2.running && e.2.trig == t)).map (fun e => e.1)).foldl (fun s c => s.handlerEnd c 5) s

/-! ## Triggers (R459, R464, R485) -/

/-- The partition of an instance: its base and length in bytes (R458). -/
def State.partition (s : State) (i : Nat) : Nat × Nat :=
  (4096 * s.get (Reg.handInst i) Fld.handInstLdBase, 4096 * s.get (Reg.handInst i) Fld.handInstLd4k)

/-- A trigger is armed. -/
def State.trigOn (s : State) (t : Nat) : Bool := s.flag (Reg.trigCfg t) Fld.trigCfgEnable

/-- Another instance on the hub, with an enabled trigger, has a partition that overlaps. -/
def State.partitionTaken (s : State) (i : Nat) : Bool :=
  let (b, n) := s.partition i
  s.trigList.any (fun u =>
    let j := s.get (Reg.trigCfg u) Fld.trigCfgInst
    let (b', n') := s.partition j
    s.trigOn u && j != i && s.instHub j == s.instHub i && decide (b < b' + n' ∧ b' < b + n))

/-- The enable of a trigger is refused (R485). -/
def State.trigRefused (s : State) (t : Nat) : Bool :=
  let a := Reg.trigCfg t
  let i := s.get a Fld.trigCfgInst
  let (b, n) := s.partition i
  let sel := s.get a Fld.trigCfgSel
  s.instState i != 1
    || (!s.flag a Fld.trigCfgMgr && ((s.inst i).hslots == 0 || n == 0))
    || s.partitionTaken i
    || decide (s.spillBase < b + n)
    || (s.get a Fld.trigCfgKind == 2 && (decide (63 < sel) || !s.flag (Reg.cqCfg i sel) Fld.cqCfgEnable))

/-- Setting `enable` of a trigger (R485). -/
def doTrigEnable (t : Nat) (s : State) : State :=
  s.ifStructured (Reg.trigCfg t) (fun s =>
    if s.trigOn t then s
    else if s.trigRefused t then s.notice 59 (Reg.trigCfg t)
    else s.put (Reg.trigCfg t) Fld.trigCfgEnable 1)

/-- TRIG_ENABLE. -/
def execTrigEnable (t : Fin 4096) (s : State) : Answer := act s (doTrigEnable t)

/-- Clearing `enable` stops the trigger's running handler (R464). -/
def doTrigDisable (t : Nat) (s : State) : State :=
  s.ifStructured (Reg.trigCfg t) (fun s =>
    if s.trigOn t then ((s.put (Reg.trigCfg t) Fld.trigCfgEnable 0).stopTrigger t).dropFirings t else s)

/-- TRIG_DISABLE. -/
def execTrigDisable (t : Fin 4096) (s : State) : Answer := act s (doTrigDisable t)

/-- The triggers of an instance. -/
def State.trigsOf (s : State) (i : Nat) : List Nat := s.trigList.filter (fun t => s.get (Reg.trigCfg t) Fld.trigCfgInst == i)

/-- A timer trigger's period has elapsed. -/
def doTriggerTimer (t : Nat) (s : State) : State :=
  if s.trigOn t && s.get (Reg.trigCfg t) Fld.trigCfgKind == 3 && s.get (Reg.trigArg t) Fld.trigArgArg != 0 then
    s.fire t (BitVec.ofNat 64 s.usSinceApply) 0 0 0
  else s

/-- TRIGGER_TIMER. -/
def execTriggerTimer (t : Fin 4096) (s : State) : Answer := act s (doTriggerTimer t)

/-! ## Dispatch (R461, R462) -/

/-- The triggers that a cluster may serve now: queued and enabled, of an ACTIVE instance of the hub, with slot time left. -/
def State.dispatchable (s : State) (cluster : Nat) : List Nat :=
  (s.hand.trigs.filter (fun e =>
    let i := s.get (Reg.trigCfg e.1) Fld.trigCfgInst
    e.2.queued && !e.2.running && s.trigOn e.1 && s.instState i == 1 && s.instHub i == cluster && s.slotLeft e.1)).map
    (fun e => e.1)

/-- The trigger that fired first. -/
def State.firstFired (s : State) (l : List Nat) : Option Nat :=
  l.foldl (fun b t => match b with
    | none => some t
    | some u => if (s.trig t).order < (s.trig u).order then some t else some u) none

/-- Start a trigger's handler on a core. -/
def State.startHandler (s : State) (c t : Nat) : State :=
  let a := Reg.trigCfg t
  let i := s.get a Fld.trigCfgInst
  let mgr := s.flag a Fld.trigCfgMgr
  let y := s.trig t
  let n := s.get (Reg.trigStat t) Fld.trigStatPending
  let w0 : Word := BitVec.ofNat 64 (t + s.get a Fld.trigCfgKind <<< 12 + n <<< 16)
  let w : Window := ⟨[w0, y.ev1, y.ev2, y.ev3, y.ev4] ++ List.replicate 11 0, 0⟩
  let (b, len) := s.partition i
  let old := s.core c
  let mem := if s.flag (Reg.handInst i) Fld.handInstLdZero && !mgr then
      old.localMem.filter (fun e => !(decide (b ≤ e.1 ∧ e.1 < b + len))) else old.localMem
  let x : CoreSt := { CoreSt.init with
    windows := w :: List.replicate 6 Window.init, pc := 4 * s.get a Fld.trigCfgEntry, running := true, trig := t,
    inst := i, mgr := mgr, startNs := s.now, chargeNs := s.now, imem := old.imem, localMem := mem }
  let s := (s.setCore c x).put (Reg.trigStat t) Fld.trigStatPending 0
  let s := s.setTrig t { y with queued := false, running := true }
  s.count ⟨0xA01, some c, some i, none, none, some mgr, 1⟩

/-- An idle core takes the first pending trigger of its cluster. -/
def doHandlerDispatch (c : Nat) (s : State) : State :=
  if !s.enabled || s.cstate c != 0 then s
  else
    match s.firstFired (s.dispatchable (s.clusterOf c)) with
    | some t => s.startHandler c t
    | none => s

/-- HANDLER_DISPATCH. -/
def execHandlerDispatch (c : Fin 68) (s : State) : Answer := act s (doHandlerDispatch c)

/-- A new frame: every instance has its handler time again, and running handlers are charged from here on. -/
def doFrameTick (s : State) : State :=
  { s with
    insts := s.insts.map (fun e => (e.1, { e.2 with slotUsed := 0 }))
    hand := { s.hand with cores := s.hand.cores.map (fun e => (e.1, { e.2 with chargeNs := s.now })) } }

/-- FRAME_TICK. -/
def execFrameTick (s : State) : Answer := act s doFrameTick

/-! ## Holding, loading and stopping cores (R454, R464, R482, R483) -/

/-- A write of `hold` and `hold_stop`. -/
def doCoreHold (c : Nat) (hold stop : Bool) (s : State) : State :=
  s.ifStructured (Reg.handCore c) (fun s =>
    let s := (s.put (Reg.handCore c) Fld.handCoreHold (b2n hold)).put (Reg.handCore c) Fld.handCoreHoldStop (b2n stop)
    if hold && stop then s.handlerEnd c 5 else s)

/-- CORE_HOLD. -/
def execCoreHold (c : Fin 68) (hold holdStop : Bool) (s : State) : Answer := act s (doCoreHold c hold holdStop)

/-- The PF0 BAR0 offset of a byte of a core's instruction memory or local data. -/
def coreWindow (c : Nat) (loc : Bool) (off : Nat) : Nat :=
  if loc then 0xA000000 + 0x20000 * c + off else 0x9000000 + 0x10000 * c + off

/-- A write through a core's window: accepted while the core is held and idle. -/
def doImemWrite (c : Nat) (loc : Bool) (off : Nat) (data : List Byte) (s : State) : State :=
  let a := coreWindow c loc off
  s.ifStructured a (fun s =>
    let x := s.core c
    if s.cstate c ≠ 3 ∨ (if loc then 0x20000 else 0x10000) < off + data.length then s.post (456 + c) 59 0 a
    else if loc then s.setCore c (x.localWrite off data)
    else s.setCore c { x with imem := writeBytes x.imem 0 off data })

/-- IMEM_WRITE. -/
def execImemWrite (c : Fin 68) (loc : Bool) (off : Nat) (data : List Byte) (s : State) : Answer :=
  act s (doImemWrite c loc off data)

/-- BUDGET_TRAP. -/
def execBudgetTrap (c : Fin 68) (s : State) : Answer := act s (fun s => s.handlerEnd c 3)

/-- STOP_REQUEST. -/
def execStopRequest (c : Fin 68) (s : State) : Answer := act s (fun s => s.handlerEnd c 5)

end Sys2Proof.Machine
end

