-- ==== Sys2Proof/Machine/HandlerIsa.lean ====
section
/-! DEFINITION. HandlerIsa: the instructions of the Sorrel core (R451, R452, R456 to R458, R460, R474). A command names
the core and gives the instruction's fields; it acts on a core that runs a handler, does not wait for a lock, and has that very
instruction next in its instruction memory. -/

namespace Sys2Proof.Machine

/-! ## One instruction -/

/-- A program counter outside instruction memory is not stated: a free place in it (log 37). -/
def State.pcAt (s : State) (t : Int) : Nat × State :=
  if 0 ≤ t ∧ t < 65536 then (t.toNat, s)
  else
    let (w, s) := s.fresh
    (4 * (w.toNat % 16384), s)

/-- An instruction completes: the core's registers change, it is counted as retired, and the handler goes on at `t`. -/
def State.retireAt (s : State) (c : Nat) (x : CoreSt) (t : Int) : State :=
  let (pc, s) := s.pcAt t
  (s.setCore c { x with pc := pc }).count ⟨0xA00, some c, some x.inst, none, none, some x.mgr, 1⟩

/-- An instruction completes and the next follows. -/
def State.retire (s : State) (c : Nat) (x : CoreSt) : State := s.retireAt c x (x.pc + 4)

/-- An instruction completes with a result in `rd`. -/
def State.result (s : State) (c : Nat) (x : CoreSt) (rd : BitVec 5) (v : Word) : State := s.retire c (x.setReg rd.toNat v)

/-- The word that a core executes next: four bytes at its program counter, least significant first (R456). -/
def CoreSt.nextWord (x : CoreSt) : BitVec 32 := BitVec.ofNat 32 (leNat (readBytes x.imem 0 x.pc 4))

/-- A core comes to execute the word `w`, which names the registers `regs`. Any other word than its next is not what it executes, and
has no effect. A word whose `op` is not in R457, or that names a reserved register, raises the illegal instruction trap (R451, R454). -/
def State.insn (s : State) (c : Fin 68) (w : BitVec 32) (regs : List (BitVec 5)) (f : State → CoreSt → State) : State :=
  let x := s.core c
  if !x.running || x.lockWait.isSome then s
  else if (decodeCore c x.nextWord).isNone then s.handlerEnd c 1
  else if x.nextWord ≠ w then s
  else if regs.any (fun r => decide (25 ≤ r.toNat)) then s.handlerEnd c 1
  else f s x

/-- The value of a register. -/
def CoreSt.val (x : CoreSt) (r : BitVec 5) : Word := x.reg r.toNat

/-! ## Arithmetic (R457) -/

/-- The operation that `fn` of `alu` selects. -/
def aluOp (fn : Nat) (a b : Word) : Option Word :=
  match fn with
  | 0 => some (a + b)
  | 1 => some (a - b)
  | 2 => some (a &&& b)
  | 3 => some (a ||| b)
  | 4 => some (a ^^^ b)
  | 5 => some (a <<< (b.toNat % 64))
  | 6 => some (a >>> (b.toNat % 64))
  | 7 => some (a.sshiftRight (b.toNat % 64))
  | 8 => some (a * b)
  | 9 => some (BitVec.ofNat 64 (a.toNat * b.toNat / 2 ^ 64))
  | 10 => some (if a.toInt < b.toInt then 1 else 0)
  | 11 => some (if a.toNat < b.toNat then 1 else 0)
  | 12 => some (if a.toInt < b.toInt then a else b)
  | 13 => some (if a.toInt < b.toInt then b else a)
  | 14 => some (if a.toNat < b.toNat then a else b)
  | 15 => some (if a.toNat < b.toNat then b else a)
  | _ => none

/-- ALU. -/
def execAlu (c : Fin 68) (rd ra rb : BitVec 5) (fn : BitVec 11) (s : State) : Answer :=
  act s (fun s => s.insn c (fmtA 0x00 rd ra rb fn) [rd, ra, rb] (fun s x =>
    match aluOp fn.toNat (x.val ra) (x.val rb) with
    | some v => s.result c x rd v
    | none => s.handlerEnd c 1))

/-- An immediate instruction: `rd` from `ra` and the immediate. -/
def State.immOp (s : State) (c : Fin 68) (op : BitVec 6) (rd ra : BitVec 5) (imm : BitVec 16) (f : Word → Word) : State :=
  s.insn c (fmtI op rd ra imm) [rd, ra] (fun s x => s.result c x rd (f (x.val ra)))

/-- ADDI. -/
def execAddi (c : Fin 68) (rd ra : BitVec 5) (imm : BitVec 16) (s : State) : Answer :=
  act s (fun s => s.immOp c 0x01 rd ra imm (fun v => v + imm.signExtend 64))

/-- ANDI. -/
def execAndi (c : Fin 68) (rd ra : BitVec 5) (imm : BitVec 16) (s : State) : Answer :=
  act s (fun s => s.immOp c 0x02 rd ra imm (fun v => v &&& imm.setWidth 64))

/-- ORI. -/
def execOri (c : Fin 68) (rd ra : BitVec 5) (imm : BitVec 16) (s : State) : Answer :=
  act s (fun s => s.immOp c 0x03 rd ra imm (fun v => v ||| imm.setWidth 64))

/-- XORI. -/
def execXori (c : Fin 68) (rd ra : BitVec 5) (imm : BitVec 16) (s : State) : Answer :=
  act s (fun s => s.immOp c 0x04 rd ra imm (fun v => v ^^^ imm.setWidth 64))

/-- LUI: the immediate shifted left by 16, sign-extended from bit 31; `ra` is not used. -/
def execLui (c : Fin 68) (rd ra : BitVec 5) (imm : BitVec 16) (s : State) : Answer :=
  act s (fun s => s.insn c (fmtI 0x05 rd ra imm) [rd] (fun s x => s.result c x rd ((imm.setWidth 32 <<< 16).signExtend 64)))

/-- INSH: the register shifted left by 16, or the immediate; `ra` is not used. -/
def execInsh (c : Fin 68) (rd ra : BitVec 5) (imm : BitVec 16) (s : State) : Answer :=
  act s (fun s => s.insn c (fmtI 0x06 rd ra imm) [rd] (fun s x => s.result c x rd (x.val rd <<< 16 ||| imm.setWidth 64)))

/-! ## Memory (R458) -/

/-- What a handler's address reaches. -/
inductive HAddr where
  | loc (a : Nat)
  | dev (a : Nat)
  | bad
deriving DecidableEq, Repr

/-- The place of an aligned access of `n` bytes (R458). -/
def State.haddr (s : State) (x : CoreSt) (a n : Nat) : HAddr :=
  if a % n ≠ 0 then .bad
  else if a < localSize then
    let (b, len) := s.partition x.inst
    if x.mgr then (if a + n ≤ s.spillBase then .loc a else .bad)
    else if a + n ≤ len ∧ b + a + n ≤ s.spillBase then .loc (b + a)
    else .bad
  else if 2 ^ 63 ≤ a then
    let off := a % 2 ^ 37
    if x.mgr then (if off + n ≤ hbmSize then .dev off else .bad)
    else if s.inGrant x.inst off n && decide (s.dmBase x.inst + off + n ≤ hbmSize) then .dev (s.dmBase x.inst + off)
    else .bad
  else .bad

/-- The address of a load or store. -/
def effAddr (x : CoreSt) (ra : BitVec 5) (imm : BitVec 16) : Nat := (x.val ra + imm.signExtend 64).toNat

/-- A load of `n` bytes. -/
def State.load (s : State) (c : Fin 68) (op : BitVec 6) (n : Nat) (rd ra : BitVec 5) (imm : BitVec 16) : State :=
  s.insn c (fmtI op rd ra imm) [rd, ra] (fun s x =>
    match s.haddr x (effAddr x ra imm) n with
    | .bad => s.handlerEnd c 2
    | .loc a => s.result c x rd (BitVec.ofNat 64 (leNat (x.localRead a n)))
    | .dev a =>
      match s.coreLoad c a n with
      | (some l, s) => s.result c x rd (BitVec.ofNat 64 (leNat l))
      | (none, s) => s.handlerEnd c 6)

/-- A store of `n` bytes. -/
def State.store (s : State) (c : Fin 68) (op : BitVec 6) (n : Nat) (rd ra : BitVec 5) (imm : BitVec 16) : State :=
  s.insn c (fmtI op rd ra imm) [rd, ra] (fun s x =>
    let data := leBytes (x.val rd).toNat n
    match s.haddr x (effAddr x ra imm) n with
    | .bad => s.handlerEnd c 2
    | .loc a => s.retire c (x.localWrite a data)
    | .dev a => if s.touchesLock a n then s.handlerEnd c 2 else (s.coreStore c a data).retire c x)

/-- LD1. -/
def execLd1 (c : Fin 68) (rd ra : BitVec 5) (imm : BitVec 16) (s : State) : Answer := act s (fun s => s.load c 0x08 1 rd ra imm)

/-- LD2. -/
def execLd2 (c : Fin 68) (rd ra : BitVec 5) (imm : BitVec 16) (s : State) : Answer := act s (fun s => s.load c 0x09 2 rd ra imm)

/-- LD4. -/
def execLd4 (c : Fin 68) (rd ra : BitVec 5) (imm : BitVec 16) (s : State) : Answer := act s (fun s => s.load c 0x0A 4 rd ra imm)

/-- LD8. -/
def execLd8 (c : Fin 68) (rd ra : BitVec 5) (imm : BitVec 16) (s : State) : Answer := act s (fun s => s.load c 0x0B 8 rd ra imm)

/-- ST1. -/
def execSt1 (c : Fin 68) (rd ra : BitVec 5) (imm : BitVec 16) (s : State) : Answer := act s (fun s => s.store c 0x0C 1 rd ra imm)

/-- ST2. -/
def execSt2 (c : Fin 68) (rd ra : BitVec 5) (imm : BitVec 16) (s : State) : Answer := act s (fun s => s.store c 0x0D 2 rd ra imm)

/-- ST4. -/
def execSt4 (c : Fin 68) (rd ra : BitVec 5) (imm : BitVec 16) (s : State) : Answer := act s (fun s => s.store c 0x0E 4 rd ra imm)

/-- ST8. -/
def execSt8 (c : Fin 68) (rd ra : BitVec 5) (imm : BitVec 16) (s : State) : Answer := act s (fun s => s.store c 0x0F 8 rd ra imm)

/-- An atomic of 8 bytes at the home; local data has no home, and the access faults (log 38). -/
def State.amo (s : State) (c : Fin 68) (rd ra rb : BitVec 5) (fn : BitVec 11) : State :=
  let op := fn.toNat % 16
  s.insn c (fmtA 0x10 rd ra rb fn) [rd, ra, rb] (fun s x =>
    if 6 < op then s.handlerEnd c 1
    else
      match s.haddr x (x.val ra).toNat 8 with
      | .dev a =>
        if s.touchesLock a 8 then s.handlerEnd c 2
        else
          let (p, q) := if op = 2 then (x.val rd, x.val rb) else (x.val rb, 0)
          match s.devAtomic a op 8 p.toNat q.toNat with
          | (some m, s) => s.result c x rd (BitVec.ofNat 64 m)
          | (none, s) => s.handlerEnd c 6
      | _ => s.handlerEnd c 2)

/-- AMO. -/
def execAmo (c : Fin 68) (rd ra rb : BitVec 5) (fn : BitVec 11) (s : State) : Answer :=
  act s (fun s => s.amo c rd ra rb fn)

/-! ## Branches, jumps, calls (R452, R457) -/

/-- A branch: offsets count instructions from the instruction's own address. -/
def State.branch (s : State) (c : Fin 68) (op : BitVec 6) (ra rb : BitVec 5) (off : BitVec 16) (f : Word → Word → Bool) : State :=
  s.insn c (fmtB op ra rb off) [ra, rb] (fun s x =>
    if f (x.val ra) (x.val rb) then s.retireAt c x (x.pc + 4 * off.toInt) else s.retire c x)

/-- BEQ. -/
def execBeq (c : Fin 68) (ra rb : BitVec 5) (off : BitVec 16) (s : State) : Answer :=
  act s (fun s => s.branch c 0x14 ra rb off (fun a b => a == b))

/-- BNE. -/
def execBne (c : Fin 68) (ra rb : BitVec 5) (off : BitVec 16) (s : State) : Answer :=
  act s (fun s => s.branch c 0x15 ra rb off (fun a b => a != b))

/-- BLT. -/
def execBlt (c : Fin 68) (ra rb : BitVec 5) (off : BitVec 16) (s : State) : Answer :=
  act s (fun s => s.branch c 0x16 ra rb off (fun a b => decide (a.toInt < b.toInt)))

/-- BGE. -/
def execBge (c : Fin 68) (ra rb : BitVec 5) (off : BitVec 16) (s : State) : Answer :=
  act s (fun s => s.branch c 0x17 ra rb off (fun a b => decide (b.toInt ≤ a.toInt)))

/-- BLTU. -/
def execBltu (c : Fin 68) (ra rb : BitVec 5) (off : BitVec 16) (s : State) : Answer :=
  act s (fun s => s.branch c 0x18 ra rb off (fun a b => decide (a.toNat < b.toNat)))

/-- BGEU. -/
def execBgeu (c : Fin 68) (ra rb : BitVec 5) (off : BitVec 16) (s : State) : Answer :=
  act s (fun s => s.branch c 0x19 ra rb off (fun a b => decide (b.toNat ≤ a.toNat)))

/-- J. -/
def execJ (c : Fin 68) (off : BitVec 26) (s : State) : Answer :=
  act s (fun s => s.insn c (fmtJ 0x1C off) [] (fun s x => s.retireAt c x (x.pc + 4 * off.toInt)))

/-- JR: an address that is not a multiple of 4 is outside instruction memory as well. -/
def execJr (c : Fin 68) (ra rd rb : BitVec 5) (fn : BitVec 11) (s : State) : Answer :=
  act s (fun s => s.insn c (fmtA 0x1D rd ra rb fn) [ra] (fun s x =>
    let t := (x.val ra).toNat
    s.retireAt c x (if t % 4 = 0 then (t : Int) else -1)))

/-- A window as the 136 bytes of the spill area. -/
def Window.bytes (w : Window) : List Byte := (w.regs.map (fun r => leBytes r.toNat 8)).flatten ++ leBytes w.link.toNat 8

/-- The window that 136 bytes spell. -/
def Window.ofBytes (l : List Byte) : Window :=
  ⟨(List.range 16).map (fun i => BitVec.ofNat 64 (leNat ((l.drop (8 * i)).take 8))), BitVec.ofNat 64 (leNat ((l.drop 128).take 8))⟩

/-- The overflow trap (R452, R453): the oldest window goes to the next free place of the spill area; none when it is full. -/
def State.spill (s : State) (c : Nat) (x : CoreSt) : Option CoreSt × State :=
  let old := (x.wix + 1) % 7
  let k := x.spilled
  if s.spillBytes < 136 * (k + 1) then (none, s)
  else
    let x := x.localWrite (s.spillBase + 136 * k) (x.windows.getD old Window.init).bytes
    (some { x with resident := 6, spilled := k + 1 }, s.count ⟨0xA02, some c, some x.inst, none, none, some x.mgr, 1⟩)

/-- CALL with `n` arguments. -/
def State.call (s : State) (c : Fin 68) (na : BitVec 4) (off : BitVec 22) : State :=
  let n := na.toNat
  s.insn c (fmtC 0x1A na off) [] (fun s x =>
    if 8 < n then s.handlerEnd c 1
    else
      let (y, s) := if 7 ≤ x.resident then s.spill c x else (some x, s)
      match y with
      | none => s.handlerEnd c 4
      | some y =>
        let args := (x.window.regs.drop 8).take n
        let next := (x.wix + 1) % 7
        let w : Window := ⟨(args ++ List.replicate 16 0).take 16, BitVec.ofNat 64 (x.pc + 4)⟩
        let y := { y with windows := setIdx y.windows next w, wix := next, resident := y.resident + 1 }
        s.retireAt c y (x.pc + 4 * off.toInt))

/-- CALL. -/
def execCall (c : Fin 68) (n : BitVec 4) (off : BitVec 22) (s : State) : Answer :=
  act s (fun s => s.call c n off)

/-- The underflow trap (R452): the window spilled last comes back into its place. -/
def State.unspill (s : State) (c : Nat) (x : CoreSt) : CoreSt × State :=
  let k := x.spilled - 1
  let w := Window.ofBytes (x.localRead (s.spillBase + 136 * k) 136)
  ({ x with windows := setIdx x.windows ((x.wix + 6) % 7) w, spilled := k, resident := x.resident + 1 },
    s.count ⟨0xA02, some c, some x.inst, none, none, some x.mgr, 1⟩)

/-- RET with `n` results; with no window to return to, the handler ends with result 0 (R462). -/
def State.ret (s : State) (c : Fin 68) (nr : BitVec 4) (off : BitVec 22) : State :=
  let n := nr.toNat
  s.insn c (fmtC 0x1B nr off) [] (fun s x =>
    if 4 < n then s.handlerEnd c 1
    else if x.resident ≤ 1 ∧ x.spilled = 0 then s.handlerEnd c 0
    else
      let (y, s) := if x.resident ≤ 1 then s.unspill c x else (x, s)
      let prev := (x.wix + 6) % 7
      let w := y.windows.getD prev Window.init
      let regs := w.regs.take 8 ++ x.window.regs.take n ++ w.regs.drop (8 + n)
      let y := { y with windows := setIdx y.windows prev ⟨regs, w.link⟩, wix := prev, resident := y.resident - 1 }
      s.retireAt c y (x.window.link.toNat : Int))

/-- RET; its offset is ignored. -/
def execRet (c : Fin 68) (n : BitVec 4) (off : BitVec 22) (s : State) : Answer := act s (fun s => s.ret c n off)

/-! ## Special values, descriptors, locks (R457, R460, R474) -/

/-- The budget that a handler has left, in ns (R454). -/
def State.budgetLeft (s : State) (x : CoreSt) : Nat :=
  1000 * s.get Reg.handCtrl Fld.handCtrlBudgetUs - (s.now - x.startNs)

/-- CSR: cycles are not stated, a free value (log 6). -/
def State.csr (s : State) (c : Fin 68) (rd ra rb : BitVec 5) (fn : BitVec 11) : State :=
  s.insn c (fmtA 0x20 rd ra rb fn) [rd] (fun s x =>
    let give (v : Nat) : State := s.result c x rd (BitVec.ofNat 64 v)
    match fn.toNat with
    | 0 =>
      let (w, s) := s.fresh
      s.result c x rd w
    | 1 => give (s.now - s.applyNs)
    | 2 => give ((s.logicalCore c).getD 0)
    | 3 => give x.inst
    | 4 => give s.fid
    | 5 => give x.trig
    | 6 => give (s.budgetLeft x)
    | 7 => s.result c x rd x.window.link
    | _ => s.handlerEnd c 1)

/-- CSR. -/
def execCsr (c : Fin 68) (rd ra rb : BitVec 5) (fn : BitVec 11) (s : State) : Answer :=
  act s (fun s => s.csr c rd ra rb fn)

/-- An engine of a hub with room for one more operation, lowest number first. -/
def State.freeEngine (s : State) (hub : Nat) : Option Nat :=
  ((List.range 4).map (fun k => 4 * hub + k)).find? (fun e => s.opRoom e && !s.isFenced (.rae (s.rae e)))

/-- Hand a descriptor to an engine: 0 accepted, 1 no room, 2 refused (R460). A manager handler's job counts as the
manager's (R525). -/
def State.descJob (s : State) (x : CoreSt) (d : Desc) (dest : Nat) : Nat × State :=
  let i := x.inst
  let cq := dest % 64
  if d.op = 8 ∨ d.op = opSeg ∨ !(d.first && d.last) ∨ !s.flag (Reg.cqCfg i cq) Fld.cqCfgEnable then (2, s)
  else
    match s.freeEngine (s.instHub i) with
    | none => (1, s)
    | some e =>
      if !s.cqRoom i cq then (1, s)
      else
        let y := { opOfDesc d i e cq (bits dest 21 6) (bits dest 27 22) none s.now with bad := s.firstBad d, mgr := x.mgr }
        let (o, s) := s.takeJob y s.now
        let s := s.cqReserve i cq
        (0, if y.bad then s.finishOp o 34 else s)

/-- DESC: the descriptor lies in local data, 64 B aligned. -/
def State.desc (s : State) (c : Fin 68) (rd ra rb : BitVec 5) (fn : BitVec 11) : State :=
  s.insn c (fmtA 0x21 rd ra rb fn) [rd, ra, rb] (fun s x =>
    match s.haddr x (x.val ra).toNat 64 with
    | .loc a =>
      let (r, s) := s.descJob x (Desc.ofBytes (x.localRead a 64)) (x.val rb).toNat
      s.result c x rd (BitVec.ofNat 64 r)
    | _ => s.handlerEnd c 2)

/-- DESC. -/
def execDesc (c : Fin 68) (rd ra rb : BitVec 5) (fn : BitVec 11) (s : State) : Answer :=
  act s (fun s => s.desc c rd ra rb fn)

/-- The lock line that a handler address names (R458, R474 check 1): none where the address is no device address of a
whole line, and then none again where the check rejects it. -/
def State.lockAddr (s : State) (x : CoreSt) (a : Nat) : Option (Option Nat) :=
  if a < 2 ^ 63 ∨ a % 64 ≠ 0 then none
  else
    let off := a % 2 ^ 37
    if x.mgr then some (if s.inRegion off then some (off / 64) else none)
    else some (s.lockLine x.inst off)

/-- LKACQ: `rd` receives 0 once the lock is held, 1 for a rejection, 2 for a full waiter pool; a wait keeps the handler at
the instruction until its grant. -/
def State.lkacq (s : State) (c : Fin 68) (rd ra rb : BitVec 5) (fn : BitVec 11) : State :=
  s.insn c (fmtA 0x22 rd ra rb fn) [rd, ra, rb] (fun s x =>
    match s.lockAddr x (x.val ra).toNat with
    | none => s.handlerEnd c 2
    | some none => s.result c x rd 1
    | some (some l) =>
      let me := s.lockCoreId c
      if !s.lockPasses 1 l ((x.val rb).toNat % 2 ^ 32) me then s.result c x rd 1
      else if !s.lockHeld l then (s.lockTake l me 0).result c x rd 0
      else if s.waitersFull then (s.bump Reg.lockCnt Fld.lockCntPoolFull 1).result c x rd 2
      else
        let s := s.setCore c { x with lockWait := some (rd.toNat, l) }
        s.setWaiters l (s.hand.lockWait ++ [⟨l, me, 0, s.fid, x.inst, some c, none⟩]))

/-- LKACQ. -/
def execLkacq (c : Fin 68) (rd ra rb : BitVec 5) (fn : BitVec 11) (s : State) : Answer :=
  act s (fun s => s.lkacq c rd ra rb fn)

/-- LKREL: `rd` receives 0, or 1 for a rejection. -/
def State.lkrel (s : State) (c : Fin 68) (rd ra rb : BitVec 5) (fn : BitVec 11) : State :=
  s.insn c (fmtA 0x23 rd ra rb fn) [rd, ra, rb] (fun s x =>
    match s.lockAddr x (x.val ra).toNat with
    | none => s.handlerEnd c 2
    | some none => s.result c x rd 1
    | some (some l) =>
      if s.lockPasses 2 l ((x.val rb).toNat % 2 ^ 32) (s.lockCoreId c) then (s.lockPass l).result c x rd 0
      else s.result c x rd 1)

/-- LKREL. -/
def execLkrel (c : Fin 68) (rd ra rb : BitVec 5) (fn : BitVec 11) (s : State) : Answer :=
  act s (fun s => s.lkrel c rd ra rb fn)

/-- FENCE: every earlier access of the handler has been performed at its home, for each is one step. -/
def execFence (c : Fin 68) (rd ra rb : BitVec 5) (fn : BitVec 11) (s : State) : Answer :=
  act s (fun s => s.insn c (fmtA 0x24 rd ra rb fn) [] (fun s x => s.retire c x))

/-- DONE. -/
def execDone (c : Fin 68) (rd ra : BitVec 5) (imm : BitVec 16) (s : State) : Answer :=
  act s (fun s => s.insn c (fmtI 0x25 rd ra imm) [] (fun s _ => s.handlerEnd c (imm.toNat % 256)))

end Sys2Proof.Machine
end

