-- ==== Sys2Proof/Machine/Inst.lean ====
section
/-! DEFINITION. Inst: tenant instances: pools, their commands, quiesce, reset and move, the mailbox and the dirty-page log
(R313 to R332). -/

namespace Sys2Proof.Machine

/-! ## Pools (R313, R315, R327) -/

/-- What the instances that are bound hold of a pool, all together. -/
def State.poolUsed (s : State) (f : InstSt → Nat) : Nat := ((s.insts.filter (fun e => e.2.bound)).map (fun e => f e.2)).sum

/-- Near-ring pages of the device. -/
def State.nearTotal (s : State) : Nat := 16384 * s.get Reg.instCtrl Fld.instCtrlNrGib

/-- The pools: the device total and what an instance holds, in the rows of R313. -/
def State.pools (s : State) : List (Nat × (InstSt → Nat)) :=
  [(65536, InstSt.sq), (65536, InstSt.cq), (65536, InstSt.vectors), (65536, InstSt.ctx), (15360, InstSt.peerQuota),
    (1024, InstSt.hslots), (s.nearTotal, InstSt.nr64k), (760000, InstSt.share)]

/-- What a pool has left. -/
def State.poolFree (s : State) (p : Nat × (InstSt → Nat)) : Nat := p.1 - s.poolUsed p.2

/-- The lowest place for a run of `n` units of `total` beside the runs taken: contexts are one contiguous run (R387), and so
are near-ring pages here (log 39). -/
def firstFit (taken : List (Nat × Nat)) (total n : Nat) : Option Nat :=
  let ok (b : Nat) : Bool := decide (b + n ≤ total) && taken.all (fun r => n == 0 || r.2 == 0 || decide (b + n ≤ r.1 ∨ r.1 + r.2 ≤ b))
  let starts := 0 :: taken.map (fun r => r.1 + r.2)
  (starts.filter ok).foldl (fun b x => match b with
    | none => some x
    | some y => some (min x y)) none

/-- The runs that bound instances hold. -/
def State.runs (s : State) (f : InstSt → Nat × Nat) : List (Nat × Nat) :=
  (s.insts.filter (fun e => e.2.bound)).map (fun e => f e.2)

/-- A place for the contexts of a new instance. -/
def State.ctxPlace (s : State) (n : Nat) : Option Nat := firstFit (s.runs (fun x => (x.ctxBase, x.ctx))) 65536 n

/-- A place for the near-ring pages of a new instance. -/
def State.nearPlace (s : State) (n : Nat) : Option Nat := firstFit (s.runs (fun x => (x.nrBase, x.nr64k))) s.nearTotal n

/-! ## Ends of operations -/

/-- An operation is a posted receive. -/
def State.isPosted (s : State) (o : Nat) : Bool := s.mt.ctx.any (fun c => c.2.posted.any (fun r => r.op == o))

/-- The jobs of an instance: not what it serves for others. -/
def State.jobsOf (s : State) (i : Nat) : List Nat :=
  (s.rma.ops.filter (fun e => e.2.inst == i && e.2.kind != .serveGet && e.2.kind != .pull)).map (fun e => e.1)

/-- The outstanding operations of an instance: its jobs but for posted receives, which survive a quiesce (R319, log 40). -/
def State.outstanding (s : State) (i : Nat) : List Nat := (s.jobsOf i).filter (fun o => !s.isPosted o)

/-- The source sends a CANCEL for an acquire that ends before its grant (R477). -/
def State.cancelAcquire (s : State) (x : OpSt) : State :=
  if x.kind == .lock && bits x.desc.w3.toNat 2 0 == 1 && x.started && !x.done then
    s.queueOut ⟨{ s.soloPacket x opLock 64 [] 4 with locked := true }, 0, hubOf x.engine, 0⟩
  else s

/-- A job ends with a status at once, and completes: with its entry, or `silent` with none. -/
def State.endJob (s : State) (o status : Nat) (silent : Bool) : State :=
  match Table.find s.rma.ops o with
  | none => s
  | some x =>
    let s := (s.cancelAcquire x).finishOp o status
    let s := s.modOp o (fun y => { y with silent := y.silent || silent })
    s.completeJob o

/-- Take receives that have ended out of the matching contexts. A walk that has unlinked its entry stays for its end. -/
def State.dropRecvs (s : State) (gone : List Nat) : State :=
  s.mt.ctx.foldl (fun s e =>
    let c := s.ctx e.1
    let live (it : CtxItem) : Bool := match it with | .recv o => !gone.contains o | .msg _ => true
    let lost := c.posted.filter (fun r => gone.contains r.op)
    let s := s.setCtx e.1 { c with
      queue := c.queue.filter live
      walk := c.walk.filter (fun w => w.progress == 1 || live w.item)
      posted := c.posted.filter (fun r => !gone.contains r.op) }
    { s with mt := { s.mt with
      freePosted := s.mt.freePosted + lost.length
      freeSeg := s.mt.freeSeg + (lost.map (fun r => r.segLines)).sum } }) s

/-- Every ring of an instance stops polling (R317). -/
def State.stopRings (s : State) (i : Nat) : State :=
  ((s.sqs.filter (fun e => e.1 / 64 == i)).map (fun e => e.1 % 64)).foldl (fun s r => s.stopRing i r) s

/-- The open transfer records at an instance are freed without completion (R319). -/
def State.freeRecs (s : State) (i : Nat) : State :=
  (s.xp.recs.filter (fun e => e.2.tInst == i)).foldl (fun s e =>
    let s := s.freeRec e.1 e.2.isRsp
    if e.2.held.isSome then s.bump (Reg.raeCnt1 (s.rae (s.servingEngine e.2.first))) Fld.raeCnt1FinalDrop 1 else s) s

/-- Device contexts of an instance. -/
def State.ctxsOf (s : State) (i : Nat) : List Nat :=
  let x := s.inst i
  (s.mt.ctx.map (fun e => e.1)).filter (fun d => decide (x.ctxBase ≤ d ∧ d < x.ctxBase + x.ctx))

/-- Messages accepted for an instance that no context has taken are answered with a reason. -/
def State.refuseHeld (s : State) (i reason : Nat) : State :=
  let l := s.xp.held.filter (fun h => h.2.2.tInst == i)
  let s := { s with
    xp := { s.xp with held := s.xp.held.filter (fun h => h.2.2.tInst != i) }
    mt := { s.mt with waiting := s.mt.waiting.filter (fun p => p.tInst != i) } }
  l.foldl (fun s h => s.refuseMsg h.2.2 reason) s

/-! ## Commands (R316, R328) -/

/-- A VF exists on its link, no other instance is bound to it, and no Function Level Reset of it is in progress. -/
def State.vfFree (s : State) (n vf : Nat) : Bool :=
  s.vfEnable n && decide (1 ≤ vf ∧ vf ≤ s.numVfs n) && (s.boundInst n vf).isNone && !(s.host n).flr.contains vf

/-- The allocation that INST_ALLOC0 and INST_ALLOC1 ask for. -/
def State.allocOf (s : State) (i : Nat) : InstSt :=
  let a := Reg.instAlloc0 i; let b := Reg.instAlloc1 i; let c := Reg.instCfg i
  { InstSt.init with
    bound := true, vfLink := s.get c Fld.instCfgLink, vfNum := s.get c Fld.instCfgVf,
    sq := s.get a Fld.instAlloc0Sq, cq := s.get a Fld.instAlloc0Cq, vectors := s.get a Fld.instAlloc0Vectors,
    ctx := s.get a Fld.instAlloc0Ctx, peerQuota := s.get a Fld.instAlloc0PeerQuota,
    hslots := s.get a Fld.instAlloc0Hslots, nr64k := s.get b Fld.instAlloc1Nr64k, share := s.get b Fld.instAlloc1Share }

/-- An allocation is in the ranges of R313. -/
def InstSt.inRange (x : InstSt) : Bool :=
  decide (x.sq ≤ 64 ∧ x.cq ≤ 64 ∧ 1 ≤ x.vectors ∧ x.vectors ≤ 64 ∧ x.ctx ≤ 4096 ∧ x.peerQuota ≤ 15360 ∧ x.hslots ≤ 1024
    ∧ x.nr64k ≤ 16384 ∧ x.share ≤ 760000)

/-- The first pool, by its row, that cannot supply an allocation; 0 where all can. -/
def State.poolShort (s : State) (x : InstSt) : Nat :=
  match (s.pools.zipIdx.find? (fun e => decide (s.poolFree e.1 < e.1.2 x))) with
  | some e => e.2 + 1
  | none => if (s.ctxPlace x.ctx).isNone then 4 else if (s.nearPlace x.nr64k).isNone then 7 else 0

/-- A command of an instance: refused with error 1 while one is in progress; else it is checked, has its effect, and stays
busy until its end. A CREATE that its pools cannot supply names the first short one (R328). -/
def State.instCmd (s : State) (i code : Nat) (op : InstOp) (check : State → Nat) (f : State → State) : State :=
  let a := Reg.instCmd i
  s.ifStructured a (fun s =>
    if s.flag a Fld.instCmdBusy then s.put a Fld.instCmdErr 1
    else
      let s := (((s.put a Fld.instCmdOp code).put a Fld.instCmdErr 0).put a Fld.instCmdErrPool 0).put a Fld.instCmdBusy 1
      match check s with
      | 0 => f (s.setInst i { s.inst i with op := op })
      | 4 => (s.put a Fld.instCmdErr 4).put a Fld.instCmdErrPool (s.poolShort (s.allocOf i))
      | e => s.put a Fld.instCmdErr e)

/-- Return the registers of an instance's tenant page, its mailbox and its dirty log to their reset values; the MSI-X table and its
pending bits belong to the VF, and stay where `keep` is set (R320). -/
def State.clearInstRegs (s : State) (i : Nat) (keep : Bool) : State :=
  let page := 0x10000000 + 0x10000 * i
  let slot := 0xC00000 + 0x400 * i
  { s with regs := s.regs.filter (fun e =>
      !(decide (page ≤ e.1 ∧ e.1 < page + 0x10000) && !(keep && decide (page + 0x3000 ≤ e.1 ∧ e.1 < page + 0x3C00))) && !(decide (slot + 0x100 ≤ e.1 ∧ e.1 < slot + 0x400))) }

/-- CREATE takes effect: the pools are drawn, the instance is bound and ACTIVE with everything empty (R314, R315). -/
def State.createInst (s : State) (i : Nat) : State :=
  let x := s.allocOf i
  let x := { x with op := .create, ctxBase := (s.ctxPlace x.ctx).getD 0, nrBase := (s.nearPlace x.nr64k).getD 0 }
  let s := (s.clearInstRegs i false).setInst i x
  let s := s.put (Reg.matchInst i) Fld.matchInstCtxBase x.ctxBase
  let s := (List.range x.ctx).foldl (fun s k =>
    let d := x.ctxBase + k
    (s.put (Reg.ctxCfg d) Fld.ctxCfgOwned 1).put (Reg.ctxCfg d) Fld.ctxCfgInst i) s
  let s := (List.range 8).foldl (fun s t => s.put (Reg.shaperCfg (8 * i + t)) Fld.shaperCfgRate x.share) s
  let a := Reg.instStat i
  ((s.put a Fld.instStatLostOps 0).put a Fld.instStatQuiesceFail 0).setInstState i 1

/-- The checks of CREATE (R315, R328). -/
def State.createCheck (i : Nat) (s : State) : Nat :=
  let x := s.allocOf i
  if s.instState i ≠ 0 then 2
  else if !x.inRange then 5
  else if !s.vfFree x.vfLink x.vfNum then 3
  else if s.poolShort x ≠ 0 then 4
  else 0

/-- CREATE. -/
def doCreate (i : Nat) (s : State) : State :=
  s.instCmd i 1 .create (State.createCheck i) (fun s => s.createInst i)

/-- CREATE. -/
def execCreate (inst : Fin 4096) (s : State) : Answer := act s (doCreate inst)

/-- A command that the states of `l` allow. -/
def inStates (i : Nat) (l : List Nat) (s : State) : Nat := if l.contains (s.instState i) then 0 else 2

/-- QUIESCE (R317): polling stops, and the drain begins. -/
def doQuiesce (i : Nat) (s : State) : State :=
  s.instCmd i 2 .quiesce (inStates i [1, 4, 5]) (fun s => (s.stopRings i).setInstState i 2)

/-- QUIESCE. -/
def execQuiesce (inst : Fin 4096) (s : State) : Answer := act s (doQuiesce inst)

/-- The end of a quiesce (R319, R406): walks at their restart point are abandoned, what remains ends with `status`, running
handlers stop, open records are freed, and the instance is QUIESCED. -/
def State.quiesceDone (s : State) (i : Nat) : State :=
  let taken := ((s.ctxsOf i).filterMap (fun d => (s.ctx d).walk)).filter (fun w => w.progress == 1)
  let busy := taken.filterMap (fun w => match w.item, w.pick with
    | .recv o, _ => some o
    | .msg _, some (.posted r) => some r.op
    | _, _ => none)
  let s := (s.ctxsOf i).foldl (fun s d => s.abandonWork d 6 (some 37)) s
  let s := s.refuseHeld i 6
  let s := ((s.outstanding i).filter (fun o => !busy.contains o)).foldl (fun s o =>
    let x := s.op o
    let s := if !x.done || x.status == 37 then s.bump (Reg.instStat i) Fld.instStatQuiesceFail 1 else s
    s.endJob o 37 false) s
  (((s.stopHandlers i).freeRecs i).setInstState i 3).goOn

/-- The quiesce of an instance has nothing left to wait for. -/
def State.quiet (s : State) (i : Nat) : Bool :=
  (s.outstanding i).isEmpty && s.xp.recs.all (fun e => e.2.tInst != i)

/-- QUIESCE_END: nothing remains, or the drain bound has passed. -/
def doQuiesceEnd (i : Nat) (drained : Bool) (s : State) : State :=
  if s.instState i = 2 ∧ (!drained ∨ s.quiet i) then s.quiesceDone i else s

/-- QUIESCE_END. -/
def execQuiesceEnd (inst : Fin 4096) (drained : Bool) (s : State) : Answer := act s (doQuiesceEnd inst drained)

/-- RESUME restarts polling from the kept heads (R319). -/
def doResume (i : Nat) (s : State) : State := s.instCmd i 3 .resume (inStates i [3]) (fun s => s.setInstState i 1)

/-- RESUME. -/
def execResume (inst : Fin 4096) (s : State) : Answer := act s (doResume inst)

/-- Every ring of an instance returns to its state at creation. -/
def State.clearRings (s : State) (i : Nat) : State :=
  let mine (r : ReadWhy) : Bool := match r with | .ringPoll j _ | .dlogWord j _ => j == i | _ => false
  { s with
    sqs := s.sqs.filter (fun e => e.1 / 64 != i)
    cqs := s.cqs.filter (fun e => e.1 / 64 != i)
    tailCache := s.tailCache.filter (fun e => e.1 / 64 != i)
    dma := s.dma.filter (fun r => !mine r.why)
    dmaQ := s.dmaQ.filter (fun r => !mine r.why)
    logWait := s.logWait.filter (fun l => l.inst != i)
    rma := { s.rma with entries := s.rma.entries.filter (fun e => e.inst != i) } }

/-- A context's registers return to their reset values. -/
def State.clearCtxReg (s : State) (d : Nat) : State :=
  let a := Reg.ctxCfg d
  (((s.put a Fld.ctxCfgPrio 2).put a Fld.ctxCfgPreLim 0).put a Fld.ctxCfgUxeLim 0).put a Fld.ctxCfgMigTo 0

/-- The communicators that are valid. -/
def State.commList (s : State) : List Nat :=
  (s.regs.filterMap (fun r => if 0x1380000 ≤ r.1 ∧ r.1 < 0x1388000 then some ((r.1 - 0x1380000) / 8) else none)).filter
    (fun c => s.commValid c)

/-- What RESET and REMOVE do alike (R320, R359, R410, R464, R479): the instance is as at its creation. -/
def State.clearInst (s : State) (i : Nat) : State :=
  let x := s.inst i
  let comms := ((s.colls.colls.map (fun c => c.comm)) ++ s.commList).dedup.filter (fun c => !s.commMgmt c && s.commInst c == i)
  let s := comms.foldl (fun s c => s.abortComm c) s
  let s := (s.trigsOf i).foldl (fun s t => ((s.put (Reg.trigCfg t) Fld.trigCfgEnable 0).stopTrigger t).dropFirings t) s
  let s := (s.disarmGrant i).refuseHeld i 26
  let s := (s.ctxsOf i).foldl (fun s d => s.emptyCtx d none) s
  let s := (List.range x.ctx).foldl (fun s k => s.clearCtxReg (x.ctxBase + k)) s
  let served := (s.rma.ops.filter (fun e => e.2.inst == i && (e.2.kind == .serveGet || e.2.kind == .pull))).map (fun e => e.1)
  let s := served.foldl (fun s o => s.serveFail o 6) s
  let jobs := s.jobsOf i
  let s := jobs.foldl (fun s o => (s.dropUnsent o true).dropOp o) s
  let s := { s with mon := { s.mon with sampled := s.mon.sampled.filter (fun r => !jobs.contains r.op) } }
  let s := (s.clearRings i).invalidate 1 i (s.s2RootOf i) 0 0
  let s := { s with
    xl := { s.xl with
      walks := s.xl.walks.filter (fun w => w.inst != i)
      queued := s.xl.queued.filter (fun q => q.1 != i)
      tenInv := Table.del s.xl.tenInv i }
    xp := { s.xp with shapers := s.xp.shapers.filter (fun e => e.1 / 8 != i) }
    regs := s.regs.filter (fun e => !(decide (0x1810000 + 0x20 * i ≤ e.1 ∧ e.1 < 0x1810020 + 0x20 * i))) }
  let s := (s.clearInstRegs i true).setInst i { s.inst i with dlogWords := [], slotUsed := 0 }
  let a := Reg.instStat i
  ((s.put a Fld.instStatLostOps 0).put a Fld.instStatQuiesceFail 0).goOn

/-- RESET (R320). -/
def doReset (i : Nat) (s : State) : State :=
  s.instCmd i 4 .reset (inStates i [3]) (fun s => (s.clearInst i).setInstState i 1)

/-- RESET. -/
def execReset (inst : Fin 4096) (s : State) : Answer := act s (doReset inst)

/-- Counters that follow a removed instance stop (R528). -/
def State.dropCounters (s : State) (i : Nat) : State :=
  s.cntList.foldl (fun s k =>
    let a := Reg.cntSel k
    if s.flag a Fld.cntSelInstEn && s.get a Fld.cntSelInst == i then
      (s.put a Fld.cntSelEnable 0).put a Fld.cntSelTview 0
    else s) s

/-- REMOVE takes effect (R320, R419): the pools return, and the VF is unbound. -/
def State.removeInst (s : State) (i : Nat) : State :=
  let x := s.inst i
  let s := ((s.clearInst i).dropCounters i)
  let s := { s with
    mt := { s.mt with ctx := s.mt.ctx.filter (fun e => !(decide (x.ctxBase ≤ e.1 ∧ e.1 < x.ctxBase + x.ctx))) }
    regs := s.regs.filter (fun e => e.1 != Reg.matchInst i
      && !(decide (Reg.ctxCfg x.ctxBase ≤ e.1 ∧ e.1 < Reg.ctxCfg (x.ctxBase + x.ctx)))) }
  (s.setInst i { InstSt.init with op := .remove }).setInstState i 0

/-- REMOVE. -/
def doRemove (i : Nat) (s : State) : State := s.instCmd i 5 .remove (inStates i [3]) (fun s => s.removeInst i)

/-- REMOVE. -/
def execRemove (inst : Fin 4096) (s : State) : Answer := act s (doRemove inst)

/-- The checks of MOVE (R316, R321). -/
def State.moveCheck (i : Nat) (s : State) : Nat :=
  let a := Reg.instMove i
  let n := s.get a Fld.instMoveMvLink
  if !([3, 5].contains (s.instState i)) then 2
  else if !s.vfFree n (s.get a Fld.instMoveMvVf) || !s.linkUp n then 3
  else 0

/-- Bind an instance to a VF, as its registers show. -/
def State.bindInst (s : State) (i n vf : Nat) : State :=
  let s := s.setInst i { s.inst i with vfLink := n, vfNum := vf }
  (s.put (Reg.instCfg i) Fld.instCfgLink n).put (Reg.instCfg i) Fld.instCfgVf vf

/-- The arrivals held for an instance are placed (R285, R287, R321), but for those that a lost link held and that the same link, trained
again, never places (R288). -/
def State.placeHeld (s : State) (i : Nat) : State :=
  let sel (h : HeldArr) : Bool := h.place.inst == i && !(h.lost && h.link == s.instLink i)
  let l := s.heldArr.filter sel
  let s := { s with heldArr := s.heldArr.filter (fun h => !sel h) }
  (l.foldl (fun s h => s.serveHeld h.place.pkt) s).goOn

/-- MOVE takes effect. -/
def State.moveInst (s : State) (i : Nat) : State :=
  let x := s.inst i
  let a := Reg.instMove i
  let s := s.setInst i { x with prev := some (x.vfLink, x.vfNum, s.instState i) }
  ((s.bindInst i (s.get a Fld.instMoveMvLink) (s.get a Fld.instMoveMvVf)).setInstState i 3).placeHeld i

/-- MOVE. -/
def doMove (i : Nat) (s : State) : State := s.instCmd i 6 .move (State.moveCheck i) (fun s => s.moveInst i)

/-- MOVE. -/
def execMove (inst : Fin 4096) (s : State) : Answer := act s (doMove inst)

/-- A command ends: `done`, and a PF0 event (R328). A quiesce ends once the instance is QUIESCED. -/
def doInstCmdEnd (i : Nat) (s : State) : State :=
  let a := Reg.instCmd i
  let x := s.inst i
  if !s.flag a Fld.instCmdBusy || (x.op = .quiesce ∧ s.instState i = 2) then s
  else
    ((s.setInst i { x with op := .none, prev := none }).put a Fld.instCmdBusy 0).put a Fld.instCmdDone 1 |>.raiseEvent 1

/-- INST_CMD_END. -/
def execInstCmdEnd (inst : Fin 4096) (s : State) : Answer := act s (doInstCmdEnd inst)

/-- Containment of an instance (R316, R322, R464, R500): its operations end with status 38, its handlers stop. -/
def State.containInst (s : State) (i : Nat) : State :=
  let st := s.instState i
  if st = 0 ∨ st = 4 then s
  else
    let s := (s.stopRings i).stopHandlers i
    let jobs := s.outstanding i
    let s := (jobs.foldl (fun s o => s.endJob o 38 false) s).dropRecvs jobs
    let s := (s.ctxsOf i).foldl (fun s d => s.endTaken d 6) s
    if st = 2 then s.quiesceDone i else s.setInstState i 4

/-! ## The mailbox (R323, R331) -/

/-- TO_MGR_SET. -/
def doToMgrSet (i : Nat) (s : State) : State :=
  s.ifStructured (Reg.tMbxCtrl i) (fun s => (s.put (Reg.mbxCtrl i) Fld.mbxCtrlToMgr 1).raiseEvent 2)

/-- TO_MGR_SET. -/
def execToMgrSet (inst : Fin 4096) (s : State) : Answer := act s (doToMgrSet inst)

/-- TO_MGR_CLEAR. -/
def doToMgrClear (i : Nat) (s : State) : State :=
  s.ifStructured (Reg.mbxCtrl i) (fun s => s.put (Reg.mbxCtrl i) Fld.mbxCtrlToMgr 0)

/-- TO_MGR_CLEAR. -/
def execToMgrClear (inst : Fin 4096) (s : State) : Answer := act s (doToMgrClear inst)

/-- TO_TENANT_SET. -/
def doToTenantSet (i : Nat) (s : State) : State :=
  s.ifStructured (Reg.mbxCtrl i) (fun s =>
    (s.put (Reg.mbxCtrl i) Fld.mbxCtrlToTenant 1).signalVf i (s.get (Reg.tMbxCtrl i) Fld.tMbxCtrlMbxVec))

/-- TO_TENANT_SET. -/
def execToTenantSet (inst : Fin 4096) (s : State) : Answer := act s (doToTenantSet inst)

/-- TO_TENANT_CLEAR. -/
def doToTenantClear (i : Nat) (s : State) : State :=
  s.ifStructured (Reg.tMbxCtrl i) (fun s => s.put (Reg.mbxCtrl i) Fld.mbxCtrlToTenant 0)

/-- TO_TENANT_CLEAR. -/
def execToTenantClear (inst : Fin 4096) (s : State) : Answer := act s (doToTenantClear inst)

/-! ## The dirty-page log (R325, R332) -/

/-- `flip`: the other bitmap becomes active and the word cache is emptied; writes that wait for a word wait for that of the
new bitmap. -/
def doDlogFlip (i : Nat) (s : State) : State :=
  let a := Reg.dlogCtrl i
  s.ifStructured a (fun s =>
    let s := (s.put a Fld.dlogCtrlActive (1 - s.get a Fld.dlogCtrlActive)).put a Fld.dlogCtrlBusy 1
    let s := s.setInst i { s.inst i with dlogWords := [] }
    let old (r : ReadWhy) : Bool := match r with | .dlogWord j _ => j == i | _ => false
    let s := { s with dma := s.dma.filter (fun r => !old r.why), dmaQ := s.dmaQ.filter (fun r => !old r.why) }
    let f := s.instFunc i
    ((s.logWait.filter (fun l => l.inst == i)).map (fun l => l.word)).dedup.foldl (fun s w =>
      s.ask ⟨f.link, 0, ⟨f.link, 0⟩, i, s.dlogAt i + w * 8, 8, .dlogWord i w⟩) s)

/-- DLOG_FLIP. -/
def execDlogFlip (inst : Fin 4096) (s : State) : Answer := act s (doDlogFlip inst)

/-- DLOG_FLIP_END. -/
def execDlogFlipEnd (inst : Fin 4096) (s : State) : Answer :=
  act s (fun s => if s.flag (Reg.dlogCtrl inst) Fld.dlogCtrlBusy then s.put (Reg.dlogCtrl inst) Fld.dlogCtrlBusy 0 else s)

end Sys2Proof.Machine
end

