-- ==== Sys2Proof/Machine/Host.lean ====
section
/-! DEFINITION. Host: host links: configuration space, device memory through PF0 BAR2, loss and return of a link,
function level resets and power states (R259 to R289). -/

namespace Sys2Proof.Machine

/-! ## Pending vectors (R276) -/

/-- The bits that are set in a word. -/
def setBits (w : Word) : List Nat := (List.range 64).filter (fun b => w.getLsbD b)

/-- Signal every vector of PF0 that is pending and now deliverable; one still masked stays pending. -/
def State.flushPf (s : State) (n : Nat) : State :=
  if !s.msixEnable n 0 || !s.linkUp n then s
  else
    (List.range 32).foldl (fun s k =>
      let a := Reg.pfPba n k
      let w := s.word a
      if w = 0 then s else (setBits w).foldl (fun s b => s.signalPf n (64 * k + b)) (s.setWord a 0)) s

/-- Signal every vector of an instance's VF that is pending and now deliverable. -/
def State.flushVf (s : State) (i : Nat) : State :=
  let x := s.inst i
  if !x.bound || !s.msixEnable x.vfLink x.vfNum || !s.linkUp x.vfLink then s
  else
    let a := Reg.vfPba i
    let w := s.word a
    if w = 0 then s else (setBits w).foldl (fun s b => s.signalVf i b) (s.setWord a 0)

/-- The instances whose functions belong to a link. -/
def State.instsOn (s : State) (n : Nat) : List Nat :=
  (s.insts.filter (fun e => e.2.bound && e.2.vfLink == n)).map (fun e => e.1)

/-- Signal whatever is pending on a link. -/
def State.flushVectors (s : State) (n : Nat) : State := (s.instsOn n).foldl (fun s i => s.flushVf i) (s.flushPf n)

/-! ## Functions at reset -/

/-- The VF number of an instance whose VF is lost with its link: no VF has it (R288). -/
def noVf : Nat := 65535

/-- The MSI-X table and pending bits of PF0 return to their reset values. -/
def State.clearPfMsix (s : State) (n : Nat) : State :=
  let a := Reg.pfPba n 0
  { s with regs := s.regs.filter (fun e => !(decide (a ≤ e.1 ∧ e.1 < a + 0x9000))) }

/-- The MSI-X table and pending bits of an instance's VF return to their reset values: every vector masked. -/
def State.clearVfMsix (s : State) (i : Nat) : State :=
  let a := Reg.vfMsixAddr i 0
  { s with regs := s.regs.filter (fun e => !(decide (a ≤ e.1 ∧ e.1 < a + 0x900))) }

/-- The requests of one function that wait to be issued are given up: a read fails, a write is discarded. -/
def State.dropQueued (s : State) (sel : DmaReq → Bool) : State :=
  let l := s.dmaQ.filter sel
  let s := { s with dmaQ := s.dmaQ.filter (fun r => !sel r) }
  l.foldl (fun s r => s.dmaLost r) s

/-- A configuration space returns to its reset values (R284, R286, R288). -/
def State.resetFns (s : State) (n : Nat) : State :=
  let s := s.setHost n { s.host n with cfg := [], flr := [] }
  (s.instsOn n).foldl (fun s i => s.clearVfMsix i) (s.clearPfMsix n)

/-! ## Link loss (R287, R288, R289, R379) -/

/-- The packets of a message are being delivered to a receive. -/
def State.delivering (s : State) (k : XferKey) : Bool :=
  s.mt.msgs.any (fun e => e.1 == k && (match e.2 with | .recv _ => true | _ => false))

/-- An open record at the target when the link of its instance is lost (R379, R382, R412): one that counts a packet placed, or whose
message is being delivered, fails with reason 9; the held packet of another is held with its instance's arrivals. -/
def State.loseRec (s : State) (k : XferKey) (r : XferRec) : State :=
  if r.failed then s
  else if r.placed = 0 ∧ !s.delivering k then
    match r.held with
    | some p => (s.setRec k { r with held := none }).hold p
    | none => s
  else
    let p := r.held.getD r.first
    (s.sendNcomp p 9).failRec p

/-- The placements of an instance that are not issued whole: a piece waits for its translation, or its writes wait in D3hot. -/
def State.unplaced (s : State) (i : Nat) : List Place :=
  let waits := s.dmaQ.any (fun r => r.func == s.instFunc i && (match r.why with | .write _ _ => true | _ => false))
  s.xp.placing.filter (fun pl => pl.inst == i && (!pl.todo.isEmpty || waits))

/-- The placements of an instance that are not issued whole fail with a reason (R289). -/
def State.failPlaces (s : State) (i reason : Nat) : State := (s.unplaced i).foldl (fun s pl => s.placeFail pl reason) s

/-- The placements of an instance when its link is lost (R287, R379): the packet of a transfer from outside that waits for a translation,
and of whose transfer nothing has been placed, is held; another that has not left whole fails with reason 9. -/
def State.losePlaces (s : State) (i : Nat) : State :=
  (s.unplaced i).foldl (fun s pl =>
    let started := match s.recOf (pktKey pl.pkt) (pl.pkt.op == opGetRsp) with
      | some r => r.failed || decide (0 < r.placed)
      | none => false
    if pl.op = 0 ∧ !pl.todo.isEmpty ∧ !started then (s.dropPlace pl).hold pl.pkt else s.placeFail pl 9) s

/-- Messages accepted for an instance whose link is lost, and decided by no context yet, are held with its arrivals (R287). -/
def State.holdMessages (s : State) (i : Nat) : State :=
  let mine (p : Packet) : Bool := p.tInst == i
  let first := (s.xp.held.map (fun h => h.2.2)).filter mine
  let rest := s.mt.waiting.filter mine
  let msgs (d : Nat) : List Packet :=
    let c := s.ctx d
    ((match c.walk with | some w => [w.item] | none => []) ++ c.queue).filterMap (fun it =>
      match it with | .msg m => some m | .recv _ => none)
  let queued := ((s.ctxsOf i).map msgs).flatten
  let s := (s.ctxsOf i).foldl (fun s d =>
    let c := s.ctx d
    let keep (it : CtxItem) : Bool := match it with | .msg _ => false | .recv _ => true
    s.setCtx d { c with walk := c.walk.filter (fun w => keep w.item), queue := c.queue.filter keep }) s
  let s := { s with
    xp := { s.xp with held := s.xp.held.filter (fun h => !mine h.2.2) }
    mt := { s.mt with waiting := s.mt.waiting.filter (fun p => !mine p) } }
  (queued ++ first ++ rest).foldl (fun s p => s.hold p) s

/-- The senders of the rendezvous messages that an instance was pulling when its link was lost hear of it: reason 9 (R412). -/
def State.losePulls (s : State) (jobs : List Nat) : State :=
  jobs.foldl (fun s o =>
    let x := s.op o
    if x.kind == .recv && x.granted && x.rspXid != 0 && !x.done then
      s.sendNcomp { Packet.zero with
        op := opSendRdv, seqd := true, tc := x.tc, src := x.dst, sInst := x.tInst, tInst := x.inst, xid := x.xid } 9
    else s) s

/-- The gets being served from an instance's host memory fail. -/
def State.loseGets (s : State) (i reason : Nat) : State :=
  (s.rma.ops.filter (fun e => e.2.inst == i && !e.2.dev && (e.2.kind == .serveGet || e.2.kind == .pull))).foldl
    (fun s e => s.serveFail e.1 reason) s

/-- The outstanding operations of an instance end with no entry and no message, and those that had not ended are counted. -/
def State.endSilently (s : State) (i : Nat) (jobs : List Nat) (count : Bool) : State :=
  let n := (jobs.filter (fun o => !(s.op o).done)).length
  let s := if count then s.bump (Reg.instStat i) Fld.instStatLostOps n else s
  (jobs.foldl (fun s o => s.endJob o 9 true) s).dropRecvs jobs

/-- The arrivals held for an instance, and those that its lost link holds from now on (R287, R289). -/
def State.markLost (s : State) (i : Nat) : State :=
  { s with heldArr := s.heldArr.map (fun (h : HeldArr) => if h.place.inst = i then { h with lost := true } else h) }

/-- An instance loses its link: every operation of it ends, posted receives among them, its records, messages and placements are settled,
and it is DETACHED, or QUIESCED where it was quiescing (R322). A move onto the link fails (R289). -/
def State.instLost (s : State) (i : Nat) : State :=
  let x := s.inst i
  match x.prev with
  | some (n, vf, st) =>
    let s := (s.bindInst i n vf).setInstState i st
    (s.setInst i { s.inst i with prev := none }).put (Reg.instCmd i) Fld.instCmdErr 3
  | none =>
    let st := s.instState i
    let gone (s : State) : State := s.setInst i { s.inst i with vfNum := noVf }
    if st ≠ 1 ∧ st ≠ 2 then gone s
    else
      let s := s.stopRings i
      let s := if st = 1 then s.setInstState i 5 else s
      let s := s.losePlaces i
      let s := s.losePulls (s.jobsOf i)
      let s := s.endSilently i (s.jobsOf i) true
      let s := (s.ctxsOf i).foldl (fun s d => s.endTaken d 9) s
      let s := (if st = 1 then s.holdMessages i else s).loseGets i 16
      let s := (s.xp.recs.filter (fun e => e.2.tInst == i)).foldl (fun s e => s.loseRec e.1 e.2) s
      let s := s.markLost i
      gone (if st = 2 then s.quiesceDone i else s)

/-- What a lost link does to the device (R287), and a fenced host tile alike (R500): reads fail and are counted, those that wait to be
issued too (R293), instances lose it, the other links hear of it. -/
def State.cutOff (s : State) (n : Nat) : State :=
  let s := (s.instsOn n).foldl (fun s i => s.instLost i) s
  let s := (s.dma.filter (fun r => r.link == n)).foldl (fun s r => s.dmaFailed r) s
  let reads := s.dmaQ.filter (fun r => r.link == n && (match r.why with | .write _ _ => false | _ => true))
  let s := (s.bump (Reg.hostErr n) Fld.hostErrDmaFail reads.length).dropQueued (fun r => r.link == n)
  (s.raiseEventElsewhere 4 n).goOn

/-- A link is lost, on a source of its tile. -/
def State.linkGone (s : State) (n j : Nat) : State :=
  if !s.linkUp n then s
  else
    let a := Reg.hostStat n
    let s := ((((s.put a Fld.hostStatLinkUp 0).put a Fld.hostStatSpeed 0).put a Fld.hostStatWidth 0).put a Fld.hostStatFlit 0)
    let s := (s.bump (Reg.hostErr n) Fld.hostErrLinkLoss 1).postZero (hostSrc n j)
    let s := if s.isFenced (.basil n) then s else s.cutOff n
    let s := s.resetFns n
    s.setHost n { s.host n with intx := false }

/-- DL_DOWN. -/
def execDlDown (link : Fin 4) (s : State) : Answer := act s (fun s => s.linkGone link 0)

/-- PERST acts as a loss, and the functions return to their reset values (R286). -/
def execPerst (link : Fin 4) (s : State) : Answer := act s (fun s => s.linkGone link 12)

/-- HOT_RESET: a hot reset or a link disable acts as a loss (R286). -/
def execHotReset (link : Fin 4) (s : State) : Answer := act s (fun s => s.linkGone link 12)

/-- A link trains (R288): a fresh endpoint with everything disabled. A link that is up has changed its speed or width. A tile
that is not fused good has no link; a link trains at the widths and speeds of R259 alone, and at 64 and 128 GT/s in Flit mode. -/
def doLinkTrained (n speed width : Nat) (flit : Bool) (s : State) : State :=
  if !bit s.fuse.okHosts n || !([1, 2, 4, 8, 16].contains width) || speed == 0 then s
  else
    let a := Reg.hostStat n
    let s := if s.linkUp n then s else (s.resetFns n).postZero (hostSrc n 13)
    (((s.put a Fld.hostStatLinkUp 1).put a Fld.hostStatSpeed speed).put a Fld.hostStatWidth width).put a Fld.hostStatFlit
      (b2n (flit || decide (6 ≤ speed))) |>.updateIntx n

/-- LINK_TRAINED. -/
def execLinkTrained (link : Fin 4) (speed : Fin 8) (width : Fin 17) (flit : Bool) (s : State) : Answer :=
  act s (doLinkTrained link speed width flit)

/-! ## Held arrivals -/

/-- Flush held arrivals with reason 9 (R287). -/
def State.flushHeld (s : State) (sel : HeldArr → Bool) : State :=
  let l := s.heldArr.filter sel
  let s := { s with heldArr := s.heldArr.filter (fun h => !sel h) }
  l.foldl (fun s h => (s.sendNcomp h.place.pkt 9).failRec h.place.pkt) s

/-- HGRACE_EXPIRY: an arrival held for a lost link is flushed; one held for D3hot has no grace period (R285). -/
def execHgraceExpiry (id : Nat) (s : State) : Answer := act s (fun s => (s.flushHeld (fun h => h.id == id && h.lost)).goOn)

/-! ## Function level resets (R283, R284) -/

/-- A VF's reset at its instance: polling stops, every operation ends with no entry, rings are disabled and vectors masked;
a placement fails whole unless it has been issued whole, and an arrival not yet placed is answered with reason 6, a message that no
context has decided among them (R289). -/
def State.flrInst (s : State) (i : Nat) : State :=
  let s := s.stopRings i
  let s := (List.range (s.inst i).sq).foldl (fun s r => s.put (Reg.sqCfg i r) Fld.sqCfgEnable 0) s
  let s := (List.range (s.inst i).cq).foldl (fun s r => s.put (Reg.cqCfg i r) Fld.cqCfgEnable 0) s
  let s := s.failPlaces i 6
  let s := s.endSilently i (s.jobsOf i) false
  let s := (s.ctxsOf i).foldl (fun s d => s.abandonWork d 6 none) (s.refuseHeld i 6)
  let l := s.heldArr.filter (fun h => h.place.inst == i)
  let s := { s with heldArr := s.heldArr.filter (fun h => h.place.inst != i) }
  let s := l.foldl (fun s h => (s.sendNcomp h.place.pkt 6).failRec h.place.pkt) s
  let s := (s.xp.recs.filter (fun e => e.2.tInst == i)).foldl (fun s e =>
    match e.2.held with
    | some p => (s.sendNcomp p 6).failRec p
    | none => s) s
  (s.clearVfMsix i).goOn

/-- A VF returns to its reset values. -/
def State.resetVf (s : State) (n vf : Nat) : State :=
  let s := s.setHost n { s.host n with cfg := (s.host n).cfg.filter (fun e => e.1 / 4096 != vf) }
  let s := s.dropQueued (fun r => r.func == ⟨n, vf⟩)
  match s.boundInst n vf with
  | some i => s.flrInst i
  | none => s

/-- A Function Level Reset begins: it is counted and posted. -/
def State.flrBegin (s : State) (n fn : Nat) : State :=
  let s := s.setHost n { s.host n with flr := (s.host n).flr ++ [fn] }
  (s.bump (Reg.hostErr n) Fld.hostErrFlr 1).postZero (hostSrc n 10)

/-- FLR_VF. -/
def doFlrVf (n vf : Nat) (s : State) : State :=
  if !s.linkUp n || !s.vfEnable n || vf = 0 || s.numVfs n < vf || (s.host n).flr.contains vf then s
  else (s.flrBegin n vf).resetVf n vf

/-- FLR_VF. -/
def execFlrVf (link : Fin 4) (vf : Nat) (s : State) : Answer := act s (doFlrVf link vf)

/-- The VFs of a link that are bound to instances. -/
def State.boundVfs (s : State) (n : Nat) : List Nat :=
  ((s.insts.filter (fun e => e.2.bound && e.2.vfLink == n && e.2.vfNum != noVf)).map (fun e => e.2.vfNum))

/-- Every VF of a link returns to its reset values. -/
def State.resetVfs (s : State) (n : Nat) : State :=
  let s := (s.boundVfs n).foldl (fun s vf => s.resetVf n vf) s
  s.setHost n { s.host n with cfg := (s.host n).cfg.filter (fun e => decide (e.1 < 4096)) }

/-! ## Power states (R285) -/

/-- PF0 enters D3hot: from here the link does no DMA, polls nothing and holds its arrivals. -/
def doD3hot (n : Nat) (s : State) : State :=
  if s.linkUp n then s.setCfg n 0 0x44 (s.cfg n 0 0x44 / 4 * 4 + 3) else s

/-- D3HOT_ENTRY. -/
def execD3hotEntry (link : Fin 4) (s : State) : Answer := act s (doD3hot link)

/-- The link does DMA again: arrivals held for D3hot are placed, requests and messages that waited leave. -/
def State.wake (s : State) (n : Nat) : State :=
  let sel (h : HeldArr) : Bool := h.link == n && !h.lost
  let l := s.heldArr.filter sel
  let s := { s with heldArr := s.heldArr.filter (fun h => !sel h) }
  let s := (s.pumpDma n).flushVectors n
  (l.foldl (fun s h => s.serveHeld h.place.pkt) s).goOn

/-- PF0 returns to D0. -/
def doD0 (n : Nat) (s : State) : State :=
  if s.linkUp n && s.d3hot n then (s.setCfg n 0 0x44 (s.cfg n 0 0x44 / 4 * 4)).wake n else s

/-- D0_RETURN. -/
def execD0Return (link : Fin 4) (s : State) : Answer := act s (doD0 link)

/-- A Function Level Reset of PF0 (R284): VF Enable clears, each VF resets under R283, whose end it has too, and PF0's configuration
returns to its reset values, D0 among them. -/
def doFlrPf0 (n : Nat) (s : State) : State :=
  if !s.linkUp n || (s.host n).flr.contains 0 then s
  else
    let was := s.d3hot n
    let vfs := if s.vfEnable n then (List.range (s.numVfs n)).map (· + 1) else []
    let s := (s.flrBegin n 0).resetVfs n
    let h := s.host n
    let s := s.setHost n { h with cfg := [], flr := h.flr ++ vfs.filter (fun v => !h.flr.contains v) }
    let s := (s.clearPfMsix n).updateIntx n
    if was then s.wake n else s

/-- FLR_PF0. -/
def execFlrPf0 (link : Fin 4) (s : State) : Answer := act s (doFlrPf0 link)

/-- A Function Level Reset finishes; a VF's raises a PF0 event (R275, R283). -/
def doFlrEnd (n fn : Nat) (s : State) : State :=
  if !(s.host n).flr.contains fn then s
  else
    let s := s.setHost n { s.host n with flr := (s.host n).flr.filter (fun x => x != fn) }
    if fn = 0 then s else s.raiseEvent 3

/-- FLR_END. -/
def execFlrEnd (link : Fin 4) (fn : Nat) (s : State) : Answer := act s (doFlrEnd link fn)

/-! ## Configuration space (R261 to R268, R279) -/

/-- A function exists on a link (R261). -/
def State.fnExists (s : State) (n fn : Nat) : Bool := fn == 0 || (s.vfEnable n && decide (fn ≤ s.numVfs n))

/-- The status half of a lane's margining word (R260, log 7): a Report Margin Control Capabilities command is answered with the voltage,
up and down, and left and right capabilities; whether the sampler is independent, and what it reports, is free (log 142). -/
def marginStatus (w : Nat) : Nat :=
  if bits w 5 3 = 1 ∧ bits w 15 8 = 0x88 then bits w 2 0 + 1 <<< 3 + (7 + 8 * Config.marginSampler.toNat) <<< 8 else 0

/-- What a configuration dword reads as: the values that the device computes, over those stored. -/
def State.cfgView (s : State) (n fn off : Nat) : Nat :=
  let w := s.cfg n fn off
  if off = 0x04 ∧ fn = 0 then w ||| (if s.eventsUnmasked n != 0 then 1 <<< 19 else 0)
  else if off = 0x54 then (if fn = 0 then Reg.pfMsixAddr n 0 else 0x3000)
  else if off = 0x58 then (if fn = 0 then Reg.pfPba n 0 else 0x3800)
  else if off = 0x80 then w % 65536 + (s.get (Reg.hostStat n) Fld.hostStatSpeed + 16 * s.get (Reg.hostStat n) Fld.hostStatWidth) <<< 16
  else if 0x2C8 ≤ off ∧ off < 0x300 ∧ fn = 0 then w % 65536 + marginStatus w <<< 16
  else if off = 0x1E4 ∧ fn = 0 then s.fuse.serial.toNat % 2 ^ 32
  else if off = 0x1E8 ∧ fn = 0 then s.fuse.serial.toNat >>> 32
  else w

/-- The low bits of a BAR that its size fixes. -/
def barMask (size : Nat) (high : Bool) : Nat :=
  if high then 0xFFFFFFFF - (size >>> 32 - 1) else if 2 ^ 32 ≤ size then 0 else 2 ^ 32 - size

/-- The bits of a configuration dword that a write stores (PRESUMED, log 7): the standard's, for the parts of R260. -/
def State.cfgMask (s : State) (n fn off : Nat) : Nat :=
  let pf := fn == 0
  let bar2 := 2 ^ (20 + bits (s.cfg n 0 0x1A8) 13 8)
  let vfBar2 := 2 ^ (20 + bits (s.cfg n 0 0x1C8) 13 8)
  if off = 0x04 then (if pf then 0x546 else 0x4)
  else if off = 0x50 then 0xC0000000
  else if off = 0x78 then 0x7FFF
  else if off = 0x80 then 0xFF
  else if off = 0x98 then 0x135F
  else if off = 0x108 ∨ off = 0x10C then 0x07FFF030
  else if off = 0x114 then 0xF1C1
  else if off = 0x118 then 0x140
  else if !pf then 0
  else if off = 0x0C then 0xFF
  else if off = 0x10 then 0xF0000000
  else if off = 0x14 then 0xFFFFFFFF
  else if off = 0x18 then barMask bar2 false
  else if off = 0x1C then barMask bar2 true
  else if off = 0x3C then 0xFF
  else if 0x2C8 ≤ off ∧ off < 0x300 then 0xFF7F
  else if off = 0x154 then 0x4C0000
  else if off = 0x168 then 0x19
  else if off = 0x170 then (if s.vfEnable n then 0 else 0xFFFF)
  else if off = 0x180 then 0x1F
  else if off = 0x184 then 0xFFFF0000
  else if off = 0x188 then 0xFFFFFFFF
  else if off = 0x18C then barMask vfBar2 false
  else if off = 0x190 then barMask vfBar2 true
  else 0

/-- The bits of a configuration dword that a write of one clears: the AER statuses. -/
def cfgW1c (off : Nat) : Nat := if off = 0x104 then 0x07FFF030 else if off = 0x110 then 0xF1C1 else 0

/-- A BAR size change (R268): stored only while Memory Space Enable of the function is clear, and only a size that is
supported (R265). -/
def State.resizeBar (s : State) (n off size : Nat) : State :=
  let ok := if off = 0x1A8 then !s.mse n 0 && decide (10 ≤ size ∧ size ≤ 16) else !s.mse n 1 && decide (size ≤ 10)
  if ok then s.setCfg n 0 off (s.cfg n 0 off % 256 + size <<< 8) else s

/-- What follows a configuration write: VFs that go away reset, AtomicOps no longer enabled end, pending messages and requests leave. -/
def State.afterCfg (s : State) (n off : Nat) (vfs : Bool) : State :=
  if off = 0x168 ∧ vfs ∧ !s.vfEnable n then s.resetVfs n
  else if off = 0x98 then (s.refuseAtomics n).goOn
  else if off = 0x04 ∨ off = 0x50 then ((s.pumpDma n).updateIntx n).flushVectors n
  else s

/-- The dword that a write of `size` bytes at `off` forms over the one stored. -/
def mergeDword (old off size : Nat) (v : BitVec 32) : Nat :=
  let lo := 8 * (off % 4)
  let m := (2 ^ (8 * size) - 1) <<< lo % 2 ^ 32
  (old &&& (2 ^ 32 - 1 - m)) ||| (v.toNat <<< lo &&& m)

/-- A configuration write. Initiate Function Level Reset and the power state act as their commands do. -/
def State.cfgWrite (s : State) (n fn off size : Nat) (v : BitVec 32) : State :=
  let d := off / 4 * 4
  let old := s.cfg n fn d
  let new := mergeDword old off size v
  let here := mergeDword 0 off size v
  if d = 0x78 ∧ bit here 15 then (if fn = 0 then doFlrPf0 n s else doFlrVf n fn s)
  else if d = 0x44 ∧ fn = 0 then (if new % 4 = 3 then doD3hot n s else if new % 4 = 0 then doD0 n s else s)
  else if (d = 0x1A8 ∨ d = 0x1C8) ∧ fn = 0 then s.resizeBar n d (bits new 13 8)
  else
    let m := s.cfgMask n fn d
    let w := (old &&& (2 ^ 32 - 1 - m)) ||| (new &&& m)
    let w := w &&& (2 ^ 32 - 1 - (here &&& cfgW1c d))
    (s.setCfg n fn d w).afterCfg n d (s.vfEnable n)

/-- A configuration request is answered by the always-on section, whatever the rest of the device does (R279). A function
that does not exist is an Unsupported Request. -/
def doConfig (n fn : Nat) (req : CfgReq) (s : State) : State :=
  if !s.linkUp n then s
  else if !s.fnExists n fn then s.emit (.cpl n .ur [])
  else
    match req with
    | .read off => s.emit (.cfgCpl n (s.cfgView n fn (off / 4 * 4)))
    | .write off size v => (s.cfgWrite n fn off size v).emit (.cpl n .ok [])

/-- CONFIG_REQUEST. -/
def execConfigRequest (link : Fin 4) (fn : Nat) (req : CfgReq) (s : State) : Answer := act s (doConfig link fn req)

/-! ## Memory requests (R267, R278, R280, R352) -/

/-- A host read that its block has not answered for 50 µs completes with Completer Abort (R280). -/
def State.readAborted (s : State) (f : Func) : State :=
  ((((s.bump (Reg.hostErr f.link) Fld.hostErrMmioBad 1).aer f aerAbort).postZero (hostSrc f.link 9)).emit (.cpl f.link .ca []))

/-- READ_TIMEOUT, logged by the function addressed (R278). -/
def execReadTimeout (link : Fin 4) (fn : Nat) (s : State) : Answer :=
  act s (fun s => if s.linkUp link && s.fnExists link fn then s.readAborted ⟨link, fn⟩ else s)

/-- A memory access that touches forbidden bytes: Unsupported Request, a write discarded whole. -/
def State.forbidden (s : State) (f : Func) (read : Bool) : State :=
  let s := (s.aer f aerUr).postZero (hostSrc f.link 1)
  if read then s.emit (.cpl f.link .ur []) else s

/-- An access through PF0 BAR2. What cannot be served (before an apply, in the safe state, on a fenced tile) is a read
that no block answers and a write that is lost; PF0 in D3hot refuses every memory request (R285), and an AtomicOp is always one that is
not supported (R383). -/
def doBar2 (n : Nat) (acc : BarAccess) (s : State) : State :=
  let (off, len, read) := barSpan acc
  let a := 2 ^ 30 * s.get (Reg.dmemMap n) Fld.dmemMapBaseGib + off
  if !s.linkUp n then s
  else
    let s := s.count ⟨0x602, some n, none, none, none, some true, 1⟩
    if s.d3hot n then (if read then s.emit (.cpl n .ur []) else s)
    else if !s.mse n 0 || decide (2 ^ (20 + bits (s.cfg n 0 0x1A8) 13 8) < off + len) then s.forbidden ⟨n, 0⟩ read
    else if !s.structured || s.safe || s.isFenced (.basil n) then (if read then s.readAborted ⟨n, 0⟩ else s)
    else if hbmSize < a + len ∨ s.touchesRsv a len then
      (s.bump (Reg.hostErr n) Fld.hostErrMmioBad 1).forbidden ⟨n, 0⟩ read
    else if s.spanShut a len then (if read then s.readAborted ⟨n, 0⟩ else s)
    else
      match acc.req with
      | .read _ =>
        match s.devRead a len with
        | (some data, s) => s.emit (.cpl n .ok data)
        | (none, s) => s.emit (.cpl n .ca [])
      | .write data =>
        match (linesOf a len).find? (fun l => s.rma.armed.contains l) with
        | some l => s.post (525 + 2 * sliceOf (64 * l)) 59 0 (off % 2 ^ 48 + 1 <<< 48)
        | none => s.devWrite a data
      | .atomic _ => s.forbidden ⟨n, 0⟩ true

/-- PF0_BAR2_ACCESS. -/
def execPf0Bar2Access (link : Fin 4) (acc : BarAccess) (s : State) : Answer := act s (doBar2 link acc)

/-- A host access through VF BAR2, the near-ring window of the instance bound to the VF (R29, R265, R269, R278). A VF with no bound
instance reads all ones and discards writes, with an event. Beyond the instance's pages, or with Memory Space Enable clear, nothing is
mapped. What cannot be served is a read that no block answers (R280) and a write that is lost; a hub that refuses transfers takes nothing
(R17). -/
def doNearRingWrite (n vf : Nat) (acc : BarAccess) (s : State) : State :=
  let (off, len, read) := barSpan acc
  let lost (s : State) : State := if read then s.readAborted ⟨n, vf⟩ else s
  if !s.linkUp n then s
  else
    let s := s.count ⟨0x602, some n, s.boundInst n vf, none, none, some false, 1⟩
    if s.d3hot n then (if read then s.emit (.cpl n .ur []) else s)
    else if !s.fnExists n vf then s.forbidden ⟨n, 0⟩ read
    else if !s.mse n vf then s.forbidden ⟨n, vf⟩ read
    else if s.safe || s.isFenced (.basil n) then lost s
    else
      match s.boundInst n vf with
      | none =>
        let s := (s.bump (Reg.hostErr n) Fld.hostErrMmioBad 1).post (304 + 24 * n + 1) 59 0 (off % 2 ^ 48 + 3 <<< 48)
        if read then s.emit (.cpl n .ok (List.replicate len 0xFF)) else s
      | some i =>
        if 65536 * (s.inst i).nr64k < off + len ∨ s.vfBar2 n < off + len then s.forbidden ⟨n, vf⟩ read
        else if s.islandShut (hubIsland (s.instHub i)) then lost s
        else
          match acc.req with
          | .read _ => s.emit (.cpl n .ok (s.nearRead i off len))
          | .write data => s.nearWrite i off data
          | .atomic _ => s.forbidden ⟨n, vf⟩ true

/-- NEAR_RING_WRITE. -/
def execNearRingWrite (link : Fin 4) (vf : Nat) (off : Nat) (req : BarReq) (s : State) : Answer := act s (doNearRingWrite link vf ⟨off, req⟩)

end Sys2Proof.Machine
end

