-- ==== Sys2Proof/Machine/Contain.lean ====
section
/-! DEFINITION. Contain: the contain and safe-state reactions: units fenced, engines replaced from their spares, pages
retired, the takeover of the supervisor (R500, R501, R507, R513, R514). -/

namespace Sys2Proof.Machine

/-! ## Records (R492, R515) -/

/-- The timestamp of Chervil, in steps of 5 ns since cold reset. -/
def State.stampNow (s : State) : Nat := s.now / 5 * 5

/-- The two words of a message's record (R492, R520). -/
def recWords (m : CodedMsg) (t : Nat) : Nat × Nat :=
  (m.addr.toNat + m.kind.toNat <<< 52 + m.cls.val <<< 58, t % 2 ^ 48 + m.src.val <<< 48)

/-- A record is added to the Bay fault log, over the oldest when it is full (R515). -/
def State.flogAdd (s : State) (m : CodedMsg) : State :=
  let i := s.get Reg.flogIdx Fld.flogIdxNext
  let (w0, w1) := recWords m s.stampNow
  let s := if s.word (Reg.flog0 i) = 0 then s else s.put Reg.flogIdx Fld.flogIdxWrapped 1
  ((s.setWord (Reg.flog0 i) (BitVec.ofNat 64 (w0 + 2 ^ 63))).setWord (Reg.flog1 i) (BitVec.ofNat 64 w1)).put
    Reg.flogIdx Fld.flogIdxNext ((i + 1) % 256)

/-! ## The safe state (R501, R502, R576) -/

/-- A link has trained. -/
def State.upLinks (s : State) : List Nat := (List.range 4).filter (fun n => s.linkUp n)

/-- The safe state is held from here until a reset (R501, R553). -/
def State.latchSafe (s : State) : State := { s with flt := { s.flt with safeLatched := true } }

/-- A source forces the safe state while it is held (R505): of two that do so in the same cycle, `safe_src` names the lower. -/
def State.sameCycle (s : State) (cause src : Nat) : State :=
  if cause = 1 ∧ s.get Reg.faultStat Fld.faultStatSafeCause = 1 ∧ s.now = s.flt.safeAt then
    s.put Reg.faultStat Fld.faultStatSafeSrc (min src (s.get Reg.faultStat Fld.faultStatSafeSrc))
  else s

/-- PF0 of a link reports an internal error through AER, with its message from the tile's source of reports (R278); the message is of class
1, which no reaction contains, so that it causes no further report (log 143). -/
def State.internalError (s : State) (n err : Nat) : State := (s.aer ⟨n, 0⟩ err).postFree (hostSrc n 1) 0 1

/-- The device enters the safe state: the cause is latched, the transmitters go idle, DMA is refused, held arrivals are
flushed, and packets in the device are lost. -/
def State.enterSafe (s : State) (cause src : Nat) : State :=
  if s.safe then s.sameCycle cause src
  else
    let s := { s.latchSafe with flt := { s.latchSafe.flt with safeAt := s.now } }
    let s := (s.put Reg.imgStatus Fld.imgStatusSafe 1).put Reg.faultStat Fld.faultStatSafeCause cause
    let s := s.put Reg.faultStat Fld.faultStatSafeSrc src
    let s := s.upLinks.foldl (fun s n => s.internalError n aerInternal) s
    let s := allPorts.foldl (fun s p => s.tryOff p) s
    let s := { s with wait := [], outs := [], xp := { s.xp with inbound := [] } }
    (s.flushHeld (fun _ => true)).latchSafe

/-- A safe state that no source forces: the Bay island writes the record of its cause itself (R576). -/
def State.enterSafeBy (s : State) (cause src addr : Nat) (h : src < 640) : State :=
  if s.safe then s
  else (s.flogAdd ⟨⟨src, h⟩, 0, 3, BitVec.ofNat 52 addr⟩).enterSafe cause 0

/-! ## Fenced tiles and endpoints (R17, R174, R500) -/

/-- Fence a unit. -/
def State.addFence (s : State) (u : FUnit) : State := { s with fenced := s.fenced ++ [u] }

/-- The logical ports of the slots that a physical tile serves. -/
def State.portsOfTile (s : State) (n : Nat) : List Nat := allPorts.filter (fun p => s.portTile p == n)

/-- A port tile is fenced: its ports go to OFF, its contents are discarded, and a drain of its slot is over (R512). -/
def State.fenceTile (s : State) (n : Nat) : State :=
  let s := s.addFence (.tile n)
  let s := (s.portsOfTile n).foldl (fun s p => s.tryOff p) s
  let s := { s with wait := s.wait.filter (fun w => w.inPort.isNone || w.ep != n) }
  let s := s.fenceEndpoint n
  if s.flag Reg.repair Fld.repairDrain && s.tileOf (s.get Reg.repair Fld.repairSlot) == n then
    { s.put Reg.repair Fld.repairDrained 1 with flt := { s.flt with drainWait := false } }
  else s

/-- A Basil tile is fenced: it acts as lost while its link stays trained. -/
def State.fenceBasil (s : State) (n : Nat) : State :=
  let s := s.addFence (.basil n)
  (if s.linkUp n then s.cutOff n else s).fenceEndpoint (19 + n)

/-- A hub is fenced: nothing enters or leaves the exchange there. -/
def State.fenceHub (s : State) (h : Nat) : State :=
  let s := (s.addFence (.hub h)).fenceEndpoint (23 + h)
  { s with wait := s.wait.filter (fun w => w.ep != 23 + h)
           xp := { s.xp with inbound := s.xp.inbound.filter (fun e => e.1 != h) } }

/-! ## Engines and cores (R471, R513) -/

/-- The logical number that a physical unit serves. -/
def State.logicalOf (s : State) (kind phys : Nat) : Option Nat :=
  let n := if kind = 1 then 16 else if kind = 2 then 32 else if kind = 3 then 16 else 64
  (List.range n).find? (fun u => s.physUnit kind u == phys)

/-- The work of a remote access engine that goes out of service: its jobs end with status 38, and accepted packets not yet
placed are answered with reason 8. -/
def State.raeLost (s : State) (e : Nat) : State :=
  let mine (x : OpSt) : Bool := x.engine == e && !x.done && x.kind != .recv && x.kind != .coll
  let jobs := s.rma.ops.filter (fun o => mine o.2 && o.2.kind != .serveGet && o.2.kind != .pull)
  let s := jobs.foldl (fun s o => (s.cancelAcquire o.2).finishOp o.1 38) s
  let gets := s.rma.ops.filter (fun o => mine o.2 && (o.2.kind == .serveGet || o.2.kind == .pull))
  let s := gets.foldl (fun s o => s.serveFail o.1 8) s
  let s := (s.xp.placing.filter (fun pl => s.servingEngine pl.pkt == e)).foldl (fun s pl => s.placeFail pl 8) s
  let s := (s.xp.recs.filter (fun r => s.servingEngine r.2.first == e)).foldl (fun s r =>
    match r.2.held with
    | some p => (s.sendNcomp p 8).failRec p
    | none => s) s
  s.goOn

/-- The contexts pinned to a Dill engine. -/
def State.pinnedTo (s : State) (u : Nat) : List Nat :=
  (s.mt.ctx.map (fun e => e.1)).filter (fun d =>
    s.flag (Reg.ctxCfg d) Fld.ctxCfgPinned && s.get (Reg.ctxCfg d) Fld.ctxCfgEngine == u)

/-- The lines of a context's record (R407): 256 bytes of the coherent region, which begins with the records (log 144). -/
def State.ctxLines (s : State) (d : Nat) : List Nat :=
  linesOf (s.get Reg.cohRegion Fld.cohRegionBaseGib * 2 ^ 30 + 256 * d) 256

/-- A Dill engine is out of service: its cached lines come home or are poisoned, and a context with a poisoned line is reset (R471,
R513). -/
def State.dillLost (s : State) (u : Nat) (phys : Fin 34) : State :=
  let s := s.agentFenced (.dill phys)
  ((s.pinnedTo u).filter (fun d => (s.ctxLines d).any (fun l => s.poisonedLine l))).foldl (fun s d => doCtxReset d s) s

/-- The work of a unit that goes out of service, by kind. -/
def State.workLost (s : State) (kind u phys : Nat) : State :=
  match kind with
  | 1 => s.raeLost u
  | 2 => if h : phys < 34 then s.dillLost u ⟨phys, h⟩ else s
  | 3 =>
    let s := (s.colls.colls.filter (fun x => s.commEngine x.comm == u)).foldl (fun s x => s.failColl x 38 s.fid) s
    if h : phys < 17 then s.agentFenced (.fennel ⟨phys, h⟩) else s
  | _ =>
    let s := s.handlerEnd phys 6
    if h : phys < 68 then s.agentFenced (.core ⟨phys, h⟩) else s

/-- The spare entries that may replace a unit, in order (R44): a Sorrel core takes its own cluster's first. -/
def spareOrder (kind u : Nat) : List Nat :=
  if kind = 1 then [0] else if kind = 2 then [1, 2] else if kind = 3 then [3] else [4 + u / 16, 4, 5, 6, 7]

/-- The first spare entry that is left and not fenced. -/
def State.spareFor (s : State) (kind u : Nat) : Option Nat :=
  (spareOrder kind u).find? (fun k => s.spares.getD k 0xFF != 0xFF && !s.isFenced (unitOf kind (s.spares.getD k 0xFF)))

/-- A replacement begins: the old unit is fenced, and its work ends. -/
def State.startSpare (s : State) (kind u : Nat) : State :=
  let phys := s.physUnit kind u
  let s := (s.put Reg.spare Fld.spareBusy 1).put Reg.spare Fld.spareSerr 0
  let s := { s with flt := { s.flt with spareOp := some (kind, u, phys) } }
  if s.isFenced (unitOf kind phys) then s else (s.workLost kind u phys).addFence (unitOf kind phys)

/-- Where no spare is left, the work of a unit goes on elsewhere: rings to the other engines of the hub, contexts to other
Dill engines; collectives and handlers find theirs by themselves. -/
def State.spreadWork (s : State) (kind u : Nat) : State :=
  if kind = 1 then
    let hub := u / 4
    match ((List.range 4).map (fun k => 4 * hub + k)).find? (fun e => !s.isFenced (.rae (s.rae e))) with
    | some e => { s with sqs := s.sqs.map (fun q => (q.1, if q.2.engine = some u then { q.2 with engine := some e } else q.2)) }
    | none => s
  else if kind = 2 then
    (s.pinnedTo u).foldl (fun s d => (s.put (Reg.ctxCfg d) Fld.ctxCfgPinned 0).pin d (s.ctxInst d)) s
  else s

/-- The offset of a kind in the engine numbering. -/
def kindBase (kind : Nat) : Nat := if kind = 1 then 0 else if kind = 2 then 16 else if kind = 3 then 48 else 64

/-- A replacement ends: the spare takes the logical number, and its entry is used up; or none is left. -/
def State.finishSpare (s : State) : State :=
  match s.flt.spareOp with
  | none => s
  | some (kind, u, old) =>
    let s := { s with flt := { s.flt with spareOp := none } }.put Reg.spare Fld.spareBusy 0
    match s.spareFor kind u with
    | some k =>
      let new := s.spares.getD k 0xFF
      { s with
        engMap := setIdx s.engMap (kindBase kind + u) new
        spareMap := some (setIdx s.spares k 0xFF)
        fenced := s.fenced.filter (fun f => f != unitOf kind old) }.put Reg.spare Fld.spareSerr 0
    | none => (s.spreadWork kind u).put Reg.spare Fld.spareSerr 1

/-- An engine or core is contained: fenced, and with `auto_spare` replaced. A second replacement does not wait for one in
progress. -/
def State.containUnit (s : State) (kind phys : Nat) : State :=
  match s.logicalOf kind phys with
  | none => s.addFence (unitOf kind phys)
  | some u =>
    if s.flag Reg.faultCtrl Fld.faultCtrlAutoSpare then
      match s.flt.spareOp with
      | none => s.startSpare kind u
      | some op =>
        let s := (s.startSpare kind u).finishSpare
        { s with flt := { s.flt with spareOp := some op } }.put Reg.spare Fld.spareBusy 1
    else (s.workLost kind u phys).addFence (unitOf kind phys)

/-! ## Pages (R471, R514) -/

/-- Poison a line. -/
def State.poison (s : State) (line : Nat) : State :=
  if s.rma.poisoned.contains line then s else { s with rma := { s.rma with poisoned := s.rma.poisoned ++ [line] } }

/-- Begin to retire a page of stack `n`, unless it is retired or being so; a full table reports it. -/
def State.retirePage (s : State) (n page : Nat) : State :=
  let done := Table.getD s.flt.retired [] n
  let now := Table.getD s.flt.retiring [] n
  if done.contains page || now.contains page then s
  else if 64 ≤ done.length + now.length then s.postFree (572 + 8 * n + 6) 0 2
  else { s with flt := { s.flt with retiring := Table.put s.flt.retiring n (now ++ [page]) } }.put
    (Reg.hbmRetire n) Fld.hbmRetireBusy 1

/-- A corrected error of a page: the second within 2^20 us retires it; the 64 pages most recently corrected are tracked. -/
def State.corrected (s : State) (n page : Nat) : State :=
  let hit := s.flt.corrected.any (fun e => e.1 == page && decide (s.now - e.2 ≤ 2 ^ 20 * 1000))
  let l := newest 64 (s.flt.corrected.filter (fun e => e.1 != page) ++ [(page, s.now)])
  let s := { s with flt := { s.flt with corrected := l } }
  if hit then s.retirePage n page else s

/-! ## The supervisor (R507, R508, R509) -/

/-- The active core. -/
def State.sageActive (s : State) : Nat := s.get Reg.sageStat Fld.sageStatActive

/-- A core is active: it is not fenced, and no takeover runs. -/
def State.sageUp (s : State) : Bool :=
  !s.isFenced (.sage s.sageActive) && !s.flag Reg.sageStat Fld.sageStatTakeover

/-- The active core fails: it is fenced, and the standby takes over; with none, source 627 reports that no core is active. -/
def State.takeover (s : State) : State :=
  if !s.sageUp then s
  else
    let s := s.addFence (.sage s.sageActive)
    let s := { s with flt := { s.flt with sage := { s.flt.sage with loading := false } } }
    if s.flag Reg.sageStat Fld.sageStatStandbyOk then
      (s.put Reg.sageStat Fld.sageStatTakeover 1).put Reg.sageStat Fld.sageStatStandbyOk 0
    else s.postFree 627 0 2

/-- A Sage core is contained: the active one by takeover, the standby by its fence. -/
def State.containSage (s : State) (c : Nat) : State :=
  if s.sageActive = c then s.takeover
  else (s.addFence (.sage c)).put Reg.sageStat Fld.sageStatStandbyOk 0

/-! ## What contain acts on (R495, R500) -/

/-- The unit that contain fences for a source, where it is a unit. -/
def srcUnit (src : Nat) (addr : Nat) : Option FUnit :=
  if src < 304 then some (.tile (src / 16))
  else if src < 400 then
    let n := (src - 304) / 24; let j := (src - 304) % 24
    if j < 16 then some (.basil n) else if j < 20 then some (.rae (4 * n + (j - 16)))
    else if src = 372 then some (.rae 16) else none
  else if src < 434 then some (.dill (src - 400))
  else if src < 436 then none
  else if src < 453 then some (.fennel (src - 436))
  else if src < 456 then none
  else if src < 524 then some (.core (src - 456))
  else if 604 ≤ src ∧ src < 620 then (if addr % 32 < 27 then some (epUnit (addr % 32)) else none)
  else if src = 620 then some (.sage 0)
  else if src = 621 then some (.sage 1)
  else none

/-- Fence a unit that is not fenced already (R505). -/
def State.fenceUnit (s : State) (u : FUnit) : State :=
  if s.isFenced u then s
  else
    match u with
    | .tile n => s.fenceTile n
    | .basil n => s.fenceBasil n
    | .hub h => s.fenceHub h
    | .rae e => s.containUnit 1 e
    | .dill e => s.containUnit 2 e
    | .fennel e => s.containUnit 3 e
    | .core c => s.containUnit 4 c
    | .sage c => s.containSage c

/-- The context that holds the address of a matching source: a context record's register, or the pool entry of an index. -/
def State.ctxAt (s : State) (src addr : Nat) : Option Nat :=
  if src = 434 then
    (if Reg.ctxCfg 0 ≤ addr ∧ addr < Reg.ctxCfg 65536 then some ((addr - Reg.ctxCfg 0) / (Reg.ctxCfg 1 - Reg.ctxCfg 0)) else none)
  else (s.mt.ctx.find? (fun e => e.2.posted.any (fun r => r.index == addr) || e.2.unexp.any (fun u => u.index == addr))).map
    (fun e => e.1)

/-- The contain reaction (R495): the unit, context, communicator, line, instance or page that the source names. -/
def State.contain (s : State) (src addr : Nat) : State :=
  match srcUnit src addr with
  | some u => s.fenceUnit u
  | none =>
    if src = 434 ∨ src = 435 then
      match s.ctxAt src addr with
      | some d => doCtxReset d s
      | none => s
    else if 453 ≤ src ∧ src < 456 then s.abortComm (addr % 4096)
    else if 524 ≤ src ∧ src < 556 then s.poison (addr / 64)
    else if 556 ≤ src ∧ src < 572 then s.containInst (256 * (src - 556) + addr % 256)
    else if 572 ≤ src ∧ src < 604 ∧ (src - 572) % 8 < 4 then s.retirePage ((src - 572) / 8) (addr / 4096)
    else s

end Sys2Proof.Machine
end

