-- ==== Sys2Proof/Machine/Chervil.lean ====
section
/-! DEFINITION. Chervil: coded messages received, classified and reacted to, and the registers of the sources (R492 to R505,
R515 to R520). -/

namespace Sys2Proof.Machine

/-! ## Receiving (R493, R503) -/

/-- A class 0 message goes to the information queue, over the oldest record when it is full. -/
def State.infoAdd (s : State) (m : CodedMsg) : State :=
  let head := s.get Reg.infoHead Fld.infoHeadHead
  let n := s.get Reg.faultStat Fld.faultStatInfoCount
  let i := (head + n) % 256
  let (w0, w1) := recWords m s.stampNow
  let s := (s.setWord (Reg.info0 i) (BitVec.ofNat 64 w0)).setWord (Reg.info1 i) (BitVec.ofNat 64 w1)
  if n < 256 then s.put Reg.faultStat Fld.faultStatInfoCount (n + 1)
  else (s.put Reg.infoHead Fld.infoHeadHead ((head + 1) % 256)).put Reg.faultStat Fld.faultStatInfoWrap 1

/-- A message of class 1 or above is written into its source's record where that is free, or is lost; either way it is
counted in `total`. -/
def State.record (s : State) (m : CodedMsg) : State :=
  let a := Reg.rec0 m.src.val
  let s := s.bump (Reg.srcStat m.src.val) Fld.srcStatTotal 1
  if s.flag a Fld.rec0Valid then s.put a Fld.rec0Overrun 1
  else
    let (w0, w1) := recWords m s.stampNow
    let full := s.get a Fld.rec0Overrun
    ((s.setWord a (BitVec.ofNat 64 (w0 + 2 ^ 63))).put a Fld.rec0Overrun full).setWord (Reg.rec1 m.src.val) (BitVec.ofNat 64 w1)

/-- The kinds whose cause persists (R504): 5 to 7 in the groups that use them, tile kinds 12 and 13, the thermal trip
and supply faults. -/
def persists (m : CodedMsg) : Bool :=
  let src := m.src.val; let k := m.kind.toNat
  if src < 304 then decide (8 ≤ src % 16 ∧ (k = 12 ∨ k = 13))
  else if 556 ≤ src ∧ src < 572 then false
  else decide (5 ≤ k ∧ k ≤ 7) || decide (k = 0 ∧ (src = 632 ∨ src = 628 ∨ src = 629))

/-- The cause of a message persists from here on. -/
def State.holdActive (s : State) (m : CodedMsg) : State :=
  if persists m then
    { s with flt := { s.flt with ownActive := s.flt.ownActive.filter (fun x => x.src != m.src) ++ [m] } }
  else s

/-- The cause of a source's message is gone. -/
def State.dropActive (s : State) (src : Nat) : State :=
  { s with flt := { s.flt with ownActive := s.flt.ownActive.filter (fun x => x.src.val != src) } }

/-- What the HBM controllers do with the errors of their data, whatever the reaction (R514). -/
def State.hbmError (s : State) (m : CodedMsg) : State :=
  let src := m.src.val
  if 572 ≤ src ∧ src < 604 ∧ (src - 572) % 8 < 4 then
    let n := (src - 572) / 8; let a := m.addr.toNat
    if m.kind = 1 then (s.count ⟨0xC02, some n, none, some a, none, none, 1⟩).corrected n (a / 4096)
    else if m.kind = 2 ∧ m.cls = 2 then s.retirePage n (a / 4096)
    else s
  else s

/-! ## Classification and reaction (R497 to R500) -/

/-- A reaction, with every lower one (R500): a copy in the Bay fault log and a PF0 event; the unit fenced; the safe state.
An error contained, and a fatal one, is reported through AER (R278). -/
def State.react (s : State) (m : CodedMsg) (r : Nat) : State :=
  let r := if m.kind = 63 then min r (s.get Reg.faultCtrl Fld.faultCtrlForceCap) else r
  if r = 0 then s
  else
    let s := (s.flogAdd m).raiseEvent 16
    let s := if r < 2 then s
      else
        let s := s.contain m.src.val m.addr.toNat
        if m.cls = 2 then
          (s.upLinks.filter (fun n => s.flag (Reg.hostCtrl n) Fld.hostCtrlPfEvents)).foldl (fun s n => s.internalError n aerCorrected) s
        else s
    if r = 3 then s.enterSafe 1 m.src.val
    else if m.cls = 3 ∧ m.kind ≠ 63 then s.upLinks.foldl (fun s n => s.internalError n aerInternal) s
    else s

/-- A counting source (R497): it counts within its window, and becomes severe at `thresh` or at once for a fatal message. -/
def State.classifyCount (s : State) (m : CodedMsg) : State :=
  let src := m.src.val; let a := Reg.srcStat src; let c := Reg.srcCfg src
  if s.get a Fld.srcStatSev = 0 then
    let s := s.bump a Fld.srcStatCount 1
    let s := if s.flt.windowOpen.contains src then s
      else { s with flt := { s.flt with windowOpen := s.flt.windowOpen ++ [src] } }
    if m.cls = 3 ∨ s.get c Fld.srcCfgThresh ≤ s.get a Fld.srcStatCount then
      (s.put a Fld.srcStatSev 1).react m (s.get c Fld.srcCfgReactC1)
    else s
  else s

/-- A severity source (R498): a class above `sev` raises it and takes that class's reaction. -/
def State.classifySev (s : State) (m : CodedMsg) : State :=
  let src := m.src.val; let a := Reg.srcStat src; let c := Reg.srcCfg src
  if s.get a Fld.srcStatSev < m.cls.val then
    let r := s.get c (if m.cls = 1 then Fld.srcCfgReactC1 else if m.cls = 2 then Fld.srcCfgReactC2 else Fld.srcCfgReactC3)
    (s.put a Fld.srcStatSev m.cls.val).react m r
  else s

/-- Chervil receives a message. -/
def State.receive (s : State) (m : CodedMsg) : State :=
  if m.cls = 0 then s.infoAdd m
  else
    let s := (s.record m).holdActive m
    let s := if s.flag (Reg.srcCfg m.src.val) Fld.srcCfgCounting then s.classifyCount m else s.classifySev m
    s.hbmError m

/-- CODED_MESSAGE: a message that the model itself has posted leaves the fault network. -/
def doCodedMessage (m : CodedMsg) (s : State) : State :=
  ({ s with flt := { s.flt with net := s.flt.net.erase m } }).receive m

/-- What happens while no command waits (DESIGN CHOICE, log 14): the oldest message on the fault network reaches Chervil, and with
none on its way one cycle of the 200 MHz Bay clock passes, which counter event 0x001 counts in ns. -/
def State.idle (s : State) : State :=
  match s.flt.net with
  | m :: _ => doCodedMessage m s
  | [] => ({ s with now := s.now + 5 } : State).count ⟨0x001, none, none, none, none, none, 5⟩

/-- CODED_MESSAGE. -/
def execCodedMessage (m : CodedMsg) (s : State) : Answer := act s (doCodedMessage m)

/-- The window of a counting source ends while `sev` is 0: `count` returns to 0 (R497). -/
def doCountWindowEnd (src : Nat) (s : State) : State :=
  if s.flt.windowOpen.contains src then
    let s := { s with flt := { s.flt with windowOpen := s.flt.windowOpen.filter (fun x => x != src) } }
    if s.get (Reg.srcStat src) Fld.srcStatSev = 0 then s.put (Reg.srcStat src) Fld.srcStatCount 0 else s
  else s

/-- COUNT_WINDOW_END. -/
def execCountWindowEnd (src : Fin 640) (s : State) : Answer := act s (doCountWindowEnd src)

/-! ## The registers of a source (R499, R503, R504, R520) -/

/-- FORCE: a message of kind 63 in class `force_class`. -/
def execForce (src : Fin 640) (s : State) : Answer :=
  act s (fun s => s.post src 63 (s.get (Reg.srcCfg src) Fld.srcCfgForceClass) 0)

/-- A fenced unit shows on a source that names it (R504). -/
def State.srcFenced (s : State) (src : Nat) : Bool :=
  if 604 ≤ src ∧ src < 618 then s.epFenced (2 * (src - 604)) || (decide (2 * (src - 604) + 1 < 27) && s.epFenced (2 * (src - 604) + 1))
  else if 618 ≤ src ∧ src < 620 then false
  else match srcUnit src 0 with
    | some u => s.isFenced u
    | none => false

/-- `active` of a source: its cause persists, or its unit is fenced (R504). -/
def State.srcActive (s : State) (src : Nat) : Bool := s.flt.ownActive.any (fun m => m.src.val == src) || s.srcFenced src

/-- SEV_CLR: `sev` and `count` are zeroed; a cause that persists posts its message again, unless the fence holds the unit. -/
def doSevClr (src : Nat) (s : State) : State :=
  let a := Reg.srcStat src
  let s := (s.put a Fld.srcStatSev 0).put a Fld.srcStatCount 0
  let s := { s with flt := { s.flt with windowOpen := s.flt.windowOpen.filter (fun x => x != src) } }
  if s.srcFenced src then s
  else
    match s.flt.ownActive.find? (fun m => m.src.val == src) with
    | some m => { s with flt := { s.flt with net := s.flt.net ++ [m] } }
    | none => s

/-- SEV_CLR. -/
def execSevClr (src : Fin 640) (s : State) : Answer := act s (doSevClr src)

/-- RECORD_RELEASE. -/
def execRecordRelease (src : Fin 640) (s : State) : Answer := act s (fun s => s.put (Reg.rec0 src) Fld.rec0Valid 0)

/-- INFO_HEAD_WRITE: records are consumed; a write that would make the count negative is ignored. -/
def doInfoHead (h : Nat) (s : State) : State :=
  let used := (h + 256 - s.get Reg.infoHead Fld.infoHeadHead) % 256
  let n := s.get Reg.faultStat Fld.faultStatInfoCount
  if n < used then s
  else (s.put Reg.infoHead Fld.infoHeadHead h).put Reg.faultStat Fld.faultStatInfoCount (n - used)

/-- INFO_HEAD_WRITE. -/
def execInfoHeadWrite (head : BitVec 8) (s : State) : Answer := act s (doInfoHead head.toNat)

/-! ## Software safe state and lanes (R501, R516) -/

/-- The confirmation of a destructive write (R516, R557, R569). -/
def confirmed (c : BitVec 16) : Bool := c == 0xA5C3

/-- FORCE_SAFE. -/
def execForceSafe (confirm : BitVec 16) (s : State) : Answer :=
  act s (fun s => if confirmed confirm then s.enterSafeBy 4 639 Reg.bayForce (by decide) else s)

/-- Hold every fabric lane idle, or release the ports to bring-up (R516). -/
def State.forceLanes (s : State) (on : Bool) : State :=
  let s := { s with flt := { s.flt with forcedLanes := on } }.put Reg.bayForce Fld.bayForceLanes (b2n on)
  if on then allPorts.foldl (fun s p => s.tryOff p) s else allPorts.foldl (fun s p => s.tryBringUp p) s

/-- FORCE_LANES. -/
def execForceLanes (confirm : BitVec 16) (on : Bool) (s : State) : Answer :=
  act s (fun s => if confirmed confirm then s.forceLanes on else s)

/-- THERMAL_TRIP: the safe state with cause 3, and the message of source 632, which is classified like any other (R576). -/
def doThermalTrip (sensor : Nat) (s : State) : State := (s.enterSafe 3 632).post 632 0 3 sensor

/-- THERMAL_TRIP. -/
def execThermalTrip (sensor : Fin 64) (s : State) : Answer := act s (doThermalTrip sensor)

end Sys2Proof.Machine
end

