-- ==== Sys2Proof/Machine/Monitor.lean ====
section
/-! DEFINITION. Monitor: counters, freezes, sampling, bandwidth windows, and the sensors of the Bay island (R524 to R541, R547,
R550). -/

namespace Sys2Proof.Machine

/-! ## Counters (R524 to R528, R538) -/

/-- The attributes that an event code carries (R525): its highest unit, where it has one, and whether it has an instance and an
address; none for a code that the catalogue does not have. -/
def evtCarries (code : Nat) : Option (Option Nat × Bool × Bool) :=
  if code = 0x001 then some (none, false, false)
  else if code = 0x100 ∨ code = 0x101 ∨ code = 0x102 ∨ code = 0x103 then some (some 143, false, false)
  else if 0x200 ≤ code ∧ code ≤ 0x202 then some (some 151, false, false)
  else if code = 0x300 ∨ code = 0x301 then some (some 3, true, false)
  else if 0x400 ≤ code ∧ code ≤ 0x406 then some (none, true, false)
  else if 0x500 ≤ code ∧ code ≤ 0x503 then some (some 16, true, true)
  else if code = 0x600 ∨ code = 0x601 then some (some 3, true, true)
  else if code = 0x602 ∨ code = 0x603 then some (some 3, true, false)
  else if 0x700 ≤ code ∧ code ≤ 0x702 then some (none, true, true)
  else if 0x800 ≤ code ∧ code ≤ 0x802 then some (some 33, true, false)
  else if code = 0x900 ∨ code = 0x901 then some (some 16, true, false)
  else if 0xA00 ≤ code ∧ code ≤ 0xA02 then some (some 67, true, false)
  else if 0xB00 ≤ code ∧ code ≤ 0xB02 then some (some 15, false, true)
  else if 0xC00 ≤ code ∧ code ≤ 0xC02 then some (some 3, false, true)
  else none

/-- Another enabled counter shows in the same slot of the same instance. -/
def State.slotTaken (s : State) (k inst slot : Nat) : Bool :=
  s.cntList.any (fun j =>
    let a := Reg.cntSel j
    j != k && s.flag a Fld.cntSelEnable && s.flag a Fld.cntSelTview && s.get a Fld.cntSelInst == inst
      && s.get a Fld.cntSelTslot == slot)

/-- The check of `enable` (R526, R528, R538): 0, or the code of its refusal. -/
def State.cntCheck (s : State) (k : Nat) (v : Word) : Nat :=
  let unit := Fld.cntSelUnit.get v
  let inst := Fld.cntSelInstEn.get v = 1
  match evtCarries (Fld.cntSelEvent.get v) with
  | none => 2
  | some (top, hasInst, hasAddr) =>
    if (unit ≠ 0xFF ∧ top.isNone) ∨ (inst ∧ !hasInst) ∨ (Fld.cntSelAddrEn.get v = 1 ∧ !hasAddr) then 1
    else if unit ≠ 0xFF ∧ top.any (fun t => decide (t < unit)) then 4
    else if Fld.cntSelTview.get v = 1 ∧ (!inst ∨ s.slotTaken k (Fld.cntSelInst.get v) (Fld.cntSelTslot.get v)) then 3
    else 0

/-- A write of CNT_SEL: the count is zeroed and `wrap` cleared, and an enable is checked (R527). -/
def doCntSel (k : Nat) (v : Word) (s : State) : State :=
  let a := Reg.cntSel k
  let v := if Fld.cntSelPriv.get v = 3 then Fld.cntSelPriv.put v 0 else v
  let e := if Fld.cntSelEnable.get v = 1 then s.cntCheck k v else 0
  let v := Fld.cntSelErr.put (Fld.cntSelWrap.put v 0) e
  let v := if e = 0 then v else Fld.cntSelEnable.put v 0
  (s.setWord a (BitVec.ofNat 64 (v.toNat % 2 ^ 56))).setWord (Reg.cntVal k) 0

/-- A write of CNT_SEL that does not carry `enable` (R573): the selection changes and the count is zeroed (R527), `enable` and `err`
stand. -/
def State.cntSelRest (s : State) (k : Nat) (v : Word) : State :=
  (s.setWord (Reg.cntSel k) (BitVec.ofNat 64 ((Fld.cntSelWrap.put v 0).toNat % 2 ^ 56))).setWord (Reg.cntVal k) 0

/-- CNT_SEL_WRITE. -/
def execCntSelWrite (k : Fin 1024) (value : BitVec 64) (s : State) : Answer := act s (doCntSel k value)

/-- A freeze (R529): every count is copied into the snapshot bank; `src` is 1 for a fabric freeze. -/
def State.freeze (s : State) (src : Nat) : State :=
  let vals := s.regs.filterMap (fun r =>
    if 0x101018 ≤ r.1 ∧ r.1 < 0x109000 ∧ r.1 % 32 = 24 then some ((r.1 - 0x101018) / 32, r.2) else none)
  let s := { s with regs := s.regs.filter (fun r => !(decide (Reg.snap 0 ≤ r.1 ∧ r.1 < Reg.snap 1024))) }
  let s := vals.foldl (fun s e => s.setWord (Reg.snap e.1) e.2) s
  (s.put Reg.perfCtrl Fld.perfCtrlSnapSeq (s.get Reg.perfCtrl Fld.perfCtrlSnapSeq + 1)).put Reg.perfCtrl Fld.perfCtrlSnapSrc src

/-- FREEZE: ignored while a fabric arm is held (R530). -/
def doFreeze (s : State) : State :=
  if s.flag Reg.perfCtrl Fld.perfCtrlArmHeld then s.put Reg.perfCtrl Fld.perfCtrlFrzErr 1 else s.freeze 0

/-- FREEZE. -/
def execFreeze (s : State) : Answer := act s doFreeze

/-- Every count and `wrap` is zeroed; the snapshot bank is unchanged (R530). -/
def State.clearCounters (s : State) : State :=
  (List.range 1024).foldl (fun s k =>
    let s := if s.flag (Reg.cntSel k) Fld.cntSelWrap then s.put (Reg.cntSel k) Fld.cntSelWrap 0 else s
    if s.word (Reg.cntVal k) = 0 then s else s.setWord (Reg.cntVal k) 0) s

/-- CLEAR. -/
def execClear (s : State) : Answer := act s State.clearCounters

/-! ## Sampling (R532, R533, R539) -/

/-- A write of SAMP_CTRL: `enable` is refused where the buffer may not lie. -/
def doSampEnable (v : Word) (s : State) : State :=
  let a := Reg.sampCtrl
  let base := s.get Reg.sampBuf Fld.sampBufBase * 4096
  let len := 64 * 2 ^ s.get Reg.sampBuf Fld.sampBufLogN
  let period := if Fld.sampCtrlPeriod.get v = 0 then 1 else Fld.sampCtrlPeriod.get v
  let s := (((s.put a Fld.sampCtrlPeriod period).put a Fld.sampCtrlInstEn (Fld.sampCtrlInstEn.get v)).put a
    Fld.sampCtrlInst (Fld.sampCtrlInst.get v)).put a Fld.sampCtrlRingEn (Fld.sampCtrlRingEn.get v)
  let s := s.put a Fld.sampCtrlRing (Fld.sampCtrlRing.get v)
  if Fld.sampCtrlEnable.get v = 0 then s.put a Fld.sampCtrlEnable 0
  else if s.touchesRsv base len ∨ hbmSize < base + len then s.put Reg.sampStat Fld.sampStatSerr 1
  else (s.put Reg.sampStat Fld.sampStatSerr 0).put a Fld.sampCtrlEnable 1

/-- SAMP_ENABLE. -/
def execSampEnable (value : BitVec 64) (s : State) : Answer := act s (doSampEnable value)

/-- SAMP_RD_WRITE: records are released; an `rd` that would leave a count out of range is ignored. -/
def doSampRd (rd : Nat) (s : State) : State :=
  let wr := s.get Reg.sampStat Fld.sampStatWr
  let left := (wr + 2 ^ 21 - rd) % 2 ^ 21
  if s.sampUnread < left ∨ 2 ^ s.get Reg.sampBuf Fld.sampBufLogN < left then s
  else s.put Reg.sampStat Fld.sampStatRd rd

/-- SAMP_RD_WRITE. -/
def execSampRdWrite (rd : BitVec 21) (s : State) : Answer := act s (doSampRd rd.toNat)

/-! ## Bandwidth (R534, R540) -/

/-- A window ends: its counts are stored, and the peaks raised. -/
def doBwWindowEnd (s : State) : State :=
  let s := allPorts.foldl (fun s p =>
    let tx := Table.getD s.mon.bwTx 0 p; let rx := Table.getD s.mon.bwRx 0 p
    let a := Reg.bwLast p
    if tx = 0 ∧ rx = 0 ∧ s.word a = 0 then s
    else
      let s := (s.put a Fld.bwLastTx (min tx Fld.bwLastTx.top)).put a Fld.bwLastRx (min rx Fld.bwLastRx.top)
      (s.raise (Reg.bwPeak p) Fld.bwPeakTx tx).raise (Reg.bwPeak p) Fld.bwPeakRx rx) s
  { s with mon := { s.mon with bwTx := [], bwRx := [] } }

/-- A change of `bw_log` starts a new window at once (R534). -/
def State.bwRestart (old s : State) : State :=
  if s.get Reg.perfCtrl Fld.perfCtrlBwLog = old.get Reg.perfCtrl Fld.perfCtrlBwLog then s
  else { s with mon := { s.mon with bwTx := [], bwRx := [] } }

/-- BW_WINDOW_END. -/
def execBwWindowEnd (s : State) : Answer := act s doBwWindowEnd

/-! ## Sensors (R535, R536, R541, R547) -/

/-- A rail is sampled; one out of tolerance for 10 us posts a fatal supply message with its sense point (R547). VDD_CORE, sense points 0
to 3, is what the digital islands regulate their domains from (R543). -/
def doRailSample (r reading : Nat) (bad : Bool) (s : State) : State :=
  let a := Reg.rail r
  let first := s.get a Fld.railNow = 0 ∧ s.get a Fld.railMax = 0
  let s := s.put a Fld.railNow reading
  let s := s.put a Fld.railMin (if first then reading else min reading (s.get a Fld.railMin))
  let s := s.put a Fld.railMax (max reading (s.get a Fld.railMax))
  let held := s.flt.ownActive.any (fun m => m.src.val == 629 && m.kind == 6 && m.addr.toNat == r)
  let s := if bad then (if held then s else s.post 629 6 3 r) else if held then s.dropActive 629 else s
  if r < 4 then s.regulate else s

/-- RAIL_SAMPLE. -/
def execRailSample (r : Fin 24) (reading : BitVec 16) (bad : Bool) (s : State) : Answer :=
  act s (doRailSample r reading.toNat bad)

/-- A temperature in eighths of a degree (R541). -/
def eighths (v : Nat) : Int := (BitVec.ofNat 16 v).toInt

/-- A sensor is sampled: at `warn_c` or above it posts a warning, whose cause persists until every sensor is 5 degrees below
(R535). -/
def doTempSample (t reading : Nat) (s : State) : State :=
  let a := Reg.temp t
  let first := s.get a Fld.tempNow = 0 ∧ s.get a Fld.tempMax = 0
  let s := s.put a Fld.tempNow reading
  let s := if first ∨ eighths (s.get a Fld.tempMax) < eighths reading then s.put a Fld.tempMax reading else s
  let warn := (8 * s.get Reg.sensCtrl Fld.sensCtrlWarnC : Int)
  if warn ≤ eighths reading then s.post 631 7 1 t
  else if (List.range 64).all (fun k => decide (eighths (s.get (Reg.temp k) Fld.tempNow) < warn - 40)) then s.dropActive 631
  else s

/-- TEMP_SAMPLE. -/
def execTempSample (t : Fin 64) (reading : BitVec 16) (s : State) : Answer := act s (doTempSample t reading.toNat)

/-- DROOP: counted by its island, and the deepest recorded; one deeper than twice the threshold is posted (R536). -/
def doDroop (i depth : Nat) (s : State) : State :=
  let a := Reg.droop i
  let th := s.get a Fld.droopThreshMv
  if depth ≤ th then s
  else
    let s := (s.bump a Fld.droopEvents 1).raise a Fld.droopWorst depth
    if 2 * th < depth then s.post 630 0 1 i else s

/-- DROOP. -/
def execDroop (i : Fin 74) (depth : Nat) (s : State) : Answer := act s (doDroop i depth)

/-- MM_CLR: the minimum and maximum take the present reading. -/
def doMmClr (temp : Bool) (i : Nat) (s : State) : State :=
  if temp then
    (if i < 64 then s.put (Reg.temp i) Fld.tempMax (s.get (Reg.temp i) Fld.tempNow) else s)
  else if i < 24 then
    let v := s.get (Reg.rail i) Fld.railNow
    (s.put (Reg.rail i) Fld.railMin v).put (Reg.rail i) Fld.railMax v
  else s

/-- MM_CLR. -/
def execMmClr (temp : Bool) (i : Nat) (s : State) : Answer := act s (doMmClr temp i)

/-! ## Reference clocks (R549, R550) -/

/-- REF_CHECK: a lane reference or the crystal that is absent, or more than 500 ppm off, posts a clock fault. The loss of a host
reference unlocks the PLL of each Basil island that it feeds, and the cause of that fault is gone once the reference is back. -/
def doRefCheck (clk : RefInput) (present : Bool) (ppm : Nat) (s : State) : State :=
  match clk with
  | .href n =>
    let fed := if s.flag Reg.strap Fld.strapHrefMode then (if n.val = 0 then List.range 4 else []) else [n.val]
    fed.foldl (fun s k => if present then s.dropActive (hostSrc k 11) else s.postFree (hostSrc k 11) 5 3) s
  | _ => if present && decide (ppm ≤ 500) then s.dropActive 633 else s.postFree 633 5 3

/-- REF_CHECK. -/
def execRefCheck (clk : RefInput) (present : Bool) (ppm : Nat) (s : State) : Answer := act s (doRefCheck clk present ppm)

/-- The source and kind of an island's clock fault (R495, R496, R536): a port tile's own, and for a serdes macro that of the
tile that serves its slot. -/
def State.clockSrc (s : State) (i : Nat) : Nat × Nat :=
  if i < 19 then (16 * i + 12, 12)
  else if i < 23 then (hostSrc (i - 19) 11, 5)
  else if i < 27 then (396 + (i - 23), 5)
  else if i < 31 then (456 + 17 * (i - 27), 5)
  else if i < 35 then (572 + 8 * (i - 31) + 7, 5)
  else if i = 35 then (374, 5)
  else if i = 36 then (625, 5)
  else if i = 37 then (633, 5)
  else (16 * s.tileOf ((i - 38) / 2) + 12, 12)

/-- PLL_UNLOCK: a fatal clock fault of the island (R496). -/
def execPllUnlock (isl : Fin 74) (s : State) : Answer :=
  act s (fun s => s.postFree (s.clockSrc isl.val).1 (s.clockSrc isl.val).2 3)

end Sys2Proof.Machine
end

