-- ==== Sys2Proof/Machine/Gsvc.lean ====
section
/-! DEFINITION. Gsvc: global services: consistent snapshots and reset waves over a management communicator (R442 to R444,
R447, R529), and the commands that grant packets, on which the copies of a wave wait. -/

namespace Sys2Proof.Machine

/-! ## Packets of a service (R430, R442, R443) -/

/-- A service packet. The spec names no header field for the root, the action and its target: the model carries the root's
FID in `base` [17:0], the action in [33:32] and the target in [47:36] (log 42). -/
def State.svcPkt (s : State) (c phase tc base : Nat) (payload : List Byte) : Packet :=
  { Packet.zero with
    op := opColl, tc := tc, src := s.fid, base := base, xlen := payload.length, plen := payload.length, payload := payload
    aux := c + phase <<< 12 }

/-- A collective of the communicator, as the down phase of its services sees it (R431). -/
def svcColl (c : Nat) : CollSt := ⟨c, 0, 0, 3, 0, 0, 0, 0, 0, []⟩

/-- Send a service packet to every device next down the tree: the device's own packets pass no shaper and no meter (R245). -/
def State.svcDown (s : State) (c phase base src op : Nat) : State :=
  (s.downTo (svcColl c) src).foldl (fun s d =>
    s.sendTo State.sendOut ⟨s.svcPkt c phase 6 base [], op, s.commHub c, 0⟩ d) s

/-- The rank of a device in a communicator (R423). -/
def State.rankOf (s : State) (c fid : Nat) : Nat :=
  let rs := s.memberRows c; let cs := s.memberCols c
  s.posOf c (fidGroup fid) * (rs.length * cs.length)
    + (rs.filter (fun r => decide (r < fidRow fid))).length * cs.length
    + (cs.filter (fun k => decide (k < fidCol fid))).length

/-- The communicator is valid and a management communicator, so that its services act here. -/
def State.svcValid (s : State) (c : Nat) : Bool := s.commValid c && s.commMgmt c

/-! ## Snapshots (R442, R444, R529) -/

/-- The link on which the root writes records with PF0's Requester ID: the first that takes manager accesses and DMA (log 43). -/
def State.svcLink (s : State) : Option Nat :=
  (List.range 4).find? (fun n => s.flag (Reg.hostCtrl n) Fld.hostCtrlMgrEn && s.dmaOk n 0)

/-- The root writes the record of a device and counts it; with every member counted the service ends. -/
def State.svcRecord (s : State) (c fid : Nat) (data : List Byte) : State :=
  let j := s.rankOf c fid
  if s.colls.svcOp = 0 ∨ s.colls.svcWave ∨ s.colls.svcComm ≠ c ∨ s.colls.snapSeen.contains j then s
  else
    let buf := (s.word Reg.gsvcBuf).toNat / 512 * 512
    let s := match s.svcLink with
      | some n => s.writeOut ⟨n, 0⟩ (buf + 512 * j) data false
      | none => s
    let s := { s with colls := { s.colls with snapSeen := s.colls.snapSeen ++ [j] } }
    let n := s.colls.snapSeen.length
    let s := s.put Reg.gsvc Fld.gsvcCounted n
    if s.memberCount c ≤ n then s.endSvc 0 else s

/-- The record of this device: the snapshot bank's counters 0 to `snap_words` - 1. -/
def State.snapWords (s : State) : List Byte :=
  ((List.range (min 64 (s.get Reg.gsvc Fld.gsvcSnapWords))).map (fun k => leBytes (s.word (Reg.snap k)).toNat 8)).flatten

/-- A device freezes on a service's freeze, and its record goes to the root (R442 steps 3 and 4). -/
def State.svcFreeze (s : State) (c root : Nat) : State :=
  let s := (s.freeze 1).put Reg.perfCtrl Fld.perfCtrlArmHeld 0
  let s := { s with colls := { s.colls with armed := none, upFrom := [], upDone := false } }
  if root = s.fid then s.svcRecord c s.fid s.snapWords
  else s.sendTo State.sendOut ⟨s.svcPkt c 7 7 root s.snapWords, 0, s.commHub c, 0⟩ (.one root)

/-- The devices whose up-phase packets this one waits for: its row, its column of row leaders, its child groups. -/
def State.svcUpSrcs (s : State) (c : Nat) : List Nat :=
  (if s.isRowLeader c then (s.rowSrcs c).filter (fun f => f != s.fid) else [])
    ++ (if s.isLeader c then
      ((s.memberRows c).filter (fun r => r != s.row)).map (fun r => mkFid s.group r (s.leadCol c))
        ++ ((s.neighbours c).filter (fun n => decide (s.tpos c < n.1))).map (fun n => n.2)
    else [])

/-- An armed device that has heard all it waits for joins the barrier: it sends up, and the root sends the freeze. -/
def State.svcUp (s : State) (c : Nat) : State :=
  match s.colls.armed with
  | none => s
  | some a =>
    if s.colls.upDone || !(s.svcUpSrcs c).all (fun f => s.colls.upFrom.contains f) then s
    else
      let s := { s with colls := { s.colls with upDone := true } }
      let send (f : Nat) : State := s.sendTo State.sendOut ⟨s.svcPkt c 3 6 a.base [], 0, s.commHub c, 0⟩ (.one f)
      if !s.isRowLeader c then send (s.rowLeaderFid c)
      else if !s.isLeader c then send (s.leaderFid c)
      else if s.tpos c ≠ 0 then send (s.parentFid c)
      else (s.svcDown c 4 s.fid s.fid s.colls.svcOp).svcFreeze c s.fid

/-- An arm is held from here until its freeze or its discard (R530). -/
def State.arm (s : State) (c : Nat) (p : Packet) : State :=
  let s := { s with colls := { s.colls with armed := some p, upFrom := [], upDone := false } }
  (s.put Reg.perfCtrl Fld.perfCtrlArmHeld 1).svcUp c

/-! ## Starting a service (R444, R447) -/

/-- The written fields of COLL.GSVC. -/
def State.putGsvc (s : State) (v : Word) : State :=
  let w := Fld.gsvcSvc.put (s.word Reg.gsvc) (Fld.gsvcSvc.get v)
  let w := Fld.gsvcAction.put w (Fld.gsvcAction.get v)
  let w := Fld.gsvcMcomm.put w (Fld.gsvcMcomm.get v)
  let w := Fld.gsvcTarget.put w (Fld.gsvcTarget.get v)
  s.setWord Reg.gsvc (Fld.gsvcSnapWords.put w (Fld.gsvcSnapWords.get v))

/-- `go`: refused while a service runs, and at a device that does not lead position 0 of the communicator; else the service
begins as an operation of the device's own, to which its packets belong. -/
def State.startSvc (s : State) (v : Word) (wave : Bool) (run : Nat → State → State) : State :=
  s.ifStructured Reg.gsvc (fun s =>
    if s.colls.svcOp ≠ 0 then s.put Reg.gsvc Fld.gsvcStatus 1
    else
      let s := s.putGsvc v
      let c := Fld.gsvcMcomm.get v
      if !(s.svcValid c && s.isLeader c && s.tpos c == 0) then s.put Reg.gsvc Fld.gsvcStatus 2
      else
        let (o, s) := s.addOp { OpSt.init with inst := 4096, engine := 16, mgr := true, started := true }
        let s := { s with colls := { s.colls with svcOp := o, svcComm := c, svcWave := wave, snapSeen := [] } }
        run c (((s.put Reg.gsvc Fld.gsvcBusy 1).put Reg.gsvc Fld.gsvcStatus 0).put Reg.gsvc Fld.gsvcCounted 0))

/-- A snapshot starts at the root: arms go down, and the root arms itself. -/
def doSnapshotGo (v : Word) (s : State) : State :=
  s.startSvc v false (fun c s =>
    (s.svcDown c 2 s.fid s.fid s.colls.svcOp).arm c (s.svcPkt c 2 6 s.fid []))

/-- SNAPSHOT_GO. -/
def execSnapshotGo (value : BitVec 64) (s : State) : Answer := act s (doSnapshotGo value)

/-! ## Reset waves (R443) -/

/-- A copy of a wave that this device sends still waits for its grant. -/
def State.waveWaiting (s : State) : Bool :=
  let mine (p : Packet) : Bool := p.op == opColl && collPhase p == 5 && p.src == s.fid
  s.xp.cacheOut.any (fun e => mine e.2.pkt) || s.xp.waiting.any (fun e => mine e.2.pkt)
    || s.wait.any (fun (w : WaitPkt) => mine w.pkt && w.inPort.isNone)

/-- Once the copies of a wave have been granted, the safe state of action 3 is entered and the root's service ends. -/
def State.waveSettle (s : State) : State :=
  if s.waveWaiting then s
  else
    let s := match s.colls.waveSafe with
      | some c => { s with colls := { s.colls with waveSafe := none } }.enterSafeBy 2 454 c (by decide)
      | none => s
    if s.colls.svcWave then s.endSvc 0 else s

/-- What a wave does at a device, once its copies have been forwarded. -/
def State.waveAct (s : State) (c action target : Nat) : State :=
  if action = 1 then (if s.commValid target then s.abortComm target else s)
  else if action = 2 then s.clearCounters
  else if action = 3 then
    if s.flag Reg.collCtrl Fld.collCtrlSafeWave then { s with colls := { s.colls with waveSafe := some c } }
    else s.bump Reg.collStat1 Fld.collStat1WaveRefused 1
  else s

/-- The header word of a wave (log 42). -/
def waveBase (root action target : Nat) : Nat := root + action <<< 32 + target <<< 36

/-- A wave starts at the root. -/
def doWaveGo (action : Nat) (v : Word) (s : State) : State :=
  s.startSvc v true (fun c s =>
    let t := Fld.gsvcTarget.get v
    ((s.svcDown c 5 (waveBase s.fid action t) s.fid s.colls.svcOp).waveAct c action t).waveSettle)

/-- WAVE_ABORT_GO. -/
def execWaveAbortGo (value : BitVec 64) (s : State) : Answer := act s (doWaveGo 1 value)
/-- WAVE_CLEAR_GO. -/
def execWaveClearGo (value : BitVec 64) (s : State) : Answer := act s (doWaveGo 2 value)
/-- WAVE_SAFE_GO. -/
def execWaveSafeGo (value : BitVec 64) (s : State) : Answer := act s (doWaveGo 3 value)

/-! ## Arrivals -/

/-- A service packet of a phase arrives: after the checks of R231, one that names no management communicator here is answered with
reason 6. -/
def State.svcArrival (s : State) (p : Packet) (phase : Nat) (body : Nat → State → State) : State :=
  if p.op ≠ opColl ∨ collPhase p ≠ phase then s
  else match s.accept p with
  | (false, s) => s.goOn
  | (true, s) =>
    let c := p.aux % 4096
    if s.svcValid c then (body c s).goOn else (s.sendNcomp p 6).goOn

/-- An arm is forwarded down, and the device joins the barrier. -/
def doArmPacket (p : Packet) (s : State) : State :=
  s.svcArrival p 2 (fun c s => (s.svcDown c 2 p.base p.src 0).arm c p)

/-- ARM_PACKET. -/
def execArmPacket (pkt : Packet) (s : State) : Answer := act s (doArmPacket pkt)

/-- An up-phase packet of a snapshot. -/
def doSnapshotUp (p : Packet) (s : State) : State :=
  s.svcArrival p 3 (fun c s =>
    { s with colls := { s.colls with upFrom := s.colls.upFrom.filter (fun f => f != p.src) ++ [p.src] } }.svcUp c)

/-- SNAPSHOT_UP. -/
def execSnapshotUp (pkt : Packet) (s : State) : Answer := act s (doSnapshotUp pkt)

/-- A freeze is forwarded, and the device freezes and sends its record. -/
def doFreezePacket (p : Packet) (s : State) : State :=
  s.svcArrival p 4 (fun c s => (s.svcDown c 4 p.base p.src 0).svcFreeze c (p.base % 2 ^ 18))

/-- FREEZE_PACKET. -/
def execFreezePacket (pkt : Packet) (s : State) : Answer := act s (doFreezePacket pkt)

/-- A record arrives at the root. -/
def doSnapshotRecord (p : Packet) (s : State) : State := s.svcArrival p 7 (fun c s => s.svcRecord c p.src p.payload)

/-- SNAPSHOT_RECORD. -/
def execSnapshotRecord (pkt : Packet) (s : State) : Answer := act s (doSnapshotRecord pkt)

/-- A wave is forwarded, and then acted on. -/
def doWavePacket (p : Packet) (s : State) : State :=
  s.svcArrival p 5 (fun c s =>
    ((s.svcDown c 5 p.base p.src 0).waveAct c (bits p.base 33 32) (bits p.base 47 36)).waveSettle)

/-- WAVE_PACKET. -/
def execWavePacket (pkt : Packet) (s : State) : Answer := act s (doWavePacket pkt)

/-- An arm that no freeze has followed for 10 ms is discarded (R444). -/
def doArmDiscard (s : State) : State :=
  if s.colls.armed.isSome then
    { s with colls := { s.colls with armed := none, upFrom := [], upDone := false } }.put Reg.perfCtrl Fld.perfCtrlArmHeld 0
  else s

/-- ARM_DISCARD. -/
def execArmDiscard (s : State) : Answer := act s doArmDiscard

/-! ## The commands that grant packets (R159, R160, R166) -/

/-- GRANT_OPPORTUNITY. -/
def execGrantOpportunity (o : Fin 152) (s : State) : Answer := act s (fun s => (doOpportunity o s).waveSettle)

/-- DECLINE_PAUSE_END. -/
def execDeclinePauseEnd (o : Fin 152) (s : State) : Answer := act s (fun s => (doPauseEnd o s).waveSettle)

/-- REQUEST. -/
def execRequest (o : Fin 152) (ep : Fin 27) (cls : Fin 4) (s : State) : Answer :=
  act s (fun s => (doRequest o ep cls s).waveSettle)

/-- REQUEST_RETRY. -/
def execRequestRetry (o : Fin 152) (ep : Fin 27) (cls : Fin 4) (s : State) : Answer :=
  act s (fun s => (doRequestRetry o ep cls s).waveSettle)

end Sys2Proof.Machine
end

