-- ==== Sys2Proof/Machine/Expert.lean ====
section
/-! DEFINITION. Expert: which `expert` bit governs a register, and the derived values of RWX fields (R72 to R74). -/

namespace Sys2Proof.Machine

/-! ## Expert control (R72 to R74) -/

/-- The control register whose `expert` governs the register at an address. -/
def expertReg (a : Nat) : Option Nat :=
  if a < 0x80000 then none
  else if a < 0x100000 then some Reg.faultCtrl
  else if a < 0x200000 then some (if 0x109000 ≤ a ∧ a < 0x10A000 then Reg.sensCtrl else Reg.perfCtrl)
  else if a < 0x400000 then some Reg.exchCtrl
  else if a < 0x530000 then
    let n := (a - 0x400000) / 0x10000
    some (if a = Reg.linkCtrl n then a else Reg.laneCtrl n)
  else if a < 0x800000 then some Reg.routeCtrl
  else if a < 0x900000 then some Reg.xportCtrl
  else if a < 0xA00000 then some (Reg.raeCtrl ((a - 0x900000) / 0x8000))
  else if a < 0xC00000 then some (Reg.hostCtrl ((a - 0xA00000) / 0x10000))
  else if a < 0x1000000 then some (Reg.instCfg ((a - 0xC00000) / 0x400))
  else if a < 0x1200000 then some Reg.matchCtrl
  else if a < 0x1400000 then some Reg.collCtrl
  else if a < 0x1600000 then some Reg.handCtrl
  else if a < 0x1700000 then some Reg.cohCtrl
  else if a < 0x1800000 then some Reg.lockCtrl
  else if a < 0x1A00000 then some Reg.xlatCtrl
  else if a < 0x2000000 then some Reg.shapeCtrl
  else if a < 0x10000000 then some Reg.instCtrl
  else some (Reg.instCfg ((a - 0x10000000) / 0x10000))

/-- The `expert` field of a control register. -/
def expertField (a : Nat) : Field :=
  if 0xC00000 ≤ a ∧ a < 0x1000000 then Fld.instCfgExpert else ⟨0, 1⟩

/-- `expert` of the block of a register. -/
def State.expertOn (s : State) (a : Nat) : Bool :=
  match expertReg a with
  | some c => s.flag c (expertField c)
  | none => false

/-- The window quota that `qmode` selects (R179). -/
def quotaOf (qmode : Nat) : Nat := if qmode = 1 then 32 else if qmode = 2 then 128 else 16

/-- The idle time of a transfer record that the retry settings give (R252). -/
def State.xferIdleOf (s : State) : Nat :=
  min 255 (ceilDiv (2 * s.get Reg.xportCtrl Fld.xportCtrlRetryMax * s.get Reg.xportCtrl Fld.xportCtrlRetryUs) 1000)

/-- The derived value of an RWX field: from the basic fields, from adaptation, or its reset value. -/
def State.derived (s : State) (d : RegDesc) (i j : Nat) (f : FieldDesc) : Nat :=
  if d.base = RegD.arbQuota.base ∧ f.field = Fld.arbQuotaQuota then quotaOf (s.get Reg.exchCtrl Fld.exchCtrlQmode)
  else if d.base = RegD.xportCtrl2.base ∧ f.field = Fld.xportCtrl2XferIdleMs then s.xferIdleOf
  else if d.base = RegD.hostCtrl.base ∧ f.field = Fld.hostCtrlRdMax then s.tagLimit i
  else if d.base = RegD.sqCfg.base ∧ f.field = Fld.sqCfgPollCeil then s.get (Reg.sqCfg i j) Fld.sqCfgPoll
  else if d.base = RegD.laneExp.base ∧ (f.field = Fld.laneExpTxPre ∨ f.field = Fld.laneExpTxMain ∨ f.field = Fld.laneExpTxPost) then
    match s.slotOf i with
    | some t =>
      let c := (s.lane (16 * t + j)).coeff
      if f.field = Fld.laneExpTxPre then bits c 5 0 else if f.field = Fld.laneExpTxMain then bits c 11 6 else bits c 17 12
    | none => 0
  else f.reset i j d.n2

/-- The RWX fields of the register at an address take their derived values. -/
def State.toDerived (s : State) (a : Nat) : State :=
  match regAt a with
  | none => s
  | some (d, i, j) => (d.fields.filter (fun f => f.acc = .rwx)).foldl (fun s f => s.put a f.field (s.derived d i j f)) s

/-- Registers whose RWX fields have derived values other than their reset values, by the control register that governs them. -/
def derivedRegs (c : Nat) : List Nat :=
  if c = Reg.exchCtrl then [Reg.arbQuota]
  else if c = Reg.xportCtrl then [Reg.xportCtrl2]
  else if 0x400000 ≤ c ∧ c < 0x530000 then
    let n := (c - 0x400000) / 0x10000
    if c = Reg.laneCtrl n then (List.range 16).map (Reg.laneExp n) else []
  else if 0xC00000 ≤ c ∧ c < 0x1000000 then (List.range RegD.sqCfg.n2).map (Reg.sqCfg ((c - 0xC00000) / 0x400))
  else []

/-- The registers whose RWX fields a control register governs: those that hold a value, and those whose derived value is not the
reset value. -/
def State.governed (s : State) (c : Nat) : List Nat :=
  let held := (s.regs.map (fun r => r.1)).filter (fun a => expertReg a == some c)
  held ++ (derivedRegs c).filter (fun a => !held.contains a)

/-- Bring the derived values of a block in line with its basic fields, while its `expert` is clear. -/
def State.rederive (s : State) (c : Nat) : State :=
  if s.flag c (expertField c) then s
  else
    let extra := if c = Reg.exchCtrl then [Reg.arbQuota] else if c = Reg.xportCtrl then [Reg.xportCtrl2] else []
    extra.foldl (fun s a => s.toDerived a) s

/-- `expert` has been set: each RWX field starts from its derived value. -/
def State.expertSet (s : State) (c : Nat) : State := ((s.governed c).foldl (fun s a => s.toDerived a) s)

end Sys2Proof.Machine
end

