-- ==== Sys2Proof/Machine/ImageCheck.lean ====
section
/-! DEFINITION. ImageCheck: the structure image format and its verification (R41 to R46, R50, R55, R57, R65, R186, R187). -/

namespace Sys2Proof.Machine

/-- `n` bytes of an image from offset `a`, as a little-endian number. -/
def imgNum (m : List Host.Cell) (a n : Nat) : Nat := leNat (readBytes m 0 a n)

/-- A section table entry (R42). -/
structure SecEnt where
  typ : Nat
  ver : Nat
  off : Nat
  len : Nat
  tail : Nat
deriving DecidableEq, Repr

/-- The section table of an image with `n` entries. -/
def secTable (m : List Host.Cell) (n : Nat) : List SecEnt :=
  (List.range n).map (fun i =>
    let a := 0x40 + 16 * i
    ⟨imgNum m a 2, imgNum m (a + 2) 2, imgNum m (a + 4) 4, imgNum m (a + 8) 4, imgNum m (a + 12) 4⟩)

/-- An entry of its own keeps the rules of R42 in an image of `length` bytes and `n` sections. -/
def SecEnt.ok (e : SecEnt) (length n : Nat) : Bool :=
  e.ver == 1 && e.tail == 0 && e.off % 64 == 0 && decide (0x40 + 16 * n ≤ e.off ∧ e.off + e.len ≤ length - 128)

/-- No two sections overlap. -/
def secsApart : List SecEnt → Bool
  | [] => true
  | e :: t => t.all (fun f => decide (e.off + e.len ≤ f.off ∨ f.off + f.len ≤ e.off)) && secsApart t

/-- The section types that an image of a kind must carry, and all that it may carry (R44, R510). -/
def secNeeds (kind : Nat) : List Nat × List Nat :=
  if kind = 1 then ([1, 2, 3, 4, 5, 6, 7, 8, 10, 11], [1, 2, 3, 4, 5, 6, 7, 8, 9, 10, 11])
  else if kind = 2 then ([1, 5, 11], [1, 5, 9, 11])
  else ([0x0B, 0x100], [0x0B, 0x100])

/-- The section table keeps R42 and R44 (error 7 otherwise). -/
def secTableOk (kind length : Nat) (l : List SecEnt) : Bool :=
  let (must, may) := secNeeds kind
  let types := l.map (fun e => e.typ)
  l.all (fun e => e.ok length l.length && may.contains e.typ) && decide types.Nodup && secsApart l
    && must.all (fun t => types.contains t)

/-- The section of a type. -/
def secOf (l : List SecEnt) (typ : Nat) : Option SecEnt := l.find? (fun e => e.typ == typ)

/-- Record `k` of 8 bytes of a section. -/
def recAt (m : List Host.Cell) (e : SecEnt) (k : Nat) : Nat := imgNum m (e.off + 8 * k) 8

/-- The first `n` records of 8 bytes of a section. -/
def recsOf (m : List Host.Cell) (e : SecEnt) (n : Nat) : List Nat := (List.range n).map (recAt m e)

/-! ## Reading the sections (R44) -/

/-- LANE_MAP records. -/
def readLaneMap (m : List Host.Cell) (e : SecEnt) (n : Nat) : List LaneRec :=
  (recsOf m e n).map (fun w => ⟨w % 512, bits w 17 9, bits w 19 18⟩)

/-- BUFFER records: flits for each VC of groups 0 to 3. -/
def readBuffer (m : List Host.Cell) (e : SecEnt) (n : Nat) : List (List Nat) :=
  (recsOf m e n).map (fun w => (List.range 4).map (fun g => bits w (16 * g + 15) (16 * g)))

/-- The TOPOLOGY section. -/
def readTopology (m : List Host.Cell) (e : SecEnt) : Topology :=
  let r := imgNum m (e.off + 12) 36
  { profile := imgNum m e.off 1, portsPerPeer := imgNum m (e.off + 1) 1, groups := imgNum m (e.off + 2) 2,
    fid := imgNum m (e.off + 4) 4, rows := imgNum m (e.off + 8) 1, cols := imgNum m (e.off + 9) 1,
    roles := (List.range 144).map (fun p => bits r (2 * p + 1) (2 * p)) }

/-- The bytes of a section, as numbers. -/
def secBytes (m : List Host.Cell) (e : SecEnt) : List Nat := (readBytes m 0 e.off e.len).map (fun b => b.toNat)

/-- ROUTES records: a group and its eight candidates. -/
def readRoutes (m : List Host.Cell) (e : SecEnt) : List (Nat × List Nat) :=
  (List.range (e.len / 40)).map (fun k =>
    let a := e.off + 40 * k
    (imgNum m a 2, (List.range 8).map (fun c => imgNum m (a + 8 + 4 * c) 4)))

/-! ## Contents (R45, R46, R186, R187) -/

/-- The lanes that a LANE_MAP record uses. -/
def LaneRec.lanes (r : LaneRec) : List Nat := if r.width = 0 then [r.laneA, r.laneB] else if r.width = 1 then [r.laneA] else []

/-- LANE_MAP: the lanes that `width` uses lie in their slot, none twice (of a port with one lane or none the other record fields are not
lanes of the port, log 121); in a tile image the roles of the applied full image agree. -/
def laneMapOk (l : List LaneRec) (firstPort : Nat) (roles : Option (List Nat)) : Bool :=
  let ports := (List.range l.length).zip l
  ports.all (fun (e : Nat × LaneRec) =>
    let p := firstPort + e.1
    e.2.width != 3 && e.2.lanes.all (fun k => decide (16 * (p / 8) ≤ k ∧ k < 16 * (p / 8) + 16))
      && (match roles with
        | some r => (r.getD p 0 == 0) == (e.2.width == 2)
        | none => true))
    && decide ((l.map LaneRec.lanes).flatten.Nodup)

/-- Physical units appear once, below the kind's count, and have passed manufacturing test. -/
def unitsOk (l : List Nat) (count mask : Nat) : Bool := decide l.Nodup && l.all (fun u => decide (u < count) && bit mask u)

/-- The CLASS_VC limits of a profile (R186): the stages from and to, and whether `two_orders` must be set. -/
def stagesOf (profile groups : Nat) : Nat × Nat × Bool :=
  if profile = 2 then (1, 1, false)
  else if profile = 3 then (1, 1, true)
  else if profile = 1 then (1, 3, true)
  else if 1 < groups then (2, 3, true) else (1, 3, true)

/-- TOPOLOGY keeps the profile limits, the FID lies in the machine, the ports of each role are not too many. -/
def topologyOk (t : Topology) : Bool :=
  let p := t.portsPerPeer
  let fid := t.fid
  let many := t.profile == 0 || t.profile == 4
  let line := t.profile == 2 || t.profile == 3
  decide (t.profile ≤ 4) && decide (1 ≤ t.groups ∧ t.groups ≤ (if many then 1024 else 1))
    && (if line then t.rows == 1 && decide ((if t.profile = 2 then 2 else 3) ≤ t.cols ∧ t.cols ≤ 16)
      else decide (1 ≤ t.rows ∧ t.rows ≤ 16 ∧ 1 ≤ t.cols ∧ t.cols ≤ 16))
    && (if t.profile = 0 then p == 2 else if t.profile = 4 then p == 3 || p == 4 else decide (1 ≤ p ∧ p ≤ 4))
    && t.roles.all (fun r => r == 0 || r == 1 || (r == 2 && !line) || (r == 3 && many && decide (1 < t.groups)))
    && decide (fid < 2 ^ 18 ∧ fidGroup fid < t.groups ∧ fidRow fid < t.rows ∧ fidCol fid < t.cols)
    && decide (t.roles.count 1 ≤ (if line then 2 * p else p * (t.cols - 1)))
    && decide (t.roles.count 2 ≤ p * (t.rows - 1))

/-- CLASS_VC carries bulk, collective and management and keeps the profile's limits. -/
def classVcOk (v : Nat) (t : Topology) : Bool :=
  let (lo, hi, two) := stagesOf t.profile t.groups
  bit v 1 && bit v 2 && bit v 3 && decide (1 ≤ bits v 6 5 ∧ lo ≤ bits v 6 5 ∧ bits v 6 5 ≤ hi) && (!two || bit v 7)

/-- The enabled VCs of a group (R46). -/
def groupVcs (v g : Nat) : Nat := if bit v g then bits v 6 5 * (if bit v 7 then 2 else 1) else 0

/-- A BUFFER record keeps R45 for a CLASS_VC value. -/
def bufferOk (v : Nat) (r : List Nat) : Bool :=
  (List.range 4).all (fun g => if bit v g then decide (65 ≤ r.getD g 0) else r.getD g 0 == 0)
    && decide ((List.range 4).foldl (fun n g => n + groupVcs v g * r.getD g 0) 0 ≤ 5120)

/-- The physical units of one kind in ENGINES: `n` bytes from `at_`, and the spare entries that name a unit. -/
def engUnits (b : List Nat) (at_ n : Nat) (spares : List Nat) : List Nat :=
  (b.drop at_).take n ++ (spares.map (fun k => b.getD k 0)).filter (fun u => u != 0xFF)

/-- The offsets of the registers of R69. -/
def lockOffs : List Nat := [0x80000, 0x200000, 0xA00000, 0xA10000, 0xA20000, 0xA30000, 0x1200000]

/-- ROUTES keeps R45. -/
def routesOk (m : List Host.Cell) (e : SecEnt) : Bool :=
  let l := readRoutes m e
  e.len % 40 == 0 && decide (l.map (fun r => r.1)).Nodup && l.all (fun r => decide (r.1 < 1024))
    && (List.range (e.len / 40)).all (fun k => imgNum m (e.off + 40 * k + 2) 6 == 0)
    && l.all (fun r => r.2.all (fun c => decide (c < 2 ^ 25) && (!bit c 24 || decide (bits c 15 8 < 144))))

/-- What the contents of an image are judged by: its sections, and for a tile image the applied full image. -/
structure ChkCtx where
  kind : Nat
  slot : Nat
  secs : List SecEnt
  fuse : Fuses
  applied : Option ImgConfig

/-- The CLASS_VC value of the image, or of the applied full image for a tile image. -/
def ChkCtx.classVc (x : ChkCtx) (m : List Host.Cell) : Nat :=
  if x.kind = 2 then (match x.applied with | some c => c.classVc | none => 0)
  else match secOf x.secs 4 with | some e => imgNum m e.off 1 | none => 0

/-- The TOPOLOGY of the image. -/
def ChkCtx.topo (x : ChkCtx) (m : List Host.Cell) : Topology :=
  match secOf x.secs 3 with | some e => readTopology m e | none => ⟨0, 0, 0, 0, 0, 0, []⟩

/-- One section's contents keep R45. A section of another length than its type's records need is invalid content, error 8 (log 122). -/
def secOk (m : List Host.Cell) (x : ChkCtx) (e : SecEnt) : Bool :=
  let n := if x.kind = 2 then 8 else 144
  match e.typ with
  | 1 => e.len == 8 * n && laneMapOk (readLaneMap m e n) (if x.kind = 2 then 8 * x.slot else 0)
      (if x.kind = 2 then (match x.applied with | some c => some c.topo.roles | none => none) else none)
  | 2 =>
    let l := (recsOf m e 19).map (fun w => w % 32)
    e.len == 152 && unitsOk (l.take 18 ++ (l.drop 18).filter (fun u => u != 0x1F)) 19 x.fuse.okTiles
  | 3 =>
    let t := readTopology m e
    e.len == 64 && topologyOk t && imgNum m (e.off + 10) 2 == 0 && imgNum m (e.off + 48) 16 == 0
      && (match secOf x.secs 1 with
        | some f => if f.len = 8 * 144 then
            ((readLaneMap m f 144).zip t.roles).all (fun (r : LaneRec × Nat) => if r.2 = 0 then r.1.width == 2 else decide (r.1.width < 2))
          else true
        | none => true)
  | 4 => e.len == 8 && classVcOk (imgNum m e.off 1) (x.topo m)
  | 5 => e.len == 8 * n && (readBuffer m e n).all (bufferOk (x.classVc m))
  | 6 => e.len == 8 && decide (recAt m e 0 % 32 ≤ 16)
  | 7 =>
    let b := secBytes m e
    e.len == 256 && (b.drop 136).all (fun v => v == 0)
      && unitsOk (engUnits b 0 16 [128]) 17 x.fuse.okRae && unitsOk (engUnits b 16 32 [129, 130]) 34 x.fuse.okDill
      && unitsOk (engUnits b 48 16 [131]) 17 x.fuse.okFennel
      && unitsOk (engUnits b 64 64 [132, 133, 134, 135]) 68 x.fuse.okSorrel
  | 8 => e.len == 64
  | 9 => routesOk m e
  | 10 => e.len % 8 == 0 && decide (e.len ≤ 8192) && (recsOf m e (e.len / 8)).all (fun w => lockOffs.contains w)
  | 11 => e.len == 128 && imgNum m (e.off + 97) 31 == 0
  | _ => true

/-- The index of the first section that fails. -/
def firstBadSec (m : List Host.Cell) (x : ChkCtx) : Option Nat := x.secs.findIdx? (fun e => !secOk m x e)

/-! ## The fixed order of R55 -/

/-- What a verification yields. -/
inductive Verdict where
  | bad (code sec : Nat)
  | full (c : ImgConfig)
  | tile (t : TileImage)
  | firmware
deriving DecidableEq, Repr

/-- `tile_target` keeps R41. -/
def targetOk (kind tt okTiles : Nat) : Bool :=
  if kind ≠ 2 then tt == 0
  else
    let slot := tt % 32; let phys := bits tt 12 8; let spare := bits tt 20 16
    decide (slot ≤ 17 ∧ phys ≤ 18) && bit okTiles phys && tt == slot + phys <<< 8 + spare <<< 16 && spare != phys
      && (spare == 0x1F || (decide (spare ≤ 18) && bit okTiles spare))

/-- The key slot may sign, and SIGNER is well formed and hashes to the slot's value (R50). -/
def signerOk (m : List Host.Cell) (f : Fuses) (slot length : Nat) (secs : List SecEnt) : Bool :=
  decide (slot ≤ 3) && bit f.programmed slot && !bit f.revoked slot && !(slot == 0 && f.requireCust)
    && (match secOf secs 11 with
      | some e => e.ok length secs.length && e.len == 128
          && Config.sha384 (readBytes m 0 e.off 97) == f.keyHash.getD slot 0
      | none => false)

/-- The signature of R43 verifies, and its final 32 bytes are zero. -/
def signatureOk (m : List Host.Cell) (length : Nat) (secs : List SecEnt) : Bool :=
  match secOf secs 11 with
  | some e =>
    imgNum m (length - 32) 32 == 0
      && Config.ecdsaP384 (readBytes m 0 e.off 97) (Config.sha384 (readBytes m 0 0 (length - 128)))
        (beNat (readBytes m 0 (length - 128) 48)) (beNat (readBytes m 0 (length - 80) 48))
  | none => false

/-- The header fails one of the checks before the key: its error code. `kinds` are the kinds that the block takes, `kindOk`
those that the device's state takes. -/
def headerError (m : List Host.Cell) (f : Fuses) (kinds kindOk : List Nat) : Option Nat :=
  let kind := imgNum m 6 1; let length := imgNum m 8 4; let n := imgNum m 0x0C 2; let serial := imgNum m 0x18 8
  if imgNum m 0 4 ≠ 0x444D4C46 ∨ imgNum m 4 2 ≠ 1 ∨ !kinds.contains kind then some 1
  else if !kindOk.contains kind then some 9
  else if imgNum m 0x0E 2 ≠ 0x0144 ∨ f.stepping < imgNum m 0x24 1 then some 2
  else if serial ≠ 0 ∧ serial ≠ f.serial.toNat then some 3
  else if length % 64 ≠ 0 ∨ length < 512 ∨ 2 ^ 24 < length ∨ n = 0 ∨ 16 < n ∨ !targetOk kind (imgNum m 0x20 4) f.okTiles then
    some 4
  else none

/-- The contents of a full image. -/
def readFull (m : List Host.Cell) (secs : List SecEnt) : ImgConfig :=
  let sec (t : Nat) : SecEnt := (secOf secs t).getD ⟨0, 0, 0, 0, 0⟩
  let tiles := (recsOf m (sec 2) 19).map (fun w => w % 32)
  { imageId := BitVec.ofNat 64 (imgNum m 0x10 8), laneMap := readLaneMap m (sec 1) 144, tileMap := tiles.take 18,
    spareTile := tiles.getD 18 0x1F, topo := readTopology m (sec 3), classVc := imgNum m (sec 4).off 1,
    buffer := readBuffer m (sec 5) 144, cohGib := imgNum m (sec 6).off 8 % 32, engines := (secBytes m (sec 7)).take 136,
    policing := (recsOf m (sec 8) 8).map (fun v => BitVec.ofNat 64 v),
    routes := (match secOf secs 9 with | some e => readRoutes m e | none => []),
    locks := recsOf m (sec 10) ((sec 10).len / 8) }

/-- The contents of a tile image. -/
def readTile (m : List Host.Cell) (secs : List SecEnt) : TileImage :=
  let sec (t : Nat) : SecEnt := (secOf secs t).getD ⟨0, 0, 0, 0, 0⟩
  let tt := imgNum m 0x20 4
  { imageId := BitVec.ofNat 64 (imgNum m 0x10 8), slot := tt % 32, phys := bits tt 12 8, newSpare := bits tt 20 16,
    laneMap := readLaneMap m (sec 1) 8, buffer := readBuffer m (sec 5) 8,
    routes := (match secOf secs 9 with | some e => readRoutes m e | none => []) }

/-- The live tile map lets a tile image act (R65). -/
def State.tileTargetOk (s : State) (t : TileImage) : Bool :=
  let old := s.tileOf t.slot
  (t.phys == old || t.phys == s.spareTile)
    && (t.newSpare == 0x1F
      || (List.range 18).all (fun j => j == t.slot || s.tileOf j != t.newSpare))

/-- Verify the image in a buffer, in the order of R55. -/
def State.verify (s : State) (m : List Host.Cell) (kinds kindOk : List Nat) : Verdict :=
  match headerError m s.fuse kinds kindOk with
  | some e => .bad e 0
  | none =>
    let kind := imgNum m 6 1; let length := imgNum m 8 4; let secs := secTable m (imgNum m 0x0C 2)
    let t := readTile m secs
    let x : ChkCtx := ⟨kind, t.slot, secs, s.fuse, s.img.applied⟩
    if !signerOk m s.fuse (imgNum m 7 1) length secs then .bad 5 0
    else if !signatureOk m length secs then .bad 6 0
    else if !secTableOk kind length secs then .bad 7 0
    else
      match firstBadSec m x with
      | some i => .bad 8 i
      | none =>
        if kind = 1 then .full (readFull m secs)
        else if kind = 3 then .firmware
        else if s.tileTargetOk t then .tile t
        else .bad 9 0

/-- The kinds that a device state takes (R57). -/
def State.kindOk (s : State) : List Nat := if s.structured then [2] else [1]

end Sys2Proof.Machine
end

