-- ==== Sys2Proof/Machine/Repair.lean ====
section
/-! DEFINITION. Repair: the drain of a slot, engines replaced by their spares, and pages retired (R512 to R514, R521, R523). -/

namespace Sys2Proof.Machine

/-! ## The drain of a slot (R512) -/

/-- The logical ports of a slot. -/
def slotPorts (slot : Nat) : List Nat := (List.range 8).map (fun k => 8 * slot + k)

/-- The ports of a slot try to come up again. -/
def State.bringUpSlot (s : State) (slot : Nat) : State := (slotPorts slot).foldl (fun s p => s.tryBringUp p) s

/-- DRAIN: the slot's ports report level 15; a fenced tile is drained at once. A slot that was being drained before is
released. -/
def doDrain (slot : Nat) (s : State) : State :=
  let old := s.get Reg.repair Fld.repairSlot
  let was := s.flag Reg.repair Fld.repairDrain && old != slot
  let s := ((s.put Reg.repair Fld.repairSlot slot).put Reg.repair Fld.repairDrain 1).put Reg.repair Fld.repairDrained 0
  let gone := s.isFenced (.tile (s.tileOf slot))
  let s := { s with flt := { s.flt with drainWait := !gone } }.put Reg.repair Fld.repairDrained (b2n gone)
  if was then s.bringUpSlot old else s

/-- DRAIN. -/
def execDrain (slot : Fin 18) (s : State) : Answer := act s (doDrain slot)

/-- After `sdrain_us` the slot's ports go to OFF. -/
def doDrainWaitEnd (s : State) : State :=
  if s.flag Reg.repair Fld.repairDrain && s.flt.drainWait then
    (slotPorts (s.get Reg.repair Fld.repairSlot)).foldl (fun s p => s.tryOff p) { s with flt := { s.flt with drainWait := false } }
  else s

/-- DRAIN_WAIT_END. -/
def execDrainWaitEnd (s : State) : Answer := act s doDrainWaitEnd

/-- Every port of a slot is OFF, and its tile's pools and replay stores hold nothing. -/
def State.slotEmpty (s : State) (slot : Nat) : Bool :=
  (slotPorts slot).all (fun p => s.portState p == 0 && (s.link p).store.isEmpty && (s.link p).storePkts.isEmpty
    && (s.link p).txPkts.isEmpty && !s.wait.any (fun w => w.inPort == some p && w.charged))

/-- DRAINED sets once the slot is empty. -/
def doDrained (s : State) : State :=
  if s.flag Reg.repair Fld.repairDrain && !s.flt.drainWait && s.slotEmpty (s.get Reg.repair Fld.repairSlot) then
    s.put Reg.repair Fld.repairDrained 1
  else s

/-- DRAINED. -/
def execDrained (s : State) : Answer := act s doDrained

/-- DRAIN_CLEAR: the slot's ports return to DETECT on the same tile. -/
def doDrainClear (s : State) : State :=
  if s.flag Reg.repair Fld.repairDrain then
    let s := (s.put Reg.repair Fld.repairDrain 0).put Reg.repair Fld.repairDrained 0
    { s with flt := { s.flt with drainWait := false } }.bringUpSlot (s.get Reg.repair Fld.repairSlot)
  else s

/-- DRAIN_CLEAR. -/
def execDrainClear (s : State) : Answer := act s doDrainClear

/-! ## Spares (R513, R521) -/

/-- The units of a kind that are in service. -/
def kindCount (kind : Nat) : Nat := if kind = 1 then 16 else if kind = 2 then 32 else if kind = 3 then 16 else if kind = 4 then 64 else 0

/-- SPARE_GO: `go` in FAULT.SPARE. It is refused while a replacement runs, with no Sage core active, and for a unit that is not
in service. -/
def doSpareGo (v : Word) (s : State) : State :=
  if s.flag Reg.spare Fld.spareBusy then s.put Reg.spare Fld.spareSerr 3
  else
    let kind := Fld.spareKind.get v; let u := Fld.spareUnit.get v
    let s := (s.put Reg.spare Fld.spareKind kind).put Reg.spare Fld.spareUnit u
    if !s.sageUp then s.put Reg.spare Fld.spareSerr 4
    else if !s.structured || decide (kindCount kind ≤ u) then s.put Reg.spare Fld.spareSerr 2
    else s.startSpare kind u

/-- SPARE_GO. -/
def execSpareGo (value : BitVec 64) (s : State) : Answer := act s (doSpareGo value)

/-- SPARE_END. -/
def execSpareEnd (s : State) : Answer := act s State.finishSpare

/-! ## Pages (R514, R523) -/

/-- RETIRE: the page is named and its retirement begins. -/
def doRetire (n page : Nat) (s : State) : State :=
  s.ifStructured (Reg.hbmRetire n) (fun s => (s.put (Reg.hbmRetire n) Fld.hbmRetirePage page).retirePage n page)

/-- RETIRE. -/
def execRetire (n : Fin 4) (page : BitVec 25) (s : State) : Answer := act s (doRetire n page.toNat)

/-- RETIRE_END: the page has been copied; the lines of it that could not be read are poisoned. -/
def doRetireEnd (n : Nat) (bad : List Nat) (s : State) : State :=
  match Table.getD s.flt.retiring [] n with
  | [] => s
  | page :: rest =>
    let s := bad.foldl (fun s b => s.poison (64 * page + b % 64)) s
    let done := Table.getD s.flt.retired [] n ++ [page]
    let s := { s with flt := { s.flt with
      retired := Table.put s.flt.retired n done, retiring := Table.put s.flt.retiring n rest } }
    (s.put (Reg.hbmRetire n) Fld.hbmRetireBusy (b2n (!rest.isEmpty))).put (Reg.hbmRetire n) Fld.hbmRetireUsed done.length

/-- RETIRE_END. -/
def execRetireEnd (n : Fin 4) (bad : List Nat) (s : State) : Answer := act s (doRetireEnd n bad)

end Sys2Proof.Machine
end

