-- ==== Sys2Proof/Machine/Image.lean ====
section
/-! DEFINITION. Image: the IMAGE block: staging, load, apply, enable, flash fetch and fuse commands, and the channels of the
islands (R17, R34 to R40, R46 to R66, R579). -/

namespace Sys2Proof.Machine

/-! ## Commands and their ends (R56, R59) -/

/-- A command is in progress. -/
def State.imgBusy (s : State) : Bool := s.flag Reg.imgStatus Fld.imgStatusBusy

/-- Set `busy`, and what is in progress. -/
def State.imgBegin (s : State) (op : ImgOp) : State :=
  { s with img := { s.img with op := op } }.put Reg.imgStatus Fld.imgStatusBusy 1

/-- Nothing is in progress any more. -/
def State.imgIdle (s : State) : State :=
  { s with img := { s.img with op := .idle } }.put Reg.imgStatus Fld.imgStatusBusy 0

/-- A command ends, or is refused: `done`, or `fail` with an error code, and the PF0 image event. -/
def State.imgEnd (s : State) (err : Nat) : State :=
  let s := (s.put Reg.imgStatus Fld.imgStatusDone (b2n (err == 0))).put Reg.imgStatus Fld.imgStatusFail (b2n (err != 0))
  (if err = 0 then s else s.put Reg.imgStatus Fld.imgStatusError err).raiseEvent 0

/-- A failed verification: its code, and for code 8 the section's index. -/
def State.imgBad (s : State) (err sec : Nat) : State :=
  (if err = 8 then s.put Reg.imgStatus Fld.imgStatusErrSection sec else s).imgEnd err

/-- TEST_EN was sampled as 1 (R563). -/
def State.testEn (s : State) : Bool := s.flag Reg.strap Fld.strapTestEn

/-- A command given while busy, or in test, is refused (R56, R563). -/
def State.imgCmd (s : State) (f : State → State) : State :=
  if s.imgBusy then s.imgEnd 10 else if s.testEn then s.imgEnd 9 else f s

/-- No image is held as verified. -/
def State.dropVerified (s : State) : State := { s with img := { s.img with verifiedFull := none, verifiedTile := none } }

/-! ## Staging (R53) -/

/-- A write to the staging window ends every verification; while busy it is discarded. -/
def doStagingWrite (off : Nat) (data : List Byte) (s : State) : State :=
  if s.imgBusy then s
  else { s with img := { s.img with staging := writeBytes s.img.staging 0 off (data.take (2 ^ 24 - off)) } }.dropVerified

/-- STAGING_WRITE. -/
def execStagingWrite (off : Nat) (data : List Byte) (s : State) : Answer := act s (doStagingWrite off data)

/-! ## Load (R55, R57) -/

/-- LOAD: verification of the staged image begins. -/
def doLoad (s : State) : State := s.imgCmd (fun s => s.imgBegin .load)

/-- LOAD. -/
def execLoad (s : State) : Answer := act s doLoad

/-- A verification ends: the image is held, or the first failure is reported; the second part tells whether it verified. `apply` takes
a tile image from a `load` only, so one that `flash_load` verified is not held (R579). -/
def State.takeVerdict (s : State) (source : Nat) : State × Option Verdict :=
  let v := s.verify s.img.staging [1, 2] s.kindOk
  match v with
  | .full c =>
    let s := { s with img := { s.img with verifiedFull := some ⟨c, source⟩, verifiedTile := none } }
    (if s.imgState = 0 then s.put Reg.imgStatus Fld.imgStatusState 1 else s, none)
  | .tile t => ({ s with img := { s.img with verifiedTile := if source = 1 then some t else none } }, none)
  | v => (s.dropVerified, some v)

/-- Verification of a load ends. -/
def doLoadEnd (hbmOk : Bool) (s : State) : State :=
  if s.img.op ≠ .load then s
  else
    let s := s.imgIdle
    if !hbmOk then s.dropVerified.imgEnd 12
    else
      match s.takeVerdict 1 with
      | (s, none) => s.imgEnd 0
      | (s, some (.bad e i)) => s.imgBad e i
      | (s, some _) => s.imgEnd 1

/-- LOAD_END. -/
def execLoadEnd (hbmOk : Bool) (s : State) : Answer := act s (doLoadEnd hbmOk)

/-! ## Apply (R40, R65, R66, R579) -/

/-- The slot of a tile image is drained (R65, R512). -/
def State.slotDrained (s : State) (slot : Nat) : Bool :=
  s.flag Reg.repair Fld.repairDrain && s.flag Reg.repair Fld.repairDrained && s.get Reg.repair Fld.repairSlot == slot

/-- APPLY: the image that the state selects, or error 9. -/
def doApply (s : State) : State :=
  s.imgCmd (fun s =>
    if s.structured then
      match s.img.verifiedTile with
      | some t => if s.slotDrained t.slot && s.tileTargetOk t then s.imgBegin (.applyTile t) else s.imgEnd 9
      | none => s.imgEnd 9
    else if s.imgState = 1 then
      match s.img.verifiedFull, s.img.retained with
      | some i, _ => s.imgBegin (.applyFull i false)
      | none, some i => s.imgBegin (.applyFull i true)
      | none, none => s.imgEnd 9
    else s.imgEnd 9)

/-- APPLY. -/
def execApply (s : State) : Answer := act s doApply

/-- Every island leaves reset with its clock locked and its state loaded (R17); the Bay island never stopped. -/
def State.islandsReady (s : State) : Table Island :=
  (List.range 74).map (fun i => (i, if i = 37 then s.island 37 else ⟨false, true, true, false, 0, false⟩))

/-- The draw of an incarnation: never 0 and never the one before (R230). -/
def State.drawInc (s : State) : State :=
  let n := (Config.entropy s.freeCtr).toNat
  let ok (v : Nat) : Bool := v != 0 && v != s.xp.prevInc
  let v := if ok n then n else if ok ((n + 1) % 2 ^ 16) then (n + 1) % 2 ^ 16 else (n + 2) % 2 ^ 16
  let s := { s with freeCtr := s.freeCtr + 1, xp := { s.xp with prevInc := v } }
  s.setWord Reg.xportInc (BitVec.ofNat 64 v)

/-- The pools of the coherent region (R414): G is its size in GiB. -/
def poolReset (g : Nat) : Word :=
  BitVec.ofNat 64 (min 16 g + min 16 g <<< 5 + min 4095 (64 * g) <<< 10 + min 1023 (16 * g) <<< 22)

/-- A full image is put in force: the islands are configured and the blocks start from the image (R13, R46 to R48, R64, R208,
R226, R230, R257, R414, R486). `qmode` may be a locked value of before a warm reset, and ARB_QUOTA follows it (R69, R72). -/
def State.applyFull (s : State) (i : FullImage) (retained : Bool) : State :=
  let c := i.config
  let keep := retained && s.spareMap.isSome
  let s := { s with
    img := { s.img with applied := some c, retained := some i, verifiedFull := none, verifiedTile := none }
    islands := s.islandsReady, applyNs := s.now
    engMap := if keep then s.engMap else c.engines
    spareMap := if keep then s.spareMap else none
    tileMap := c.tileMap, spareTile := c.spareTile
    route := { RouteSt.init with
      activeBank := c.routes.foldl (fun t (r : Nat × List Nat) => Table.put t r.1 r.2) []
      shadowBank := c.routes.foldl (fun t (r : Nat × List Nat) => Table.put t r.1 r.2) [] }
    xp := { XportSt.init with prevInc := s.xp.prevInc } }.drawInc
  let s := (s.put Reg.imgStatus Fld.imgStatusState 2).put Reg.imgStatus Fld.imgStatusSource i.source
  let s := s.setWord Reg.imgId c.imageId
  let s := s.put Reg.shapeCtrl Fld.shapeCtrlMode (b2n (decide (16 < c.topo.groups)))
  let s := s.setWord Reg.cohRegion (BitVec.ofNat 64 (c.cohGib + (Config.coherentBase c.cohGib).toNat <<< 8
    + (Config.directoryBase c.cohGib).toNat <<< 16))
  ((s.setWord Reg.matchPool (poolReset c.cohGib)).fillPools (poolReset c.cohGib)).rederive Reg.exchCtrl

/-- The records of a tile image take the place of its slot's in a full image's contents; ROUTES records replace those of their
groups (log 44). -/
def ImgConfig.fold (c : ImgConfig) (t : TileImage) : ImgConfig :=
  { c with
    laneMap := c.laneMap.take (8 * t.slot) ++ t.laneMap ++ c.laneMap.drop (8 * t.slot + 8)
    buffer := c.buffer.take (8 * t.slot) ++ t.buffer ++ c.buffer.drop (8 * t.slot + 8)
    tileMap := setIdx c.tileMap t.slot t.phys, spareTile := t.newSpare
    routes := c.routes.filter (fun r => !(t.routes.any (fun q => q.1 == r.1))) ++ t.routes }

/-- A port of a slot that a tile image has moved starts afresh: bring-up, link layer, and its output's pending queue, window
count and counters (R66, R153). -/
def State.freshSlotPort (s : State) (p : Nat) : State :=
  let s := ((s.setPort p PortSt.init).setLink p LinkSt.init).setOut p OutSt.init
  ((s.setWord (Reg.outCnt0 p) 0).setWord (Reg.outCnt1 p) 0).setWord (Reg.outHwm p) 0

/-- A tile image is put in force: the slot's lanes move to the named tile, whose ports begin bring-up; the tile that leaves
service is fenced; the drain is cleared (R65, R66, R208, R512). -/
def State.applyTile (s : State) (t : TileImage) : State :=
  let old := s.tileOf t.slot
  let img := s.img
  let s := { s with
    img := { img with verifiedTile := none, applied := img.applied.map (fun (c : ImgConfig) => c.fold t)
                      retained := img.retained.map (fun (r : FullImage) => { r with config := r.config.fold t }) }
    tileMap := setIdx s.tileMap t.slot t.phys, spareTile := t.newSpare
    route := { s.route with shadowBank := t.routes.foldl (fun b (r : Nat × List Nat) => Table.put b r.1 r.2) s.route.shadowBank } }
  let s := if t.phys = old then s
    else
      let s := if s.isFenced (.tile old) then s else (s.addFence (.tile old)).fenceEndpoint old
      { s with fenced := s.fenced.filter (fun u => u != .tile t.phys) }
  let s := s.forAll (slotPorts t.slot) State.freshSlotPort
  let s := s.setWord Reg.imgTileId t.imageId
  let s := (s.put Reg.repair Fld.repairDrain 0).put Reg.repair Fld.repairDrained 0
  { s with flt := { s.flt with drainWait := false } }.bringUpSlot t.slot

/-- An apply ends. -/
def doApplyEnd (hbmOk : Bool) (s : State) : State :=
  match s.img.op with
  | .applyFull i retained => if hbmOk then (s.imgIdle.applyFull i retained).imgEnd 0 else s.imgIdle.imgEnd 12
  | .applyTile t => if hbmOk then (s.imgIdle.applyTile t).imgEnd 0 else s.imgIdle.imgEnd 12
  | _ => s

/-- APPLY_END. -/
def execApplyEnd (hbmOk : Bool) (s : State) : Answer := act s (doApplyEnd hbmOk)

/-- An island that has left reset opens its channels once its clock has locked and its state is loaded (R17). Ports that waited for
their tile or their macros leave OFF. -/
def doIslandChannelsOpen (i : Nat) (s : State) : State :=
  let x := s.island i
  if !x.inReset && x.clockLocked && x.loaded then
    let s := s.setIsland i { x with channelsOpen := true }
    allPorts.foldl (fun s p => s.tryBringUp p) s
  else s

/-- ISLAND_CHANNELS_OPEN. -/
def execIslandChannelsOpen (isl : Fin 74) (s : State) : Answer := act s (doIslandChannelsOpen isl)

/-! ## Enable (R38, R68) -/

/-- The lock bit of a register of R69. -/
def lockBitField (off : Nat) : Field :=
  if off = 0x80000 then Fld.faultCtrlLock else if off = 0x200000 then Fld.exchCtrlLock
  else if off = 0x1200000 then Fld.collCtrlLock else Fld.hostCtrlLock

/-- ENABLE: the LOCKS registers are locked, and every port begins bring-up. -/
def doEnable (s : State) : State :=
  s.imgCmd (fun s =>
    if s.imgState ≠ 2 then s.imgEnd 9
    else
      let s := s.put Reg.imgStatus Fld.imgStatusState 3
      let s := (match s.img.applied with | some c => c.locks | none => []).foldl (fun (s : State) a => s.put a (lockBitField a) 1) s
      (allPorts.foldl (fun (s : State) p => s.tryBringUp p) s).imgEnd 0)

/-- ENABLE. -/
def execEnable (s : State) : Answer := act s doEnable

/-! ## Flash (R54, R58, R64) -/

/-- The offset of a copy in the board flash. -/
def flashBase (secondary : Bool) : Nat := if secondary then 0x1000000 else 0

/-- The bytes that a fetch brings: those that the copy's header declares, 16 MiB at most and the header at least (log 45). -/
def State.fetchLen (s : State) (base : Nat) : Nat :=
  max 64 (min (2 ^ 24) (leNat (readBytes s.img.flash 0xFF (base + 8) 4)))

/-- The copy is staged; unwritten flash reads 0xFF (log 5). -/
def State.stageFlash (s : State) (secondary : Bool) : State :=
  let base := flashBase secondary
  { s with img := { s.img with
    staging := writeBytes s.img.staging 0 0 (readBytes s.img.flash 0xFF base (s.fetchLen base)) } }.dropVerified

/-- A `flash_load` asks whether a flash operation of the sideband port is in progress (R558): one that has not ended by then is, and
one that has ended is so for good. -/
def State.flashInUse (s : State) : Bool × State :=
  if !s.side.flashing then (false, s)
  else
    let on := Config.flashOpGoesOn s.freeCtr
    (on, { s with freeCtr := s.freeCtr + 1, side := { s.side with flashing := on } })

/-- FLASH_LOAD: during a flash operation of the sideband port it fails (R558). -/
def doFlashLoad (secondary : Bool) (s : State) : State :=
  s.imgCmd (fun s =>
    match s.flashInUse with
    | (true, s) => s.imgEnd 10
    | (false, s) => (s.put Reg.imgCtrl Fld.imgCtrlFlashCopy (b2n secondary)).imgBegin (.fetch secondary false))

/-- FLASH_LOAD. -/
def execFlashLoad (secondary : Bool) (s : State) : Answer := act s (doFlashLoad secondary)

/-- A copy has failed: at boot the secondary copy is tried, and after both the first copy's error stands (R54). -/
def State.fetchFailed (s : State) (secondary boot : Bool) (err sec : Nat) : State :=
  if !boot then s.imgIdle.imgBad err sec
  else if !secondary then { s with img := { s.img with bootError := err + 16 * sec } }.imgBegin (.fetch true true)
  else (s.imgIdle.put Reg.imgStatus Fld.imgStatusSource 0).imgBad (s.img.bootError % 16) (s.img.bootError / 16)

/-- A flash fetch ends, and its copy is verified; at boot the first copy that verifies is applied. -/
def doFlashFetchEnd (readOk : Bool) (s : State) : State :=
  match s.img.op with
  | .fetch secondary boot =>
    if !readOk then s.dropVerified.fetchFailed secondary boot 11 0
    else
      match (s.stageFlash secondary).takeVerdict (2 + b2n secondary) with
      | (s, none) =>
        if !boot then s.imgIdle.imgEnd 0
        else
          match s.img.verifiedFull with
          | some i => s.imgBegin (.applyFull i false)
          | none => s.imgIdle
      | (s, some (.bad e i)) => s.fetchFailed secondary boot e i
      | (s, some _) => s.fetchFailed secondary boot 1 0
  | _ => s

/-- FLASH_FETCH_END. -/
def execFlashFetchEnd (readOk : Bool) (s : State) : Answer := act s (doFlashFetchEnd readOk)

/-! ## Fuses (R51, R52, R61) -/

/-- The hash that FUSE_DATA0 to FUSE_DATA5 hold: bytes 0 to 7 in the first; in SHA-384's order the first byte is the most
significant. -/
def State.fuseHash (s : State) : BitVec 384 :=
  BitVec.ofNat 384 (beNat (((List.range 6).map (fun w => leBytes (s.word (Reg.fuseData w)).toNat 8)).flatten))

/-- A fuse command that is ignored posts a "locked write" event. -/
def State.fuseIgnored (s : State) : State := s.notice 62 Reg.fuseCtrl

/-- A fuse command: refused while busy, ignored outside INERT, with a wrong confirmation or where the fuse may not be blown;
else programming starts. -/
def State.fuseCmd (s : State) (confirm : Nat) (may : Bool) (op : ImgOp) : State :=
  if s.imgBusy then s.imgEnd 10
  else if s.imgState ≠ 0 ∨ confirm ≠ 0xF05E ∨ !may then s.fuseIgnored
  else (s.imgBegin op).put Reg.imgStatus Fld.imgStatusFuseBusy 1

/-- The written fields of FUSE_CTRL. -/
def State.putFuseCtrl (s : State) (confirm slot : Nat) (revoke reqCust : Bool) : State :=
  s.setWord Reg.fuseCtrl (BitVec.ofNat 64 (slot + b2n revoke <<< 2 + b2n reqCust <<< 3 + confirm <<< 16))

/-- A customer slot is programmed and not revoked (R52). -/
def Fuses.custUsable (f : Fuses) : Bool := [1, 2, 3].any (fun k => bit f.programmed k && !bit f.revoked k)

/-- FUSE_PROGRAM: the hash of a customer slot. -/
def doFuseProgram (confirm slot : Nat) (s : State) : State :=
  let s := s.putFuseCtrl confirm slot false false
  s.fuseCmd confirm (slot != 0 && !bit s.fuse.programmed slot) (.fuse slot false false s.fuseHash)

/-- FUSE_PROGRAM. -/
def execFuseProgram (confirm : BitVec 16) (slot : Fin 4) (s : State) : Answer := act s (doFuseProgram confirm.toNat slot)

/-- FUSE_REVOKE: the revoke bit of a slot. -/
def doFuseRevoke (confirm slot : Nat) (s : State) : State :=
  let s := s.putFuseCtrl confirm slot true false
  s.fuseCmd confirm (!bit s.fuse.revoked slot && (slot != 0 || s.fuse.custUsable)) (.fuse slot true false 0)

/-- FUSE_REVOKE. -/
def execFuseRevoke (confirm : BitVec 16) (slot : Fin 4) (s : State) : Answer := act s (doFuseRevoke confirm.toNat slot)

/-- FUSE_REQ_CUST: the `require_cust` fuse. -/
def doFuseReqCust (confirm : Nat) (s : State) : State :=
  let a := s.word Reg.fuseCtrl
  let s := s.putFuseCtrl confirm (Fld.fuseCtrlSlot.get a) (Fld.fuseCtrlRevoke.get a == 1) true
  s.fuseCmd confirm (!s.fuse.requireCust) (.fuse 0 false true 0)

/-- FUSE_REQ_CUST. -/
def execFuseReqCust (confirm : BitVec 16) (s : State) : Answer := act s (doFuseReqCust confirm.toNat)

/-- What the fuses hold after programming that did not read back is not stated: free values (log 6). -/
def State.freeFuse (s : State) (slot : Nat) (revoke reqCust : Bool) : State :=
  let (w, s) := s.fresh
  let b := w.toNat % 2
  if reqCust then { s with fuse := { s.fuse with requireCust := s.fuse.requireCust || b == 1 } }
  else if revoke then { s with fuse := { s.fuse with revoked := s.fuse.revoked ||| b <<< slot } }
  else
    let (h, s) := (List.range 6).foldl (fun (x : Nat × State) _ =>
      let (v, t) := x.2.fresh
      (x.1 * 2 ^ 64 + v.toNat, t)) (0, s)
    { s with fuse := { s.fuse with
      keyHash := setIdx s.fuse.keyHash slot (BitVec.ofNat 384 h), programmed := s.fuse.programmed ||| b <<< slot } }

/-- Fuse programming ends. -/
def State.fuseDone (s : State) (readback : Bool) : State :=
  match s.img.op with
  | .fuse slot revoke reqCust hash =>
    let s := s.imgIdle.put Reg.imgStatus Fld.imgStatusFuseBusy 0
    if !readback then (s.freeFuse slot revoke reqCust).imgEnd 13
    else
      let f := s.fuse
      let f := if reqCust then { f with requireCust := true }
        else if revoke then { f with revoked := f.revoked ||| 1 <<< slot }
        else { f with keyHash := setIdx f.keyHash slot hash, programmed := f.programmed ||| 1 <<< slot }
      { s with fuse := f }.imgEnd 0
  | _ => s

end Sys2Proof.Machine
end

