-- ==== Sys2Proof/Machine/Power.lean ====
section
/-! DEFINITION. Power: the VDD_CORE regulator over AVSBus and the loss of standby power (R543, R544, R547, R568). -/

namespace Sys2Proof.Machine

/-- Islands whose raise waits for the rail go on where VDD_CORE now allows it. -/
def State.releaseRaises (s : State) : State :=
  digitalIslands.foldl (fun s i => if (s.island i).rising && s.railAllows (s.island i) then s.raiseIsland i else s) s

/-- The regulator acknowledges a request and settles: VDD_CORE has the new setting, and an island may raise its setpoint. -/
def doAvsAcknowledge (s : State) : State :=
  if !s.side.avsBusy then s
  else
    let s := s.put Reg.avs Fld.avsCoreSet s.side.avsSet
    { s with side := { s.side with avsBusy := false, avsTries := 0 } }.releaseRaises.askRail

/-- AVSBUS_ACKNOWLEDGE. -/
def execAvsbusAcknowledge (s : State) : Answer := act s doAvsAcknowledge

/-- A request is unanswered for 100 us, or failed: it is tried twice more, and then AVS has failed; no island raises its
setpoint further. -/
def doAvsTimeout (s : State) : State :=
  if !s.side.avsBusy then s
  else
    let s := s.bump Reg.avs Fld.avsAvsErr 1
    let n := s.side.avsTries + 1
    if n < 3 then { s with side := { s.side with avsTries := n } }.emit (.avs s.side.avsSet)
    else
      let s := { s with side := { s.side with avsBusy := false, avsTries := 0 } }
      let s := (s.put Reg.avs Fld.avsAvsFail 1).postFree 629 4 2
      digitalIslands.foldl (fun s i =>
        if (s.island i).rising then s.setIsland i { (s.island i) with rising := false } else s) s

/-- AVS_TIMEOUT. -/
def execAvsTimeout (s : State) : Answer := act s doAvsTimeout

/-- VSB_LOSS: the device is gone until it is powered again. -/
def execVsbLoss (s : State) : Answer := act s (fun s => { s with powered := false })

end Sys2Proof.Machine
end

