-- ==== Sys2Proof/Machine/Reset.lean ====
section
/-! DEFINITION. Reset: cold and warm reset, and what waits for fuse programming to end (R34, R40, R51, R54, R551, R552, R554,
R569). -/

namespace Sys2Proof.Machine

/-! ## Cold reset -/

/-- The `last` value of BAY.RESET for a cold reset (R569). -/
def coldLast : ColdCause → Nat
  | .powerOn => 0 | .pin => 1 | .sideband => 2 | .register => 3

/-- BAY.STRAP holds the sampled straps (R554, R567). -/
def strapWord (x : Straps) : Word :=
  BitVec.ofNat 64 (x.smbAddr.val + x.boot.val <<< 3 + b2n x.hrefMode <<< 5 + b2n x.testEn <<< 6)

/-- Every fabric port goes to OFF: its lanes are idle and its receivers high-impedance while the device is in reset (R34, R578). -/
def State.portsOff (s : State) : State :=
  allPorts.foldl (fun s p =>
    if s.terminates p then (s.forAll (s.portLanes p) (fun s k => s.emit (.laneIdle k))).terminate p false else s) s

/-- Cold reset: everything but the fuses and the board's flash is as after power-on, the straps are sampled, and flash boot
begins where they select it. -/
def State.cold (s : State) (cause : ColdCause) (x : Straps) : State :=
  let t := s.portsOff
  let t : State := { State.reset with
    pending := t.pending, out := t.out, freeCtr := t.freeCtr, fuse := t.fuse
    img := { ImageSt.init with flash := t.img.flash }, xp := { XportSt.init with prevInc := t.xp.prevInc } }
  let t := (t.setWord Reg.strap (strapWord x)).put Reg.bayReset Fld.bayResetLast (coldLast cause)
  if x.boot.val = 3 then t.postFree 634 4 2
  else if x.boot.val = 1 then (if x.testEn then t.imgEnd 9 else t.imgBegin (.fetch false true))
  else t

/-- A cold reset; one asked for while fuses are programmed waits for their end (R552). -/
def doColdReset (cause : ColdCause) (x : Straps) (s : State) : State :=
  match s.img.op with
  | .fuse _ _ _ _ =>
    if cause = .powerOn then s.cold cause x
    else if s.img.coldPending.isSome then s else { s with img := { s.img with coldPending := some (cause, x) } }
  | _ => s.cold cause x

/-- COLD_RESET: power-on brings a device back that had lost VSB. -/
def execColdReset (cause : ColdCause) (straps : Straps) (s : State) : Answer :=
  actReset (if cause = .powerOn then { s with powered := true } else s) (doColdReset cause straps)

/-- FUSE_END: programming ends, and a cold reset that waited takes effect. -/
def doFuseEnd (readback : Bool) (s : State) : State :=
  let t := s.fuseDone readback
  match t.img.op, t.img.coldPending with
  | .idle, some (c, x) => t.cold c x
  | _, _ => t

/-- FUSE_END. -/
def execFuseEnd (readback : Bool) (s : State) : Answer := actFuse s (doFuseEnd readback)

/-! ## Warm reset -/

/-- The `last` value of BAY.RESET for a warm reset. -/
def warmLast : WarmCause → Nat
  | .pin => 4 | .sideband => 5 | .register => 6

/-- Registers that a warm reset leaves: the Bay island's, with the sensors that it samples, and the host links'. -/
def warmKeeps (a : Nat) : Bool :=
  decide (a < 0x40000) || decide (0x109000 ≤ a ∧ a < 0x10A000) || decide (0xA00000 ≤ a ∧ a < 0xA40000)

/-- The RWL fields and the lock bit of a register of R69. -/
def rwlFields (a : Nat) : List Field :=
  if a = 0x80000 then [Fld.faultCtrlExpert, Fld.faultCtrlForceCap, Fld.faultCtrlAutoSpare, Fld.faultCtrlLock]
  else if a = 0x200000 then [Fld.exchCtrlExpert, Fld.exchCtrlQmode, Fld.exchCtrlLock]
  else if a = 0x1200000 then [Fld.collCtrlExpert, Fld.collCtrlSafeWave, Fld.collCtrlLock]
  else [Fld.hostCtrlExpert, Fld.hostCtrlPfEvents, Fld.hostCtrlMgrEn, Fld.hostCtrlLock]

/-- A locked register keeps its RWL fields and its lock (R69). -/
def State.keepLocked (old : State) (a : Nat) (s : State) : State :=
  if old.flag a (lockBitField a) then (rwlFields a).foldl (fun s f => s.put a f (old.get a f)) s else s

/-- Basic fields written while `expert` was set still wait after a warm reset where the register itself is kept, or its `expert` is
locked set (R69, R73). -/
def State.heldOn (s : State) (a : Nat) : Bool :=
  warmKeeps a || ([0x80000, 0x200000, 0x1200000].contains a && s.flag a (lockBitField a) && bit (s.word a).toNat 0)

/-- What the IMAGE block is after a warm reset (R40, R552). The bytes of an abandoned load or fetch are discarded: the staging buffer then
reads zero (log 123). Fuse programming goes on, with `busy` and `fuse_busy` set (log 124). -/
def State.warmImage (s : State) : ImageSt :=
  let i := s.img
  match i.op with
  | .load => { i with staging := [], verifiedTile := none, applied := none, op := .idle }
  | .fetch _ _ => { i with staging := [], verifiedTile := none, applied := none, op := .idle }
  | .fuse _ _ _ _ => { i with verifiedTile := none, applied := none }
  | _ => { i with verifiedTile := none, applied := none, op := .idle }

/-- An address of a PORT_STAT register. -/
def isPortStat (a : Nat) : Bool :=
  match regAt a with
  | some (d, _, _) => d.base == RegD.portStat.base
  | none => false

/-- `degrade_count` counts since cold reset (R106). -/
def State.keepDegrades (old t : State) : State :=
  (old.regs.filter (fun r => old.get r.1 Fld.portStatDegradeCount != 0 && isPortStat r.1)).foldl (fun t r =>
    t.put r.1 Fld.portStatDegradeCount (old.get r.1 Fld.portStatDegradeCount)) t

/-- Warm reset: the Bay island, the host links, the retained image, locked values, the live spare map and the fuses stay;
the device returns to LOADED, or stays in INERT (R35). -/
def State.warm (s : State) (cause : WarmCause) : State :=
  let s := s.portsOff
  let i := s.warmImage
  let t : State := { State.reset with
    pending := s.pending, out := s.out, freeCtr := s.freeCtr, now := s.now, fuse := s.fuse, fenced := s.fenced
    islands := [(37, s.island 37)], engMap := s.engMap, spareMap := s.spareMap, tileMap := s.tileMap, spareTile := s.spareTile
    regs := s.regs.filter (fun r => warmKeeps r.1), basicHeld := s.basicHeld.filter (fun r => s.heldOn r.1), img := i, hosts := s.hosts, side := s.side
    xp := { XportSt.init with prevInc := s.xp.prevInc }, rma := { RmaSt.init with hbm := s.rma.hbm }
    flt := { FaultSt.init with
      ownActive := s.flt.ownActive.filter (fun m => decide (628 ≤ m.src.val)), forcedLanes := s.flt.forcedLanes } }
  let t := s.keepDegrades ([0x80000, 0x200000, 0x1200000].foldl (fun t a => s.keepLocked a t) t)
  let t := (t.put Reg.imgStatus Fld.imgStatusState (min 1 s.imgState)).put Reg.imgStatus Fld.imgStatusSafe 0
  let t := t.put Reg.imgStatus Fld.imgStatusBusy (b2n (i.op != .idle))
  (t.noteIslMax.put Reg.bayReset Fld.bayResetLast (warmLast cause)).bump Reg.bayReset Fld.bayResetWarmCount 1

/-- A warm reset; one asked for during a cold reset is ignored (R552). -/
def doWarmReset (cause : WarmCause) (s : State) : State := if s.img.coldPending.isSome then s else s.warm cause

/-- WARM_RESET. -/
def execWarmReset (cause : WarmCause) (s : State) : Answer := actReset s (doWarmReset cause)

/-- A confirmed write of `warm` in BAY.RESET (R569). -/
def doBayResetWarm (confirm : Nat) (s : State) : State := if confirm = 0xA5C3 then doWarmReset .register s else s

/-- BAY_RESET_WARM. -/
def execBayResetWarm (confirm : BitVec 16) (s : State) : Answer := actReset s (doBayResetWarm confirm.toNat)

/-- A confirmed write of `cold` in BAY.RESET (R569). -/
def doBayResetCold (confirm : Nat) (x : Straps) (s : State) : State := if confirm = 0xA5C3 then doColdReset .register x s else s

/-- BAY_RESET_COLD. -/
def execBayResetCold (confirm : BitVec 16) (straps : Straps) (s : State) : Answer :=
  actReset s (doBayResetCold confirm.toNat straps)

end Sys2Proof.Machine
end

