-- ==== Sys2Proof/Machine/Sage.lean ====
section
/-! DEFINITION. Sage: the supervisor pair: heartbeats, takeover, firmware and role swap (R506 to R510, R522). -/

namespace Sys2Proof.Machine

/-! ## Heartbeats and takeover (R507, R508) -/

/-- The active core's firmware has written its journal (R506): which epoch it last committed is free (log 119). -/
def State.journalWritten (s : State) : State :=
  let (v, s) := s.fresh
  s.put Reg.sageStat Fld.sageStatEpoch v.toNat

/-- A heartbeat of the active core. The standby is then in step with the journal, unless it is fenced or being loaded (log 46). -/
def doHeartbeat (core : Nat) (s : State) : State :=
  if s.sageActive ≠ core ∨ !s.sageUp then s
  else
    let s := { s with flt := { s.flt with sage := { s.flt.sage with beatAt := s.now } } }.journalWritten
    if s.isFenced (.sage (1 - core)) || s.flt.sage.loading then s else s.put Reg.sageStat Fld.sageStatStandbyOk 1

/-- HEARTBEAT. -/
def execHeartbeat (core : Fin 2) (s : State) : Answer := act s (doHeartbeat core.val)

/-- HEARTBEAT_MISS: 20 heartbeats in a row have been missed. -/
def execHeartbeatMiss (s : State) : Answer := act s State.takeover

/-- TAKEOVER_END: the standby is active. -/
def doTakeoverEnd (s : State) : State :=
  if s.flag Reg.sageStat Fld.sageStatTakeover then
    let s := (s.put Reg.sageStat Fld.sageStatActive (1 - s.sageActive)).put Reg.sageStat Fld.sageStatTakeover 0
    ((s.put Reg.sageStat Fld.sageStatStandbyOk 0).bump Reg.sageStat Fld.sageStatTakeovers 1).raiseEvent 18
  else s

/-- TAKEOVER_END. -/
def execTakeoverEnd (s : State) : Answer := act s doTakeoverEnd

/-! ## Commands (R509, R510, R522) -/

/-- A SAGE command: refused while a takeover runs, and with no active core; while one is in progress it is ignored. -/
def State.sageCmd (s : State) (f : State → State) : State :=
  if s.flag Reg.sageStat Fld.sageStatTakeover then s.put Reg.sageCmd Fld.sageCmdSerr 1
  else if !s.sageUp then s.put Reg.sageCmd Fld.sageCmdSerr 2
  else if s.flag Reg.sageCmd Fld.sageCmdBusy then s
  else f s

/-- A firmware image is valid: the header with kind 3, the key, the signature and the section table (R510). -/
def State.firmwareOk (s : State) : Bool :=
  match s.verify s.flt.sage.fw [3] [3] with
  | .firmware => true
  | _ => false

/-- FW_LOAD: the staged firmware is verified and installed in the standby, which restarts. -/
def doFwLoad (s : State) : State :=
  s.sageCmd (fun s =>
    if !s.flag Reg.sageStat Fld.sageStatStandbyOk then s.put Reg.sageCmd Fld.sageCmdSerr 3
    else if !s.firmwareOk then s.put Reg.sageCmd Fld.sageCmdSerr 5
    else
      let s := { s with flt := { s.flt with sage := { s.flt.sage with loading := true } } }
      ((s.put Reg.sageCmd Fld.sageCmdSerr 0).put Reg.sageCmd Fld.sageCmdBusy 1).put Reg.sageStat Fld.sageStatStandbyOk 0)

/-- FW_LOAD. -/
def execFwLoad (s : State) : Answer := act s doFwLoad

/-- FW_LOAD_END: the standby has caught up, or its journal format differs and the image is refused. -/
def doFwLoadEnd (sameFormat : Bool) (s : State) : State :=
  if !s.flt.sage.loading then s
  else
    let s := { s with flt := { s.flt with sage := { s.flt.sage with loading := false } } }.put Reg.sageCmd Fld.sageCmdBusy 0
    let s := if sameFormat then s else s.put Reg.sageCmd Fld.sageCmdSerr 4
    s.put Reg.sageStat Fld.sageStatStandbyOk 1

/-- FW_LOAD_END. -/
def execFwLoadEnd (sameFormat : Bool) (s : State) : Answer := act s (doFwLoadEnd sameFormat)

/-- SWAP: the active core writes a commit record and stops, and the standby takes over without a rebuild. -/
def doSwap (s : State) : State :=
  s.sageCmd (fun s =>
    if !s.flag Reg.sageStat Fld.sageStatStandbyOk then s.put Reg.sageCmd Fld.sageCmdSerr 3
    else
      ((s.put Reg.sageCmd Fld.sageCmdSerr 0).put Reg.sageStat Fld.sageStatActive (1 - s.sageActive)).put Reg.sageStat
        Fld.sageStatEpoch (s.get Reg.sageStat Fld.sageStatEpoch + 1))

/-- SWAP. -/
def execSwap (s : State) : Answer := act s doSwap

/-- RESTART: the fenced core is reloaded, catches up on the journal and becomes the standby. -/
def doRestart (s : State) : State :=
  s.sageCmd (fun s =>
    let c := 1 - s.sageActive
    let s := s.put Reg.sageCmd Fld.sageCmdSerr 0
    if s.isFenced (.sage c) then
      { s with fenced := s.fenced.filter (fun u => u != FUnit.sage c) }.put Reg.sageStat Fld.sageStatStandbyOk 1
    else s)

/-- RESTART. -/
def execRestart (s : State) : Answer := act s doRestart

end Sys2Proof.Machine
end

