-- ==== Sys2Proof/Machine/Read.lean ====
section
/-! DEFINITION. Read: what registers and windows read as: the stored words, with the fields that the device computes from its
state put over them (R11, R12, R23 to R28, R37, and the register sections of every chapter). -/

namespace Sys2Proof.Machine

/-! ## Counting -/

/-- How many registers of a list of addresses hold a value that passes. -/
def State.countRegs (s : State) (lo hi step : Nat) (f : Word → Bool) : Nat :=
  (s.regs.filter (fun r => decide (lo ≤ r.1 ∧ r.1 < hi ∧ (r.1 - lo) % step = 0) && f r.2)).length

/-- A word with bit `b` set where `f b` holds. -/
def bitWord (f : Nat → Bool) : Word := BitVec.ofNat 64 ((List.range 64).foldl (fun n b => if f b then n + 2 ^ b else n) 0)

/-- The word that eight bytes spell. -/
def wordOf (l : List Byte) : Word := BitVec.ofNat 64 (leNat (l.take 8))

/-! ## Identity, image, Bay (R23 to R27, R50, R62) -/

/-- IDENT.VERSION. -/
def Fuses.version (f : Fuses) : Word := BitVec.ofNat 64 (f.stepping % 256 + f.grade <<< 8 + f.keyopt <<< 16 + 1 <<< 24)

/-- IDENT.UNITS: how many units of each kind are good. -/
def Fuses.units (f : Fuses) : Word :=
  BitVec.ofNat 64 (popcount f.okTiles 19 + popcount f.okRae 17 <<< 8 + popcount f.okDill 34 <<< 16 + popcount f.okFennel 17 <<< 24
    + popcount f.okSorrel 68 <<< 32 + popcount f.okMarjoram 16 <<< 40 + popcount f.okHosts 4 <<< 48 + popcount f.okHbm 4 <<< 56)

/-- IDENT.UNIT_OK0 to UNIT_OK3. -/
def Fuses.unitOk (f : Fuses) : Nat → Word
  | 0 => BitVec.ofNat 64 (f.okTiles + f.okRae <<< 19 + f.okFennel <<< 36 + f.okHosts <<< 53 + f.okHbm <<< 57)
  | 1 => BitVec.ofNat 64 (f.okDill + f.okMarjoram <<< 34)
  | 2 => BitVec.ofNat 64 f.okSorrel
  | _ => BitVec.ofNat 64 (f.okSorrel / 2 ^ 64)

/-- A word of the hash of a key slot: bytes 8 w to 8 w + 7, the first byte of SHA-384 the most significant. -/
def Fuses.hashWord (f : Fuses) (k w : Nat) : Word :=
  wordOf ((leBytes (f.keyHash.getD k 0).toNat 48).reverse.drop (8 * w))

/-- IMAGE.KEYSTAT. -/
def Fuses.keystat (f : Fuses) : Word :=
  Fld.keystatRequireCust.put (Fld.keystatRevoked.put (Fld.keystatProgrammed.make f.programmed) f.revoked) (b2n f.requireCust)

/-- The view of the blocks that answer in every state: IDENT, IMAGE, FAULT. -/
def State.viewBase (s : State) (b i j : Nat) (w : Word) : Word :=
  if b = RegD.version.base then s.fuse.version
  else if b = RegD.serial.base then s.fuse.serial
  else if b = RegD.units.base then s.fuse.units
  else if b = RegD.unitOk0.base then s.fuse.unitOk 0
  else if b = RegD.unitOk1.base then s.fuse.unitOk 1
  else if b = RegD.unitOk2.base then s.fuse.unitOk 2
  else if b = RegD.unitOk3.base then s.fuse.unitOk 3
  else if b = RegD.keyHash.base then s.fuse.hashWord i j
  else if b = RegD.keystat.base then s.fuse.keystat
  else if b = RegD.faultStat.base then
    Fld.faultStatSevere.put (Fld.faultStatPending.put w (s.countRegs (Reg.rec0 0) (Reg.rec0 640) 64 (fun x => Fld.rec0Valid.get x == 1)))
      (s.countRegs (Reg.srcStat 0) (Reg.srcStat 640) 64 (fun x => Fld.srcStatSev.get x != 0))
  else if b = RegD.faultTime.base then BitVec.ofNat 64 (s.stampNow % 2 ^ 48)
  else if b = RegD.faultValid.base then bitWord (fun k => s.flag (Reg.rec0 (64 * i + k)) Fld.rec0Valid)
  else if b = RegD.faultSev.base then bitWord (fun k => s.flag (Reg.srcStat (64 * i + k)) Fld.srcStatSev)
  else if b = RegD.spareMap.base then BitVec.ofNat 64 (leNat (s.spares.map (fun u => BitVec.ofNat 8 u)))
  else if b = RegD.srcStat.base then
    Fld.srcStatActive.put w (b2n (s.srcActive i))
  else if b = RegD.info0.base then
    let head := s.get Reg.infoHead Fld.infoHeadHead
    let held := decide ((i + 256 - head) % 256 < s.get Reg.faultStat Fld.faultStatInfoCount)
    BitVec.ofNat 64 (w.toNat % 2 ^ 62 + b2n held <<< 63)
  else w

/-! ## The exchange, ports and links (R147, R148, R182) -/

/-- OUT_STAT of an output. -/
def OutSt.view (x : OutSt) : Word :=
  BitVec.ofNat 64 (min 63 x.queue.length + b2n x.masked <<< 6 + min 255 x.quota <<< 7 + min 4095 x.window <<< 15
    + b2n (x.grants.any (fun g => g.interrupted)) <<< 27 + (x.grants.map (fun (g : Grant) => g.lane)).dedup.length <<< 28)

/-- The logical port that local port `p` of a tile serves. -/
def State.portOfTile (s : State) (n p : Nat) : Option Nat :=
  ((List.range 18).find? (fun slot => s.tileOf slot == n)).map (fun slot => 8 * slot + p)

/-- LINK_STAT over what is stored. -/
def State.linkStatView (s : State) (p : Nat) (w : Word) : Word :=
  let l := s.link p
  Fld.linkStatReorderUse.put (Fld.linkStatReplayUse.put w l.store.length) l.reorder.length

/-- LINK_CRED: the cap that this end advertises, from the round trip last measured. -/
def State.linkCredView (s : State) (p : Nat) : Word :=
  let l := s.link p
  let held := (s.wait.filter (fun w => w.held && w.waitsFor p)).length
  BitVec.ofNat 64 (l.myCap % 2 ^ 16 + (l.sharedFree % 2 ^ 16) <<< 16 + (held % 2 ^ 24) <<< 32)

/-- The view of the exchange and the tiles. -/
def State.viewPorts (s : State) (b i j : Nat) (w : Word) : Word :=
  if b = RegD.outStat.base then (s.outp i).view
  else if b = RegD.linkStat.base then
    match s.portOfTile i j with
    | some p => s.linkStatView p w
    | none => w
  else if b = RegD.linkCred.base then
    match s.portOfTile i j with
    | some p => s.linkCredView p
    | none => 0
  else w

/-! ## Routing and transport (R216, R221, R228, R254) -/

/-- PEER_MAP of a peer. -/
def State.peerMapView (s : State) (i : Nat) : Word :=
  let l := s.peerPorts i
  let ports := leNat ((List.range 4).map (fun k => BitVec.ofNat 8 (l.getD k 0xFF)))
  let x := s.beaconSt i
  let seq := match x.beacon with
    | some r => r.bseq.toNat
    | none => 0
  BitVec.ofNat 64 (ports + l.length <<< 32 + s.peerLevel i <<< 36 + seq <<< 40 + b2n (!x.fresh) <<< 48)

/-- The 64 bytes of a peer record. -/
def State.peerBytes (s : State) (i : Nat) : List Byte :=
  let r := s.peer i
  let flags := b2n r.valid + 2 * b2n r.down + 4 * b2n r.syncPending + 8 * b2n (s.xp.cache.contains i) + 16 * b2n r.txSync
  leBytes r.txNext 3 ++ leBytes r.txUna 3 ++ leBytes r.txLimit 3 ++ leBytes r.rxNext 3 ++ leBytes r.rxLimit 3 ++ [0]
    ++ leBytes r.rxWin 2 ++ leBytes r.peerInc 2 ++ leBytes r.outstanding 2 ++ leBytes flags 1 ++ leBytes r.used 1
    ++ r.mapBytes ++ leBytes r.lastUs 8

/-- RAE_STAT of a physical engine. -/
def State.raeStatView (s : State) (e : Nat) : Word :=
  let mine (u : Nat) : Bool := decide (u < 16) && s.rae u == e
  let ops := ((List.range 16).filter mine).foldl (fun n u => n + s.opsAt u) 0
  let rsp := (s.rma.results.filter (fun a => mine a.engine)).length
  let fin := (s.xp.recs.filter (fun r => match r.2.held with
    | some p => mine (s.servingEngine p)
    | none => false)).length
  BitVec.ofNat 64 (min 2047 ops + min 2047 rsp <<< 11 + min 1023 fin <<< 22)

/-- The view of routing and transport. -/
def State.viewNet (s : State) (b i : Nat) (w : Word) : Word :=
  if b = RegD.routeCtrl.base then Fld.routeCtrlMaxHops.put w (s.maxHops true)
  else if b = RegD.peerMap.base then s.peerMapView i
  else if b = RegD.raeStat.base then s.raeStatView i
  else w

/-! ## Host links and instances (R282, R290, R291, R327, R331) -/

/-- HOST.STAT over what is stored. -/
def State.hostStatView (s : State) (n : Nat) (w : Word) : Word :=
  let w := Fld.hostStatD3hot.put w (b2n (s.d3hot n))
  let w := Fld.hostStatVfEnable.put w (b2n (s.vfEnable n))
  let w := Fld.hostStatNumVfs.put w (s.numVfs n)
  Fld.hostStatHeld.put w (s.heldArr.filter (fun h => h.link == n)).length

/-- What is left of pool row `k`. -/
def State.freeIn (s : State) (k : Nat) : Nat :=
  match s.pools[k]? with
  | some p => s.poolFree p
  | none => 0

/-- TPAGE_ID of a VF. -/
def State.tpageId (s : State) (n vf : Nat) : Word :=
  match s.boundInst n vf with
  | some i => BitVec.ofNat 64 (0x01440A71 + i <<< 32 + 1 <<< 44)
  | none => BitVec.ofNat 64 0x01440A71

/-- The tenant view of counter slot `j` of an instance (R528): the counter that names both, else zero. -/
def State.tenantCount (s : State) (i j : Nat) : Word :=
  let shows (k : Nat) : Bool :=
    let a := Reg.cntSel k
    s.flag a Fld.cntSelTview && s.flag a Fld.cntSelInstEn && s.get a Fld.cntSelInst == i && s.get a Fld.cntSelTslot == j
  let l := s.cntList.filter shows
  match (l.find? (fun k => s.flag (Reg.cntSel k) Fld.cntSelEnable)).or l.head? with
  | some k => s.word (Reg.cntVal k)
  | none => 0

/-- The view of host links and instances. -/
def State.viewHosts (s : State) (b i j : Nat) (w : Word) : Word :=
  if b = RegD.hostCtrl.base then Fld.hostCtrlRdMax.put w (if s.flag (Reg.hostCtrl i) Fld.hostCtrlExpert then
    s.get (Reg.hostCtrl i) Fld.hostCtrlRdMax else s.tagLimit i)
  else if b = RegD.hostStat.base then s.hostStatView i w
  else if b = RegD.instFree0.base then
    BitVec.ofNat 64 (s.freeIn 0 + s.freeIn 1 <<< 17 + s.freeIn 2 <<< 34)
  else if b = RegD.instFree1.base then
    BitVec.ofNat 64 (s.freeIn 3 + s.freeIn 4 <<< 17 + s.freeIn 5 <<< 31 + s.freeIn 6 <<< 42)
  else if b = RegD.instFree2.base then BitVec.ofNat 64 (s.freeIn 7)
  else if b = RegD.mbxIn.base then s.word (Reg.tMbxOut i j)
  else if b = RegD.tMbxIn.base then s.word (Reg.mbxOut i j)
  else if b = RegD.tMbxCtrl.base then
    let c := Reg.mbxCtrl i
    Fld.tMbxCtrlToTenant.put (Fld.tMbxCtrlToMgr.put w (s.get c Fld.mbxCtrlToMgr)) (s.get c Fld.mbxCtrlToTenant)
  else if b = RegD.tCnt.base then s.tenantCount i j
  else if b = RegD.winKey.base then BitVec.ofNat 64 (128 * s.get (Reg.winCfg i j) Fld.winCfgTag + j)
  else if b = RegD.tpageId.base then s.tpageId (s.instLink i) (s.inst i).vfNum
  else if b = RegD.sqCfg.base ∧ !s.flag (Reg.instCfg i) Fld.instCfgExpert then
    Fld.sqCfgPollCeil.put (Fld.sqCfgBackoff.put w 0) (Fld.sqCfgPoll.get w)
  else w

/-! ## Engines, cores, slices, locks (R256 to R258, R357, R415, R482, R487, R489) -/

/-- HAND.CORE of a core. -/
def State.handCoreView (s : State) (c : Nat) (w : Word) : Word :=
  let x := s.core c
  Fld.handCoreTrig.put (Fld.handCoreInst.put (Fld.handCoreCstate.put w (s.cstate c)) x.inst) x.trig

/-- SL_STAT of a slice. -/
def State.sliceView (s : State) (n : Nat) : Word :=
  let l := s.hand.busy.filter (fun x => sliceOf (64 * x.line) == n)
  BitVec.ofNat 64 (min 511 l.length + min 2047 (l.map (fun (x : BusyLine) => x.waiting.length)).sum <<< 9)

/-- The view of matching, cores, slices, locks, translation and shapers. -/
def State.viewUnits (s : State) (b i : Nat) (w : Word) : Word :=
  if b = RegD.matchFree0.base then BitVec.ofNat 64 (s.mt.freePosted + s.mt.freeUnexp <<< 25)
  else if b = RegD.matchFree1.base then BitVec.ofNat 64 (s.mt.freeBounce + s.mt.freeSeg <<< 24)
  else if b = RegD.handCore.base then s.handCoreView i w
  else if b = RegD.slStat.base then s.sliceView i
  else if b = RegD.lockStat.base then BitVec.ofNat 64 (s.rma.armed.length % 2 ^ 24 + s.hand.lockWait.length <<< 24)
  else if b = RegD.rsvMap.base then
    let (what, base, len) := s.rsvEntry i
    BitVec.ofNat 64 (base % 65536 + (len % 65536) <<< 16 + what <<< 32)
  else if b = RegD.shaperStat.base then
    let q := Table.getD s.xp.shapers ShaperSt.init i
    Fld.shaperStatCredit.put w (fromSigned 32 (s.creditNow i q / 800))
  else if b = RegD.shaperRc.base then Fld.shaperRcWaitHwm.make (s.get (Reg.shaperStat i) Fld.shaperStatWaitHwm)
  else if b = RegD.classHwmRc.base then Fld.classHwmRcCmplHwm.make (s.get (Reg.classHwm i) Fld.classHwmCmplHwm)
  else w

/-! ## Registers -/

/-- The blocks that an image configures: in INERT and LOADED they read reset values and take no writes (R37). -/
def gated (a : Nat) : Bool :=
  decide ((0x200000 ≤ a ∧ a < 0x530000) ∨ (0x600000 ≤ a ∧ a < 0x988000) ∨ (0xC00000 ≤ a ∧ a < 0x2000000)
    ∨ (0x3000000 ≤ a ∧ a < 0x3010000) ∨ (0x4000000 ≤ a ∧ a < 0x8001000) ∨ (0x9000000 ≤ a ∧ a < 0x9440000)
    ∨ (0xA000000 ≤ a ∧ a < 0xA880000))

/-- The fields that a read never shows: command bits and confirmations (R574). -/
def RegDesc.hidden (d : RegDesc) (w : Word) : Word :=
  d.fields.foldl (fun w f => if f.acc = .w1s ∨ f.acc = .wo ∨ f.field = Fld.laneExpSlip ∧ d.base = RegD.laneExp.base then
    f.field.put w 0 else w) w

/-- A register with what the device puts over its stored word. -/
def State.viewAt (s : State) (d : RegDesc) (i j : Nat) (w : Word) : Word :=
  let b := d.base
  if b < 0x200000 then s.viewBase b i j w
  else if b < 0x600000 then s.viewPorts b i j w
  else if b < 0xA00000 then s.viewNet b i w
  else if b = RegD.portHwmRc.base then Fld.portHwmRcResHwm.make (s.get (Reg.portHwm i j) Fld.portHwmResHwm)
  else if b < 0x1000000 ∨ 0x8000000 ≤ b then s.viewHosts b i j w
  else s.viewUnits b i w

/-- The basic fields of the control registers (R72, R73): the settings beside `expert` that have no store rule of their own. -/
def RegDesc.basics (d : RegDesc) : List Field :=
  let b := d.base
  if b = RegD.faultCtrl.base then [Fld.faultCtrlForceCap, Fld.faultCtrlAutoSpare]
  else if b = RegD.exchCtrl.base then [Fld.exchCtrlQmode]
  else if b = RegD.laneCtrl.base then [Fld.laneCtrlPrecodeReq]
  else if b = RegD.linkCtrl.base then [Fld.linkCtrlGraceMs, Fld.linkCtrlLeakEn]
  else if b = RegD.routeCtrl.base then [Fld.routeCtrlNonminEn]
  else if b = RegD.xportCtrl.base then [Fld.xportCtrlInitWin, Fld.xportCtrlRetryUs, Fld.xportCtrlRetryMax]
  else if b = RegD.hostCtrl.base then [Fld.hostCtrlPfEvents, Fld.hostCtrlMgrEn, Fld.hostCtrlHgraceMs]
  else if b = RegD.instCfg.base then [Fld.instCfgDrainMs]
  else if b = RegD.collCtrl.base then [Fld.collCtrlSafeWave]
  else if b = RegD.xlatCtrl.base then [Fld.xlatCtrlCacheEn]
  else if b = RegD.sensCtrl.base then [Fld.sensCtrlWarnC]
  else []

/-- Take fields of one word into another. -/
def takeFields (fs : List Field) (src dst : Word) : Word := fs.foldl (fun w f => f.put w (f.get src)) dst

/-- A register as software last stored it: its word, with the basic fields that wait for `expert` to clear (R73). -/
def State.stored (s : State) (d : RegDesc) (a : Nat) : Word :=
  match Table.find s.basicHeld a with
  | some h => takeFields d.basics h (s.word a)
  | none => s.word a

/-- What the register at an address reads as; zero where no register is (R12). -/
def State.regView (s : State) (a : Nat) : Word :=
  match regAt a with
  | none => 0
  | some (d, i, j) =>
    if gated a && !s.structured then resetWord a else d.hidden (s.viewAt d i j (s.stored d a))

/-! ## Windows (R53, R208, R254, R483, R510) -/

/-- The eight bytes of a bank of the group table. -/
def bankWord (bank : Table (List Nat)) (off : Nat) : Word :=
  let e := Table.getD bank entryZero (off / 32)
  let c := off % 32 / 4
  BitVec.ofNat 64 (e.getD c 0 + e.getD (c + 1) 0 <<< 32)

/-- What an indirect window reads at an aligned address: the staging window, the group table, the peer records, local data and the
firmware window; instruction memory is written only, and reads zero. -/
def State.windowView (s : State) (a : Nat) : Word :=
  if gated a && !s.structured then 0
  else if a < 0x3000000 then (if a < 0x2000000 then 0 else wordOf (readBytes s.img.staging 0 (a - 0x2000000) 8))
  else if a < 0x3008000 then bankWord s.route.shadowBank (a - 0x3000000)
  else if a < 0x3010000 then bankWord s.route.activeBank (a - 0x3008000)
  else if 0x4000000 ≤ a ∧ a < 0x8000000 then
    let o := a - 0x4000000
    wordOf ((s.peerBytes (o / 64)).drop (o % 64))
  else if 0xA000000 ≤ a ∧ a < 0xA880000 then
    let o := a - 0xA000000
    wordOf ((s.core (o / 0x20000)).localRead (o % 0x20000) 8)
  else if 0xB000000 ≤ a ∧ a < 0xB400000 then wordOf (readBytes s.flt.sage.fw 0 (a - 0xB000000) 8)
  else 0

/-- An address lies in the range of the indirect windows, but for the INST global registers. -/
def inWindows (a : Nat) : Bool := decide (0x2000000 ≤ a ∧ a < 0x10000000 ∧ ¬(0x8000000 ≤ a ∧ a < 0x8001000))

/-- The aligned 64-bit word at an address. -/
def State.readWord (s : State) (a : Nat) : Word := if inWindows a then s.windowView a else s.regView a

/-- The mark that a read-clear alias clears, if the address is one: its register and field (R250). -/
def rcMark (a : Nat) : Option (Nat × Field) :=
  match regAt a with
  | none => none
  | some (d, i, j) =>
    if d.base = RegD.shaperRc.base then some (Reg.shaperStat i, Fld.shaperStatWaitHwm)
    else if d.base = RegD.classHwmRc.base then some (Reg.classHwm i, Fld.classHwmCmplHwm)
    else if d.base = RegD.portHwmRc.base then some (Reg.portHwm i j, Fld.portHwmResHwm)
    else none

/-- The island that serves a register or window of a block that the image configures; `none` where the spec places the block in no
one island (the clockless exchange, the single view of the route tables, the registers that stand for engines of several hubs). -/
def regIsland (a : Nat) : Option Nat :=
  if 0x400000 ≤ a ∧ a < 0x530000 then some ((a - 0x400000) / 0x10000)
  else if 0x800000 ≤ a ∧ a < 0x900000 then some servicesIsland
  else if 0x900000 ≤ a ∧ a < 0x988000 then some (hubIsland ((a - 0x900000) / 0x8000 % 16 / 4))
  else if 0xC00000 ≤ a ∧ a < 0x1000000 then some servicesIsland
  else if 0x1680000 ≤ a ∧ a < 0x1700000 then some (hbmIsland ((a - 0x1680000) / 0x20000))
  else if 0x1800000 ≤ a ∧ a < 0x2000000 then some servicesIsland
  else if 0x4000000 ≤ a ∧ a < 0x8001000 then some servicesIsland
  else if 0x9000000 ≤ a ∧ a < 0x9440000 then some (clusterIsland ((a - 0x9000000) / 0x10000 / 17))
  else if 0xA000000 ≤ a ∧ a < 0xA880000 then some (clusterIsland ((a - 0xA000000) / 0x20000 / 17))
  else none

/-- An access of a register is refused by the island that serves it (R17). In INERT and LOADED the reads of R37 are answered without
it. -/
def State.regShut (s : State) (a : Nat) : Bool :=
  gated a && s.structured && (match regIsland a with
    | some i => s.islandShut i
    | none => false)

/-- A size and alignment that R11 accepts. -/
def accessOk (a size : Nat) : Bool := (size == 4 && a % 4 == 0) || (size == 8 && a % 8 == 0)

/-- A read of the register space: the value, and the device after it. An access of another size or alignment reads all ones and
posts an event (R11); a 32-bit read returns its half (R573); a read-clear alias clears its mark. -/
def State.readAt (s : State) (a size : Nat) : Word × State :=
  if !accessOk a size then (BitVec.ofNat 64 (2 ^ (8 * size) - 1), s.notice 60 a)
  else
    let w := s.readWord (a / 8 * 8)
    let s := match rcMark a with
      | some (r, f) => if s.structured then s.put r f 0 else s
      | none => s
    if size = 8 then (w, s) else (BitVec.ofNat 64 (if a % 8 = 0 then w.toNat % 2 ^ 32 else w.toNat / 2 ^ 32), s)

end Sys2Proof.Machine
end

