-- ==== Sys2Proof/Machine/RegWrite.lean ====
section
/-! DEFINITION. RegWrite: writes of registers: the access codes, the half-register merge, clamps, locks and expert control (R11, R12,
R67 to R74, R573, R574), and the action that a write of each register starts. -/

namespace Sys2Proof.Machine

/-! ## Expert control: its end (R73) -/

/-- `expert` has been cleared: the basic fields as stored take effect, and every RWX field returns to its derived value. -/
def State.expertCleared (s : State) (d : RegDesc) (c : Nat) : State :=
  let s := { s.setWord c (s.stored d c) with basicHeld := Table.del s.basicHeld c }
  ((s.governed c).foldl (fun s a => s.toDerived a) s).rederive c

/-! ## Storing fields (R70, R72 to R74, R573) -/

/-- A write in progress: the register's word as stored, and whether an RWX or a locked field has refused it. -/
structure Stored where
  word : Word
  discarded : Bool
  locked : Bool
deriving DecidableEq, Repr

/-- The value of a field with the carried bits of a write merged in. -/
def Field.merge (f : Field) (old value carried : Word) : Nat := f.get ((old &&& ~~~ carried) ||| (value &&& carried))

/-- What a write does to one field, of a register whose `expert` and lock are as given. -/
def Stored.field (expert lock : Bool) (value carried : Word) (x : Stored) (f : FieldDesc) : Stored :=
  let v := f.field.merge x.word value carried
  if f.field.get carried = 0 then x
  else
    match f.acc with
    | .ro | .w1s | .w1ss | .wo | .lock => x
    | .rw => { x with word := f.field.put x.word (f.clamp.apply v) }
    | .rwx => if expert then { x with word := f.field.put x.word (f.clamp.apply v) } else { x with discarded := true }
    | .w1c => { x with word := x.word &&& ~~~ (value &&& carried &&& f.field.mask) }
    | .rwl =>
      if lock then (if v = f.field.get x.word then x else { x with locked := true })
      else { x with word := f.field.put x.word (f.clamp.apply v) }

/-- A field of access RWL is locked: the register's lock bit is set. -/
def RegDesc.lockedIn (d : RegDesc) (w : Word) : Bool := d.fields.any (fun f => f.acc == .lock && f.field.get w == 1)

/-- A write of 1 to the lock bit sets it. -/
def RegDesc.setLocks (d : RegDesc) (value carried w : Word) : Word :=
  d.fields.foldl (fun w f => if f.acc = .lock ∧ f.field.get (value &&& carried) = 1 then f.field.put w 1 else w) w

/-- Store the fields that a write carries: `expert` first, then the others, the lock last (R69, R74). One event each is posted for
RWX fields discarded and for locked fields that the write would have changed. -/
def State.storeReg (s : State) (d : RegDesc) (a off : Nat) (value carried : Word) : State :=
  let old := s.stored d a
  let lock := d.lockedIn old
  let own := expertReg a == some a && !d.fields.all (fun f => f.field != expertField a || f.acc == .ro)
  let isExpert (f : FieldDesc) : Bool := own && f.field == expertField a
  let was := s.expertOn a
  let x0 := (d.fields.filter isExpert).foldl (Stored.field was lock value carried) ⟨old, false, false⟩
  let on := if own then (expertField a).get x0.word == 1 else was
  let s := if own && on && !was then (s.put a (expertField a) 1).expertSet a else s
  let x0 := { x0 with word := takeFields ((d.fields.filter (fun f => f.acc = .rwx)).map (fun f => f.field)) (s.word a) x0.word }
  let x := (d.fields.filter (fun f => !isExpert f)).foldl (Stored.field on lock value carried) x0
  let w := d.setLocks value carried x.word
  let s :=
    if own && on then
      { s.setWord a (takeFields d.basics (s.word a) w) with basicHeld := Table.put s.basicHeld a w }
    else if own && was then { s.setWord a w with basicHeld := Table.put s.basicHeld a w }.expertCleared d a
    else (s.setWord a w).rederive a
  let s := if x.discarded then s.notice 61 off else s
  if x.locked then s.notice 62 a else s

/-! ## What a write carries -/

/-- A register write: the register, its indices and address, the offset written, the value and the bits carried. -/
structure RegWr where
  d : RegDesc
  i : Nat
  j : Nat
  a : Nat
  off : Nat
  value : Word
  carried : Word
deriving DecidableEq, Repr

/-- The write carries a bit of a field. -/
def RegWr.has (x : RegWr) (f : Field) : Bool := f.get x.carried != 0

/-- The write sets bits of a field: those of the other half count as 0 (R573). -/
def RegWr.hit (x : RegWr) (f : Field) : Nat := f.get (x.value &&& x.carried)

/-- The write sets a one-bit field. -/
def RegWr.on (x : RegWr) (f : Field) : Bool := x.hit f != 0

/-- The whole value written: the bits not carried keep their present value. -/
def State.merged (s : State) (x : RegWr) : Word :=
  let old := x.d.hidden (s.stored x.d x.a)
  let w1 := x.d.fields.foldl (fun w f => if f.acc = .w1c ∨ f.acc = .w1ss then f.field.put w 0 else w) old
  (w1 &&& ~~~ x.carried) ||| (x.value &&& x.carried)

/-- The write as it stands, with the bits of some fields not carried. -/
def RegWr.without (x : RegWr) (fs : List Field) : RegWr :=
  { x with carried := fs.foldl (fun w f => w &&& ~~~ f.mask) x.carried }

/-- Store a register write. -/
def State.storeWr (s : State) (x : RegWr) : State := s.storeReg x.d x.a x.off x.value x.carried

/-- `mgr_en` of the other links: the last link that has it set keeps it (R266). -/
def State.lastMgr (s : State) (n : Nat) : Bool :=
  !((List.range 4).any (fun k => k != n && Fld.hostCtrlMgrEn.get (s.stored RegD.hostCtrl (Reg.hostCtrl k)) == 1))

/-- `waiters_k` may be stored: in STRUCTURED, with no lock armed, in what the matching pools leave of the region (R489). -/
def State.waitersFit (s : State) (k : Nat) : Bool :=
  let p := s.word Reg.matchPool
  let mib := 72 * (Fld.matchPoolPreM.get p + Fld.matchPoolUxeM.get p) + Fld.matchPoolBounceMib.get p + Fld.matchPoolSegMib.get p
  s.imgState == 2 && s.rma.armed.isEmpty && decide (16 * k + 1024 * mib ≤ 1024 * 1024 * s.get Reg.cohRegion Fld.cohRegionSizeGib)

/-- An instance has been created. -/
def State.created (s : State) (i : Nat) : Bool := s.instState i != 0

/-- A write that another rule discards whole, and whether it posts an informational event. -/
def State.discards (s : State) (x : RegWr) : Option Bool :=
  let b := x.d.base; let i := x.i
  if b = RegD.instAlloc0.base ∨ b = RegD.instAlloc1.base then (if s.created i then some false else none)
  else if b = RegD.sqBase.base then (if s.flag (Reg.sqCfg i x.j) Fld.sqCfgEnable then some false else none)
  else if b = RegD.sampBuf.base then (if s.flag Reg.sampCtrl Fld.sampCtrlEnable then some false else none)
  else if b = RegD.commEnt.base then (if s.commValid i then some true else none)
  else if b = RegD.handInst.base then (if (s.trigsOf i).any (fun t => s.trigOn t) then some false else none)
  else if b = RegD.mbxOut.base then (if s.flag (Reg.mbxCtrl i) Fld.mbxCtrlToTenant then some false else none)
  else if b = RegD.tMbxOut.base then (if s.flag (Reg.mbxCtrl i) Fld.mbxCtrlToMgr then some false else none)
  else if b = RegD.instCtrl.base then
    let v := s.merged x
    let base := Fld.instCtrlNrBaseGib.get v; let gib := Fld.instCtrlNrGib.get v
    let same := base == s.get Reg.instCtrl Fld.instCtrlNrBaseGib && gib == s.get Reg.instCtrl Fld.instCtrlNrGib
    let held := s.insts.any (fun e => e.2.bound && decide (0 < e.2.nr64k))
    let clash := (List.range 4).any (fun k => s.touchesEntry (base * 2 ^ 30) (gib * 2 ^ 30) k)
    if !same && (held || clash) then some true else none
  else none

/-- The write with the fields left out that their rules keep: the binding of a created instance, `mgr_en` of the last link,
`waiters_k` where it may not be stored. -/
def State.kept (s : State) (x : RegWr) : RegWr :=
  let b := x.d.base
  if b = RegD.instCfg.base ∧ s.created x.i then x.without [Fld.instCfgLink, Fld.instCfgVf, Fld.instCfgHub]
  else if b = RegD.lockCtrl.base ∧ !s.waitersFit (Fld.lockCtrlWaitersK.get (s.merged x)) then x.without [Fld.lockCtrlWaitersK]
  else x

/-! ## Registers whose write is an action of its own -/

/-- The actions of IDENT to FAULT and PERF registers that take the place of storing; `none` for the others. -/
def State.ownLow (s : State) (x : RegWr) : Option State :=
  let b := x.d.base; let v := s.merged x
  if b = RegD.bayForce.base then some <|
    if x.hit Fld.bayForceConfirm ≠ 0xA5C3 then s
    else
      let s := if x.has Fld.bayForceLanes then s.forceLanes (x.on Fld.bayForceLanes) else s
      if x.on Fld.bayForceSafe then s.enterSafeBy 4 639 Reg.bayForce (by decide) else s
  else if b = RegD.infoHead.base then some (if x.has Fld.infoHeadHead then doInfoHead (Fld.infoHeadHead.get v) s else s)
  else if b = RegD.repair.base then some <|
    let slot := Fld.repairSlot.get v
    if !x.has Fld.repairDrain then s
    else if Fld.repairDrain.get v = 0 then (doDrainClear s).put Reg.repair Fld.repairSlot slot
    else if 18 ≤ slot then s.put Reg.repair Fld.repairSlot slot
    else if s.draining slot then s
    else doDrain slot s
  else if b = RegD.spare.base then some <|
    if x.on Fld.spareGo then doSpareGo v s
    else (s.put Reg.spare Fld.spareKind (Fld.spareKind.get v)).put Reg.spare Fld.spareUnit (Fld.spareUnit.get v)
  else if b = RegD.cntSel.base then some (if x.has Fld.cntSelEnable then doCntSel x.i v s else s.cntSelRest x.i v)
  else if b = RegD.sampCtrl.base then some (if x.has Fld.sampCtrlEnable then doSampEnable v s else s.storeWr x)
  else if b = RegD.sampStat.base then some <|
    let s := if x.on Fld.sampStatIrqPend then s.put Reg.sampStat Fld.sampStatIrqPend 0 else s
    if x.has Fld.sampStatRd then doSampRd (Fld.sampStatRd.get v) s else s
  else none

/-- A write of COLL.GSVC: `go` starts the service that the written fields name; without it, or with none named, they are stored. -/
def State.gsvcWrite (s : State) (x : RegWr) : State :=
  let v := s.merged x
  if !x.on Fld.gsvcGo then s.putGsvc v
  else if Fld.gsvcSvc.get v = 1 then doSnapshotGo v s
  else if Fld.gsvcSvc.get v = 2 ∧ Fld.gsvcAction.get v ≠ 0 then doWaveGo (Fld.gsvcAction.get v) v s
  else s.putGsvc v

/-- A write of COMM_CTL. -/
def State.commWrite (s : State) (x : RegWr) : State :=
  let s := if x.on Fld.commCtlAbort then s.abortComm x.i else s
  if !x.has Fld.commCtlValid then s
  else if x.on Fld.commCtlValid then (if x.on Fld.commCtlAbort then s else doCommValid x.i s)
  else s.put x.a Fld.commCtlValid 0

/-- A write of TRIG_CFG: while the trigger is armed only `enable` is taken. -/
def State.trigWrite (s : State) (x : RegWr) : State :=
  if s.trigOn x.i then (if x.has Fld.trigCfgEnable && !x.on Fld.trigCfgEnable then doTrigDisable x.i s else s)
  else
    let s := s.storeWr (x.without [Fld.trigCfgEnable])
    if x.on Fld.trigCfgEnable then doTrigEnable x.i s else s

/-- A write of SQ_CFG: one that does not carry `enable` changes the fields that it carries; one that clears it leaves the fields as
they are that an enabled ring keeps (R333). -/
def State.sqCfgWrite (s : State) (x : RegWr) : State :=
  let v := s.merged x
  if !x.has Fld.sqCfgEnable then (s.sqEvent x.i x.j).setWord x.a (s.sqFields x.i v)
  else if Fld.sqCfgEnable.get v = 1 then doSqEnable x.i x.j v s
  else
    let w := s.sqFields x.i v
    let kept := [Fld.sqCfgNear, Fld.sqCfgLogSize, Fld.sqCfgCq]
    let w := if s.flag x.a Fld.sqCfgEnable then takeFields kept (s.word x.a) w else w
    (doSqDisable x.i x.j s).setWord x.a (Fld.sqCfgEnable.put w 0)

/-- A write of CQ_CFG. -/
def State.cqCfgWrite (s : State) (x : RegWr) : State :=
  let v := s.merged x
  if !x.has Fld.cqCfgEnable then s.storeWr x
  else if Fld.cqCfgEnable.get v = 1 then doCqEnable x.i x.j v s
  else if s.flag x.a Fld.cqCfgEnable then doCqDisable x.i x.j s
  else s.storeWr x

/-- A write of INST_CMD: a write of `op` starts the command that it names. -/
def State.instCmdWrite (s : State) (x : RegWr) : State :=
  let s := if x.on Fld.instCmdDone then s.put x.a Fld.instCmdDone 0 else s
  if !x.has Fld.instCmdOp then s
  else
    match x.hit Fld.instCmdOp with
    | 1 => doCreate x.i s
    | 2 => doQuiesce x.i s
    | 3 => doResume x.i s
    | 4 => doReset x.i s
    | 5 => doRemove x.i s
    | 6 => doMove x.i s
    | n => if s.flag x.a Fld.instCmdBusy then s else s.put x.a Fld.instCmdOp n

/-- The actions of the other registers that take the place of storing. -/
def State.ownHigh (s : State) (x : RegWr) : Option State :=
  let b := x.d.base; let v := s.merged x; let i := x.i
  if b = RegD.instCmd.base then some (s.instCmdWrite x)
  else if b = RegD.matchPool.base then some (doPoolWrite v s)
  else if b = RegD.gsvc.base then some (s.gsvcWrite x)
  else if b = RegD.commCtl.base then some (s.commWrite x)
  else if b = RegD.handCore.base then
    some (if !x.has Fld.handCoreHold && !x.has Fld.handCoreHoldStop then s else doCoreHold i (Fld.handCoreHold.get v == 1) (Fld.handCoreHoldStop.get v == 1) s)
  else if b = RegD.trigCfg.base then some (s.trigWrite x)
  else if b = RegD.lockForce.base then some (doForcedHandover v s)
  else if b = RegD.faultq.base then some <|
    let s := if x.on Fld.faultqOverrun then s.put Reg.faultq Fld.faultqOverrun 0 else s
    if x.has Fld.faultqHead then doFaultqHead (Fld.faultqHead.get v) s else s
  else if b = RegD.dmGrant.base then some (doDmGrant i v s)
  else if b = RegD.hbmRetire.base ∧ x.on Fld.hbmRetireRetire then some (doRetire i (Fld.hbmRetirePage.get v) s)
  else if b = RegD.sqCfg.base then some (s.sqCfgWrite x)
  else if b = RegD.cqCfg.base then some (s.cqCfgWrite x)
  else if b = RegD.cqHead.base then some (if x.has Fld.cqHeadHead then doCqHead i x.j (Fld.cqHeadHead.get v) s else s)
  else if b = RegD.winCfg.base then some (if x.has Fld.winCfgEnable then doWindowWrite i x.j 0 v s else s.storeWr x)
  else if b = RegD.winBase.base then some (doWindowWrite i x.j 1 v s)
  else if b = RegD.winLen.base then some (doWindowWrite i x.j 2 v s)
  else if b = RegD.winStat.base then some (doWindowWrite i x.j 3 v s)
  else if b = RegD.xlFault0.base then some <|
    if x.on Fld.xlFault0Valid then (s.put x.a Fld.xlFault0Valid 0).put x.a Fld.xlFault0Over 0 else s
  else none

/-! ## Actions that follow a stored write -/

/-- The strap pins: the board ties them, so they are as last sampled (R554). -/
def State.strapPins (s : State) : Straps :=
  ⟨Fin.ofNat 8 (s.get Reg.strap Fld.strapSmbAddr), Fin.ofNat 4 (s.get Reg.strap Fld.strapBoot),
    s.flag Reg.strap Fld.strapHrefMode, s.flag Reg.strap Fld.strapTestEn⟩

/-- IMAGE.CTRL: one command, or none of several (R579). -/
def State.imgCtrlAct (s : State) (x : RegWr) : State :=
  let l := x.hit Fld.imgCtrlLoad + x.hit Fld.imgCtrlApply + x.hit Fld.imgCtrlEnable + x.hit Fld.imgCtrlFlashLoad
  if 1 < l then s.imgEnd (if s.imgBusy then 10 else 9)
  else if x.on Fld.imgCtrlLoad then doLoad s
  else if x.on Fld.imgCtrlApply then doApply s
  else if x.on Fld.imgCtrlEnable then doEnable s
  else if x.on Fld.imgCtrlFlashLoad then doFlashLoad (s.flag Reg.imgCtrl Fld.imgCtrlFlashCopy) s
  else s

/-- FUSE_CTRL: a half that the write does not carry counts as written with what it holds (R573). With both `req_cust` and `revoke` set
`require_cust` alone is blown (log 120). -/
def State.fuseCtrlAct (s : State) (x : RegWr) : State :=
  let v := s.merged x
  let confirm := Fld.fuseCtrlConfirm.get v
  let slot := Fld.fuseCtrlSlot.get v
  if !x.on Fld.fuseCtrlGo then s
  else if Fld.fuseCtrlReqCust.get v = 1 then doFuseReqCust confirm s
  else if Fld.fuseCtrlRevoke.get v = 1 then doFuseRevoke confirm slot s
  else doFuseProgram confirm slot s

/-- BAY.RESET: `warm` set with `cold` asks for a warm reset during the cold one, and is ignored (R552). -/
def State.bayResetAct (s : State) (x : RegWr) : State :=
  let c := x.hit Fld.bayResetConfirm
  if x.on Fld.bayResetCold then doBayResetCold c s.strapPins s
  else if x.on Fld.bayResetWarm then doBayResetWarm c s
  else s

/-- SAGE.CMD: each command bit starts its command, which its own rule may refuse (R574); their order is the table's (log 57). -/
def State.sageCmdAct (s : State) (x : RegWr) : State :=
  let s := if x.on Fld.sageCmdFwLoad then doFwLoad s else s
  let s := if x.on Fld.sageCmdSwap then doSwap s else s
  if x.on Fld.sageCmdRestart then doRestart s else s

/-- PERF.CTRL. -/
def State.perfCtrlAct (s : State) (x : RegWr) : State :=
  let s := if x.on Fld.perfCtrlFreeze then doFreeze s else s
  if x.on Fld.perfCtrlClear then s.clearCounters else s

/-- LANE_CTRL of a tile, port by port. -/
def State.laneCtrlAct (s : State) (x : RegWr) : State :=
  let each (s : State) (k : Nat) : State :=
    match s.portOfTile x.i k with
    | none => s
    | some p =>
      let s := if x.has Fld.laneCtrlHold then doLaneHold p (bit (s.get x.a Fld.laneCtrlHold) k) s
        else s.testPattern p
      let s := if bit (x.hit Fld.laneCtrlRestart) k then doLaneRestart p s else s
      let s := if bit (x.hit Fld.laneCtrlRetrain) k then doLaneRetrain p s else s
      if bit (x.hit Fld.laneCtrlRelane) k then doLaneRelane p s else s
  let s := (List.range 8).foldl each s
  if x.on Fld.laneCtrlRecal then doLaneRecal x.i s else s

/-- The actions of IDENT to ROUTE registers. -/
def State.actLow (s : State) (x : RegWr) : State :=
  let b := x.d.base; let i := x.i
  if b = RegD.imgCtrl.base then s.imgCtrlAct x
  else if b = RegD.fuseCtrl.base then s.fuseCtrlAct x
  else if b = RegD.bayReset.base then s.bayResetAct x
  else if b = RegD.sageCmd.base then s.sageCmdAct x
  else if b = RegD.srcCfg.base then (if x.on Fld.srcCfgForce then s.post i 63 (s.get x.a Fld.srcCfgForceClass) 0 else s)
  else if b = RegD.srcStat.base then (if x.on Fld.srcStatSevClr then doSevClr i s else s)
  else if b = RegD.perfCtrl.base then s.perfCtrlAct x
  else if b = RegD.rail.base then (if x.on Fld.railMmClr then doMmClr false i s else s)
  else if b = RegD.temp.base then (if x.on Fld.tempMmClr then doMmClr true i s else s)
  else if b = RegD.laneCtrl.base then s.laneCtrlAct x
  else if b = RegD.laneExp.base then
    let n := s.get x.a Fld.laneExpSlip
    let s := s.put x.a Fld.laneExpSlip 0
    if x.has Fld.laneExpSlip && s.expertOn x.a then doSlip i x.j n s else s
  else if b = RegD.routeBank.base then
    let s := if x.on Fld.routeBankCommit then doRouteCommit s else s
    if x.on Fld.routeBankCopy then doRouteCopy s else s
  else if b = RegD.discCmd.base then
    let s := if x.has Fld.discCmdEpoch then s.raiseEpoch (s.get x.a Fld.discCmdEpoch) else s
    if x.on Fld.discCmdGo then doDiscGo s else s
  else s

/-- The actions of HOST registers and of those after them. -/
def State.actHigh (s : State) (x : RegWr) : State :=
  let b := x.d.base; let i := x.i
  if b = RegD.hostCtrl.base then
    (if x.on Fld.hostCtrlAtomicRetry then s.put x.a Fld.hostCtrlAtomicAvail 1 else s).updateIntx i
  else if b = RegD.events.base ∨ b = RegD.evtMask.base then s.updateIntx i
  else if b = RegD.pfMsixData.base then s.flushPf i
  else if b = RegD.vfMsixData.base then s.flushVf i
  else if b = RegD.mbxCtrl.base then
    let s := if x.on Fld.mbxCtrlToMgr then doToMgrClear i s else s
    if x.on Fld.mbxCtrlToTenant then doToTenantSet i s else s
  else if b = RegD.tMbxCtrl.base then
    let s := if x.on Fld.tMbxCtrlToMgr then doToMgrSet i s else s
    if x.on Fld.tMbxCtrlToTenant then doToTenantClear i s else s
  else if b = RegD.dlogCtrl.base then (if x.on Fld.dlogCtrlFlip then doDlogFlip i s else s)
  else if b = RegD.entSel.base then
    (if x.on Fld.entSelGo then doEntryRead (s.flag Reg.entSel Fld.entSelList) (s.get Reg.entSel Fld.entSelIndex) s else s)
  else if b = RegD.ctxCfg.base then
    let s := if x.on Fld.ctxCfgReset then doCtxReset i s else s
    if x.on Fld.ctxCfgMigrate then doMigrate i (s.get x.a Fld.ctxCfgMigTo) s else s
  else if b = RegD.dirSel.base then (if x.on Fld.dirSelGo then doDirRead (s.get Reg.dirSel Fld.dirSelLine) s else s)
  else if b = RegD.xlatInv.base then (if x.on Fld.xlatInvGo then doXlatInv s else s)
  else if b = RegD.tXlInv.base then (if x.on Fld.tXlInvGo then doXlInv i s else s)
  else if b = RegD.sqStat.base then (if x.on Fld.sqStatKick then doKick i x.j s else s)
  else s

/-! ## A register write -/

/-- A write that would clear `mgr_en` on the last link that has it set leaves it set and posts a "locked write" event (R266). -/
def State.keepMgr (s : State) (x : RegWr) : RegWr × State :=
  let old := s.stored RegD.hostCtrl x.a
  if x.d.base = RegD.hostCtrl.base ∧ x.has Fld.hostCtrlMgrEn ∧ !x.on Fld.hostCtrlMgrEn ∧ Fld.hostCtrlMgrEn.get old = 1
      ∧ s.lastMgr x.i ∧ Fld.hostCtrlLock.get old = 0 then
    (x.without [Fld.hostCtrlMgrEn], s.notice 62 x.a)
  else (x, s)

/-- A write of a register that the present state lets through. -/
def State.writeReg (s : State) (x : RegWr) : State :=
  match s.discards x with
  | some ev => if ev then s.notice 59 x.a else s
  | none =>
    match s.ownLow x, s.ownHigh x with
    | some t, _ => t
    | none, some t => t
    | none, none =>
      let (y, s) := s.keepMgr (s.kept x)
      let shaped := x.d.base = RegD.shaperCfg.base ∨ x.d.base = RegD.meterRate.base
      let s := if shaped then (((s.settleShaper x.i).storeWr y).settleShaper x.i) else (s.storeWr y).bwRestart s
      if x.a < 0xA00000 then s.actLow x else s.actHigh x

/-- A write through an indirect window: staging, the group table, a core's memories, the firmware window; the peer records and the
rest take none. -/
def State.writeWindow (s : State) (a : Nat) (data : List Byte) : State :=
  if gated a && !s.structured then s.notice 61 a
  else if a < 0x3000000 then doStagingWrite (a - 0x2000000) data s
  else if a < 0x3010000 then doGroupTableWrite (a - 0x3000000) data s
  else if 0x9000000 ≤ a ∧ a < 0x9440000 then doImemWrite ((a - 0x9000000) / 0x10000) false (a % 0x10000) data s
  else if 0xA000000 ≤ a ∧ a < 0xA880000 then doImemWrite ((a - 0xA000000) / 0x20000) true (a % 0x20000) data s
  else if 0xB000000 ≤ a ∧ a < 0xB400000 then
    { s with flt := { s.flt with sage := { s.flt.sage with fw := writeBytes s.flt.sage.fw 0 (a - 0xB000000) data } } }
  else s

/-- A write of `size` bytes at an offset of the register space: of another size or alignment it is discarded with an event (R11);
where no register is, without one (R12); to a block not configured, with a "not structured" event (R37). -/
def State.writeAt (s : State) (off size : Nat) (value : Word) : State :=
  if !accessOk off size then s.notice 60 off
  else if inWindows off then s.writeWindow off (leBytes value.toNat size)
  else
    match regAt (off / 8 * 8) with
    | none => s
    | some (d, i, j) =>
      let a := off / 8 * 8
      if gated off && !s.structured then s.notice 61 off
      else if size = 8 then s.writeReg ⟨d, i, j, a, off, value, BitVec.allOnes 64⟩
      else if off % 8 = 0 then s.writeReg ⟨d, i, j, a, off, BitVec.ofNat 64 (value.toNat % 2 ^ 32), 0xFFFFFFFF⟩
      else s.writeReg ⟨d, i, j, a, off, BitVec.ofNat 64 (value.toNat % 2 ^ 32 * 2 ^ 32), 0xFFFFFFFF00000000⟩

/-! ## Accesses from hosts and the sideband (R28, R71, R265, R266, R269, R281, R282) -/

/-- The source and address of an access on a link that R577 ties to that link: `bar` 0 PF0 BAR0, 2 VF BAR0. -/
def State.linkNotice (s : State) (n bar off : Nat) : State := s.post (304 + 24 * n + 1) 59 0 (off % 2 ^ 48 + bar <<< 48)

/-- The answer of a host read. -/
def State.answer (s : State) (n size : Nat) (w : Word) : State := s.emit (.cpl n .ok (leBytes w.toNat size))

/-- The answer of a host read that returns all ones. -/
def State.answerOnes (s : State) (n size : Nat) : State := s.emit (.cpl n .ok (List.replicate size 0xFF))

/-- An access of the register space that reaches it: a read is answered, a write takes effect. From an island that refuses it no
answer comes within 50 us, and a read is completed with Completer Abort (R17, R280). -/
def State.reach (s : State) (n : Nat) (r : RegAccess) (off : Nat) : State :=
  let f : Func := ⟨n, match r.space with | .pf0 => 0 | .vf v => v⟩
  if s.regShut off then (if r.write then s else s.readAborted f)
  else if r.write then s.writeAt off r.size r.value
  else
    let (w, s) := s.readAt off r.size
    if accessOk off r.size then s.answer n r.size w else s.answerOnes n r.size

/-- PF0 BAR0 of a link: with `mgr_en` clear only IDENT is read and only its own HOST block is reached. -/
def State.mgrAccess (s : State) (n : Nat) (r : RegAccess) : State :=
  let own := decide (Reg.hostCtrl n ≤ r.off ∧ r.off < Reg.hostCtrl n + 0x10000)
  if s.flag (Reg.hostCtrl n) Fld.hostCtrlMgrEn || own || (!r.write && decide (r.off < 0x10000)) then s.reach n r r.off
  else
    let s := s.linkNotice n 0 r.off
    if r.write then s else s.answerOnes n r.size

/-- VF BAR0 of a VF: the tenant page of the instance bound to it; TPAGE_ID answers on every VF. -/
def State.tenantAccess (s : State) (n vf : Nat) (r : RegAccess) : State :=
  match s.boundInst n vf with
  | some i => s.reach n r (0x10000000 + 0x10000 * i + r.off)
  | none =>
    if !r.write && accessOk r.off r.size && r.off / 8 == 0x3F00 / 8 then
      let w := s.tpageId n vf
      s.answer n r.size (if r.size = 8 then w else if r.off % 8 = 0 then w else w >>> 32)
    else
      let s := (s.bump (Reg.hostErr n) Fld.hostErrMmioBad 1).linkNotice n 2 r.off
      if r.write then s else s.answerOnes n r.size

/-- A register access of a host (R265, R278, R280, R285): the link is up, the function decodes it, and the tile is not fenced. -/
def State.hostAccess (s : State) (n : Nat) (r : RegAccess) : State :=
  let vf := match r.space with
    | .pf0 => 0
    | .vf v => v
  if !s.linkUp n then s
  else
    let s := s.count ⟨0x602, some n, if vf = 0 then none else s.boundInst n vf, none, none, some (vf == 0), 1⟩
    if s.d3hot n then (if r.write then s else s.emit (.cpl n .ur []))
    else if vf ≠ 0 ∧ !s.fnExists n vf then s.forbidden ⟨n, 0⟩ (!r.write)
    else if !s.mse n vf then s.forbidden ⟨n, vf⟩ (!r.write)
    else if s.isFenced (.basil n) then (if r.write then s else s.readAborted ⟨n, vf⟩)
    else if vf = 0 then s.mgrAccess n r
    else s.tenantAccess n vf r

/-- REGISTER_WRITE; a read of the same registers is answered. To the sideband port no answer within 50 us is code 5 (R557). -/
def doRegisterWrite (r : RegAccess) (s : State) : State :=
  match r.req with
  | .host n => s.hostAccess n r
  | .sideband =>
    if s.regShut r.off then s.emit (.sideband (128 + (if r.write then 8 else 7)) 5 [])
    else if r.write then s.writeAt r.off r.size r.value
    else
      let (w, s) := s.readAt r.off r.size
      s.emit (.readData w)

/-- REGISTER_WRITE. -/
def execRegisterWrite (acc : RegAccess) (s : State) : Answer := actReset s (doRegisterWrite acc)

/-! ## Locks and expert bits (R69, R73) -/

/-- The address of a register of R69. -/
def lockRegAt : LockReg → Nat
  | .fault => Reg.faultCtrl
  | .exch => Reg.exchCtrl
  | .host n => Reg.hostCtrl n
  | .coll => Reg.collCtrl

/-- LOCK_SET: a 64-bit write that sets the lock bit. -/
def doLockSet (r : LockReg) (v : Word) (s : State) : State :=
  let a := lockRegAt r
  s.writeAt a 8 ((lockBitField a).put v 1)

/-- LOCK_SET. -/
def execLockSet (reg : LockReg) (value : BitVec 64) (s : State) : Answer := act s (doLockSet reg value)

/-- The register that holds the `expert` bit of a block. -/
def expertAt : ExpertBlock → Nat
  | .fault => Reg.faultCtrl
  | .exch => Reg.exchCtrl
  | .lane n => Reg.laneCtrl n
  | .link n => Reg.linkCtrl n
  | .route => Reg.routeCtrl
  | .xport => Reg.xportCtrl
  | .rae e => Reg.raeCtrl e
  | .host n => Reg.hostCtrl n
  | .instGlobal => Reg.instCtrl
  | .inst i => Reg.instCfg i
  | .matching => Reg.matchCtrl
  | .coll => Reg.collCtrl
  | .hand => Reg.handCtrl
  | .coh => Reg.cohCtrl
  | .lock => Reg.lockCtrl
  | .xlat => Reg.xlatCtrl
  | .shape => Reg.shapeCtrl
  | .perf => Reg.perfCtrl
  | .sens => Reg.sensCtrl

/-- EXPERT_CHANGE: a write that carries the `expert` bit, the other fields keeping their present values. -/
def doExpertChange (k : ExpertBlock) (on : Bool) (s : State) : State :=
  let a := expertAt k
  if gated a && !s.structured then s.notice 61 a
  else
    match regAt a with
    | none => s
    | some (d, i, j) => s.writeReg ⟨d, i, j, a, a, (expertField a).make (b2n on), (expertField a).mask⟩

/-- EXPERT_CHANGE. -/
def execExpertChange (blk : ExpertBlock) (on : Bool) (s : State) : Answer := act s (doExpertChange blk on)

end Sys2Proof.Machine
end

