-- ==== Sys2Proof/Machine/Sideband.lean ====
section
/-! DEFINITION. Sideband: the sideband port's commands, its MCTP control messages, the device as SMBus controller, and the test port
(R555 to R563, R570, R571). -/

namespace Sys2Proof.Machine

/-! ## Commands of message type 0x7E (R557, R558) -/

/-- A response: the command byte with bit 7 set, the completion code, the data. -/
def State.respond (s : State) (cmd code : Nat) (data : List Byte) : State := s.emit (.sideband (cmd + 128) code data)

/-- A confirmed command: another confirmation is answered with code 2. -/
def State.sbConfirmed (s : State) (cmd : Nat) (c : BitVec 16) (f : State → State) : State :=
  if confirmed c then f s else s.respond cmd 2 []

/-- A register read that answers a command. -/
def State.readFor (s : State) (cmd off : Nat) : State :=
  let (w, s) := s.readAt off 8
  s.respond cmd 0 (leBytes w.toNat 8)

/-- Sage serves a command while one of its cores is active: otherwise code 3. -/
def State.bySage (s : State) (cmd : Nat) (f : State → State) : State := if s.sageUp then f s else s.respond cmd 3 []

/-- READ_IDENT: PART, VERSION, SERIAL and UNITS. -/
def doReadIdent (s : State) : State :=
  s.respond 1 0 ((List.range 4).flatMap (fun k => leBytes (s.regView (8 * k)).toNat 8))

/-- READ_IDENT. -/
def execReadIdent (s : State) : Answer := act s doReadIdent

/-- READ_FLOG: up to three records from the first on, and BAY.FLOG_IDX. -/
def doReadFlog (first : Nat) (s : State) : State :=
  let recs := ((List.range 3).map (fun k => first + k)).filter (fun k => decide (k < 256))
  let data := recs.flatMap (fun k => leBytes (s.regView (Reg.flog0 k)).toNat 8 ++ leBytes (s.regView (Reg.flog1 k)).toNat 8)
  s.respond 2 0 (data ++ leBytes (s.regView Reg.flogIdx).toNat 8)

/-- READ_FLOG. -/
def execReadFlog (first : BitVec 8) (s : State) : Answer := act s (doReadFlog first.toNat)

/-- READ_SENSOR: a rail or a temperature; an index beyond them is invalid. -/
def doReadSensor (temp : Bool) (i : Nat) (s : State) : State :=
  if (if temp then 64 else 24) ≤ i then s.respond 3 1 []
  else s.respond 3 0 (leBytes (s.regView (if temp then Reg.temp i else Reg.rail i)).toNat 8)

/-- READ_SENSOR. -/
def execReadSensor (temp : Bool) (i : BitVec 8) (s : State) : Answer := act s (doReadSensor temp i.toNat)

/-- SAFE: the safe state with cause 5; while it is held the command completes with code 0. -/
def doSafe (c : BitVec 16) (s : State) : State :=
  s.sbConfirmed 4 c (fun s => (if s.safe then s else s.enterSafeBy 5 635 0 (by decide)).respond 4 0 [])

/-- SAFE. -/
def execSafe (confirm : BitVec 16) (s : State) : Answer := act s (doSafe confirm)

/-- LANES: as BAY.FORCE `lanes`. -/
def doLanes (on : Nat) (c : BitVec 16) (s : State) : State :=
  if 1 < on then s.respond 5 1 []
  else s.sbConfirmed 5 c (fun s => (s.forceLanes (on == 1)).respond 5 0 [])

/-- LANES. -/
def execLanes (on : BitVec 8) (confirm : BitVec 16) (s : State) : Answer := act s (doLanes on.toNat confirm)

/-- RESET: the answer goes before the reset. -/
def doSidebandReset (code : Nat) (c : BitVec 16) (x : Straps) (s : State) : State :=
  if code ≠ 1 ∧ code ≠ 2 then s.respond 6 1 []
  else s.sbConfirmed 6 c (fun s =>
    let s := s.respond 6 0 []
    if code = 1 then doWarmReset .sideband s else doColdReset .sideband x s)

/-- SIDEBAND_RESET. -/
def execSidebandReset (code : BitVec 8) (confirm : BitVec 16) (straps : Straps) (s : State) : Answer :=
  actReset s (doSidebandReset code.toNat confirm straps)

/-- The registers that Bay serves: IDENT, IMAGE, BAY and FAULT. -/
def byBay (off : Nat) : Bool := decide (off < 0x40000 ∨ (0x80000 ≤ off ∧ off < 0x100000))

/-- READ_REG. -/
def doReadReg (off : Nat) (s : State) : State :=
  if 2 ^ 28 ≤ off then s.respond 7 1 []
  else if byBay off then s.readFor 7 off
  else s.bySage 7 (fun s => if s.regShut off then s.respond 7 5 [] else s.readFor 7 off)

/-- READ_REG. -/
def execReadReg (off : BitVec 32) (s : State) : Answer := act s (doReadReg off.toNat)

/-- WRITE_REG: the answer goes before what the write does; an island that refuses it gives code 5 (R17). -/
def doWriteReg (off : Nat) (v : Word) (s : State) : State :=
  if 2 ^ 28 ≤ off then s.respond 8 1 []
  else s.bySage 8 (fun s => if s.regShut off then s.respond 8 5 [] else (s.respond 8 0 []).writeAt off 8 v)

/-- WRITE_REG. -/
def execWriteReg (off : BitVec 32) (value : BitVec 64) (s : State) : Answer := actReset s (doWriteReg off.toNat value)

/-- A flash command: refused with code 4 while IMAGE.STATUS `busy` is set. -/
def State.flashCmd (s : State) (cmd addr : Nat) (data : List Byte) : State :=
  s.bySage cmd (fun s =>
    if s.imgBusy then s.respond cmd 4 []
    else
      let s := { s with img := { s.img with flash := writeBytes s.img.flash 0xFF addr data }, side := { s.side with flashing := true } }
      (s.emit (.flashOp addr data.length)).respond cmd 0 [])

/-- FLASH_WRITE: 48 bytes at most. -/
def doFlashWrite (off : Nat) (data : List Byte) (s : State) : State :=
  if data.length = 0 ∨ 48 < data.length then s.respond 9 1 [] else s.flashCmd 9 off data

/-- FLASH_WRITE. -/
def execFlashWrite (off : Nat) (data : List Byte) (s : State) : Answer := actFlash s (doFlashWrite off data)

/-- FLASH_ERASE: a sector of 64 KiB reads as unwritten flash. -/
def doFlashErase (sector : Nat) (s : State) : State :=
  s.bySage 10 (fun s =>
    if s.imgBusy then s.respond 10 4 []
    else
      let a := 65536 * sector
      let cells := s.img.flash.filter (fun c => !(decide (a ≤ c.1 ∧ c.1 < a + 65536)))
      ({ s with img := { s.img with flash := cells }, side := { s.side with flashing := true } }.emit (.flashOp a 65536)).respond 10 0 [])

/-- FLASH_ERASE. -/
def execFlashErase (sector : Nat) (s : State) : Answer := actFlash s (doFlashErase sector)

/-! ## MCTP control (R556); the command codes and layouts are the standard's (log 47) -/

/-- SET_ENDPOINT_ID: the null and the broadcast ID are refused as invalid data. -/
def doSetEid (eid : Nat) (s : State) : State :=
  if eid = 0 ∨ eid = 255 then s.emit (.mctp 1 [2])
  else
    let s := { s.put Reg.smb Fld.smbEid eid with side := { s.side with eidSet := true } }
    s.emit (.mctp 1 [0, 0, BitVec.ofNat 8 eid, 0])

/-- SET_ENDPOINT_ID. -/
def execSetEndpointId (eid : BitVec 8) (s : State) : Answer := act s (doSetEid eid.toNat)

/-- GET_ENDPOINT_ID: the null ID until one is assigned. -/
def execGetEndpointId (s : State) : Answer :=
  act s (fun s => s.emit (.mctp 2 [0, BitVec.ofNat 8 (s.get Reg.smb Fld.smbEid), 0, 0]))

/-- GET_MCTP_VERSION_SUPPORT: one version, whose number the spec does not state (log 6). -/
def execGetMctpVersionSupport (s : State) : Answer :=
  act s (fun s =>
    let (w, s) := s.fresh
    s.emit (.mctp 4 ([0, 1] ++ leBytes w.toNat 4)))

/-- GET_MESSAGE_TYPE_SUPPORT: the types 0x00 and 0x7E. -/
def execGetMessageTypeSupport (s : State) : Answer := act s (fun s => s.emit (.mctp 5 [0, 2, 0x00, 0x7E]))

/-- GET_VENDOR_DEFINED_MESSAGE_SUPPORT: PCI vendor ID 0x0A71. -/
def execGetVendorDefinedMessageSupport (s : State) : Answer := act s (fun s => s.emit (.mctp 6 [0, 0xFF, 0x00, 0x0A, 0x71, 0, 0]))

/-! ## The device as SMBus controller (R560, R561, R570, R571) -/

/-- The read that poll entry `k` makes. -/
def State.pollRead (s : State) (k : Nat) : State :=
  let a := Reg.pollCfg k
  s.emit (.smbRead k (s.get a Fld.pollCfgAddr) (s.get a Fld.pollCfgCmd) (s.flag a Fld.pollCfgWord))

/-- ARB_LOST: counted; the eighth loss in a row abandons the read, and any other retries after its backoff. -/
def doArbLost (k : Nat) (s : State) : State :=
  let n := Table.getD s.side.losses 0 k + 1
  let wait := s.side.retryWait.filter (fun x => x != k)
  let s := s.bump Reg.smb Fld.smbArbLost 1
  if 8 ≤ n then
    let s := { s with side := { s.side with losses := Table.del s.side.losses k, retryWait := wait } }
    ((s.bump Reg.smb Fld.smbCtrlFail 1).put (Reg.pollCfg k) Fld.pollCfgFail 1).postFree 635 4 2
  else { s with side := { s.side with losses := Table.put s.side.losses k n, retryWait := wait ++ [k] } }

/-- ARB_LOST. -/
def execArbLost (k : Fin 8) (s : State) : Answer := act s (doArbLost k)

/-- ARB_RETRY: an entry whose backoff runs is read again. -/
def doArbRetry (k : Nat) (s : State) : State :=
  if s.side.retryWait.contains k then
    { s with side := { s.side with retryWait := s.side.retryWait.filter (fun x => x != k) } }.pollRead k
  else s

/-- ARB_RETRY. -/
def execArbRetry (k : Fin 8) (s : State) : Answer := act s (doArbRetry k)

/-- One entry is read: the value and the time are kept, and its losses end. -/
def State.pollDone (s : State) (k : Nat) (v : BitVec 16) : State :=
  let s := s.pollRead k
  let v := if s.flag (Reg.pollCfg k) Fld.pollCfgWord then v.toNat else v.toNat % 256
  let s := (s.put (Reg.pollData k) Fld.pollDataValue v).put (Reg.pollData k) Fld.pollDataTime (s.now / 1000 % 2 ^ 32)
  { s with side := { s.side with
    losses := Table.del s.side.losses k, retryWait := s.side.retryWait.filter (fun x => x != k) } }

/-- SMB_POLL: the enabled entries are read one by one; `data` holds what each entry's target answers, by entry. -/
def doSmbPoll (data : List (BitVec 16)) (s : State) : State :=
  if !s.flag Reg.smb Fld.smbCtrlEn then s
  else data.zipIdx.foldl (fun s e => if s.flag (Reg.pollCfg e.2) Fld.pollCfgEnable then s.pollDone e.2 e.1 else s) s

/-- SMB_POLL. -/
def execSmbPoll (data : List (BitVec 16)) (s : State) : Answer := act s (doSmbPoll data)

/-- SMBUS_CLOCK_LOW_TIMEOUT: the port, as target, releases the clock. -/
def execSmbusClockLowTimeout (s : State) : Answer := act s (fun s => s.emit .smbRelease)

/-! ## The test port (R562, R563) -/

/-- An instruction is selected; `drive` tells how the boundary cells take the pins: 0 operation, 1 driven, 2 floated, 3 held, 4 pulse,
5 train. -/
def State.jtag (s : State) (ir drive : Nat) : State := { s with side := { s.side with jtagIr := ir, jtagDrive := drive } }

/-- An instruction that takes the pins acts as BYPASS unless TEST_EN was sampled as 1. -/
def State.jtagTest (s : State) (ir drive : Nat) : State := if s.testEn then s.jtag ir drive else s.jtag 0xFF 0

/-- BYPASS. -/
def execBypass (s : State) : Answer := act s (fun s => s.jtag 0xFF 0)

/-- IDCODE. -/
def execIdcode (s : State) : Answer := act s (fun s => (s.jtag 0x01 0).emit (.jtagId 0x101449C3))

/-- SAMPLE/PRELOAD: the boundary cells take the pins' values. -/
def execSamplePreload (pins : List Bool) (s : State) : Answer :=
  act s (fun s => { s with side := { s.side with boundary := pins } }.jtag 0x02 0)

/-- EXTEST. -/
def execExtest (s : State) : Answer := act s (fun s => s.jtagTest 0x00 1)

/-- HIGHZ. -/
def execHighz (s : State) : Answer := act s (fun s => s.jtagTest 0x0A 2)

/-- CLAMP. -/
def execClamp (s : State) : Answer := act s (fun s => s.jtagTest 0x0B 3)

/-- EXTEST_PULSE. -/
def execExtestPulse (s : State) : Answer := act s (fun s => s.jtagTest 0x08 4)

/-- EXTEST_TRAIN. -/
def execExtestTrain (s : State) : Answer := act s (fun s => s.jtagTest 0x09 5)

/-- TRST_ASSERT: the test access port is reset, and any instruction that drives or floats the pins ends. The reset selects IDCODE, as
IEEE 1149.1 has it (log 48). -/
def execTrstAssert (s : State) : Answer := act s (fun s => s.jtag 0x01 0)

end Sys2Proof.Machine
end

