-- ==== Sys2Proof/Machine/Dispatch.lean ====
section
/-! DEFINITION. Dispatch: one arm per command, each one direct call of its meaning. -/

namespace Sys2Proof.Machine

/-- The effect of a command on everything but the queue. -/
def exec (i : Instr) (s : State) : Host.Outcome State Fault Refusal :=
  match i with
  | .registerWrite acc => Sys2Proof.Machine.execRegisterWrite acc s
  | .lockSet reg value => Sys2Proof.Machine.execLockSet reg value s
  | .expertChange blk on => Sys2Proof.Machine.execExpertChange blk on s
  | .islandChannelsOpen isl => Sys2Proof.Machine.execIslandChannelsOpen isl s
  | .stagingWrite off data => Sys2Proof.Machine.execStagingWrite off data s
  | .load => Sys2Proof.Machine.execLoad s
  | .loadEnd hbmOk => Sys2Proof.Machine.execLoadEnd hbmOk s
  | .apply => Sys2Proof.Machine.execApply s
  | .applyEnd hbmOk => Sys2Proof.Machine.execApplyEnd hbmOk s
  | .enable => Sys2Proof.Machine.execEnable s
  | .flashLoad secondary => Sys2Proof.Machine.execFlashLoad secondary s
  | .flashFetchEnd readOk => Sys2Proof.Machine.execFlashFetchEnd readOk s
  | .fuseProgram confirm slot => Sys2Proof.Machine.execFuseProgram confirm slot s
  | .fuseRevoke confirm slot => Sys2Proof.Machine.execFuseRevoke confirm slot s
  | .fuseReqCust confirm => Sys2Proof.Machine.execFuseReqCust confirm s
  | .fuseEnd readback => Sys2Proof.Machine.execFuseEnd readback s
  | .coldReset cause straps => Sys2Proof.Machine.execColdReset cause straps s
  | .warmReset cause => Sys2Proof.Machine.execWarmReset cause s
  | .bayResetWarm confirm => Sys2Proof.Machine.execBayResetWarm confirm s
  | .bayResetCold confirm straps => Sys2Proof.Machine.execBayResetCold confirm straps s
  | .detectTry p hitA hitB echoA echoB => Sys2Proof.Machine.execDetectTry p hitA hitB echoA echoB s
  | .trainingFramesValid p => Sys2Proof.Machine.execTrainingFramesValid p s
  | .adaptReady p lossA lossB => Sys2Proof.Machine.execAdaptReady p lossA lossB s
  | .alignmentMarker lane m => Sys2Proof.Machine.execAlignmentMarker lane m s
  | .codeword lane word => Sys2Proof.Machine.execCodeword lane word s
  | .lossOfSignal lane => Sys2Proof.Machine.execLossOfSignal lane s
  | .stateTimeout p => Sys2Proof.Machine.execStateTimeout p s
  | .capTimer p => Sys2Proof.Machine.execCapTimer p s
  | .cap p c => Sys2Proof.Machine.execCap p c s
  | .capAck p crc => Sys2Proof.Machine.execCapAck p crc s
  | .echoReq p num stamp turn => Sys2Proof.Machine.execEchoReq p num stamp turn s
  | .echoRsp p num elapsed turn => Sys2Proof.Machine.execEchoRsp p num elapsed turn s
  | .echoTimeout p => Sys2Proof.Machine.execEchoTimeout p s
  | .measureEnd p => Sys2Proof.Machine.execMeasureEnd p s
  | .adapt p lane coeff => Sys2Proof.Machine.execAdapt p lane coeff s
  | .adaptRefine lane coeff => Sys2Proof.Machine.execAdaptRefine lane coeff s
  | .loadSample m load => Sys2Proof.Machine.execLoadSample m load s
  | .remeasureEnd m margins target => Sys2Proof.Machine.execRemeasureEnd m margins target s
  | .degrade p pos => Sys2Proof.Machine.execDegrade p pos s
  | .degradeAck p pos => Sys2Proof.Machine.execDegradeAck p pos s
  | .retrain p => Sys2Proof.Machine.execRetrain p s
  | .laneRestart p => Sys2Proof.Machine.execLaneRestart p s
  | .laneRetrain p => Sys2Proof.Machine.execLaneRetrain p s
  | .laneHold p hold => Sys2Proof.Machine.execLaneHold p hold s
  | .laneRelane p => Sys2Proof.Machine.execLaneRelane p s
  | .laneRecal n => Sys2Proof.Machine.execLaneRecal n s
  | .slip n k bits => Sys2Proof.Machine.execSlip n k bits s
  | .blockPosition p => Sys2Proof.Machine.execBlockPosition p s
  | .seal p flits recs ack blk => Sys2Proof.Machine.execSeal p flits recs ack blk s
  | .credit p recs ack => Sys2Proof.Machine.execCredit p recs ack s
  | .nak p nums ack => Sys2Proof.Machine.execNak p nums ack s
  | .replay p first ack => Sys2Proof.Machine.execReplay p first ack s
  | .keepalive p next ack empty => Sys2Proof.Machine.execKeepalive p next ack empty s
  | .init p part reserve shared cap next => Sys2Proof.Machine.execInit p part reserve shared cap next s
  | .initAck p parts => Sys2Proof.Machine.execInitAck p parts s
  | .initRepeat p => Sys2Proof.Machine.execInitRepeat p s
  | .initTimeout p => Sys2Proof.Machine.execInitTimeout p s
  | .keepaliveTimer p => Sys2Proof.Machine.execKeepaliveTimer p s
  | .creditDue p => Sys2Proof.Machine.execCreditDue p s
  | .nakTimeout p num => Sys2Proof.Machine.execNakTimeout p num s
  | .replayTimeout p => Sys2Proof.Machine.execReplayTimeout p s
  | .replayEscalation p => Sys2Proof.Machine.execReplayEscalation p s
  | .linkDownTimeout p => Sys2Proof.Machine.execLinkDownTimeout p s
  | .quietMoment p => Sys2Proof.Machine.execQuietMoment p s
  | .leakIdle p => Sys2Proof.Machine.execLeakIdle p s
  | .leakForce p => Sys2Proof.Machine.execLeakForce p s
  | .graceExpiry id => Sys2Proof.Machine.execGraceExpiry id s
  | .request o ep cls => Sys2Proof.Machine.execRequest o ep cls s
  | .countUpdate o ep cls => Sys2Proof.Machine.execCountUpdate o ep cls s
  | .creditAnnounce p vc => Sys2Proof.Machine.execCreditAnnounce p vc s
  | .grantOpportunity o => Sys2Proof.Machine.execGrantOpportunity o s
  | .declinePauseEnd o => Sys2Proof.Machine.execDeclinePauseEnd o s
  | .requestRetry o ep cls => Sys2Proof.Machine.execRequestRetry o ep cls s
  | .grantEnd o lane => Sys2Proof.Machine.execGrantEnd o lane s
  | .handshakeTimeout o ep => Sys2Proof.Machine.execHandshakeTimeout o ep s
  | .routeHop p => Sys2Proof.Machine.execRouteHop p s
  | .beaconPeriod => Sys2Proof.Machine.execBeaconPeriod s
  | .beacon p b => Sys2Proof.Machine.execBeacon p b s
  | .beaconStale k => Sys2Proof.Machine.execBeaconStale k s
  | .groupTableWrite off data => Sys2Proof.Machine.execGroupTableWrite off data s
  | .routeCommit => Sys2Proof.Machine.execRouteCommit s
  | .routeCopy => Sys2Proof.Machine.execRouteCopy s
  | .bankOpEnd => Sys2Proof.Machine.execBankOpEnd s
  | .discGo => Sys2Proof.Machine.execDiscGo s
  | .discQ p q => Sys2Proof.Machine.execDiscQ p q s
  | .discA p a => Sys2Proof.Machine.execDiscA p a s
  | .discTimeout => Sys2Proof.Machine.execDiscTimeout s
  | .shaperRelease inst tc => Sys2Proof.Machine.execShaperRelease inst tc s
  | .policerBackoffEnd inst tc => Sys2Proof.Machine.execPolicerBackoffEnd inst tc s
  | .peerFetchDone idx => Sys2Proof.Machine.execPeerFetchDone idx s
  | .peerEvictable idx => Sys2Proof.Machine.execPeerEvictable idx s
  | .windowSend idx => Sys2Proof.Machine.execWindowSend idx s
  | .put pkt => Sys2Proof.Machine.execPut pkt s
  | .getReq pkt => Sys2Proof.Machine.execGetReq pkt s
  | .getRsp pkt => Sys2Proof.Machine.execGetRsp pkt s
  | .atomic pkt => Sys2Proof.Machine.execAtomic pkt s
  | .atomicRsp pkt => Sys2Proof.Machine.execAtomicRsp pkt s
  | .send pkt => Sys2Proof.Machine.execSend pkt s
  | .sendRdv pkt => Sys2Proof.Machine.execSendRdv pkt s
  | .comp pkt => Sys2Proof.Machine.execComp pkt s
  | .ncomp pkt => Sys2Proof.Machine.execNcomp pkt s
  | .ack pkt => Sys2Proof.Machine.execAck pkt s
  | .sync pkt => Sys2Proof.Machine.execSync pkt s
  | .ackTimer idx => Sys2Proof.Machine.execAckTimer idx s
  | .retryTimeout idx seq => Sys2Proof.Machine.execRetryTimeout idx seq s
  | .nackResend idx seq => Sys2Proof.Machine.execNackResend idx seq s
  | .windowUpdate => Sys2Proof.Machine.execWindowUpdate s
  | .xferIdle key => Sys2Proof.Machine.execXferIdle key s
  | .placementDone key pidx ok => Sys2Proof.Machine.execPlacementDone key pidx ok s
  | .responseTimeout xid => Sys2Proof.Machine.execResponseTimeout xid s
  | .hwmReadClear mark => Sys2Proof.Machine.execHwmReadClear mark s
  | .configRequest link fn req => Sys2Proof.Machine.execConfigRequest link fn req s
  | .readTimeout link fn => Sys2Proof.Machine.execReadTimeout link fn s
  | .pf0Bar2Access link acc => Sys2Proof.Machine.execPf0Bar2Access link acc s
  | .nearRingWrite link vf off req => Sys2Proof.Machine.execNearRingWrite link vf off req s
  | .dlDown link => Sys2Proof.Machine.execDlDown link s
  | .perst link => Sys2Proof.Machine.execPerst link s
  | .hotReset link => Sys2Proof.Machine.execHotReset link s
  | .linkTrained link speed width flit => Sys2Proof.Machine.execLinkTrained link speed width flit s
  | .hgraceExpiry id => Sys2Proof.Machine.execHgraceExpiry id s
  | .flrVf link vf => Sys2Proof.Machine.execFlrVf link vf s
  | .flrPf0 link => Sys2Proof.Machine.execFlrPf0 link s
  | .flrEnd link fn => Sys2Proof.Machine.execFlrEnd link fn s
  | .d3hotEntry link => Sys2Proof.Machine.execD3hotEntry link s
  | .d0Return link => Sys2Proof.Machine.execD0Return link s
  | .completionTimeout link tag => Sys2Proof.Machine.execCompletionTimeout link tag s
  | .poisonedTlp link what => Sys2Proof.Machine.execPoisonedTlp link what s
  | .ecrcError link fn => Sys2Proof.Machine.execEcrcError link fn s
  | .atomicopCompletion link tag status old => Sys2Proof.Machine.execAtomicopCompletion link tag status old s
  | .atomicRetry link => Sys2Proof.Machine.execAtomicRetry link s
  | .ringPoll inst ring => Sys2Proof.Machine.execRingPoll inst ring s
  | .kick inst ring => Sys2Proof.Machine.execKick inst ring s
  | .sqEnable inst ring value => Sys2Proof.Machine.execSqEnable inst ring value s
  | .sqDisable inst ring => Sys2Proof.Machine.execSqDisable inst ring s
  | .nearRingZeroed inst ring => Sys2Proof.Machine.execNearRingZeroed inst ring s
  | .cqEnable inst ring value => Sys2Proof.Machine.execCqEnable inst ring value s
  | .cqDisable inst ring => Sys2Proof.Machine.execCqDisable inst ring s
  | .cqHeadWrite inst ring head => Sys2Proof.Machine.execCqHeadWrite inst ring head s
  | .jobComplete job => Sys2Proof.Machine.execJobComplete job s
  | .putJob job => Sys2Proof.Machine.execPutJob job s
  | .getJob job => Sys2Proof.Machine.execGetJob job s
  | .putInl job => Sys2Proof.Machine.execPutInl job s
  | .atomicJob job => Sys2Proof.Machine.execAtomicJob job s
  | .sendJob job => Sys2Proof.Machine.execSendJob job s
  | .recv job => Sys2Proof.Machine.execRecv job s
  | .lockJob job => Sys2Proof.Machine.execLockJob job s
  | .barrier job => Sys2Proof.Machine.execBarrier job s
  | .broadcast job => Sys2Proof.Machine.execBroadcast job s
  | .reduce job => Sys2Proof.Machine.execReduce job s
  | .allreduce job => Sys2Proof.Machine.execAllreduce job s
  | .nop job => Sys2Proof.Machine.execNop job s
  | .seg inst ring d => Sys2Proof.Machine.execSeg inst ring d s
  | .create inst => Sys2Proof.Machine.execCreate inst s
  | .quiesce inst => Sys2Proof.Machine.execQuiesce inst s
  | .quiesceEnd inst drained => Sys2Proof.Machine.execQuiesceEnd inst drained s
  | .resume inst => Sys2Proof.Machine.execResume inst s
  | .reset inst => Sys2Proof.Machine.execReset inst s
  | .remove inst => Sys2Proof.Machine.execRemove inst s
  | .move inst => Sys2Proof.Machine.execMove inst s
  | .instCmdEnd inst => Sys2Proof.Machine.execInstCmdEnd inst s
  | .toMgrSet inst => Sys2Proof.Machine.execToMgrSet inst s
  | .toMgrClear inst => Sys2Proof.Machine.execToMgrClear inst s
  | .toTenantSet inst => Sys2Proof.Machine.execToTenantSet inst s
  | .toTenantClear inst => Sys2Proof.Machine.execToTenantClear inst s
  | .dlogFlip inst => Sys2Proof.Machine.execDlogFlip inst s
  | .dlogFlipEnd inst => Sys2Proof.Machine.execDlogFlipEnd inst s
  | .translate inst acc => Sys2Proof.Machine.execTranslate inst acc s
  | .walkReadDone walk res => Sys2Proof.Machine.execWalkReadDone walk res s
  | .markCasDone walk old ok => Sys2Proof.Machine.execMarkCasDone walk old ok s
  | .xlatInv => Sys2Proof.Machine.execXlatInv s
  | .xlInv inst => Sys2Proof.Machine.execXlInv inst s
  | .invDone tenant => Sys2Proof.Machine.execInvDone tenant s
  | .faultqHeadWrite head => Sys2Proof.Machine.execFaultqHeadWrite head s
  | .windowWrite inst w reg value => Sys2Proof.Machine.execWindowWrite inst w reg value s
  | .dmGrantWrite inst value => Sys2Proof.Machine.execDmGrantWrite inst value s
  | .matchHandover inst idx seq => Sys2Proof.Machine.execMatchHandover inst idx seq s
  | .arrive d => Sys2Proof.Machine.execArrive d s
  | .post d => Sys2Proof.Machine.execPost d s
  | .walkInterrupt point => Sys2Proof.Machine.execWalkInterrupt point s
  | .walkResume d => Sys2Proof.Machine.execWalkResume d s
  | .unpin d => Sys2Proof.Machine.execUnpin d s
  | .migrate d migTo => Sys2Proof.Machine.execMigrate d migTo s
  | .migrateEnd d => Sys2Proof.Machine.execMigrateEnd d s
  | .ctxReset d => Sys2Proof.Machine.execCtxReset d s
  | .ctxResetEnd d => Sys2Proof.Machine.execCtxResetEnd d s
  | .entryRead list index => Sys2Proof.Machine.execEntryRead list index s
  | .poolWrite value => Sys2Proof.Machine.execPoolWrite value s
  | .commValid c => Sys2Proof.Machine.execCommValid c s
  | .commAbort c => Sys2Proof.Machine.execCommAbort c s
  | .collUp pkt => Sys2Proof.Machine.execCollUp pkt s
  | .collDown pkt => Sys2Proof.Machine.execCollDown pkt s
  | .segmentAdmit e => Sys2Proof.Machine.execSegmentAdmit e s
  | .failPacket pkt => Sys2Proof.Machine.execFailPacket pkt s
  | .snapshotGo value => Sys2Proof.Machine.execSnapshotGo value s
  | .waveAbortGo value => Sys2Proof.Machine.execWaveAbortGo value s
  | .waveClearGo value => Sys2Proof.Machine.execWaveClearGo value s
  | .waveSafeGo value => Sys2Proof.Machine.execWaveSafeGo value s
  | .armPacket pkt => Sys2Proof.Machine.execArmPacket pkt s
  | .snapshotUp pkt => Sys2Proof.Machine.execSnapshotUp pkt s
  | .freezePacket pkt => Sys2Proof.Machine.execFreezePacket pkt s
  | .snapshotRecord pkt => Sys2Proof.Machine.execSnapshotRecord pkt s
  | .wavePacket pkt => Sys2Proof.Machine.execWavePacket pkt s
  | .armDiscard => Sys2Proof.Machine.execArmDiscard s
  | .triggerTimer t => Sys2Proof.Machine.execTriggerTimer t s
  | .handlerDispatch c => Sys2Proof.Machine.execHandlerDispatch c s
  | .frameTick => Sys2Proof.Machine.execFrameTick s
  | .trigEnable t => Sys2Proof.Machine.execTrigEnable t s
  | .trigDisable t => Sys2Proof.Machine.execTrigDisable t s
  | .coreHold c hold holdStop => Sys2Proof.Machine.execCoreHold c hold holdStop s
  | .imemWrite c loc off data => Sys2Proof.Machine.execImemWrite c loc off data s
  | .budgetTrap c => Sys2Proof.Machine.execBudgetTrap c s
  | .stopRequest c => Sys2Proof.Machine.execStopRequest c s
  | .alu c rd ra rb fn => Sys2Proof.Machine.execAlu c rd ra rb fn s
  | .addi c rd ra imm => Sys2Proof.Machine.execAddi c rd ra imm s
  | .andi c rd ra imm => Sys2Proof.Machine.execAndi c rd ra imm s
  | .ori c rd ra imm => Sys2Proof.Machine.execOri c rd ra imm s
  | .xori c rd ra imm => Sys2Proof.Machine.execXori c rd ra imm s
  | .lui c rd ra imm => Sys2Proof.Machine.execLui c rd ra imm s
  | .insh c rd ra imm => Sys2Proof.Machine.execInsh c rd ra imm s
  | .ld1 c rd ra imm => Sys2Proof.Machine.execLd1 c rd ra imm s
  | .ld2 c rd ra imm => Sys2Proof.Machine.execLd2 c rd ra imm s
  | .ld4 c rd ra imm => Sys2Proof.Machine.execLd4 c rd ra imm s
  | .ld8 c rd ra imm => Sys2Proof.Machine.execLd8 c rd ra imm s
  | .st1 c rd ra imm => Sys2Proof.Machine.execSt1 c rd ra imm s
  | .st2 c rd ra imm => Sys2Proof.Machine.execSt2 c rd ra imm s
  | .st4 c rd ra imm => Sys2Proof.Machine.execSt4 c rd ra imm s
  | .st8 c rd ra imm => Sys2Proof.Machine.execSt8 c rd ra imm s
  | .amo c rd ra rb fn => Sys2Proof.Machine.execAmo c rd ra rb fn s
  | .beq c ra rb off => Sys2Proof.Machine.execBeq c ra rb off s
  | .bne c ra rb off => Sys2Proof.Machine.execBne c ra rb off s
  | .blt c ra rb off => Sys2Proof.Machine.execBlt c ra rb off s
  | .bge c ra rb off => Sys2Proof.Machine.execBge c ra rb off s
  | .bltu c ra rb off => Sys2Proof.Machine.execBltu c ra rb off s
  | .bgeu c ra rb off => Sys2Proof.Machine.execBgeu c ra rb off s
  | .call c n off => Sys2Proof.Machine.execCall c n off s
  | .ret c n off => Sys2Proof.Machine.execRet c n off s
  | .j c off => Sys2Proof.Machine.execJ c off s
  | .jr c ra rd rb fn => Sys2Proof.Machine.execJr c ra rd rb fn s
  | .csr c rd ra rb fn => Sys2Proof.Machine.execCsr c rd ra rb fn s
  | .desc c rd ra rb fn => Sys2Proof.Machine.execDesc c rd ra rb fn s
  | .lkacq c rd ra rb fn => Sys2Proof.Machine.execLkacq c rd ra rb fn s
  | .lkrel c rd ra rb fn => Sys2Proof.Machine.execLkrel c rd ra rb fn s
  | .fence c rd ra rb fn => Sys2Proof.Machine.execFence c rd ra rb fn s
  | .done c rd ra imm => Sys2Proof.Machine.execDone c rd ra imm s
  | .gets a line => Sys2Proof.Machine.execGets a line s
  | .getm a line => Sys2Proof.Machine.execGetm a line s
  | .upgrade a line => Sys2Proof.Machine.execUpgrade a line s
  | .putm a line data => Sys2Proof.Machine.execPutm a line data s
  | .pute a line => Sys2Proof.Machine.execPute a line s
  | .readna line => Sys2Proof.Machine.execReadna line s
  | .writena addr data => Sys2Proof.Machine.execWritena addr data s
  | .atomicna addr op wide op1 op2 => Sys2Proof.Machine.execAtomicna addr op wide op1 op2 s
  | .forward a line => Sys2Proof.Machine.execForward a line s
  | .invalidation a line => Sys2Proof.Machine.execInvalidation a line s
  | .coherentResponse a line => Sys2Proof.Machine.execCoherentResponse a line s
  | .dirRead line => Sys2Proof.Machine.execDirRead line s
  | .lockArm pkt => Sys2Proof.Machine.execLockArm pkt s
  | .lockAcquire pkt => Sys2Proof.Machine.execLockAcquire pkt s
  | .lockRelease pkt => Sys2Proof.Machine.execLockRelease pkt s
  | .lockDisarm pkt => Sys2Proof.Machine.execLockDisarm pkt s
  | .lockCancel pkt => Sys2Proof.Machine.execLockCancel pkt s
  | .forcedHandover value => Sys2Proof.Machine.execForcedHandover value s
  | .codedMessage m => Sys2Proof.Machine.execCodedMessage m s
  | .countWindowEnd src => Sys2Proof.Machine.execCountWindowEnd src s
  | .force src => Sys2Proof.Machine.execForce src s
  | .sevClr src => Sys2Proof.Machine.execSevClr src s
  | .recordRelease src => Sys2Proof.Machine.execRecordRelease src s
  | .infoHeadWrite head => Sys2Proof.Machine.execInfoHeadWrite head s
  | .heartbeat core => Sys2Proof.Machine.execHeartbeat core s
  | .heartbeatMiss => Sys2Proof.Machine.execHeartbeatMiss s
  | .takeoverEnd => Sys2Proof.Machine.execTakeoverEnd s
  | .fwLoad => Sys2Proof.Machine.execFwLoad s
  | .fwLoadEnd sameFormat => Sys2Proof.Machine.execFwLoadEnd sameFormat s
  | .swap => Sys2Proof.Machine.execSwap s
  | .restart => Sys2Proof.Machine.execRestart s
  | .drain slot => Sys2Proof.Machine.execDrain slot s
  | .drainWaitEnd => Sys2Proof.Machine.execDrainWaitEnd s
  | .drained => Sys2Proof.Machine.execDrained s
  | .drainClear => Sys2Proof.Machine.execDrainClear s
  | .spareGo value => Sys2Proof.Machine.execSpareGo value s
  | .spareEnd => Sys2Proof.Machine.execSpareEnd s
  | .retire n page => Sys2Proof.Machine.execRetire n page s
  | .retireEnd n bad => Sys2Proof.Machine.execRetireEnd n bad s
  | .forceSafe confirm => Sys2Proof.Machine.execForceSafe confirm s
  | .forceLanes confirm on => Sys2Proof.Machine.execForceLanes confirm on s
  | .thermalTrip sensor => Sys2Proof.Machine.execThermalTrip sensor s
  | .cntSelWrite k value => Sys2Proof.Machine.execCntSelWrite k value s
  | .freeze => Sys2Proof.Machine.execFreeze s
  | .clear => Sys2Proof.Machine.execClear s
  | .sampEnable value => Sys2Proof.Machine.execSampEnable value s
  | .sampRdWrite rd => Sys2Proof.Machine.execSampRdWrite rd s
  | .bwWindowEnd => Sys2Proof.Machine.execBwWindowEnd s
  | .railSample r reading bad => Sys2Proof.Machine.execRailSample r reading bad s
  | .tempSample t reading => Sys2Proof.Machine.execTempSample t reading s
  | .droop k depth => Sys2Proof.Machine.execDroop k depth s
  | .mmClr temp k => Sys2Proof.Machine.execMmClr temp k s
  | .refCheck clk present ppm => Sys2Proof.Machine.execRefCheck clk present ppm s
  | .avsTimeout => Sys2Proof.Machine.execAvsTimeout s
  | .vsbLoss => Sys2Proof.Machine.execVsbLoss s
  | .readIdent => Sys2Proof.Machine.execReadIdent s
  | .readFlog first => Sys2Proof.Machine.execReadFlog first s
  | .readSensor temp k => Sys2Proof.Machine.execReadSensor temp k s
  | .safe confirm => Sys2Proof.Machine.execSafe confirm s
  | .lanes on confirm => Sys2Proof.Machine.execLanes on confirm s
  | .sidebandReset code confirm straps => Sys2Proof.Machine.execSidebandReset code confirm straps s
  | .readReg off => Sys2Proof.Machine.execReadReg off s
  | .writeReg off value => Sys2Proof.Machine.execWriteReg off value s
  | .flashWrite off data => Sys2Proof.Machine.execFlashWrite off data s
  | .flashErase sector => Sys2Proof.Machine.execFlashErase sector s
  | .setEndpointId eid => Sys2Proof.Machine.execSetEndpointId eid s
  | .getEndpointId => Sys2Proof.Machine.execGetEndpointId s
  | .getMctpVersionSupport => Sys2Proof.Machine.execGetMctpVersionSupport s
  | .getMessageTypeSupport => Sys2Proof.Machine.execGetMessageTypeSupport s
  | .getVendorDefinedMessageSupport => Sys2Proof.Machine.execGetVendorDefinedMessageSupport s
  | .arbLost k => Sys2Proof.Machine.execArbLost k s
  | .arbRetry k => Sys2Proof.Machine.execArbRetry k s
  | .smbPoll data => Sys2Proof.Machine.execSmbPoll data s
  | .bypass => Sys2Proof.Machine.execBypass s
  | .idcode => Sys2Proof.Machine.execIdcode s
  | .samplePreload pins => Sys2Proof.Machine.execSamplePreload pins s
  | .extest => Sys2Proof.Machine.execExtest s
  | .highz => Sys2Proof.Machine.execHighz s
  | .clamp => Sys2Proof.Machine.execClamp s
  | .extestPulse => Sys2Proof.Machine.execExtestPulse s
  | .extestTrain => Sys2Proof.Machine.execExtestTrain s
  | .dmaReadCompletion link tag data => Sys2Proof.Machine.execDmaReadCompletion link tag data s
  | .pllUnlock isl => Sys2Proof.Machine.execPllUnlock isl s
  | .avsbusAcknowledge => Sys2Proof.Machine.execAvsbusAcknowledge s
  | .smbusClockLowTimeout => Sys2Proof.Machine.execSmbusClockLowTimeout s
  | .trstAssert => Sys2Proof.Machine.execTrstAssert s

end Sys2Proof.Machine
end

