-- ==== Sys2Proof/Machine/Step.lean ====
section
/-! DEFINITION. Step: one step takes the command at the front of the queue; an empty queue idles. -/

namespace Sys2Proof.Machine

/-- The machine's step: the command at the front of the queue acts on the state with the queue's rest.
On an empty queue the block idles: the oldest coded message on its way reaches Chervil, and else time
passes (DESIGN CHOICE, log 14). -/
def step (s : State) : Host.Outcome State Fault Refusal :=
  match s.pending with
  | [] => act s State.idle
  | c :: rest => exec c { s with pending := rest }

/-- The state with the command that a word spells put at the front of its queue. -/
def State.withFetchWord (s : State) (nbits w : Nat) : State :=
  match decodeTableWord nbits w with
  | some c => { s with pending := c :: s.pending }
  | none => s

end Sys2Proof.Machine
end

