-- ==== Sys2Proof/Safety.lean ====
section
/-! DEFINITION. Safety: the terms in which statements are made: what a command's whole effect is, what a next state holds, and the
invariants that every step keeps. -/

namespace Sys2Proof

/-- The commands that can reset the device: the reset inputs and their sideband and register forms, a register write (which reaches
BAY.RESET), and the end of fuse programming, for which a cold reset waits (R551, R552). -/
def Instr.mayReset : Instr → Bool
  | .coldReset _ _ | .warmReset _ | .bayResetWarm _ | .bayResetCold _ _ | .sidebandReset _ _ _ | .registerWrite _
  | .writeReg _ _ | .fuseEnd _ => true
  | _ => false

/-- The commands that write the board's flash (R557). -/
def Instr.writesFlash : Instr → Bool
  | .flashWrite _ _ | .flashErase _ => true
  | _ => false

end Sys2Proof

namespace Sys2Proof.Machine

/-- The next state of a command whose effect on a powered device `s` is `t`: the queue, the fuses, the flash and the Bay latch are
kept, and the outputs follow. -/
def State.finish (s t : State) : State := (s.latch (s.keep t)).drivePins

/-- Command `c` on state `s` completes with the effect `t` and no other. -/
def Does (c : Instr) (s t : State) : Prop := exec c s = .next (s.finish t)

/-- Where `i` is the instruction that its Sorrel core executes next (R456), it completes with the effect `t` and no other. -/
def Runs (i : Instr) (s t : State) : Prop := ∀ (c : Fin 68) (w : BitVec 32), coreWord i = some (c, w) → (s.core c).nextWord = w → Does i s t

/-- Command `c` on state `s` completes, and its next state has the property `P`. -/
def Yields (c : Instr) (s : State) (P : State → Prop) : Prop := ∃ t, exec c s = .next t ∧ P t

/-- An instance command with operation code `c` has been taken: it shows its code, no error, and `busy` (R328). -/
def State.cmdTaken (s : State) (i c : Nat) : State :=
  let a := Reg.instCmd i
  (((s.put a Fld.instCmdOp c).put a Fld.instCmdErr 0).put a Fld.instCmdErrPool 0).put a Fld.instCmdBusy 1

/-- The lists of a context are in the order in which their entries were posted and arrived (R395). -/
def CtxSt.ordered (c : CtxSt) : Prop :=
  c.posted.Pairwise (fun x y => x.pseq < y.pseq) ∧ (∀ r ∈ c.posted, r.pseq < c.nextPseq)
    ∧ c.unexp.Pairwise (fun x y => x.aseq < y.aseq) ∧ (∀ u ∈ c.unexp, u.aseq < c.nextAseq)

/-- The numbers of a control block fit the fields that carry them (R86, R118). -/
def Ctl.fits : Ctl → Prop
  | .capAck crc => crc < 2 ^ 16
  | .echoReq num _ => num < 2 ^ 16
  | .echoRsp num _ turn => num < 2 ^ 16 ∧ turn < 2 ^ 32
  | .adapt lane coeff => lane < 2 ^ 16 ∧ coeff < 2 ^ 48
  | .degrade pos => pos < 2 ^ 8
  | .degradeAck pos => pos < 2 ^ 8
  | .seal recs ack => recs.length ≤ 3 ∧ ack < 2 ^ 16
  | .credit recs ack => recs.length ≤ 7 ∧ ack < 2 ^ 16
  | .nak nums ack => nums.length ≤ 8 ∧ (∀ n ∈ nums, n < 2 ^ 16) ∧ ack < 2 ^ 16
  | .replay first ack => first < 2 ^ 16 ∧ ack < 2 ^ 16
  | .keepalive next ack _ => next < 2 ^ 16 ∧ ack < 2 ^ 16
  | .init part reserve shared lim next =>
    part < 2 ^ 8 ∧ reserve.length = 12 ∧ (∀ n ∈ reserve, n < 2 ^ 16) ∧ shared < 2 ^ 16 ∧ lim < 2 ^ 16 ∧ next < 2 ^ 16
  | .initAck parts => parts < 4
  | .idle | .cap _ | .retrain => True

/-- The outputs are as R553 says. -/
def State.pinsFollow (s : State) : Prop := s.pins = s.levels

/-- Every fuse bit blown in `f` is blown in `g`. -/
def Fuses.blownIn (f g : Fuses) : Prop :=
  (∀ k, f.programmed.testBit k → g.programmed.testBit k) ∧ (∀ k, f.revoked.testBit k → g.revoked.testBit k)
    ∧ (f.requireCust → g.requireCust)

/-- Every byte memory of the device is in its canonical form: addresses strictly rising, no entry equal to what an unlisted byte
reads as. -/
def State.memoriesWf (s : State) : Prop :=
  Memory.wf s.rma.hbm 0 ∧ Memory.wf s.img.staging 0 ∧ Memory.wf s.img.flash 0xFF ∧ Memory.wf s.flt.sage.fw 0

end Sys2Proof.Machine
end

