-- ==== Sys2Proof/WellFormed.lean ====
section
/-! DEFINITION. WellFormed: the operand checks that the types do not make: packet field widths (R190, R222),
payload lengths (R223), register access sizes (R11), the lengths of the lists that a block carries. -/

namespace Sys2Proof

/-- `data` is not empty and lies within `size` bytes from offset 0. -/
def bytesIn (off : Nat) (data : List Byte) (size : Nat) : Bool :=
  decide (0 < data.length ∧ off + data.length ≤ size)

/-- The access is of 1 to 4,096 bytes, aligned or not, within its page (R11, R573). -/
def RegAccess.wf (a : RegAccess) : Bool :=
  decide (1 ≤ a.size ∧ a.size ≤ 4096) &&
  match a.space with
  | .pf0 => decide (a.off + a.size ≤ 2 ^ 28)
  | .vf v => decide (1 ≤ v ∧ v ≤ 4096 ∧ a.off + a.size ≤ 65536)

/-- A flit has 64 bytes (R113). -/
def RxFlit.wf (f : RxFlit) : Bool := decide (f.bytes.length = 64)

/-- The fields of a route word fit their bits (R190). -/
def RouteWord.wf (r : RouteWord) : Bool :=
  decide (r.dst < 2 ^ 18 ∧ r.via < 1024 ∧ r.stage < 4 ∧ r.order < 2 ∧ r.segTgt < 256 ∧ r.segPort < 256
    ∧ r.hops < 16 ∧ r.vc < 32)

/-- The fields of a header fit their bits (R222), and the payload has `plen` bytes, at most 4,096 (R223). -/
def Packet.wf (p : Packet) : Bool :=
  p.route.wf &&
  decide (p.op < 256 ∧ p.tc < 8 ∧ p.plen ≤ 4096 ∧ p.payload.length = p.plen) &&
  decide (p.src < 2 ^ 18 ∧ p.sInst < 4096 ∧ p.seq < 2 ^ 24 ∧ p.attempt < 256 ∧ p.inc < 65536) &&
  decide (p.tInst < 4096 ∧ p.xid < 2 ^ 32 ∧ p.pidx < 2 ^ 20 ∧ p.base < 2 ^ 64 ∧ p.xlen < 2 ^ 33) &&
  decide (p.ackNext < 2 ^ 24 ∧ p.limit < 2 ^ 24 ∧ p.key < 2 ^ 32 ∧ p.aux < 2 ^ 32 ∧ p.crc < 2 ^ 32)

/-- A transfer key's fields fit their bits (R222, R240). -/
def XferKey.wf (k : XferKey) : Bool :=
  decide (k.src < 2 ^ 18 ∧ k.sInst < 4096 ∧ k.xid < 2 ^ 32)

/-- A beacon has 16 row levels, 16 column levels and 144 port levels (R200). -/
def BeaconRec.wf (b : BeaconRec) : Bool :=
  decide (b.rows.length = 16 ∧ b.cols.length = 16 ∧ b.ports.length = 144)

/-- A discovery path has at most 8 ports (R211). -/
def DiscQuery.wf (q : DiscQuery) : Bool := decide (q.path.length + q.arrived.length ≤ 8)

/-- The way back has at most 8 ports (R211). -/
def DiscAnswer.wf (a : DiscAnswer) : Bool := decide (a.back.length ≤ 8)

/-- A configuration request reads a dword, or writes 1, 2 or 4 bytes within one dword (R279). -/
def CfgReq.wf : CfgReq → Bool
  | .read off => decide (off % 4 = 0 ∧ off < 4096)
  | .write off size _ => [1, 2, 4].contains size && decide (off % 4 + size ≤ 4 ∧ off < 4096)

/-- A BAR2 access is of 1 to 64 bytes (R267). -/
def BarReq.wf : BarReq → Bool
  | .read len => decide (1 ≤ len ∧ len ≤ 64)
  | .write data => decide (1 ≤ data.length ∧ data.length ≤ 64)
  | .atomic len => len == 4 || len == 8 || len == 16

/-- A poisoned TLP names a tag or a function of the link. -/
def BadTlp.wf : BadTlp → Bool
  | .completion tag => decide (tag < 16384)
  | .write fn => decide (fn ≤ 4096)

/-- Every operand of a command is one that the spec admits. -/
def WellFormed (i : Instr) : Bool :=
  match i with
  | .registerWrite acc => acc.wf
  | .lockSet _ _ => true
  | .expertChange _ _ => true
  | .islandChannelsOpen _ => true
  | .stagingWrite off data => bytesIn off data 16777216
  | .load => true
  | .loadEnd _ => true
  | .apply => true
  | .applyEnd _ => true
  | .enable => true
  | .flashLoad _ => true
  | .flashFetchEnd _ => true
  | .fuseProgram _ _ => true
  | .fuseRevoke _ _ => true
  | .fuseReqCust _ => true
  | .fuseEnd _ => true
  | .coldReset _ _ => true
  | .warmReset _ => true
  | .bayResetWarm _ => true
  | .bayResetCold _ _ => true
  | .detectTry _ _ _ echoA echoB => decide (echoA.db < 64 ∧ echoB.db < 64)
  | .trainingFramesValid _ => true
  | .adaptReady _ _ _ => true
  | .alignmentMarker _ _ => true
  | .codeword _ w => decide (w.errs ≤ 360 ∧ w.blocks.length ≤ 14)
  | .lossOfSignal _ => true
  | .stateTimeout _ => true
  | .capTimer _ => true
  | .cap _ _ => true
  | .capAck _ _ => true
  | .echoReq _ _ _ _ => true
  | .echoRsp _ _ _ _ => true
  | .echoTimeout _ => true
  | .measureEnd _ => true
  | .adapt _ _ _ => true
  | .adaptRefine _ _ => true
  | .loadSample _ load => decide (load ≤ 100)
  | .remeasureEnd _ margins _ => decide (margins.length = 8)
  | .degrade _ _ => true
  | .degradeAck _ _ => true
  | .retrain _ => true
  | .laneRestart _ => true
  | .laneRetrain _ => true
  | .laneHold _ _ => true
  | .laneRelane _ => true
  | .laneRecal _ => true
  | .slip _ _ _ => true
  | .blockPosition _ => true
  | .seal _ flits recs _ _ => flits.all RxFlit.wf && decide (recs.length ≤ 3 ∧ flits.length ≤ 64)
  | .credit _ recs _ => decide (recs.length ≤ 7) && recs.all (fun r => decide (r.vc.toNat < 24))
  | .nak _ nums _ => decide (nums.length ≤ 8)
  | .replay _ _ _ => true
  | .keepalive _ _ _ _ => true
  | .init _ _ reserve shared cap _ => decide (reserve.length = 12 ∧ shared < 2 ^ 16 ∧ cap < 2 ^ 16) && reserve.all (fun n => decide (n < 2 ^ 16))
  | .initAck _ _ => true
  | .initRepeat _ => true
  | .initTimeout _ => true
  | .keepaliveTimer _ => true
  | .creditDue _ => true
  | .nakTimeout _ _ => true
  | .replayTimeout _ => true
  | .replayEscalation _ => true
  | .linkDownTimeout _ => true
  | .quietMoment _ => true
  | .leakIdle _ => true
  | .leakForce _ => true
  | .graceExpiry _ => true
  | .request _ _ _ => true
  | .countUpdate _ _ _ => true
  | .creditAnnounce _ _ => true
  | .grantOpportunity _ => true
  | .declinePauseEnd _ => true
  | .requestRetry _ _ _ => true
  | .grantEnd _ _ => true
  | .handshakeTimeout _ _ => true
  | .routeHop _ => true
  | .beaconPeriod => true
  | .beacon _ b => b.wf
  | .beaconStale _ => true
  | .groupTableWrite off data => bytesIn off data 65536
  | .routeCommit => true
  | .routeCopy => true
  | .bankOpEnd => true
  | .discGo => true
  | .discQ _ q => q.wf
  | .discA _ a => a.wf
  | .discTimeout => true
  | .shaperRelease _ _ => true
  | .policerBackoffEnd _ _ => true
  | .peerFetchDone _ => true
  | .peerEvictable _ => true
  | .windowSend _ => true
  | .put pkt => pkt.wf
  | .getReq pkt => pkt.wf
  | .getRsp pkt => pkt.wf
  | .atomic pkt => pkt.wf
  | .atomicRsp pkt => pkt.wf
  | .send pkt => pkt.wf
  | .sendRdv pkt => pkt.wf
  | .comp pkt => pkt.wf
  | .ncomp pkt => pkt.wf
  | .ack pkt => pkt.wf
  | .sync pkt => pkt.wf
  | .ackTimer _ => true
  | .retryTimeout _ _ => true
  | .nackResend _ _ => true
  | .windowUpdate => true
  | .xferIdle key => key.wf
  | .placementDone key _ _ => key.wf
  | .responseTimeout _ => true
  | .hwmReadClear _ => true
  | .configRequest _ fn req => decide (fn ≤ 4096) && req.wf
  | .readTimeout _ fn => decide (fn ≤ 4096)
  | .pf0Bar2Access _ acc => acc.req.wf
  | .nearRingWrite _ vf _ req => decide (1 ≤ vf ∧ vf ≤ 4096) && req.wf
  | .dlDown _ => true
  | .perst _ => true
  | .hotReset _ => true
  | .linkTrained _ speed width _ => speed != 0 && [1, 2, 4, 8, 16].contains width.val
  | .hgraceExpiry _ => true
  | .flrVf _ vf => decide (1 ≤ vf ∧ vf ≤ 4096)
  | .flrPf0 _ => true
  | .flrEnd _ fn => decide (fn ≤ 4096)
  | .d3hotEntry _ => true
  | .d0Return _ => true
  | .completionTimeout _ tag => decide (tag < 16384)
  | .poisonedTlp _ what => what.wf
  | .ecrcError _ fn => decide (fn ≤ 4096)
  | .atomicopCompletion _ tag _ old => decide (tag < 16384 ∧ old.length ≤ 16)
  | .atomicRetry _ => true
  | .ringPoll _ _ => true
  | .kick _ _ => true
  | .sqEnable _ _ _ => true
  | .sqDisable _ _ => true
  | .nearRingZeroed _ _ => true
  | .cqEnable _ _ _ => true
  | .cqDisable _ _ => true
  | .cqHeadWrite _ _ _ => true
  | .jobComplete _ => true
  | .putJob _ => true
  | .getJob _ => true
  | .putInl _ => true
  | .atomicJob _ => true
  | .sendJob _ => true
  | .recv _ => true
  | .lockJob _ => true
  | .barrier _ => true
  | .broadcast _ => true
  | .reduce _ => true
  | .allreduce _ => true
  | .nop _ => true
  | .seg _ _ _ => true
  | .create _ => true
  | .quiesce _ => true
  | .quiesceEnd _ _ => true
  | .resume _ => true
  | .reset _ => true
  | .remove _ => true
  | .move _ => true
  | .instCmdEnd _ => true
  | .toMgrSet _ => true
  | .toMgrClear _ => true
  | .toTenantSet _ => true
  | .toTenantClear _ => true
  | .dlogFlip _ => true
  | .dlogFlipEnd _ => true
  | .translate _ _ => true
  | .walkReadDone _ _ => true
  | .markCasDone _ _ _ => true
  | .xlatInv => true
  | .xlInv _ => true
  | .invDone _ => true
  | .faultqHeadWrite _ => true
  | .windowWrite _ _ _ _ => true
  | .dmGrantWrite _ _ => true
  | .matchHandover _ _ _ => true
  | .arrive _ => true
  | .post _ => true
  | .walkInterrupt _ => true
  | .walkResume _ => true
  | .unpin _ => true
  | .migrate _ _ => true
  | .migrateEnd _ => true
  | .ctxReset _ => true
  | .ctxResetEnd _ => true
  | .entryRead _ index => decide (index < 2 ^ 21)
  | .poolWrite _ => true
  | .commValid _ => true
  | .commAbort _ => true
  | .collUp pkt => pkt.wf
  | .collDown pkt => pkt.wf
  | .segmentAdmit _ => true
  | .failPacket pkt => pkt.wf
  | .snapshotGo _ => true
  | .waveAbortGo _ => true
  | .waveClearGo _ => true
  | .waveSafeGo _ => true
  | .armPacket pkt => pkt.wf
  | .snapshotUp pkt => pkt.wf
  | .freezePacket pkt => pkt.wf
  | .snapshotRecord pkt => pkt.wf
  | .wavePacket pkt => pkt.wf
  | .armDiscard => true
  | .triggerTimer _ => true
  | .handlerDispatch _ => true
  | .frameTick => true
  | .trigEnable _ => true
  | .trigDisable _ => true
  | .coreHold _ _ _ => true
  | .imemWrite _ _ off data => bytesIn off data 131072
  | .budgetTrap _ => true
  | .stopRequest _ => true
  | .alu _ _ _ _ _ => true
  | .addi _ _ _ _ => true
  | .andi _ _ _ _ => true
  | .ori _ _ _ _ => true
  | .xori _ _ _ _ => true
  | .lui _ _ _ _ => true
  | .insh _ _ _ _ => true
  | .ld1 _ _ _ _ => true
  | .ld2 _ _ _ _ => true
  | .ld4 _ _ _ _ => true
  | .ld8 _ _ _ _ => true
  | .st1 _ _ _ _ => true
  | .st2 _ _ _ _ => true
  | .st4 _ _ _ _ => true
  | .st8 _ _ _ _ => true
  | .amo _ _ _ _ _ => true
  | .beq _ _ _ _ => true
  | .bne _ _ _ _ => true
  | .blt _ _ _ _ => true
  | .bge _ _ _ _ => true
  | .bltu _ _ _ _ => true
  | .bgeu _ _ _ _ => true
  | .call _ _ _ => true
  | .ret _ _ _ => true
  | .j _ _ => true
  | .jr _ _ _ _ _ => true
  | .csr _ _ _ _ _ => true
  | .desc _ _ _ _ _ => true
  | .lkacq _ _ _ _ _ => true
  | .lkrel _ _ _ _ _ => true
  | .fence _ _ _ _ _ => true
  | .done _ _ _ _ => true
  | .gets _ line => decide (line < 2 ^ 30)
  | .getm _ line => decide (line < 2 ^ 30)
  | .upgrade _ line => decide (line < 2 ^ 30)
  | .putm _ line data => decide (line < 2 ^ 30 ∧ data.length = 64)
  | .pute _ line => decide (line < 2 ^ 30)
  | .readna line => decide (line < 2 ^ 30)
  | .writena addr data => decide (addr < 2 ^ 36 ∧ data.length ≤ 64)
  | .atomicna addr _ _ op1 op2 => decide (addr < 2 ^ 36 ∧ op1 < 2 ^ 128 ∧ op2 < 2 ^ 128)
  | .forward _ line => decide (line < 2 ^ 30)
  | .invalidation _ line => decide (line < 2 ^ 30)
  | .coherentResponse _ line => decide (line < 2 ^ 30)
  | .dirRead line => decide (line < 2 ^ 30)
  | .lockArm pkt => pkt.wf
  | .lockAcquire pkt => pkt.wf
  | .lockRelease pkt => pkt.wf
  | .lockDisarm pkt => pkt.wf
  | .lockCancel pkt => pkt.wf
  | .forcedHandover _ => true
  | .codedMessage _ => true
  | .countWindowEnd _ => true
  | .force _ => true
  | .sevClr _ => true
  | .recordRelease _ => true
  | .infoHeadWrite _ => true
  | .heartbeat _ => true
  | .heartbeatMiss => true
  | .takeoverEnd => true
  | .fwLoad => true
  | .fwLoadEnd _ => true
  | .swap => true
  | .restart => true
  | .drain _ => true
  | .drainWaitEnd => true
  | .drained => true
  | .drainClear => true
  | .spareGo _ => true
  | .spareEnd => true
  | .retire _ _ => true
  | .retireEnd _ bad => bad.all (fun b => decide (b < 64))
  | .forceSafe _ => true
  | .forceLanes _ _ => true
  | .thermalTrip _ => true
  | .cntSelWrite _ _ => true
  | .freeze => true
  | .clear => true
  | .sampEnable _ => true
  | .sampRdWrite _ => true
  | .bwWindowEnd => true
  | .railSample _ _ _ => true
  | .tempSample _ _ => true
  | .droop _ _ => true
  | .mmClr temp i => decide (i < (if temp then 64 else 24))
  | .refCheck _ _ _ => true
  | .avsTimeout => true
  | .vsbLoss => true
  | .readIdent => true
  | .readFlog _ => true
  | .readSensor _ _ => true
  | .safe _ => true
  | .lanes _ _ => true
  | .sidebandReset _ _ _ => true
  | .readReg _ => true
  | .writeReg _ _ => true
  | .flashWrite off data => bytesIn off data (64 * 1048576) && decide (data.length ≤ 256)
  | .flashErase _ => true
  | .setEndpointId _ => true
  | .getEndpointId => true
  | .getMctpVersionSupport => true
  | .getMessageTypeSupport => true
  | .getVendorDefinedMessageSupport => true
  | .arbLost _ => true
  | .arbRetry _ => true
  | .smbPoll data => decide (data.length ≤ 8)
  | .bypass => true
  | .idcode => true
  | .samplePreload _ => true
  | .extest => true
  | .highz => true
  | .clamp => true
  | .extestPulse => true
  | .extestTrain => true
  | .dmaReadCompletion _ tag data => decide (tag < 16384 ∧ data.length ≤ 4096)
  | .pllUnlock _ => true
  | .avsbusAcknowledge => true
  | .smbusClockLowTimeout => true
  | .trstAssert => true

end Sys2Proof
end

