-- ==== Sys2Proof/Certificates/Slice0/Obligations.lean ====
section
/-! DEFINITION. Obligations: the statements about the model that the provers prove. `Does c s t` says that command `c` on state `s` completes
with the whole effect `t`: every register, memory and queue that `t` does not change is unchanged; `Yields c s P` that it completes and that
its next state has the property `P`. Where a statement names a value that only the model fixes, it says so. -/

open Sys2Proof Sys2Proof.Machine

/-- A step at a state with a command at the front of its queue is that command's effect on the state with the queue's rest. -/
def Obligations.StepTakesFront : Prop :=
  ∀ (c : Instr) (s : State), step { s with pending := c :: s.pending } = exec c s

/-- The model's choice (DESIGN CHOICE, log 14): a step on an empty queue of a powered device delivers the oldest coded message on its way
to Chervil as CODED_MESSAGE does, and with none on its way lets 5 ns pass; an unpowered device stays as it is. -/
def Obligations.IdleStep : Prop :=
  ∀ (s : State), s.pending = [] →
    (s.powered = false → step s = .next s)
    ∧ (s.powered = true → ∀ m l, s.flt.net = m :: l → step s = exec (.codedMessage m) s)
    ∧ (s.powered = true → s.flt.net = [] → ∃ t, step s = .next t ∧ t.now = s.now + 5 ∧ t.out = s.out ∧ t.pending = []
        ∧ (∀ a, (a < 0x101000 ∨ 0x109000 ≤ a) → t.word a = s.word a))

/-- Every command answers a next state from every state: none faults and none is refused. The commands that wait stay as they were. -/
def Obligations.EveryCommandCompletes : Prop :=
  ∀ (c : Instr) (s : State), ∃ t, exec c s = .next t ∧ t.pending = s.pending

/-- While VSB is lost no command has an effect, but for the cold reset at power-on, which powers the device and resets it as it resets a
powered one. -/
def Obligations.UnpoweredDevice : Prop :=
  ∀ (c : Instr) (s : State), s.powered = false →
    ((∀ x, c ≠ .coldReset .powerOn x) → exec c s = .next s)
    ∧ (∀ x, exec (.coldReset .powerOn x) s = exec (.coldReset .powerOn x) { s with powered := true }
        ∧ ∃ t, exec (.coldReset .powerOn x) s = .next t ∧ t.powered = true)

/-- After reset the device is INERT and not in the safe state, every register reads its reset value, no source has a severity, the fabric
ports are OFF, nothing waits and nothing was sent, only the Bay island runs, the outputs are as R553 says, and every byte memory is empty
(zero, and erased flash: the model's values, log 4 and 5). -/
def Obligations.ResetState : Prop :=
  State.reset.imgState = 0 ∧ State.reset.safe = false ∧ State.reset.powered = true ∧ (∀ a, State.reset.word a = resetWord a)
  ∧ (∀ i : Fin 640, State.reset.get (Reg.srcStat i) Fld.srcStatSev = 0) ∧ (∀ p : Fin 144, State.reset.portState p = 0)
  ∧ State.reset.pending = [] ∧ State.reset.out = [] ∧ State.reset.fenced = [] ∧ State.reset.img.retained = none
  ∧ (∀ i : Fin 74, (Table.getD State.reset.islands Island.init i).inReset = decide (i ≠ 37))
  ∧ State.reset.pinsFollow ∧ State.reset.memoriesWf ∧ State.reset.pins = ⟨false, false⟩

/-- R553: every step keeps this: SAFE_OUT# is asserted exactly while the safe state is held (which step 5 of R502 latches), and SMBALERT#
while any source has `sev` other than 0 or the safe state is held, both only while VSB is present. No command but a reset, in one of its
forms, releases SAFE_OUT# of a device that has VSB. -/
def Obligations.OutputsFollow : Prop :=
  (∀ s : State, s.pinsFollow ↔ s.pins = ⟨s.powered && s.safe, s.powered && (s.safe || s.anySev)⟩)
  ∧ (∀ s : State, s.anySev = true ↔ ∃ k : Fin 640, s.get (Reg.srcStat k) Fld.srcStatSev ≠ 0)
  ∧ (∀ (s t : State), s.pinsFollow → step s = .next t → t.pinsFollow)
  ∧ (∀ (c : Instr) (s t : State), c.mayReset = false → s.pinsFollow → s.pins.safeOut = true → exec c s = .next t → t.powered = true →
      t.pins.safeOut = true)

/-- The safe state, once held, is held after every command that is no reset: only cold and warm reset, by any of their ways, release it
(R501, R502). No step ever clears a blown fuse; only the end of fuse programming changes the fuses at all; and only the sideband's flash commands
change the board's flash. -/
def Obligations.OneWayStores : Prop :=
  (∀ (c : Instr) (s t : State), c.mayReset = false → s.safe = true → exec c s = .next t → t.safe = true)
  ∧ (∀ (s t : State), step s = .next t → s.fuse.blownIn t.fuse)
  ∧ (∀ (c : Instr) (s t : State), (∀ b, c ≠ .fuseEnd b) → exec c s = .next t → t.fuse = s.fuse)
  ∧ (∀ (c : Instr) (s t : State), c.writesFlash = false → exec c s = .next t → t.img.flash = s.img.flash)

/-- Every register of every array is found at its own address with its own indices: no two registers share an address, across the whole
register space; and no two fields of a register share a bit. -/
def Obligations.RegisterMap : Prop :=
  (∀ d ∈ regTable, ∀ i j, i < d.n1 → j < d.n2 → regAt (d.base + i * d.s1 + j * d.s2) = some (d, i, j))
  ∧ (∀ d ∈ regTable, ∀ f ∈ d.fields, f.field.fits = true ∧ ∀ g ∈ d.fields, f = g ∨ f.field.apart g.field = true)

/-- R11: a register access reads or writes the 64-bit little-endian register at its offset, aligned at 32 or 64 bits; of another size or
alignment a read returns all ones and a write is discarded, each with an event. A write of a register of a block that is not configured is
discarded with its event; where no register is nothing happens, configured or not. An island that has not opened its channels, or is fenced,
refuses an access, which the sideband answers with code 5 (what it refuses is the model's, log 141). A host's access to a link that is down
does nothing. One field of a write: a read-only field stays; a field that the write does not carry stays; RW takes the value, clamped; RWX takes it
with `expert` set, and else is discarded; a locked field keeps its value, and it is noted when the write would change it; W1C clears the bits
written. A write of a lock bit sets it, and a write of `expert` is a write that carries that bit alone. -/
def Obligations.RegisterWrites : Prop :=
  ∀ (s : State) (a n : Nat) (v : BitVec 64) (sp : RegSpace), s.powered = true →
    (s.regShut a = false →
      exec (.registerWrite ⟨.sideband, sp, true, a, n, v⟩) s = .next (s.keep (s.writeAt a n v)).drivePins
      ∧ exec (.registerWrite ⟨.sideband, sp, false, a, n, v⟩) s = .next (s.keep ((s.readAt a n).2.emit (.readData (s.readAt a n).1))).drivePins)
    ∧ (s.regShut a = true → ∀ w : Bool, exec (.registerWrite ⟨.sideband, sp, w, a, n, v⟩) s =
        .next (s.keep (s.emit (.sideband (if w then 136 else 135) 5 []))).drivePins)
    ∧ (∀ (h : Fin 4) (w : Bool), s.linkUp h = false → exec (.registerWrite ⟨.host h, sp, w, a, n, v⟩) s = .next (s.keep s).drivePins)
    ∧ (accessOk a n = true ↔ (n = 4 ∨ n = 8) ∧ a % n = 0)
    ∧ (accessOk a n = false → s.writeAt a n v = s.notice 60 a ∧ s.readAt a n = (BitVec.ofNat 64 (2 ^ (8 * n) - 1), s.notice 60 a))
    ∧ (a % 8 = 0 → (s.readAt a 8).1 = s.readWord a ∧ (s.readAt a 4).1 = BitVec.ofNat 64 ((s.readWord a).toNat % 2 ^ 32)
        ∧ (s.readAt (a + 4) 4).1 = BitVec.ofNat 64 ((s.readWord a).toNat / 2 ^ 32))
    ∧ (accessOk a n = true → gated a = true → s.structured = false → (inWindows a = true ∨ regAt (a / 8 * 8) ≠ none) →
        s.writeAt a n v = s.notice 61 a)
    ∧ (accessOk a n = true → inWindows a = false → regAt (a / 8 * 8) = none → s.writeAt a n v = s)
    ∧ (∀ (e l : Bool) (c : BitVec 64) (x : Stored) (f : FieldDesc), f.field.fits = true →
        (f.acc = .ro ∨ f.field.get c = 0 → Stored.field e l v c x f = x)
        ∧ (f.field.get c ≠ 0 → (f.acc = .rw ∨ (f.acc = .rwx ∧ e = true) ∨ (f.acc = .rwl ∧ l = false)) →
            f.field.get (Stored.field e l v c x f).word = f.clamp.apply (f.field.merge x.word v c) % 2 ^ f.field.width
            ∧ (∀ g : Field, g.apart f.field = true → g.get (Stored.field e l v c x f).word = g.get x.word)
            ∧ (Stored.field e l v c x f).discarded = x.discarded ∧ (Stored.field e l v c x f).locked = x.locked)
        ∧ (f.field.get c ≠ 0 → f.acc = .rwx → e = false → Stored.field e l v c x f = { x with discarded := true })
        ∧ (f.field.get c ≠ 0 → f.acc = .rwl → l = true → (Stored.field e l v c x f).word = x.word
            ∧ ((Stored.field e l v c x f).locked = true ↔ x.locked = true ∨ f.field.merge x.word v c ≠ f.field.get x.word))
        ∧ (f.field.get c ≠ 0 → f.acc = .w1c → (Stored.field e l v c x f).word = x.word &&& ~~~ (v &&& c &&& f.field.mask)))
    ∧ (∀ r : LockReg, ((gated (lockRegAt r) = true → s.structured = true) → Yields (.lockSet r v) s (fun t => t.flag (lockRegAt r) (lockBitField (lockRegAt r)) = true))
        ∧ (gated (lockRegAt r) = true → s.structured = false → Does (.lockSet r v) s (s.notice 61 (lockRegAt r))))
    ∧ (∀ (b : ExpertBlock) (on : Bool),
        (gated (expertAt b) = true → s.structured = false → Does (.expertChange b on) s (s.notice 61 (expertAt b)))
        ∧ ((gated (expertAt b) = true → s.structured = true) → ∃ d i j, regAt (expertAt b) = some (d, i, j)
            ∧ Does (.expertChange b on) s (s.writeReg ⟨d, i, j, expertAt b, expertAt b, (expertField (expertAt b)).make (b2n on),
                (expertField (expertAt b)).mask⟩)))

/-- While `busy` is clear, a write of the window stores its bytes in the staging buffer, the k-th at the k-th place from its offset on; every
other byte of it stays, and no image is held as verified; while `busy` is set the write is discarded. An access at PF0 BAR0 offset 0x0200_0000 + n reaches byte n: a
read returns the buffer's bytes, and a write is a write of the window. The buffer holds zero after a cold reset. -/
def Obligations.StagingWindow : Prop :=
  ∀ (s : State) (n : Nat) (l : List Byte), s.powered = true →
    (s.imgBusy = true → Does (.stagingWrite n l) s s)
    ∧ (s.imgBusy = false → n + l.length ≤ 2 ^ 24 → Yields (.stagingWrite n l) s (fun t =>
        t.img.staging = writeBytes s.img.staging 0 n l
        ∧ (∀ b, (b < n ∨ n + l.length ≤ b) → Table.getD t.img.staging 0 b = Table.getD s.img.staging 0 b)
        ∧ t.img.verifiedFull = none ∧ t.img.verifiedTile = none ∧ t.regs = s.regs ∧ t.rma = s.rma ∧ t.out = s.out
        ∧ t.flt.net = s.flt.net))
    ∧ (∀ m, Memory.wf m 0 → ∀ k (h : k < l.length), Table.getD (writeBytes m 0 n l) 0 (n + k) = l[k])
    ∧ (∀ a, a < 2 ^ 24 → a % 8 = 0 → (s.readAt (0x2000000 + a) 8).1 = BitVec.ofNat 64 (leNat (readBytes s.img.staging 0 a 8))
        ∧ ∀ v : BitVec 64, s.writeAt (0x2000000 + a) 8 v = doStagingWrite a (leBytes v.toNat 8) s)
    ∧ (∀ (c : ColdCause) (x : Straps) (b : Nat), readBytes (s.cold c x).img.staging 0 b 1 = [0])

/-- A load, apply, enable or flash fetch is refused with error 10 while `busy` is set and else with error 9 in test; a load and a fetch
begin, but that a fetch during a flash operation of the sideband port fails with error 10 (when such an operation has ended is free, log
146); an enable takes STRUCTURED alone, to ENABLED; an apply takes a verified or retained full image in LOADED alone, and a verified tile
image of a drained slot in the two states above. An end without its command does nothing; verification by the end of a load holds the
image or records the first failure; the end of a full image's apply puts it in force in STRUCTURED and retains it; lost HBM ends either
with error 12 and leaves the device's state; a tile image is held as verified from a load. A fetch that fails names error 11, and at boot tries the secondary copy. An island's channels
open once it has left reset with its clock locked and its state loaded, and the ports that waited for it leave OFF. -/
def Obligations.ImageCommands : Prop :=
  ∀ (s : State) (b : Bool) (i : Fin 74), s.powered = true →
    (∀ c ∈ [Instr.load, .apply, .enable, .flashLoad b], (s.imgBusy = true → Does c s (s.imgEnd 10))
        ∧ (s.imgBusy = false → s.testEn = true → Does c s (s.imgEnd 9)))
    ∧ (∀ n, n ≠ 0 → ∀ t, t = s.imgEnd n → t.get Reg.imgStatus Fld.imgStatusError = n % 2 ^ Fld.imgStatusError.width
        ∧ t.flag Reg.imgStatus Fld.imgStatusFail = true ∧ t.flag Reg.imgStatus Fld.imgStatusDone = false
        ∧ t.imgState = s.imgState ∧ t.img = s.img)
    ∧ (s.imgBusy = false → s.testEn = false → Yields (.flashLoad b) s (fun t => t.imgState = s.imgState
        ∧ (if s.side.flashing && Config.flashOpGoesOn s.freeCtr then t.imgBusy = false ∧ t.flag Reg.imgStatus Fld.imgStatusFail = true
            ∧ t.get Reg.imgStatus Fld.imgStatusError = 10 ∧ t.img = s.img ∧ t.side.flashing = true
          else t.imgBusy = true ∧ t.img.op = .fetch b false ∧ t.out = s.out)))
    ∧ (s.imgBusy = false → s.testEn = false →
        Yields .load s (fun t => t.imgBusy = true ∧ t.img.op = .load ∧ t.imgState = s.imgState ∧ t.out = s.out)
        ∧ (s.imgState ≠ 2 → Does .enable s (s.imgEnd 9))
        ∧ (s.imgState = 2 → Does .enable s ((allPorts.foldl (fun (t : State) p => t.tryBringUp p)
            ((match s.img.applied with | some c => c.locks | none => []).foldl (fun (t : State) a => t.put a (lockBitField a) 1)
              (s.put Reg.imgStatus Fld.imgStatusState 3))).imgEnd 0))
        ∧ (s.imgState = 1 → ∀ f, s.img.verifiedFull = some f → Does .apply s (s.imgBegin (.applyFull f false)))
        ∧ (s.imgState = 1 → s.img.verifiedFull = none → ∀ f, s.img.retained = some f → Does .apply s (s.imgBegin (.applyFull f true)))
        ∧ (s.imgState = 1 → s.img.verifiedFull = none → s.img.retained = none → Does .apply s (s.imgEnd 9))
        ∧ (s.imgState = 0 → Does .apply s (s.imgEnd 9))
        ∧ (2 ≤ s.imgState → s.img.verifiedTile = none → Does .apply s (s.imgEnd 9))
        ∧ (2 ≤ s.imgState → ∀ x, s.img.verifiedTile = some x → s.slotDrained x.slot = false → Does .apply s (s.imgEnd 9))
        ∧ (2 ≤ s.imgState → ∀ x, s.img.verifiedTile = some x → s.slotDrained x.slot = true → s.tileTargetOk x = true →
            Does .apply s (s.imgBegin (.applyTile x))))
    ∧ (s.img.op ≠ .load → Does (.loadEnd b) s s)
    ∧ (s.img.op = .load → Yields (.loadEnd false) s (fun t => t.img.op = .idle ∧ t.imgBusy = false ∧ t.img.verifiedFull = none
        ∧ t.img.verifiedTile = none ∧ t.imgState = s.imgState ∧ t.get Reg.imgStatus Fld.imgStatusError = 12))
    ∧ (s.img.op = .load → ∀ v, v = s.verify s.img.staging [1, 2] s.kindOk →
        (∀ c, v = .full c → Yields (.loadEnd true) s (fun t => t.img.verifiedFull = some ⟨c, 1⟩ ∧ t.img.verifiedTile = none
            ∧ t.imgState = max 1 s.imgState ∧ t.imgBusy = false ∧ t.flag Reg.imgStatus Fld.imgStatusDone = true
            ∧ t.flag Reg.imgStatus Fld.imgStatusFail = false))
        ∧ (∀ x, v = .tile x → Yields (.loadEnd true) s (fun t => t.img.verifiedTile = some x ∧ t.img.verifiedFull = s.img.verifiedFull
            ∧ t.imgState = s.imgState ∧ t.imgBusy = false ∧ t.flag Reg.imgStatus Fld.imgStatusDone = true))
        ∧ (∀ e k, v = .bad e k → 0 < e → e < 256 → Yields (.loadEnd true) s (fun t => t.img.verifiedFull = none ∧ t.img.verifiedTile = none
            ∧ t.imgState = s.imgState ∧ t.imgBusy = false ∧ t.flag Reg.imgStatus Fld.imgStatusDone = false
            ∧ t.flag Reg.imgStatus Fld.imgStatusFail = true ∧ t.get Reg.imgStatus Fld.imgStatusError = e)))
    ∧ ((∀ f r, s.img.op ≠ .applyFull f r) → (∀ x, s.img.op ≠ .applyTile x) → Does (.applyEnd b) s s)
    ∧ (∀ f r, s.img.op = .applyFull f r → Yields (.applyEnd true) s (fun t => t.imgState = 2 ∧ t.imgBusy = false
          ∧ t.img.applied = some f.config ∧ t.img.retained = some f ∧ t.img.verifiedFull = none ∧ t.tileMap = f.config.tileMap
          ∧ t.spareTile = f.config.spareTile ∧ t.islands = s.islandsReady)
        ∧ Yields (.applyEnd false) s (fun t => t.imgState = s.imgState ∧ t.imgBusy = false ∧ t.img.applied = s.img.applied
          ∧ t.img.retained = s.img.retained ∧ t.img.verifiedFull = s.img.verifiedFull ∧ t.get Reg.imgStatus Fld.imgStatusError = 12))
    ∧ ((∀ x y, s.img.op ≠ .fetch x y) → Does (.flashFetchEnd b) s s)
    ∧ (∀ x, s.img.op = .fetch x false → Yields (.flashFetchEnd false) s (fun t => t.imgBusy = false ∧ t.img.op = .idle
        ∧ t.imgState = s.imgState ∧ t.get Reg.imgStatus Fld.imgStatusError = 11))
    ∧ (s.img.op = .fetch false true → Yields (.flashFetchEnd false) s (fun t => t.imgBusy = true ∧ t.img.op = .fetch true true
        ∧ t.img.bootError = 11 ∧ t.imgState = s.imgState ∧ t.out = s.out))
    ∧ (∀ x, x = s.island i →
        ((x.inReset = false ∧ x.clockLocked = true ∧ x.loaded = true) → Does (.islandChannelsOpen i) s
          (allPorts.foldl (fun (t : State) p => t.tryBringUp p) (s.setIsland i { x with channelsOpen := true })))
        ∧ (¬ (x.inReset = false ∧ x.clockLocked = true ∧ x.loaded = true) → Does (.islandChannelsOpen i) s s))

/-- A fuse command is refused with error 10 while `busy` is set; outside INERT, with a wrong confirmation, or for a fuse that is blown or
may not be, it posts a "locked write" event and nothing else; else programming starts. Programming that read back blows the slot's hash,
its revoke bit or `require_cust`, and nothing else; programming that did not read back ends with error 13 and leaves every blown fuse
blown (what else it left is a free value, log 6). A cold reset that waited takes effect at the end. -/
def Obligations.FuseCommands : Prop :=
  ∀ (s : State) (c : BitVec 16) (k : Fin 4) (b : Bool), s.powered = true →
    (∀ p : Instr × State × Bool × ImgOp, p ∈ [
        (.fuseProgram c k, s.putFuseCtrl c.toNat k false false, k.val != 0 && !bit s.fuse.programmed k, .fuse k false false s.fuseHash),
        (.fuseRevoke c k, s.putFuseCtrl c.toNat k true false, !bit s.fuse.revoked k && (k.val != 0 || s.fuse.custUsable),
          .fuse k true false 0),
        (.fuseReqCust c, s.putFuseCtrl c.toNat (s.get Reg.fuseCtrl Fld.fuseCtrlSlot) (s.get Reg.fuseCtrl Fld.fuseCtrlRevoke == 1) true,
          !s.fuse.requireCust, .fuse 0 false true 0)] →
      (s.imgBusy = true → Does p.1 s (p.2.1.imgEnd 10))
      ∧ (s.imgBusy = false → (s.imgState ≠ 0 ∨ c ≠ 0xF05E ∨ p.2.2.1 = false) → Does p.1 s (p.2.1.notice 62 Reg.fuseCtrl))
      ∧ (s.imgBusy = false → s.imgState = 0 → c = 0xF05E → p.2.2.1 = true → Yields p.1 s (fun t =>
          t.imgBusy = true ∧ t.flag Reg.imgStatus Fld.imgStatusFuseBusy = true ∧ t.img.op = p.2.2.2 ∧ t.fuse = s.fuse
          ∧ t.imgState = 0 ∧ t.out = s.out)))
    ∧ ((∀ x r q h, s.img.op ≠ .fuse x r q h) → (s.img.op ≠ .idle ∨ s.img.coldPending = none) → Yields (.fuseEnd b) s (fun t => t.fuse = s.fuse ∧ t.regs = s.regs
        ∧ t.img.op = s.img.op))
    ∧ (∀ (x : Nat) (r q : Bool) (h : BitVec 384), s.img.op = .fuse x r q h →
        (s.img.coldPending = none → Yields (.fuseEnd true) s (fun t => t.img.op = .idle ∧ t.imgBusy = false
          ∧ t.flag Reg.imgStatus Fld.imgStatusFuseBusy = false ∧ t.flag Reg.imgStatus Fld.imgStatusDone = true
          ∧ t.fuse = (if q then { s.fuse with requireCust := true }
              else if r then { s.fuse with revoked := s.fuse.revoked ||| 1 <<< x }
              else { s.fuse with keyHash := s.fuse.keyHash.set x h, programmed := s.fuse.programmed ||| 1 <<< x })))
        ∧ (s.img.coldPending = none → Yields (.fuseEnd false) s (fun t => t.img.op = .idle ∧ t.imgBusy = false
          ∧ t.get Reg.imgStatus Fld.imgStatusError = 13 ∧ s.fuse.blownIn t.fuse))
        ∧ (∀ y z, s.img.coldPending = some (y, z) → Yields (.fuseEnd b) s (fun t => t.fuse = (s.fuseDone b).fuse
          ∧ t.get Reg.bayReset Fld.bayResetLast = coldLast y ∧ t.flt.safeLatched = false)))

/-- A cold reset acts at once, but while fuses are programmed it waits for their end; after it every register is at its reset value but
BAY.STRAP, which holds the straps, BAY.RESET, which names the cause, and IMAGE where flash boot begins; device memory, the image buffers and
the safe state are gone; the fuses and the flash stay. A warm reset ends the safe state, returns the device to LOADED (or leaves it in INERT)
and keeps the host links, the fused maps, device memory, the retained image, the Bay island's registers and what counts since cold reset. A confirmed write of BAY.RESET and the sideband's RESET are
the same resets, and without the confirmation nothing is reset. -/
def Obligations.Resets : Prop :=
  ∀ (s : State) (x : Straps) (c : BitVec 16) (k : BitVec 8), s.powered = true →
    (∀ p : Instr × State × ColdCause, p ∈ [(.coldReset .pin x, s, .pin), (.bayResetCold 0xA5C3 x, s, .register),
        (.sidebandReset 2 0xA5C3 x, s.respond 6 0 [], .sideband)] →
      ((∀ a r q h, s.img.op ≠ .fuse a r q h) → exec p.1 s = .next (s.keep (p.2.1.cold p.2.2 x)).drivePins)
      ∧ (∀ a r q h, s.img.op = .fuse a r q h → s.img.coldPending = none →
          exec p.1 s = .next (s.keep { p.2.1 with img := { p.2.1.img with coldPending := some (p.2.2, x) } }).drivePins))
    ∧ exec (.coldReset .powerOn x) s = .next (s.keep (s.cold .powerOn x)).drivePins
    ∧ (∀ (y : ColdCause) (t : State), t = s.cold y x →
        t.safe = false ∧ t.imgState = 0 ∧ t.rma.hbm = [] ∧ t.img.retained = none ∧ t.img.verifiedFull = none ∧ t.insts = []
        ∧ t.word Reg.strap = strapWord x ∧ t.get Reg.bayReset Fld.bayResetLast = coldLast y
        ∧ (x.boot.val ≠ 1 → ∀ a, a ≠ Reg.strap → a ≠ Reg.bayReset → t.word a = resetWord a)
        ∧ (x.boot.val = 1 → x.testEn = false → t.img.op = .fetch false true ∧ t.imgBusy = true))
    ∧ (∀ p : Instr × State × WarmCause, p ∈ [(.warmReset .pin, s, .pin), (.bayResetWarm 0xA5C3, s, .register),
        (.sidebandReset 1 0xA5C3 x, s.respond 6 0 [], .sideband)] →
      (s.img.coldPending = none → exec p.1 s = .next (s.keep (p.2.1.warm p.2.2)).drivePins)
      ∧ (s.img.coldPending.isSome → exec p.1 s = .next (s.keep p.2.1).drivePins))
    ∧ (∀ (y : WarmCause) (t : State), t = s.warm y →
        t.safe = false ∧ t.imgState = min 1 s.imgState ∧ t.img.applied = none ∧ t.hosts = s.hosts
        ∧ t.img.retained = s.img.retained ∧ t.img.verifiedFull = s.img.verifiedFull ∧ t.rma.hbm = s.rma.hbm
        ∧ t.spareMap = s.spareMap ∧ t.engMap = s.engMap ∧ t.tileMap = s.tileMap ∧ t.get Reg.bayReset Fld.bayResetLast = warmLast y
        ∧ t.insts = [] ∧ t.ports = [] ∧ t.links = []
        ∧ (∀ a, a < 0x40000 → a ≠ Reg.imgStatus → a ≠ Reg.bayReset → a ≠ Reg.avs → t.word a = s.word a)
        ∧ t.get Reg.avs Fld.avsCoreSet = s.get Reg.avs Fld.avsCoreSet
        ∧ (∀ a, warmKeeps a = false → isPortStat a = false → a ≠ Reg.faultCtrl → a ≠ Reg.exchCtrl → a ≠ Reg.collCtrl →
            t.word a = resetWord a)
        ∧ (∀ a, isPortStat a = true → t.get a Fld.portStatDegradeCount = s.get a Fld.portStatDegradeCount
            ∧ ∀ f ∈ [Fld.portStatState, Fld.portStatWidth, Fld.portStatFailCount, Fld.portStatHeldReason],
              t.get a f = f.get (resetWord a)))
    ∧ (c ≠ 0xA5C3 → exec (.bayResetWarm c) s = .next (s.keep s).drivePins ∧ exec (.bayResetCold c x) s = .next (s.keep s).drivePins)
    ∧ (k ≠ 1 → k ≠ 2 → exec (.sidebandReset k c x) s = .next (s.keep (s.respond 6 1 [])).drivePins)
    ∧ ((k = 1 ∨ k = 2) → c ≠ 0xA5C3 → exec (.sidebandReset k c x) s = .next (s.keep (s.respond 6 2 [])).drivePins)

/-- Bring-up: a detect try counts the tries in a row of each lane and enters WAKE after three on every lane, or on one alone when the other
has not answered for 10 ms; valid training frames, a ready adaptation, an overrun state, a third good marker and a second bad one, a
codeword and a loss of signal do to a port and its lanes what the bring-up states say; in any other state the first four do nothing. The
coefficients that adaptation finds are a free value (log 13). -/
def Obligations.LaneBringUp : Prop :=
  ∀ (s : State) (p : Fin 144) (k : Fin 288), s.powered = true →
    (∀ (a b : Bool) (x y : Echo), s.portState p ≠ 1 → Does (.detectTry p a b x y) s s)
    ∧ (∀ (a b : Bool) (x y : Echo), s.portState p = 1 → ∀ (i j w : Nat) (two : Bool),
        two = ((s.laneRec p).width == 0) →
        i = (if a then (s.port p).triesA + 1 else 0) → j = (if b ∧ two then (s.port p).triesB + 1 else 0) →
        w = (if 3 ≤ i ↔ 3 ≤ j then 0 else (s.port p).waitedUs + detectIntervalUs (s.get (s.portStat p) Fld.portStatFailCount)) →
        Yields (.detectTry p a b x y) s (fun t => (t.port p).triesA = i ∧ (t.port p).triesB = j ∧ (t.port p).waitedUs = w
          ∧ (t.port p).firstDetect = false ∧ ((t.port p).laneA = true ↔ 3 ≤ i) ∧ ((t.port p).laneB = true ↔ 3 ≤ j)
          ∧ (t.portState p = 2 ∨ t.portState p = 1)
          ∧ (t.portState p = 2 ↔ (3 ≤ i ∧ (3 ≤ j ∨ two = false)) ∨ 10000 ≤ w)))
    ∧ Does (.trainingFramesValid p) s (if s.portState p = 2 then
        ((s.portWorking p).foldl (fun (t : State) pos =>
          (t.put (t.laneStat (t.portLane p pos)) Fld.laneStatSig 1).put (t.laneStat (t.portLane p pos)) Fld.laneStatCdrLock 1) s).putPortStat p
            Fld.portStatState 3 else s)
    ∧ (∀ m n : Nat, s.portState p ≠ 3 → Does (.adaptReady p m n) s s)
    ∧ (∀ m n : Nat, s.portState p = 3 → Yields (.adaptReady p m n) s (fun t =>
        t.portState p = 4 ∧ ∀ pos ∈ s.portWorking p, t.get (s.laneStat (s.portLane p pos)) Fld.laneStatLossDb = min (if pos = 0 then m else n) 255))
    ∧ Does (.stateTimeout p) s (if 2 ≤ s.portState p ∧ s.portState p ≤ 6 then s.failToDetect p else s)
    ∧ (∀ (m : Marker) (q pos : Nat), s.lanePort k = some (q, pos) → 4 ≤ s.portState q → s.amAuto q = true → m.patternOk = true → m.pos.val = pos →
        (s.lane k).goodRun = 2 → m.count.toNat = ((s.lane k).lastCount + 1) % 65536 →
        Does (.alignmentMarker k m) s (((((s.setLane k { (s.lane k) with goodRun := 3, lastCount := m.count.toNat, badRun := 0 }).put
          (s.laneStat k) Fld.laneStatSig 1).put (s.laneStat k) Fld.laneStatCdrLock 1).put (s.laneStat k) Fld.laneStatAmLock 1).tryExchange q
            m.skewNs))
    ∧ (∀ (m : Marker) (q pos : Nat), s.lanePort k = some (q, pos) → 4 ≤ s.portState q → s.amAuto q = true →
        (m.patternOk = false ∨ m.pos.val ≠ pos) → (s.lane k).badRun = 1 → s.locked q pos = true →
        Does (.alignmentMarker k m) s ((s.setLane k { (s.lane k) with goodRun := 0, badRun := 2 }).lockLost q pos))
    ∧ (∀ (m : Marker) (q pos : Nat), s.lanePort k = some (q, pos) → (s.portState q < 4 ∨ s.amAuto q = false) →
        Does (.alignmentMarker k m) s s)
    ∧ (∀ (n : Nat) (l : List (BitVec 257)), n ≤ 10 → Yields (.codeword k ⟨n, l⟩) s (fun t =>
        (t.lane k).uncorrRun = 0 ∧ (t.lane k).cw = (s.lane k).cw + 1 ∧ (∀ c ∈ (t.lane k).badCws, c ∈ (s.lane k).badCws)
        ∧ t.get (s.laneErr k) Fld.laneErrCorrSym = min (s.get (s.laneErr k) Fld.laneErrCorrSym + n) Fld.laneErrCorrSym.top
        ∧ t.out = s.out ∧ t.flt.net = s.flt.net))
    ∧ (∀ (n : Nat) (l : List (BitVec 257)), 10 < n → (s.lane k).uncorrRun < 3 → Yields (.codeword k ⟨n, l⟩) s (fun t =>
        (t.lane k).uncorrRun = (s.lane k).uncorrRun + 1 ∧ (s.lane k).cw ∈ (t.lane k).badCws
        ∧ t.get (s.laneErr k) Fld.laneErrUncorrCw = min (s.get (s.laneErr k) Fld.laneErrUncorrCw + 1) Fld.laneErrUncorrCw.top
        ∧ t.out = s.out ∧ t.flt.net = s.flt.net))
    ∧ (∀ (n q pos : Nat) (l : List (BitVec 257)) (u : State), 10 < n → s.lanePort k = some (q, pos) → (s.lane k).uncorrRun = 3 →
        u = ((s.setLane k { (s.lane k) with
          cw := (s.lane k).cw + 1, uncorrRun := 0,
          badCws := ((s.lane k).cw :: (s.lane k).badCws).filter (fun c => decide ((s.lane k).cw < c + 1239)) }).bump
            (s.laneErr k) Fld.laneErrUncorrCw 1) →
        Does (.codeword k ⟨n, l⟩) s ((if u.mission q then u.takeBlocks k true true l else u).laneFailure q pos))
    ∧ (∀ u : State, u = (s.put (s.laneStat k) Fld.laneStatSig 0).put (s.laneStat k) Fld.laneStatCdrLock 0 →
        (s.lanePort k = none → Does (.lossOfSignal k) s u)
        ∧ (∀ q pos, s.lanePort k = some (q, pos) → (s.portState q < 2 ∨ (u.portInUse q).contains pos = false) → Does (.lossOfSignal k) s u)
        ∧ (∀ q pos, s.lanePort k = some (q, pos) → 2 ≤ s.portState q → (u.portInUse q).contains pos = true →
            ((∀ x ∈ u.portInUse q, u.flag (u.laneStat (u.portLane q x)) Fld.laneStatSig = false) → Does (.lossOfSignal k) s (u.failToDetect q))
            ∧ ((∃ x ∈ u.portInUse q, u.flag (u.laneStat (u.portLane q x)) Fld.laneStatSig = true) →
                Does (.lossOfSignal k) s (u.laneFailure q pos))))

/-- A capability timer sends this port's record in EXCHANGE and RETRAIN; a record is acknowledged in EXCHANGE, and is a bad control block
elsewhere but in RETRAIN; an acknowledgement counts where its CRC is that of the record sent last; an echo request is answered in the states that
have one, and the measurement sends its 16 requests, keeps each answer once, fails to DETECT with fewer than 8, holds a port whose median is above 20 us, and else enters ACTIVE. The unit of the
timestamp that a request carries is the model's (log 125). -/
def Obligations.CapabilityExchange : Prop :=
  ∀ (s : State) (p : Fin 144), s.powered = true →
    (Does (.capTimer p) s (if s.portState p = 5 ∨ s.portState p = 8 then
        (s.setPort p { (s.port p) with sentCap := some (s.ownCap p) }).sendCtl p (.cap (s.ownCap p)) else s))
    ∧ (∀ c : CapRec, s.portState p ≠ 5 → s.portState p ≠ 8 → Does (.cap p c) s (s.ctlBad p))
    ∧ (∀ (c : CapRec) (u v : State), (s.portState p = 5 ∨ s.portState p = 8) →
        u = (if ∃ c', (s.port p).lastCap = some c' ∧ c' ≠ c then s.enterExchange p else s) →
        v = ((u.put (s.portPartner p) Fld.portPartnerFid c.fid.toNat).put (s.portPartner p) Fld.portPartnerPort c.port.toNat).put
          (s.portPartner p) Fld.portPartnerValid 1 →
        Does (.cap p c) s (((v.setPort p { (v.port p) with lastCap := some c, capAcked := true }).sendCtl p (.capAck (capCrc c))).tryAgree p))
    ∧ (∀ crc : BitVec 16, Does (.capAck p crc) s (
        if s.portState p = 8 then s
        else if s.portState p ≠ 5 then s.ctlBad p
        else if (s.port p).sentCap.map capCrc = some crc.toNat then (s.setPort p { (s.port p) with ackOk := true }).tryAgree p
        else s))
    ∧ (∀ (n : BitVec 16) (w : BitVec 64) (turn : BitVec 32), Does (.echoReq p n w turn) s (
        if 5 ≤ s.portState p ∧ s.portState p ≤ 7 then s.sendCtl p (.echoRsp n.toNat w turn.toNat) else s.ctlBad p))
    ∧ (∀ (n : BitVec 16) (e : Nat) (turn : BitVec 32), s.portState p = 6 → (s.port p).echoSent = 16 → n.toNat < 16 →
        (s.port p).echoAnswers.any (fun x => x.1 == n.toNat) = false →
        Does (.echoRsp p n e turn) s (s.setPort p { (s.port p) with echoAnswers := (s.port p).echoAnswers ++ [(n.toNat, e - turn.toNat)] }))
    ∧ Does (.echoTimeout p) s (if s.portState p = 6 ∧ (s.port p).echoSent < 16 then
        (s.setPort p { (s.port p) with echoSent := (s.port p).echoSent + 1 }).sendCtl p
          (.echoReq (s.port p).echoSent (BitVec.ofNat 64 s.now)) else s)
    ∧ (s.portState p = 6 → (s.port p).echoSent = 16 → (s.port p).echoAnswers.length < 8 →
        Does (.measureEnd p) s (s.failToDetect p))
    ∧ (∀ (r v : Nat) (u : State), s.portState p = 6 → (s.port p).echoSent = 16 → 8 ≤ (s.port p).echoAnswers.length →
        r = min (median ((s.port p).echoAnswers.map (fun e => e.2))) (2 ^ 24 - 1) →
        v = s.get (s.portMeas p) Fld.portMeasVel → v ≠ 0 →
        u = (((s.put (s.portMeas p) Fld.portMeasRtt r).put (s.portMeas p) Fld.portMeasLengthDm (lengthDm r v)).put
          (s.portMeas p) Fld.portMeasValid 1) →
        Does (.measureEnd p) s (if 2000000 < r then (u.enterHeld p 6).releaseHeld p (u.partnerFid p) else u.enterActive p))

/-- Coefficients follow an ADAPT pair (free values, log 6) and a refinement, a load sample is recorded and evaluated, a re-measure raises the
setpoint a step while a lane is short, and one that finds none short and may not fall ends, and a DEGRADE or its acknowledgement retires and
idles the lane named. -/
def Obligations.LaneAdaptDegrade : Prop :=
  ∀ (s : State) (p : Fin 144) (k : Fin 288) (m : Fin 36), s.powered = true →
    (∀ c : BitVec 48, s.portState p ≠ 7 → s.portState p ≠ 3 → Does (.adapt p k c) s (s.ctlBad p))
    ∧ (∀ c : BitVec 48, (s.portState p = 7 ∨ s.portState p = 3) → (s.portLanes p).contains k.val = false → Does (.adapt p k c) s s)
    ∧ (∀ c : BitVec 48, (s.portState p = 7 ∨ s.portState p = 3) → (s.portLanes p).contains k.val = true →
        Does (.adapt p k c) s (s.fresh.2.setCoeff k (s.fresh.1.toNat % 2 ^ 18)))
    ∧ (∀ (c : BitVec 18) (q pos : Nat), s.lanePort k = some (q, pos) → s.portState q = 7 →
        s.flag (s.laneExp k) Fld.laneExpAdaptFreeze = false →
        Does (.adaptRefine k c) s ((s.setCoeff k c.toNat).sendCtl q (.adapt k c.toNat)))
    ∧ (∀ n : Nat, Does (.loadSample m n) s (((macroLanes m).foldl (fun (t : State) l =>
        t.put (t.laneStat l) Fld.laneStatLoad n) s).evalLoad m))
    ∧ (∀ (l : List Nat) (n : Nat), (s.macroSt m).measuring = false → Does (.remeasureEnd m l n) s s)
    ∧ (∀ pos : Fin 2, s.portState p ≠ 7 → Does (.degrade p pos) s (s.ctlBad p))
    ∧ (∀ pos : Fin 2, s.portState p = 7 → s.get (s.portStat p) Fld.portStatWidth = 0 →
        Does (.degrade p pos) s (((s.retireLane p pos).idleRetired p pos).sendCtl p (.degradeAck pos)))
    ∧ (∀ (pos : Fin 2) (q : Nat), s.portState p = 7 → s.get (s.portStat p) Fld.portStatWidth ≠ 0 → (s.port p).degradePos = some q →
        Does (.degrade p pos) s (if q = pos.val then s.idleRetired p pos else s.toDetect p))
    ∧ (∀ pos : Fin 2, s.portState p = 7 → s.get (s.portStat p) Fld.portStatWidth ≠ 0 → (s.port p).degradePos = none →
        Does (.degrade p pos) s (if s.get (s.portStat p) Fld.portStatWidth = pos.val + 1 then s.toDetect p
          else s.sendCtl p (.degradeAck pos)))
    ∧ (∀ pos : Fin 2, Does (.degradeAck p pos) s (
        if s.portState p = 7 ∧ (s.port p).degradePos = some pos.val then
          (s.setPort p { (s.port p) with degradePos := none }).emit (.laneIdle (s.portLane p pos))
        else s.ctlBad p))
    ∧ (∀ (l : List Nat) (n : Nat), (s.macroSt m).measuring = true →
        (∀ i, i < 8 → n ≤ l.getD i 0) → (s.macroSt m).mayFall = false → (s.macroSt m).pendingRise = false →
        Yields (.remeasureEnd m l n) s (fun t => (t.macroSt m).measuring = false ∧ (t.macroSt m).setpoint = (s.macroSt m).setpoint))
    ∧ (∀ (l : List Nat) (n : Nat), (s.macroSt m).measuring = true → (∃ i, i < 8 ∧ s.measured (8 * m + i) = true ∧ l.getD i 0 < n) →
        (s.macroSt m).setpoint < s.macroLimit → Yields (.remeasureEnd m l n) s (fun t => (t.macroSt m).measuring = true
          ∧ (t.macroSt m).setpoint = (s.macroSt m).setpoint + 1 ∧ (t.macroSt m).mayFall = false))

/-- The bits of LANE_CTRL and the slip field act on a structured device, and on one that is not they are discarded with a "not structured"
event; a RETRAIN pair acts in ACTIVE and counts as a bad control block elsewhere. -/
def Obligations.LaneRegisters : Prop :=
  ∀ (s : State) (p : Fin 144) (n : Fin 19) (k : Fin 16), s.powered = true →
    Does (.retrain p) s (if s.portState p = 7 then s.startRetrain p else s.ctlBad p)
    ∧ (s.structured = false →
        Does (.laneRestart p) s (s.notice 61 (s.laneCtrl p)) ∧ Does (.laneRetrain p) s (s.notice 61 (s.laneCtrl p))
        ∧ (∀ b, Does (.laneHold p b) s (s.notice 61 (s.laneCtrl p))) ∧ Does (.laneRelane p) s (s.notice 61 (s.laneCtrl p))
        ∧ Does (.laneRecal n) s (s.notice 61 (Reg.laneCtrl n)) ∧ (∀ b, Does (.slip n k b) s (s.notice 61 (Reg.laneExp n k))))
    ∧ (s.structured = true →
        Does (.laneRestart p) s (if s.portState p = 0 then s else (s.retrainEnds p).toDetect p)
        ∧ Does (.laneRetrain p) s (if s.portState p = 7 then (s.sendCtl p .retrain).startRetrain p else s)
        ∧ Does (.laneRelane p) s (if s.portState p = 7 then (s.sendCtl p .retrain).startRetrain p else s)
        ∧ (∀ b : Bool, Does (.laneHold p b) s ((((s.put (s.laneCtrl p) Fld.laneCtrlHold (
            if b then s.get (s.laneCtrl p) Fld.laneCtrlHold ||| 2 ^ (p.val % 8)
            else s.get (s.laneCtrl p) Fld.laneCtrlHold &&& (255 ^^^ 2 ^ (p.val % 8)))).tryOff p).tryBringUp p).testPattern p))
        ∧ (∀ j, s.slotOf n = some j → s.flag (Reg.laneCtrl n) Fld.laneCtrlExpert = true →
            s.flag (Reg.laneCtrl n) Fld.laneCtrlAmAuto = false → ∀ b : BitVec 12, 0 < b.toNat → b.toNat ≤ 3599 →
            Does (.slip n k b) s (s.setLane (16 * j + k) { (s.lane (16 * j + k)) with
              grid := ((s.lane (16 * j + k)).grid + b.toNat) % 3600 }))
        ∧ (∀ b, s.flag (Reg.laneCtrl n) Fld.laneCtrlExpert = false → Does (.slip n k b) s (s.notice 61 (Reg.laneExp n k)))
        ∧ (s.slotOf n = none → Does (.laneRecal n) s s)
        ∧ (∀ j, s.slotOf n = some j →
            Does (.laneRecal n) s ((s.setMacro (2 * j) { (s.macroSt (2 * j)) with measuring := true, mayFall := true }).setMacro
              (2 * j + 1) { (s.macroSt (2 * j + 1)) with measuring := true, mayFall := true })))

/-- R119, R120: at a block position of a link that is up the first due of a SEAL, a NAK, a REPLAY, the next flit of a retransmitted frame, a
CREDIT, the next flit of a new frame, a KEEPALIVE and IDLE is sent; the second position of a one-lane flit is taken; a port whose link layer
is not up sends IDLE, and one that is not in the mission encoding nothing. A SEAL is due when one is asked for, and when flits are open or
a group waits and no flit is ready to follow, or a retransmission is to start. No flit starts a frame while 512 are retained. -/
def Obligations.BlockPositionOrder : Prop :=
  ∀ (s : State) (p : Fin 144), s.powered = true →
    (s.mission p = false → Does (.blockPosition p) s s)
    ∧ (s.mission p = true → (s.linkRuns p = false ∨ s.lstate p ≠ 2) → Does (.blockPosition p) s (s.sendCtl p .idle))
    ∧ (s.mission p = true → s.linkRuns p = true → s.lstate p = 2 → (s.link p).half = true →
        Does (.blockPosition p) s (s.setLink p { (s.link p) with half := false }))
    ∧ (s.mission p = true → s.linkRuns p = true → s.lstate p = 2 → (s.link p).half = false →
      (s.sealNow p = true → Does (.blockPosition p) s ((s.setLink p (s.link p).close).sendSeal p))
      ∧ (s.sealNow p = false → (s.link p).nakDue ≠ [] → Does (.blockPosition p) s (s.sendNak p))
      ∧ (s.sealNow p = false → (s.link p).nakDue = [] → ∀ n, (s.link p).replayDue = some n →
          Does (.blockPosition p) s (s.sendReplay p n))
      ∧ (s.sealNow p = false → (s.link p).nakDue = [] → (s.link p).replayDue = none →
          (∀ f l, (s.link p).retxQ = f :: l → Does (.blockPosition p) s ((s.sendRetx p f).takePosition p))
          ∧ ((s.link p).retxQ = [] → ((s.link p).creditDue = true ∨ 64 ≤ (s.link p).freedFlits) →
              Does (.blockPosition p) s (s.sendCredit p))
          ∧ ((s.link p).retxQ = [] → (s.link p).creditDue = false → (s.link p).freedFlits < 64 →
            (∀ x, s.flitReady p = some x → Does (.blockPosition p) s ((s.sendFlit p x).takePosition p))
            ∧ (s.flitReady p = none → Does (.blockPosition p) s (if (s.link p).kaDue then s.sendKeepalive p else s.sendCtl p .idle)))))
    ∧ (s.sealNow p = true ↔ (s.link p).sealDue = true ∨ (((s.link p).cur.flits ≠ [] ∨ (s.link p).group ≠ [])
        ∧ (s.flitReady p = none ∨ ((s.link p).curRetx = [] ∧ (s.link p).retxQ ≠ []))))
    ∧ ((s.link p).cur.flits = [] → 512 ≤ (s.link p).store.length → s.flitReady p = none)
    ∧ (¬ ((s.link p).cur.flits = [] ∧ 512 ≤ (s.link p).store.length) →
        s.flitReady p = nextTx (s.flag Reg.exchCtrl Fld.exchCtrlPreempt) (s.link p).txPkts)
    ∧ (∀ f, (s.sendCtl p f).out.take (s.out.length + 1) = s.out ++ [.ctl p f])

/-- R75, R76, R78, R79, R80, R86, R118: what the line carries is what was sent. The 32 bytes of a control block whose numbers fit its fields
state that block; a block read with the descrambler is the header bit and the bytes that were scrambled, with both histories alike; precoded
level indexes are those before precoding; bit pairs are those of their levels; and a flit is its even unit and its odd one. -/
def Obligations.LineCode : Prop :=
  (∀ c : Ctl, c.fits → c.bytes.length = 32 ∧ Ctl.parse c.bytes = some c)
  ∧ (∀ (h : BitVec 58) (l : List Bool), descramble h (scramble h l).1 = (l, (scramble h l).2))
  ∧ (∀ (h : BitVec 58) (d : Bool) (b : List Byte), (blockBits h d b).1.length = 1 + 8 * b.length
      ∧ readBlock h (blockBits h d b).1 = (d, b, (blockBits h d b).2))
  ∧ (∀ (k : Nat) (l : List Nat), (∀ g ∈ l, g < 4) → unprecode k (precode k l) = l ∧ ∀ p ∈ precode k l, p < 4)
  ∧ (∀ a b : Bool, grayPair (grayIndex a b) = (a, b))
  ∧ (∀ f : List Byte, (unitsOf f).1 ++ (unitsOf f).2 = f)

/-- Received on a running link, after the acknowledgement that each pair carries has moved the replay store on: a SEAL in a bad block or with a
bad count is dropped with its frames, which are counted (all of its records: the model's choice, log 132); a frame in a bad block or with a
bad CRC is counted and dropped, and a good one is delivered, put in the reorder buffer or discarded; a CREDIT gives back what its records
name, a NAK queues resends, a REPLAY queues every retained frame from the named one, a KEEPALIVE marks missing frames; an acknowledgement
of a frame never sent is a protocol error; and on a link that does not run each only counts as a bad control block. -/
def Obligations.LinkPairs : Prop :=
  ∀ (s : State) (p : Fin 144) (a : BitVec 16) (k : Nat), s.powered = true →
    (s.linkRuns p = false →
      (∀ fl rc, Does (.seal p fl rc a k) s (s.ctlBad p)) ∧ (∀ rc, Does (.credit p rc a) s (s.ctlBad p))
      ∧ (∀ ns, Does (.nak p ns a) s (s.ctlBad p)) ∧ (∀ n, Does (.replay p n a) s (s.ctlBad p))
      ∧ (∀ n e, Does (.keepalive p n a e) s (s.ctlBad p)))
    ∧ (s.linkRuns p = true →
      (s.badBlock p k = true → ∀ fl rc, Does (.seal p fl rc a k) s
        ((s.setLink p { (s.link p) with sealLost := true }).bump (s.linkErr p) Fld.linkErrFrameBad rc.length))
      ∧ ((s.link p).neverSent a.toNat = true →
        (s.badBlock p k = false → ∀ fl rc, Does (.seal p fl rc a k) s (s.protocolError p)) ∧ (∀ rc, Does (.credit p rc a) s (s.protocolError p))
        ∧ (∀ ns, Does (.nak p ns a) s (s.protocolError p)) ∧ (∀ n, Does (.replay p n a) s (s.protocolError p))
        ∧ (∀ n e, Does (.keepalive p n a e) s (s.protocolError p)))
      ∧ ((s.link p).neverSent a.toNat = false →
        ∀ u : State, u = (if laterMod 16 a.toNat (s.link p).lastAck = true then s.setLink p ((s.link p).retain a.toNat) else s) →
        (s.badBlock p k = false → ∀ (fl : List RxFlit) (rc : List SealRec),
          (rc = [] ∨ 3 < rc.length ∨ (∃ r ∈ rc, r.nflits.toNat = 0 ∨ 8 < r.nflits.toNat)
            ∨ (rc.map (fun r => r.nflits.toNat)).sum ≠ fl.length) →
          Does (.seal p fl rc a k) s
            ((u.setLink p { (u.link p) with sealLost := true }).bump (s.linkErr p) Fld.linkErrFrameBad rc.length))
        ∧ (s.badBlock p k = false → ∀ (fl : List RxFlit) (r : SealRec) (v : State) (ok : Bool),
          r.nflits.toNat = fl.length → 1 ≤ fl.length → fl.length ≤ 8 → v = u.setLink p ((u.link p).learn [r]) →
          ok = (!(fl.any (fun x => s.badFlit p x))
            && frameCrc (fl.map (fun x => x.bytes)) r.seq.toNat r.hmap.toNat r.smap.toNat r.abort == r.crc.toNat) →
          (ok = false → Does (.seal p fl [r] a k) s (v.bump (s.linkErr p) Fld.linkErrFrameBad 1))
          ∧ (ok = true → Does (.seal p fl [r] a k) s
              ((v.acceptFrame p ⟨r.seq.toNat, fl.map (fun x => x.bytes), r.hmap.toNat, r.smap.toNat, r.abort, []⟩).getD (u.protocolError p)))
          ∧ (ok = true → (v.link p).replayWait = none → r.seq.toNat ≠ (v.link p).nextExp →
              laterMod 16 r.seq.toNat (v.link p).nextExp = false → Does (.seal p fl [r] a k) s v)
          ∧ (ok = true → (v.link p).replayWait = none → r.seq.toNat ≠ (v.link p).nextExp → laterMod 16 r.seq.toNat (v.link p).nextExp = true →
              (v.link p).reorder.length < 64 → (v.link p).nextExp < 65536 →
              (∀ e ∈ (v.link p).reorder, e.1.seq ≠ r.seq.toNat ∧ e.1.seq ≠ (v.link p).nextExp) → Yields (.seal p fl [r] a k) s (fun t =>
                (t.link p).nextExp = (v.link p).nextExp
                ∧ (t.link p).reorder = (v.link p).reorder ++ [(⟨r.seq.toNat, fl.map (fun x => x.bytes), r.hmap.toNat, r.smap.toNat, r.abort, []⟩, [])]
                ∧ (t.link p).missing.any (fun e => e.1 == (v.link p).nextExp) = true ∧ t.wait = v.wait ∧ t.out = v.out)))
        ∧ (∀ rc : List CreditRec, Does (.credit p rc a) s
            (u.setLink p (rc.foldl (fun l r => l.giveBack r.vc.toNat r.shared r.flits.toNat) (u.link p))))
        ∧ (∀ ns : List (BitVec 16), (ns.any (fun n => (u.link p).neverSent n.toNat) = true → Does (.nak p ns a) s (u.protocolError p))
            ∧ (ns.any (fun n => (u.link p).neverSent n.toNat) = false → Does (.nak p ns a) s (u.setLink p { (u.link p) with
              retxQ := (u.link p).retxQ ++ (ns.map (fun n => n.toNat)).flatMap (fun n =>
                if laterMod 16 n (u.link p).lastAck then ((u.link p).store.find? (fun f => f.seq == n)).toList else []) })))
        ∧ (∀ n : BitVec 16, ((u.link p).neverSent n.toNat = true → Does (.replay p n a) s (u.protocolError p))
            ∧ ((u.link p).neverSent n.toNat = false → Does (.replay p n a) s (u.setLink p { (u.link p) with
              retxQ := (if (u.link p).curRetx = [] then [] else (u.link p).retxQ.take 1)
                ++ (u.link p).store.filter (fun f => atOrAfterMod 16 f.seq n.toNat) })))
        ∧ (∀ (n : BitVec 16) (e : Bool), Does (.keepalive p n a e) s (u.setLink p
            (if laterMod 16 n.toNat (u.link p).nextExp then LinkSt.markMissing { (u.link p) with peerEmpty := e } n.toNat
              else { (u.link p) with peerEmpty := e })))))

/-- INIT parts are taken in pairs: a pair within the carving (this end's own: log 131) is acknowledged, and adopted before the first frame;
an INIT_ACK of both parts ends the repeats, and each timer of a link does what its rule says when
its condition holds and nothing else. -/
def Obligations.LinkTimers : Prop :=
  ∀ (s : State) (p : Fin 144), s.powered = true →
    (∀ (part : Fin 2) (res : List Nat) (sh cap : Nat) (n : BitVec 16), s.linkRuns p = false →
      Does (.init p part res sh cap n) s (s.ctlBad p))
    ∧ (∀ (res : List Nat) (sh cap : Nat) (n : BitVec 16), s.linkRuns p = true →
      Does (.init p 0 res sh cap n) s (s.setLink p { (s.link p) with initIn0 := some (res, sh, cap, n.toNat), initIn1 := none }))
    ∧ (∀ (res : List Nat) (sh cap : Nat) (n : BitVec 16), s.linkRuns p = true → (s.link p).initIn0 = none →
      Does (.init p 1 res sh cap n) s (s.setLink p { (s.link p) with initIn1 := some (res, sh, cap, n.toNat) }))
    ∧ (∀ (res : List Nat) (sh cap : Nat) (n : BitVec 16) (x : List Nat × Nat × Nat × Nat) (u : State), s.linkRuns p = true →
      (s.link p).initIn0 = some x →
      u = (s.setLink p { (s.link p) with initIn0 := none, initIn1 := none }).sendCtl p (.initAck 3) →
      ((∃ vc, vc < 24 ∧ s.reserve p vc < (x.1 ++ res).getD vc 0) ∨ s.sharedPool p < sh → Does (.init p 1 res sh cap n) s
        ((s.setLink p { (s.link p) with initIn1 := some (res, sh, cap, n.toNat) }).protocolError p))
      ∧ ((∀ vc, vc < 24 → (x.1 ++ res).getD vc 0 ≤ s.reserve p vc) → sh ≤ s.sharedPool p →
        Does (.init p 1 res sh cap n) s (if (s.link p).firstSent then u else u.adopt p (x.1 ++ res) sh cap n.toNat)))
    ∧ (∀ b : BitVec 2, Does (.initAck p b) s (if s.linkRuns p then
        (if b.toNat = 3 then (s.setLink p { (s.link p) with initAcked := true }).tryUp p else s) else s.ctlBad p))
    ∧ Does (.initRepeat p) s (if s.linkRuns p ∧ !(s.link p).initAcked then s.sendInit p else s)
    ∧ Does (.initTimeout p) s (if s.linkRuns p ∧ s.lstate p = 1 then s.toDetect p else s)
    ∧ Does (.keepaliveTimer p) s (if s.lstate p = 2 then s.setLink p { (s.link p) with kaDue := true } else s)
    ∧ Does (.creditDue p) s (if s.lstate p = 2 ∧ (!(s.link p).freed.isEmpty ∨ (s.link p).ackSent ≠ (s.link p).ack) then
        s.setLink p { (s.link p) with creditDue := true } else s)
    ∧ (∀ (n : BitVec 16) (x : Nat × Nat), (s.link p).missing.find? (fun e => e.1 == n.toNat) = some x →
        Does (.nakTimeout p n) s (if 4 ≤ x.2 then s.setLink p { (s.link p) with replayDue := some (s.link p).nextExp }
          else if (s.link p).nakDue.contains n.toNat then s
          else s.setLink p { (s.link p) with nakDue := (s.link p).nakDue ++ [n.toNat] }))
    ∧ (∀ n, (s.link p).replayWait = some n → Does (.replayTimeout p) s
        (if (s.link p).replays < 4 then s.setLink p { (s.link p) with replayDue := some n } else s))
    ∧ Does (.replayEscalation p) s (if s.linkRuns p ∧ 4 ≤ (s.link p).replays then
        ((s.setLink p { (s.link p) with replays := 0 }).postLink p 5).askRetrain p else s)
    ∧ Does (.linkDownTimeout p) s (if s.linkRuns p then (s.countDown p 3).toDetect p else s)
    ∧ (s.lstate p = 2 → (s.link p).store = [] → (s.link p).txPkts = [] → (s.link p).peerEmpty = true →
        Yields (.quietMoment p) s (fun t => t.get (s.linkStat p) Fld.linkStatWindow = (s.link p).window % 2 ^ 16))
    ∧ Does (.leakIdle p) s (leakRetrain p s) ∧ Does (.leakForce p) s (leakRetrain p s)
    ∧ (s.linkRuns p = true → s.flag (s.linkStat p) Fld.linkStatLeakPending = true → s.flag (s.linkCtrl p) Fld.linkCtrlLeakEn = true →
        Does (.leakIdle p) s (((s.bump (s.linkErr p) Fld.linkErrLeakRetrain 1).noticePort p).askRetrain p)
        ∧ Does (.leakForce p) s (((s.bump (s.linkErr p) Fld.linkErrLeakRetrain 1).noticePort p).askRetrain p))

/-- A request is granted at once where nothing waits, updates the entry of its endpoint and class, is queued behind what waits in one of the
28 common entries or, for class 0, the four kept for it, or is refused and counted; one that holds no eligible packet, or of a fenced
endpoint, has no effect, and one into a fenced endpoint is refused. A retry repeats only a refused request; a count update changes or
removes an entry; a grant opportunity offers the entries in order and pauses the output only when all have declined; a pause's end and a
grant's end do what the arbiter's rules say; a handshake timeout is reported, and takes back the grant that it names; a held packet whose
grace ends is flushed and counted (at which port where it waits for none: log 133). -/
def Obligations.ExchangeCommands : Prop :=
  ∀ (s : State) (o : Fin 152) (ep : Fin 27) (cls : Fin 4), s.powered = true →
    (∀ (n : Nat) (e : ReqEntry), n = s.contenders o ep (s.newTcs o ep cls) → e = ⟨ep, cls, n, 0, 0, false, false, s.newTcs o ep cls⟩ →
      ((n = 0 ∨ s.epFenced ep = true) → Does (.request o ep cls) s s.waveSettle)
      ∧ (n ≠ 0 → s.epFenced ep = false → s.epFenced (s.outEp o) = true → Does (.request o ep cls) s (s.refuseTransfer o ep cls).waveSettle)
      ∧ (n ≠ 0 → s.epFenced ep = false → s.epFenced (s.outEp o) = false →
        ((s.outp o).queue.any (fun q => q.ep == ep.val && q.cls == cls.val) = true → Does (.request o ep cls) s
          (s.setOut o { (s.outp o) with queue := (s.outp o).queue.map (fun q => if q.ep = ep.val ∧ q.cls = cls.val then
            { q with tcs := (q.tcs ++ s.newTcs o ep cls).dedup, count := s.contenders o ep (q.tcs ++ s.newTcs o ep cls).dedup }
            else q) }).waveSettle)
        ∧ ((s.outp o).queue = [] → (s.outp o).grants = [] → (s.outp o).paused = false → s.carries o = true →
          Does (.request o ep cls) s (s.grantAtOnce o e).waveSettle)
        ∧ ((s.outp o).queue.any (fun q => q.ep == ep.val && q.cls == cls.val) = false →
          ((s.outp o).queue ≠ [] ∨ (s.outp o).grants ≠ [] ∨ (s.outp o).paused = true ∨ s.carries o = false) →
          Does (.request o ep cls) s (if cls = 0 ∧ (s.outp o).grants.any (fun g => g.open_ s.now) then
            (doOpportunity o (s.queueReq o e)).waveSettle else (s.queueReq o e).waveSettle)))
      ∧ (((s.outp o).queue.filter (fun q => !q.kept)).length < 28 → s.queueReq o e =
          (s.setOut o { (s.outp o) with queue := (s.outp o).queue ++ [e] }).raise (Reg.outHwm o) Fld.outHwmPendHwm ((s.outp o).queue.length + 1))
      ∧ (28 ≤ ((s.outp o).queue.filter (fun q => !q.kept)).length → cls = 0 → ((s.outp o).queue.filter (fun q => q.kept)).length < 4 →
          s.queueReq o e = (s.setOut o { (s.outp o) with queue := (s.outp o).queue ++ [{ e with kept := true }] }).raise (Reg.outHwm o)
            Fld.outHwmPendHwm ((s.outp o).queue.length + 1))
      ∧ (28 ≤ ((s.outp o).queue.filter (fun q => !q.kept)).length → (cls ≠ 0 ∨ 4 ≤ ((s.outp o).queue.filter (fun q => q.kept)).length) →
          s.queueReq o e = ((s.setOut o { (s.outp o) with
            refusedReqs := (s.outp o).refusedReqs.filter (fun r => r != (ep.val, cls.val)) ++ [(ep.val, cls.val)] }).bump
              (Reg.outCnt1 o) Fld.outCnt1Refused 1).count ⟨0x202, some o, none, none, (s.newTcs o ep cls).head?, none, 1⟩))
    ∧ ((s.outp o).refusedReqs.contains (ep.val, cls.val) = true → Does (.requestRetry o ep cls) s
        ((doRequest o ep cls (s.setOut o { (s.outp o) with
          refusedReqs := (s.outp o).refusedReqs.filter (fun r => r != (ep.val, cls.val)) })).waveSettle))
    ∧ ((s.outp o).refusedReqs.contains (ep.val, cls.val) = false → Does (.requestRetry o ep cls) s s.waveSettle)
    ∧ Does (.countUpdate o ep cls) s (s.setOut o ({ (s.outp o) with
        queue := ((s.outp o).queue.map (fun e => if e.ep = ep.val ∧ e.cls = cls.val then { e with count := s.contenders o ep e.tcs } else e)).filter
          (fun e => !(e.ep == ep.val && e.cls == cls.val && e.count == 0)) } : OutSt).endWindow)
    ∧ (((s.outp o).paused = true ∨ s.epFenced (s.outEp o) = true ∨ s.carries o = false) → Does (.grantOpportunity o) s s.waveSettle)
    ∧ (∀ l r : List ReqEntry, (s.outp o).paused = false → s.epFenced (s.outEp o) = false → s.carries o = true →
        l = (s.outp o).order ((s.outp o).ageIn (s.get Reg.arbQuota Fld.arbQuotaAge)) → r = l.filter (fun x => s.canStart o x) →
        (r = [] → Does (.grantOpportunity o) s s.waveSettle)
        ∧ (r ≠ [] → Does (.grantOpportunity o) s (s.offer o (r.length == l.length) r).waveSettle))
    ∧ (∀ (all : Bool) (e : ReqEntry) (l : List ReqEntry), s.offer o all [] = (if all then s.setOut o { (s.outp o) with paused := true } else s)
        ∧ (s.handTo o e = none → s.offer o all (e :: l) = (s.bump (Reg.outCnt1 o) Fld.outCnt1Declined 1).offer o all l)
        ∧ (∀ w k a, s.handTo o e = some (w, k, a) → s.offer o all (e :: l) = s.grant o e w k a))
    ∧ ((s.outp o).paused = true → Does (.declinePauseEnd o) s
        ((doOpportunity o (s.setOut o { (s.outp o) with paused := false })).waveSettle))
    ∧ ((s.outp o).paused = false → Does (.declinePauseEnd o) s s.waveSettle)
    ∧ (∀ lane : Fin 8, (s.outp o).grants.find? (fun g => g.lane == lane.val && !g.interrupted && !g.wp.part) = none →
        Does (.grantEnd o lane) s s)
    ∧ (∀ (lane : Fin 8) (g : Grant), (s.outp o).grants.find? (fun g => g.lane == lane.val && !g.interrupted && !g.wp.part) = some g →
        Does (.grantEnd o lane) s ((((s.setOut o { (s.outp o) with
          grants := (s.outp o).grants.filter (fun y => y.wp.id != g.wp.id) }).onGrants
            (fun _ y => y.release g.wp.id s.now)).deliverOut o g).endTurn o g.wp.ep g.cls))
    ∧ ((∀ g ∈ (s.outp o).grants, g.wp.ep = ep.val → g.interrupted = true) → Does (.handshakeTimeout o ep) s
        ((s.bump (Reg.outCnt1 o) Fld.outCnt1Declined 1).post (604 + ep.val / 2) 3 2 ep.val))
    ∧ (∀ g, (s.outp o).grants.find? (fun g => g.wp.ep == ep.val && !g.interrupted) = some g → Yields (.handshakeTimeout o ep) s (fun t =>
        (∀ x ∈ (t.outp o).grants, x.wp.id ≠ g.wp.id) ∧ (∀ e ∈ (t.outp o).queue, ¬ (e.ep = ep.val ∧ e.cls = g.cls))
        ∧ t.wait = s.wait ++ (if g.wp.aborted then [] else [g.wp])))
    ∧ (∀ (id : Nat) (w : WaitPkt) (q : Nat), s.wait.find? (fun w => w.id == id && w.held) = some w →
        (w.out = some q ∧ q < 144 ∨ w.out = none ∧ w.inPort = some q ∨ q = 0 ∧ w.out = none ∧ w.inPort = none) →
        Does (.graceExpiry id) s (((s.bump (s.linkErr2 q) Fld.linkErr2Flushed 1).count
          ⟨0x103, some q, none, none, some w.pkt.tc, none, 1⟩).dropWait w 1))
    ∧ (∀ id : Nat, s.wait.find? (fun w => w.id == id && w.held) = none → Does (.graceExpiry id) s s)
    ∧ (∀ (p : Fin 144) (vc : Fin 24), Yields (.creditAnnounce p vc) s (fun t => t.credits p vc =
        max (Table.getD (s.link p).reserveFree 0 vc - s.aside p vc false)
          (min ((s.link p).sharedFree - s.aside p 24 true)
            ((s.link p).peerCap - (Table.getD (s.link p).sharedHeld 0 vc + s.aside p vc true)))))

/-- A port tile forwards its oldest unrouted packet; a beacon replaces what is held of its peer, and a stale one is no longer fresh; the
group table window writes the shadow bank of a structured device; a commit swaps the banks, or is refused while an operation runs or
a port has changed; a copy copies the active bank; and each ends with `busy` clear, a swap with the held packets offered a path again. -/
def Obligations.RouteCommands : Prop :=
  ∀ (s : State) (p : Fin 144), s.powered = true →
    (∀ w, s.wait.find? (fun w => w.unrouted p) = some w → Does (.routeHop p) s (s.forward p w))
    ∧ (s.wait.find? (fun w => w.unrouted p) = none → Does (.routeHop p) s (s.rerouteWaiting (fun w => w.inPort == some p.val && w.held)))
    ∧ (s.enabled = false → Does .beaconPeriod s s)
    ∧ (s.enabled = true → Yields .beaconPeriod s (fun t => t.route.bseq = (s.route.bseq + 1) % 256
        ∧ ∀ w ∈ s.wait, ∃ x ∈ t.wait, x.id = w.id ∧ x.pkt = w.pkt))
    ∧ (∀ (b : BeaconRec) (u : State), u = s.consumeOp p opBeacon →
        (∀ i, u.peerIndex p = some i → u.portActive p = true → Does (.beacon p b) s
          { u with route := { u.route with beacons := Table.put u.route.beacons i ⟨some b, true⟩ } })
        ∧ ((u.peerIndex p = none ∨ u.portActive p = false) → Does (.beacon p b) s u))
    ∧ (∀ i : Fin 32, Does (.beaconStale i) s { s with route := { s.route with
        beacons := Table.put s.route.beacons i { (s.beaconSt i) with fresh := false } } })
    ∧ (∀ (off : Nat) (l : List Byte), Does (.groupTableWrite off l) s (if s.structured then
        { s with route := { s.route with shadowBank := bankWrite s.route.shadowBank off l } } else s.notice 61 (groupWindow + off)))
    ∧ (s.structured = true →
        ((s.flag Reg.routeBank Fld.routeBankBusy = true ∨ s.changedSince (s.get Reg.routeBank Fld.routeBankShadowEpoch) = true) →
          Does .routeCommit s (((s.put Reg.routeBank Fld.routeBankCommitErr 1).bump Reg.routeStat Fld.routeStatCommitRefused 1).notice
            59 Reg.routeBank))
        ∧ (s.flag Reg.routeBank Fld.routeBankBusy = false → s.changedSince (s.get Reg.routeBank Fld.routeBankShadowEpoch) = false →
          Does .routeCommit s { s.put Reg.routeBank Fld.routeBankBusy 1 with route := { s.route with bankOp := .swap } })
        ∧ (s.flag Reg.routeBank Fld.routeBankBusy = false →
          Does .routeCopy s { s.put Reg.routeBank Fld.routeBankBusy 1 with route := { s.route with bankOp := .copy } }))
    ∧ (s.structured = false → Does .routeCommit s (s.notice 61 Reg.routeBank) ∧ Does .routeCopy s (s.notice 61 Reg.routeBank))
    ∧ (s.flag Reg.routeBank Fld.routeBankBusy = true → s.structured = true → Does .routeCopy s s)
    ∧ (s.route.bankOp = .none → Does .bankOpEnd s s)
    ∧ (s.route.bankOp = .swap → Does .bankOpEnd s ((({ s with route := { s.route with
        activeBank := s.route.shadowBank, shadowBank := s.route.activeBank, bankOp := .none } }.put Reg.routeBank Fld.routeBankActive
          (1 - s.get Reg.routeBank Fld.routeBankActive)).put Reg.routeBank Fld.routeBankBusy 0).rerouteWaiting WaitPkt.held))
    ∧ (s.route.bankOp = .copy → Yields .bankOpEnd s (fun t => t.route.activeBank = s.route.activeBank ∧
        t.route.shadowBank = s.route.activeBank ∧ t.route.bankOp = .none ∧ t.flag Reg.routeBank Fld.routeBankBusy = false))

/-- The epoch that `go` carries, or a query, raises the current one. `go` sends a query on the first port of its path, ends at once with the
status of a malformed path or of a port that is not ACTIVE, and with an empty path answers for the device itself; a query is forwarded,
answered, or answered with a failure; an answer is passed back, or completes the query at its originator; with no answer status 1 ends it.
What is sent is placed in the 16-entry buffer, and is dropped when that is full; changes are cleared only when the answer was placed. -/
def Obligations.DiscoveryCommands : Prop :=
  ∀ (s : State) (p : Fin 144), s.powered = true →
    (s.structured = false → Does .discGo s (s.notice 61 Reg.discCmd))
    ∧ (∀ (u : State) (n : Nat) (path : List Nat), s.structured = true → u = s.raiseEpoch (s.get Reg.discCmd Fld.discCmdEpoch) →
        n = s.get Reg.discCmd Fld.discCmdPathLen → path = (List.range n).map (fun i => (s.word Reg.discPath).toNat / 2 ^ (8 * i) % 256) →
        (s.flag Reg.discCmd Fld.discCmdBusy = true → Does .discGo s u)
        ∧ (s.flag Reg.discCmd Fld.discCmdBusy = false →
          ((8 < n ∨ ∃ x ∈ path, 144 ≤ x) → Does .discGo s (u.discDone 3 []))
          ∧ (n = 0 → Does .discGo s ((u.discDone 0 u.discWords).clearChanged (s.get Reg.discCmd Fld.discCmdEpoch)))
          ∧ (∀ x rest, n ≤ 8 → path = x :: rest → (∀ y ∈ path, y < 144) →
            (u.portActive x = false → Does .discGo s (u.discDone 2 []))
            ∧ (u.portActive x = true → Does .discGo s ((u.put Reg.discCmd Fld.discCmdBusy 1).discSend x (.query
              ⟨BitVec.ofNat 18 s.fid, BitVec.ofNat 32 (s.get Reg.discCmd Fld.discCmdEpoch), rest.map (fun n => BitVec.ofNat 8 n), []⟩)).2))))
    ∧ (∀ (q : DiscQuery) (u : State) (back : List Nat), u = (s.consumeOp p opDiscQ).raiseEpoch q.epoch.toNat →
        back = ((q.arrived ++ [BitVec.ofNat 8 p]).map (fun b => b.toNat)).reverse →
        (∀ (x : Byte) (rest : List Byte), q.path = x :: rest →
          (144 ≤ x.toNat → Does (.discQ p q) s (u.sendAnswer back 3 []).2)
          ∧ (x.toNat < 144 → u.portActive x.toNat = true → Does (.discQ p q) s
            (u.discSend x.toNat (.query { q with path := rest, arrived := q.arrived ++ [BitVec.ofNat 8 p] })).2)
          ∧ (x.toNat < 144 → u.portActive x.toNat = false → Does (.discQ p q) s (u.sendAnswer back 2 []).2))
        ∧ (∀ t, q.path = [] → u.sendAnswer back 0 u.discWords = (true, t) → Does (.discQ p q) s (t.clearChanged q.epoch.toNat))
        ∧ (∀ t, q.path = [] → u.sendAnswer back 0 u.discWords = (false, t) → Does (.discQ p q) s t))
    ∧ (∀ (a : DiscAnswer) (u : State), u = s.consumeOp p opDiscA →
        (a.back = [] → Does (.discA p a) s (if u.flag Reg.discCmd Fld.discCmdBusy then u.discDone a.status.toNat a.words else u))
        ∧ (a.back ≠ [] → Does (.discA p a) s (u.sendAnswer (a.back.map (fun n => n.toNat)) a.status.toNat a.words).2))
    ∧ (∀ (x : Nat) (m : DiscMsg), (16 ≤ s.discHeld.length → s.discSend x m = (false, s))
        ∧ (s.discHeld.length < 16 → (s.discSend x m).1 = true ∧ ∃ w : WaitPkt, w.pkt = s.discPkt m ∧ w ∈ (s.discSend x m).2.wait
          ∧ (s.discSend x m).2.route.disc = s.discHeld ++ [⟨w.id, x, m⟩]))
    ∧ (∀ x rest n l, (s.portActive x = false → s.sendAnswer (x :: rest) n l = (false, s))
        ∧ (s.portActive x = true → s.sendAnswer (x :: rest) n l =
          s.discSend x (.answer ⟨rest.map (fun n => BitVec.ofNat 8 n), BitVec.ofNat 4 n, l⟩)))
    ∧ (s.flag Reg.discCmd Fld.discCmdBusy = true → Yields .discTimeout s (fun t =>
        t.get Reg.discCmd Fld.discCmdStatus = 1 ∧ t.flag Reg.discCmd Fld.discCmdBusy = false))
    ∧ (s.flag Reg.discCmd Fld.discCmdBusy = false → Does .discTimeout s s)

/-- The header flit of a packet whose fields fit is 64 bytes, with the route word at byte 8 and the CRC at byte 60, and it states every
field of the packet but its payload; the route word states every field of the route. -/
def Obligations.HeaderRoundTrip : Prop :=
  (∀ p : Packet, p.wf = true → p.header.length = 64 ∧ atBytes p.header 8 8 = p.route.word ∧ atBytes p.header 60 4 = p.crc
    ∧ Packet.ofHeader p.header = { p with payload := [] })
  ∧ (∀ r : RouteWord, r.wf = true → RouteWord.ofWord r.word = r)

/-- A packet of each type that passes the transport's checks reaches its consumer, and the operations that it lets go on go on; one that
the checks turn away leaves what the checks left. An ATOMIC whose engine has no room for a result waits. A SYNC that is accepted sets
the receive direction of its peer to the number that it names, and is acknowledged. -/
def Obligations.TransportPackets : Prop :=
  ∀ (s : State) (p : Packet), s.powered = true →
    (∀ t, s.accept p = (true, t) →
      (p.op = opPut → Does (.put p) s (t.servePut p).goOn) ∧ (p.op = opGetReq → Does (.getReq p) s (t.serveGet p).goOn)
      ∧ (p.op = opGetRsp → Does (.getRsp p) s (t.serveRsp p).goOn)
      ∧ (p.op = opAtomic → s.atomFull p = false → Does (.atomic p) s (t.serveAtomic p).goOn)
      ∧ (p.op = opAtomicRsp → Does (.atomicRsp p) s (t.serveAtomRsp p).goOn)
      ∧ (p.op = opSend → Does (.send p) s (t.serveSend p).goOn) ∧ (p.op = opSendRdv → Does (.sendRdv p) s (t.serveSend p).goOn)
      ∧ (p.op = opComp → Does (.comp p) s (t.serveComp p).goOn) ∧ (p.op = opNcomp → Does (.ncomp p) s (t.serveNcomp p).goOn)
      ∧ (p.op = opAck → Does (.ack p) s (((((((t.bringIn (peerIdx p.src p.tc)).2.touchPeer (peerIdx p.src p.tc)).syncDone
          (peerIdx p.src p.tc) p.ackNext).onAck (peerIdx p.src p.tc) p.ackNext p.limit (ackList p.ackNext p.payload)).windowSend
          (peerIdx p.src p.tc))).goOn))
      ∧ (p.op = opSync → ∀ u v l, u = (t.bringIn (peerIdx p.src p.tc)).2 →
          v = (if (u.peer (peerIdx p.src p.tc)).valid ∧ (u.peer (peerIdx p.src p.tc)).peerInc ≠ p.inc
            then (u.peerRestart (peerIdx p.src p.tc)).forgetPeer (peerIdx p.src p.tc) else u) →
          l = (p.seq + v.get Reg.xportCtrl Fld.xportCtrlInitWin) % 2 ^ 24 →
          Does (.sync p) s (((v.setPeer (peerIdx p.src p.tc) { v.peer (peerIdx p.src p.tc) with
            rxNext := p.seq, peerInc := p.inc, rxMap := [], rxWin := v.get Reg.xportCtrl Fld.xportCtrlInitWin, valid := true,
            rxLimit := if (u.peer (peerIdx p.src p.tc)).valid ∧ (u.peer (peerIdx p.src p.tc)).peerInc = p.inc
                ∧ laterMod 24 l (u.peer (peerIdx p.src p.tc)).rxLimit = false then (u.peer (peerIdx p.src p.tc)).rxLimit else l,
            lastUs := v.usSinceApply, hub := v.pktHub p }).sendAck (peerIdx p.src p.tc) p.tc).goOn)))
    ∧ (∀ t, s.accept p = (false, t) →
      (p.op = opPut → Does (.put p) s t.goOn) ∧ (p.op = opGetReq → Does (.getReq p) s t.goOn) ∧ (p.op = opGetRsp → Does (.getRsp p) s t.goOn)
      ∧ (p.op = opAtomic → s.atomFull p = false → Does (.atomic p) s t.goOn) ∧ (p.op = opAtomicRsp → Does (.atomicRsp p) s t.goOn)
      ∧ (p.op = opSend → Does (.send p) s t.goOn) ∧ (p.op = opSendRdv → Does (.sendRdv p) s t.goOn)
      ∧ (p.op = opComp → Does (.comp p) s t.goOn) ∧ (p.op = opNcomp → Does (.ncomp p) s t.goOn)
      ∧ (p.op = opAck → Does (.ack p) s t) ∧ (p.op = opSync → Does (.sync p) s t))
    ∧ (s.atomFull p = true → Does (.atomic p) s s)

/-- The ends of a backoff, of an acknowledgement delay, of a retry (of a packet's or of a SYNC's), of a resend delay, of an idle transfer, of a response and of a
placement act on what they name and on nothing else; a window period updates each valid cached record and leaves a
valid record that is not cached to be updated when it is fetched (log 137); a read-clear alias answers a
mark and clears it. -/
def Obligations.TransportTimers : Prop :=
  ∀ (s : State) (i : Fin 1048576) (inst : Fin 4096) (tc : Fin 8), s.powered = true →
    Does (.shaperRelease inst tc) s (s.release (8 * inst + tc)).goOn
    ∧ Does (.policerBackoffEnd inst tc) s (if (Table.getD s.xp.shapers ShaperSt.init (8 * inst + tc)).paused then
        s.setShaper (8 * inst + tc) { (Table.getD s.xp.shapers ShaperSt.init (8 * inst + tc)) with paused := false } else s)
    ∧ (∀ t, (s.xp.cacheIn.any (fun e => e.1 == i.val) || s.xp.cacheOut.any (fun e => e.1 == i.val)) = true →
        s.bringIn i = (true, t) → Does (.peerFetchDone i) s (t.peerIn i).goOn)
    ∧ (∀ j rest, (s.peerCached i && s.evictable i && decide (peerCacheSize ≤ s.xp.cache.length)) = true →
        s.xp.cacheIn.map (fun e => e.1) ++ s.xp.cacheOut.map (fun e => e.1) = j :: rest → s.peerCached j = false →
        Does (.peerEvictable i) s (({ s with xp := { s.xp with
          cache := s.xp.cache.filter (fun k => k != i.val) ++ [j] } }).peerIn j).goOn)
    ∧ Does (.windowSend i) s (s.windowSend i).goOn
    ∧ Does (.ackTimer i) s (if (s.peer i).unacked = 0 then s else s.sendAck i (s.peer i).ackTc)
    ∧ (∀ q : BitVec 24, (s.peer i).syncPending = true → (s.peer i).syncSeq = q.toNat →
        Does (.retryTimeout i q) s (if s.get Reg.xportCtrl Fld.xportCtrlRetryMax ≤ (s.peer i).syncTries then (s.syncFailed i).goOn
          else (s.setPeer i { (s.peer i) with syncTries := (s.peer i).syncTries + 1 }).sendSync i))
    ∧ (∀ (q : BitVec 24) (x : SentPkt), ((s.peer i).syncPending = false ∨ (s.peer i).syncSeq ≠ q.toNat) → s.xp.sent.find? (fun y => y.idx == i.val && y.seq == q.toNat) = some x →
        Does (.retryTimeout i q) s (if s.get Reg.xportCtrl Fld.xportCtrlRetryMax ≤ x.attempt then (s.peerDown x.idx).goOn
          else (s.resend x).goOn))
    ∧ (∀ (q : BitVec 24) (x : SentPkt), s.xp.sent.find? (fun y => y.idx == i.val && y.seq == q.toNat && y.nacked) = some x →
        Does (.nackResend i q) s (s.retry x).goOn)
    ∧ (∀ q : BitVec 24, s.xp.sent.find? (fun y => y.idx == i.val && y.seq == q.toNat && y.nacked) = none → Does (.nackResend i q) s s)
    ∧ (∀ t, t = s.xp.cache.foldl (fun t k => if (t.peer k).valid then t.updateWindow k else t) s →
        Does .windowUpdate s (t.xp.peers.foldl (fun u e =>
          if e.2.valid = true ∧ u.peerCached e.1 = false then u.setPeer e.1 { e.2 with missed := true } else u) t))
    ∧ (∀ k : XferKey, s.xp.recs.find? (fun e => e.1 == k) = none → Does (.xferIdle k) s s)
    ∧ (∀ (k : XferKey) (e : XferKey × XferRec), s.xp.recs.find? (fun e => e.1 == k) = some e →
        (e.2.held = none → Does (.xferIdle k) s (s.freeRec k e.2.isRsp))
        ∧ (e.2.held ≠ none → Does (.xferIdle k) s ((s.freeRec k e.2.isRsp).bump
          (Reg.raeCnt1 ((s.freeRec k e.2.isRsp).rae ((s.freeRec k e.2.isRsp).servingEngine e.2.first))) Fld.raeCnt1FinalDrop 1)))
    ∧ (∀ x : BitVec 32, Does (.responseTimeout x) s (s.respTimeout x.toNat).goOn)
    ∧ (∀ (k : XferKey) (n : BitVec 20) (pl : Place),
        s.xp.placing.find? (fun pl => pktKey pl.pkt == k && pl.pkt.pidx == n.toNat && pl.pkt.op != opAtomic) = some pl →
        pl.todo = [] → Does (.placementDone k n .placed) s ((s.dropPlace pl).placedPkt pl).goOn)
    ∧ (∀ (k : XferKey) (n : BitVec 20) (pl : Place) (r : Byte),
        s.xp.placing.find? (fun pl => pktKey pl.pkt == k && pl.pkt.pidx == n.toNat && pl.pkt.op != opAtomic) = some pl →
        Does (.placementDone k n (.failed r)) s (s.placeFail pl r.toNat).goOn)
    ∧ (∀ t8 : Fin 8, Yields (.hwmReadClear (.cls t8)) s (fun t => t.get (Reg.classHwm t8) Fld.classHwmCmplHwm = 0
        ∧ t.out = s.out ++ [.readData (BitVec.ofNat 64 (s.get (Reg.classHwm t8) Fld.classHwmCmplHwm))]))

/-- A link that is down is not lost again and answers nothing; one that trains shows its speed and width, at the widths of R259 alone
and in Flit mode at 64 and 128 GT/s, and one that was down has its functions at their reset values; a loss by PERST or a hot reset
differs from another only in the source that reports it; a function reset is counted and lasts until its end, which for a VF is a PF0
event; and D3hot and D0 are the power state of PF0's configuration space. -/
def Obligations.HostLinks : Prop :=
  ∀ (s : State) (n : Fin 4), s.powered = true →
    (s.linkUp n = false → Does (.dlDown n) s s ∧ Does (.perst n) s s ∧ Does (.hotReset n) s s ∧ Does (.flrPf0 n) s s
      ∧ Does (.d3hotEntry n) s s ∧ Does (.d0Return n) s s ∧ (∀ fn, Does (.flrVf n fn) s s))
    ∧ (s.linkUp n = true → Does (.dlDown n) s (s.linkGone n 0) ∧ Does (.perst n) s (s.linkGone n 12) ∧ Does (.hotReset n) s (s.linkGone n 12)
      ∧ Does (.d3hotEntry n) s (s.setCfg n 0 0x44 (s.cfg n 0 0x44 / 4 * 4 + 3))
      ∧ (s.d3hot n = true → Does (.d0Return n) s ((s.setCfg n 0 0x44 (s.cfg n 0 0x44 / 4 * 4)).wake n))
      ∧ (s.d3hot n = false → Does (.d0Return n) s s)
      ∧ (∀ fn, s.vfEnable n = true → 1 ≤ fn → fn ≤ s.numVfs n → (s.host n).flr.contains fn = false →
          Does (.flrVf n fn) s ((s.flrBegin n fn).resetVf n fn))
      ∧ (∀ u v : State, (s.host n).flr.contains 0 = false → u = (s.flrBegin n 0).resetVfs n →
          v = u.setHost n { u.host n with cfg := [], flr := (u.host n).flr ++ (if s.vfEnable n then
            ((List.range (s.numVfs n)).map (· + 1)).filter (fun k => (u.host n).flr.contains k = false) else []) } →
          Does (.flrPf0 n) s (if s.d3hot n then ((v.clearPfMsix n).updateIntx n).wake n else (v.clearPfMsix n).updateIntx n)))
    ∧ (∀ (sp : Fin 8) (w : Fin 17) (fl : Bool),
        ((bit s.fuse.okHosts n = false ∨ w.val ∉ [1, 2, 4, 8, 16] ∨ sp = 0) → Does (.linkTrained n sp w fl) s s)
        ∧ (∀ a : State, bit s.fuse.okHosts n = true → w.val ∈ [1, 2, 4, 8, 16] → sp ≠ 0 →
          a = (if s.linkUp n then s else (s.resetFns n).postZero (hostSrc n 13)) →
          Does (.linkTrained n sp w fl) s (((((a.put (Reg.hostStat n) Fld.hostStatLinkUp 1).put (Reg.hostStat n) Fld.hostStatSpeed sp).put
            (Reg.hostStat n) Fld.hostStatWidth w).put (Reg.hostStat n) Fld.hostStatFlit (b2n (fl || decide (6 ≤ sp.val)))).updateIntx n)))
    ∧ (∀ fn, (s.host n).flr.contains fn = false → Does (.flrEnd n fn) s s)
    ∧ ((s.host n).flr.contains 0 = true → Does (.flrEnd n 0) s
        (s.setHost n { s.host n with flr := (s.host n).flr.filter (fun x => x != 0) }))
    ∧ (∀ fn, fn ≠ 0 → (s.host n).flr.contains fn = true → Does (.flrEnd n fn) s
        ((s.setHost n { s.host n with flr := (s.host n).flr.filter (fun x => x != fn) }).raiseEvent 3))
    ∧ (∀ id, Does (.hgraceExpiry id) s (s.flushHeld (fun h => h.id == id && h.lost)).goOn)

/-- A configuration request on a link that is up is answered whatever else the device does: a read with the dword's view, a write with
success, either with Unsupported Request where the function does not exist. A read that no block answers completes with Completer
Abort. An access through PF0 BAR2 with memory space disabled, or beyond the aperture, or that touches a reserved byte is refused, and so is
an AtomicOp; a write that touches an armed lock line is discarded with an event, and a
read of memory whose section does not answer is aborted. -/
def Obligations.HostRequests : Prop :=
  ∀ (s : State) (n : Fin 4), s.powered = true →
    (s.linkUp n = false → (∀ fn r, Does (.configRequest n fn r) s s) ∧ (∀ a, Does (.pf0Bar2Access n a) s s) ∧ (∀ fn, Does (.readTimeout n fn) s s)
      ∧ (∀ vf off req, Does (.nearRingWrite n vf off req) s s))
    ∧ (s.linkUp n = true →
      (∀ fn r, s.fnExists n fn = false → Does (.configRequest n fn r) s (s.emit (.cpl n .ur [])))
      ∧ (∀ fn off, s.fnExists n fn = true → Does (.configRequest n fn (.read off)) s (s.emit (.cfgCpl n (s.cfgView n fn (off / 4 * 4)))))
      ∧ (∀ fn off sz v, s.fnExists n fn = true → Does (.configRequest n fn (.write off sz v)) s ((s.cfgWrite n fn off sz v).emit (.cpl n .ok [])))
      ∧ (∀ fn, s.fnExists n fn = true → Does (.readTimeout n fn) s (((((s.bump (Reg.hostErr n) Fld.hostErrMmioBad 1).aer ⟨n, fn⟩
          aerAbort).postZero (hostSrc n 9)).emit (.cpl n .ca []))))
      ∧ (∀ (t : State) (off len : Nat), t = s.count ⟨0x602, some n, none, none, none, some true, 1⟩ →
        (t.d3hot n = true → Does (.pf0Bar2Access n ⟨off, .read len⟩) s (t.emit (.cpl n .ur [])))
        ∧ (t.d3hot n = false → t.mse n 0 = false → Does (.pf0Bar2Access n ⟨off, .read len⟩) s
            (((t.aer ⟨n, 0⟩ aerUr).postZero (hostSrc n 1)).emit (.cpl n .ur [])))
        ∧ (t.d3hot n = false → t.mse n 0 = true → off + len ≤ 2 ^ (20 + bits (t.cfg n 0 0x1A8) 13 8) → t.structured = true →
          t.safe = false → t.isFenced (.basil n) = false →
          (∀ a, a = 2 ^ 30 * s.get (Reg.dmemMap n) Fld.dmemMapBaseGib + off →
            ((hbmSize < a + len ∨ t.touchesRsv a len = true) → Does (.pf0Bar2Access n ⟨off, .read len⟩) s
              (((((t.bump (Reg.hostErr n) Fld.hostErrMmioBad 1).aer ⟨n, 0⟩ aerUr).postZero (hostSrc n 1)).emit (.cpl n .ur []))))
            ∧ (a + len ≤ hbmSize → t.touchesRsv a len = false → t.spanShut a len = true →
              Does (.pf0Bar2Access n ⟨off, .read len⟩) s (((((t.bump (Reg.hostErr n) Fld.hostErrMmioBad 1).aer ⟨n, 0⟩ aerAbort).postZero
                (hostSrc n 9)).emit (.cpl n .ca [])))
              ∧ (∀ d : List Byte, d.length = len → Does (.pf0Bar2Access n ⟨off, .write d⟩) s t))
            ∧ (a + len ≤ hbmSize → t.touchesRsv a len = false → t.spanShut a len = false →
              (∀ d u, t.devRead a len = (some d, u) → Does (.pf0Bar2Access n ⟨off, .read len⟩) s (u.emit (.cpl n .ok d)))
              ∧ (∀ u, t.devRead a len = (none, u) → Does (.pf0Bar2Access n ⟨off, .read len⟩) s (u.emit (.cpl n .ca [])))
              ∧ Does (.pf0Bar2Access n ⟨off, .atomic len⟩) s (((t.aer ⟨n, 0⟩ aerUr).postZero (hostSrc n 1)).emit (.cpl n .ur []))
              ∧ (∀ d : List Byte, d.length = len →
                ((linesOf a len).find? (fun l => t.rma.armed.contains l) = none → Does (.pf0Bar2Access n ⟨off, .write d⟩) s (t.devWrite a d))
                ∧ (∀ l, (linesOf a len).find? (fun l => t.rma.armed.contains l) = some l → Does (.pf0Bar2Access n ⟨off, .write d⟩) s
                    (t.post (525 + 2 * sliceOf (64 * l)) 59 0 (off % 2 ^ 48 + 1 <<< 48)))))))))

/-- A completion, a timeout, a poisoned completion and an AtomicOp completion act on the request that their tag names, which is over then;
where no request has the tag they have no effect. A TLP with a bad ECRC is logged and discarded by a function that
checks it; an AtomicOp waits while its function's requester enable or its link's `atomic_avail` is clear, and a refused one clears
`atomic_avail` before another could leave; `atomic_retry` makes AtomicOps
available again. -/
def Obligations.HostCompletions : Prop :=
  ∀ (s : State) (n : Fin 4) (tag : Nat), s.powered = true →
    (s.dmaAt n tag = none → (∀ d, Does (.dmaReadCompletion n tag d) s s) ∧ Does (.completionTimeout n tag) s s
      ∧ Does (.poisonedTlp n (.completion tag)) s s ∧ (∀ st d, Does (.atomicopCompletion n tag st d) s s))
    ∧ (∀ r, s.dmaAt n tag = some r →
        Does (.completionTimeout n tag) s (((s.aer r.func aerTimeout).postZero (hostSrc n 2)).dmaFailed r)
        ∧ Does (.poisonedTlp n (.completion tag)) s (((s.aer r.func aerPoisoned).postZero (hostSrc n 3)).dmaFailed r)
        ∧ (∀ i q d, r.why = .ringPoll i q → d.length = r.len → Does (.dmaReadCompletion n tag d) s ((s.dmaOver r).ringData i q d).goOn)
        ∧ (∀ w d, r.why = .walk w → d.length = r.len →
            Does (.dmaReadCompletion n tag d) s (doWalkRead w (.entry (BitVec.ofNat 64 (leNat d))) (s.dmaOver r)))
        ∧ (∀ i w d, r.why = .dlogWord i w → d.length = r.len → Does (.dmaReadCompletion n tag d) s (((s.dmaOver r).dlogArrive i w (leNat d)).refuseAtomics r.link))
        ∧ (∀ p d, r.why = .hostAtomic p → Does (.atomicopCompletion n tag .ok d) s
            ((((s.dmaOver r).atomCount p).atomRsp p 0 (d.take (atomSize p))).goOn))
        ∧ (∀ p d st, r.why = .hostAtomic p → st ≠ .ok → Does (.atomicopCompletion n tag st d) s
            (((((((s.put (Reg.hostCtrl n) Fld.hostCtrlAtomicAvail 0).bump (Reg.hostErr n) Fld.hostErrAtomicUr 1).postZero
              (hostSrc n 8)).dmaOver r).sendNcomp p 8).refuseAtomics n).goOn))
        ∧ (∀ w d st, r.why = .mark w → st ≠ .ok → Does (.atomicopCompletion n tag st d) s
            ((doMarkDone w 0 false ((((s.put (Reg.hostCtrl n) Fld.hostCtrlAtomicAvail 0).bump (Reg.hostErr n)
              Fld.hostErrAtomicUr 1).postZero (hostSrc n 8)).dmaOver r)).refuseAtomics n))
        ∧ (∀ w d, r.why = .mark w → Does (.atomicopCompletion n tag .ok d) s
            (doMarkDone w (BitVec.ofNat 64 (leNat (d.take 8))) true (s.dmaOver r))))
    ∧ (∀ fn, Does (.poisonedTlp n (.write fn)) s ((s.aer ⟨n, fn⟩ aerPoisoned).postZero (hostSrc n 3)))
    ∧ (∀ fn, (s.cfgBit n fn 0x118 8 = true → Does (.ecrcError n fn) s ((s.aer ⟨n, fn⟩ aerEcrc).postZero (hostSrc n 4)))
        ∧ (s.cfgBit n fn 0x118 8 = false → Does (.ecrcError n fn) s s))
    ∧ (∀ r : DmaReq, r.atomic = true → (s.cfgBit r.link r.func.vf 0x98 6 = false ∨ s.flag (Reg.hostCtrl r.link) Fld.hostCtrlAtomicAvail = false)
        → r.func.link = r.link → s.mayIssue r = false)
    ∧ Does (.atomicRetry n) s (s.put (Reg.hostCtrl n) Fld.hostCtrlAtomicAvail 1)

/-- SQ_ENABLE of a ring that is off stores what it carries: without an enable error the ring starts at index 0 on lap 0, at the engine
with the most budget, and a near ring is zeroed first; with an error it stays off and shows the error. SQ_DISABLE stops the polling of an
enabled ring. A poll of a near ring takes owned entries, up to 16 in a row; a far ring reads; a ring that is not polled does nothing.
An entry of the wrong phase stays, and so does
the first of a job that finds no room; one that belongs to no chain ends as a job of its own with an error. KICK restores the interval and polls. Without a structure the three register forms discard the write. -/
def Obligations.SubmissionRings : Prop :=
  ∀ (s u : State) (i : Fin 4096) (r : Fin 64) (v : BitVec 64), s.powered = true → u = s.sqEvent i r →
    (s.structured = true → u.flag (Reg.sqCfg i r) Fld.sqCfgEnable = false → u.sqCheck i r v = 0 →
        Yields (.sqEnable i r v) s (fun t =>
          t.sq i r = { SqSt.init with
            engine := some (u.pickEngine (u.instHub i) (ringKey i r)), ivl := Fld.sqCfgPoll.get v,
            zeroing := Fld.sqCfgNear.get v == 1 }
          ∧ t.get (Reg.sqStat i r) Fld.sqStatHead = 0 ∧ t.get (Reg.sqStat i r) Fld.sqStatPhase = 1
          ∧ t.get (Reg.sqStat i r) Fld.sqStatRunning = 0
          ∧ (∀ a, a ≠ Reg.sqCfg i r → a ≠ Reg.sqStat i r → t.word a = u.word a)
          ∧ t.rma = u.rma ∧ t.out = u.out))
    ∧ (s.structured = true → u.flag (Reg.sqCfg i r) Fld.sqCfgEnable = false → u.sqCheck i r v ≠ 0 →
        Does (.sqEnable i r v) s ((u.setWord (Reg.sqCfg i r) (Fld.sqCfgEnable.put (u.sqFields i v) 0)).put (Reg.sqStat i r)
          Fld.sqStatErr (u.sqCheck i r v)))
    ∧ (s.structured = true → u.flag (Reg.sqCfg i r) Fld.sqCfgEnable = true →
        Does (.sqEnable i r v) s (u.changePoll i r v)
        ∧ Does (.sqDisable i r) s ((u.stopRing i r).put (Reg.sqCfg i r) Fld.sqCfgEnable 0))
    ∧ (s.structured = true → u.flag (Reg.sqCfg i r) Fld.sqCfgEnable = false → Does (.sqDisable i r) s u)
    ∧ (s.polls i r = false → Does (.ringPoll i r) s s)
    ∧ (s.polls i r = true → s.sqNear i r = true → Does (.ringPoll i r) s (s.pollNear i r 16 false))
    ∧ (s.polls i r = true → s.sqNear i r = false → (s.sq i r).polling = false →
        Does (.ringPoll i r) s ((s.setSq i r { s.sq i r with row := 0 }).pollFar i r))
    ∧ (s.polls i r = true → s.sqNear i r = false → (s.sq i r).polling = true → Does (.ringPoll i r) s s)
    ∧ (s.structured = true → Does (.kick i r) s
        ((s.setSq i r { s.sq i r with ivl := s.get (Reg.sqCfg i r) Fld.sqCfgPoll }).pollRing i r))
    ∧ (s.structured = false → Does (.sqEnable i r v) s (s.notice 61 (Reg.sqCfg i r))
        ∧ Does (.sqDisable i r) s (s.notice 61 (Reg.sqCfg i r)) ∧ Does (.kick i r) s (s.notice 61 (Reg.sqStat i r)))
    ∧ (∀ d : Desc, (d.op ≠ opSeg → Does (.seg i r d) s s)
        ∧ (s.polls i r = false → Does (.seg i r d) s s)
        ∧ (d.op = opSeg → (d.first = true ∨ (s.sq i r).chain = []) → s.jobRoom i r = false → Does (.seg i r d) s s)
        ∧ (d.op = opSeg → s.polls i r = true → b2n d.phase = s.get (Reg.sqStat i r) Fld.sqStatPhase → d.first = false →
            (s.sq i r).chain = [] → s.jobRoom i r = true → Does (.seg i r d) s (s.takeFirst i r d true))
        ∧ (d.op = opSeg → s.polls i r = true → b2n d.phase ≠ s.get (Reg.sqStat i r) Fld.sqStatPhase → Does (.seg i r d) s s)
        ∧ (d.op = opSeg → s.polls i r = true → b2n d.phase = s.get (Reg.sqStat i r) Fld.sqStatPhase → d.first = false →
            (s.sq i r).chain ≠ [] → d.last = false → Does (.seg i r d) s ((s.stepHead i r).setSq i r
              { s.sq i r with chain := (s.sq i r).chain ++ [d] }))
        ∧ (d.op = opSeg → s.polls i r = true → b2n d.phase = s.get (Reg.sqStat i r) Fld.sqStatPhase → d.first = false →
            (s.sq i r).chain ≠ [] → d.last = true → Does (.seg i r d) s ((s.stepHead i r).closeChain i r ((s.sq i r).chain ++ [d]))))

/-- CQ_ENABLE of a ring that is off starts it empty at index 0, or refuses it with error 1; of one that is on, it changes `irq_err` and
a vector that is allocated. CQ_DISABLE is refused with error 2 while an enabled submission ring names the ring. CQ_HEAD_WRITE frees the slots up to
the new head, or sets error 3. An access through VF BAR2 reads and writes the instance's near-ring pages in device memory, through the tail cache
where an enabled near ring holds the offset; a VF with no instance reads all ones and discards writes, with an event. Zeroing leaves a near ring's entries zero, and it is then polled. -/
def Obligations.CompletionRings : Prop :=
  ∀ (s : State) (i : Fin 4096) (r : Fin 64) (v : BitVec 64) (h : BitVec 16), s.powered = true →
    (s.structured = true →
      (∀ w u, s.flag (Reg.cqCfg i r) Fld.cqCfgEnable = true → w = BitVec.ofNat 64 (v.toNat % 2 ^ 13) →
          u = s.put (Reg.cqCfg i r) Fld.cqCfgIrqErr (Fld.cqCfgIrqErr.get w) →
        (Fld.cqCfgVector.get w < (s.inst i).vectors →
          Does (.cqEnable i r v) s (u.put (Reg.cqCfg i r) Fld.cqCfgVector (Fld.cqCfgVector.get w)))
        ∧ ((s.inst i).vectors ≤ Fld.cqCfgVector.get w → Does (.cqEnable i r v) s (u.put (Reg.cqStat i r) Fld.cqStatErr 1)))
      ∧ (s.flag (Reg.cqCfg i r) Fld.cqCfgEnable = false → (s.inst i).cq ≤ r → Does (.cqEnable i r v) s
          ((s.setWord (Reg.cqCfg i r) (Fld.cqCfgEnable.put (BitVec.ofNat 64 (v.toNat % 2 ^ 13)) 0)).put (Reg.cqStat i r) Fld.cqStatErr 1))
      ∧ (s.flag (Reg.cqCfg i r) Fld.cqCfgEnable = false → r < (s.inst i).cq →
          Fld.cqCfgVector.get (BitVec.ofNat 64 (v.toNat % 2 ^ 13)) < (s.inst i).vectors →
          6 ≤ Fld.cqCfgLogSize.get (BitVec.ofNat 64 (v.toNat % 2 ^ 13)) → Fld.cqCfgLogSize.get (BitVec.ofNat 64 (v.toNat % 2 ^ 13)) ≤ 16 →
          (s.word (Reg.cqBase i r)).toNat % 64 = 0 → Does (.cqEnable i r v) s
            (((s.setWord (Reg.cqCfg i r) (BitVec.ofNat 64 (v.toNat % 2 ^ 13))).setCq i r CqSt.init).setWord (Reg.cqHead i r) 0))
      ∧ ((∃ q : Fin 64, s.flag (Reg.sqCfg i q) Fld.sqCfgEnable = true ∧ s.get (Reg.sqCfg i q) Fld.sqCfgCq = r) →
          Does (.cqDisable i r) s (s.put (Reg.cqStat i r) Fld.cqStatErr 2))
      ∧ ((∀ q : Fin 64, s.flag (Reg.sqCfg i q) Fld.sqCfgEnable = true → s.get (Reg.sqCfg i q) Fld.sqCfgCq ≠ r) →
          Does (.cqDisable i r) s (s.put (Reg.cqCfg i r) Fld.cqCfgEnable 0))
      ∧ (s.cqSize i r ≤ h.toNat → Does (.cqHeadWrite i r h) s (s.put (Reg.cqStat i r) Fld.cqStatErr 3))
      ∧ (∀ k, h.toNat < s.cqSize i r → k < s.cqSize i r → ((s.cq i r).consumed + k) % s.cqSize i r = h.toNat →
          ((s.cq i r).written < (s.cq i r).consumed + k → Does (.cqHeadWrite i r h) s (s.put (Reg.cqStat i r) Fld.cqStatErr 3))
          ∧ ((s.cq i r).consumed + k ≤ (s.cq i r).written → Does (.cqHeadWrite i r h) s
              ((s.setCq i r { s.cq i r with consumed := (s.cq i r).consumed + k }).put (Reg.cqHead i r) Fld.cqHeadHead h.toNat))))
    ∧ (s.structured = false → Does (.cqEnable i r v) s (s.notice 61 (Reg.cqCfg i r)) ∧ Does (.cqDisable i r) s (s.notice 61 (Reg.cqCfg i r))
        ∧ Does (.cqHeadWrite i r h) s (s.notice 61 (Reg.cqHead i r)))
    ∧ ((s.sq i r).zeroing = false → Does (.nearRingZeroed i r) s s)
    ∧ ((s.sq i r).zeroing = true → Yields (.nearRingZeroed i r) s (fun t =>
        (t.sq i r).zeroing = false ∧ (∀ k, k < 64 * s.sqSize i r → t.hbmRead (s.nearBase i + s.sqBaseOf i r + k) 1 = [0])
        ∧ (∀ a, (a < s.nearBase i + s.sqBaseOf i r ∨ s.nearBase i + s.sqBaseOf i r + 64 * s.sqSize i r ≤ a) → t.hbmRead a 1 = s.hbmRead a 1)))
    ∧ (∀ (n : Fin 4) (vf off len : Nat) (acc : BarAccess) (rd : Bool) (u : State), s.linkUp n = true → barSpan acc = (off, len, rd) →
        u = s.count ⟨0x602, some n, s.boundInst n vf, none, none, some false, 1⟩ →
        (u.d3hot n = true → Does (.nearRingWrite n vf acc.off acc.req) s (if rd then u.emit (.cpl n .ur []) else u))
        ∧ (u.d3hot n = false → u.fnExists n vf = false → Does (.nearRingWrite n vf acc.off acc.req) s (u.forbidden ⟨n, 0⟩ rd))
        ∧ (u.d3hot n = false → u.fnExists n vf = true → u.mse n vf = false → Does (.nearRingWrite n vf acc.off acc.req) s (u.forbidden ⟨n, vf⟩ rd))
        ∧ (u.d3hot n = false → u.fnExists n vf = true → u.mse n vf = true → (u.safe = true ∨ u.isFenced (.basil n) = true) →
          Does (.nearRingWrite n vf acc.off acc.req) s (if rd then u.readAborted ⟨n, vf⟩ else u))
        ∧ (u.d3hot n = false → u.fnExists n vf = true → u.mse n vf = true → u.safe = false → u.isFenced (.basil n) = false →
          (∀ w, u.boundInst n vf = none → w = (u.bump (Reg.hostErr n) Fld.hostErrMmioBad 1).post (304 + 24 * n + 1) 59 0
              (off % 2 ^ 48 + 3 <<< 48) →
            Does (.nearRingWrite n vf acc.off acc.req) s (if rd then w.emit (.cpl n .ok (List.replicate len 0xFF)) else w))
          ∧ (∀ i, u.boundInst n vf = some i →
            ((65536 * (u.inst i).nr64k < off + len ∨ u.vfBar2 n < off + len) →
              Does (.nearRingWrite n vf acc.off acc.req) s (u.forbidden ⟨n, vf⟩ rd))
            ∧ (off + len ≤ 65536 * (u.inst i).nr64k → off + len ≤ u.vfBar2 n →
              (u.islandShut (hubIsland (u.instHub i)) = true →
                Does (.nearRingWrite n vf acc.off acc.req) s (if rd then u.readAborted ⟨n, vf⟩ else u))
              ∧ (u.islandShut (hubIsland (u.instHub i)) = false →
                (acc = ⟨off, .read len⟩ → Does (.nearRingWrite n vf acc.off acc.req) s (u.emit (.cpl n .ok (u.nearRead i off len))))
                ∧ (acc = ⟨off, .atomic len⟩ → Does (.nearRingWrite n vf acc.off acc.req) s (u.forbidden ⟨n, vf⟩ true))
                ∧ (∀ l, acc = ⟨off, .write l⟩ →
                  (u.nearRingAt i off = none → Does (.nearRingWrite n vf acc.off acc.req) s (u.hbmWrite (u.nearBase i + off) l))
                  ∧ (∀ r, u.nearRingAt i off = some r → Does (.nearRingWrite n vf acc.off acc.req) s
                      ((u.tailSpan i r off l).hbmWrite ((u.tailSpan i r off l).nearBase i + off) l))))))))

/-- A job whose turn has come and that breaks a check fails with status 34, whatever its kind; one whose destination has no route fails
with status 2; one within its quota takes its transfer ID and starts: a PUT and an eager SEND send their packets, the other kinds send
their one packet, made of the descriptor. A job that has started, has ended or waits for the end of its chain, at its fence, or behind an earlier send
or receive of its ring stays as it is. A NOP completes with
status 0, and a receive enters its context, or fails with status 24 or 29. -/
def Obligations.JobStarts : Prop :=
  ∀ (s : State) (o : Nat) (x : OpSt), s.powered = true → Table.find s.rma.ops o = some x →
    ((x.started = true ∨ x.done = true ∨ s.mayStart o x = false) →
      Does (.putJob o) s s.goOn ∧ Does (.getJob o) s s.goOn ∧ Does (.putInl o) s s.goOn ∧ Does (.atomicJob o) s s.goOn
      ∧ (s.sendBefore o = false → Does (.sendJob o) s s.goOn) ∧ Does (.lockJob o) s s.goOn ∧ Does (.nop o) s s ∧ Does (.recv o) s s)
    ∧ (s.sendBefore o = true → Does (.sendJob o) s s) ∧ (s.recvBefore o x = true → Does (.recv o) s s)
    ∧ (x.started = false → x.done = false → s.mayStart o x = true →
      (x.kind = .nop → Does (.nop o) s (if x.bad then s.finishOp o 34 else (s.setOp o { x with started := true }).finishOp o 0))
      ∧ (x.kind = .recv → s.recvBefore o x = false → x.bad = true → Does (.recv o) s (s.finishOp o 34))
      ∧ (x.kind = .recv → s.recvBefore o x = false → x.bad = false → (s.inst x.inst).ctx ≤ x.key % 65536 → Does (.recv o) s (s.finishOp o 24))
      ∧ (x.kind = .recv → s.recvBefore o x = false → x.bad = false → x.key % 65536 < (s.inst x.inst).ctx →
          ((s.ctx ((s.inst x.inst).ctxBase + x.key % 65536)).resetting = true → Does (.recv o) s (s.finishOp o 29))
          ∧ ((s.ctx ((s.inst x.inst).ctxBase + x.key % 65536)).resetting = false → Does (.recv o) s
              ((s.setOp o { x with started := true }).enterCtx ((s.inst x.inst).ctxBase + x.key % 65536) x.inst (.recv o))))
      ∧ ((x.bad || s.jobBad x) = true →
          (x.kind = .put → Does (.putJob o) s (s.finishOp o 34).goOn) ∧ (x.kind = .get → Does (.getJob o) s (s.finishOp o 34).goOn)
          ∧ (x.kind = .putInl → Does (.putInl o) s (s.finishOp o 34).goOn) ∧ (x.kind = .atomic → Does (.atomicJob o) s (s.finishOp o 34).goOn)
          ∧ (x.kind = .send → s.sendBefore o = false → Does (.sendJob o) s (s.finishOp o 34).goOn) ∧ (x.kind = .lock → Does (.lockJob o) s (s.finishOp o 34).goOn))
      ∧ ((x.bad || s.jobBad x) = false → s.quotaOk x = true →
          s.routable (hubOf x.engine) { Packet.zero with route := { RouteWord.zero with dst := x.dst } } = false → x.kind = .put →
          Does (.putJob o) s ((s.bump Reg.routeStat Fld.routeStatNoRoute 1).finishOp o 2).goOn)
      ∧ (∀ (xid : Nat) (t u : State) (y : OpSt), (x.bad || s.jobBad x) = false → s.quotaOk x = true →
          s.routable (hubOf x.engine) { Packet.zero with route := { RouteWord.zero with dst := x.dst } } = true →
          s.newXid x.engine 0 = (xid, t) → y = { x with started := true, xid := xid, rspXid := xid } → u = t.setOp o y →
          (x.kind = .put → Does (.putJob o) s (u.pumpOp o 320).goOn)
          ∧ (x.kind = .get → Does (.getJob o) s (u.queueOp o (u.soloPacket y opGetReq x.length [] xid)).goOn)
          ∧ (x.kind = .putInl → Does (.putInl o) s (u.queueOp o (u.soloPacket y opPut x.length x.inline 0)).goOn)
          ∧ (x.kind = .atomic → ∀ (w : Nat) (l : List Byte), w = (if x.wide then 16 else 8) →
              l = leBytes x.op1 w ++ (if x.aop = 2 then leBytes x.op2 w else []) → Does (.atomicJob o) s
                (u.queueOp o { u.soloPacket y opAtomic l.length l (x.aop + 16 * b2n x.wide) with locked := true }).goOn)
          ∧ (x.kind = .send → s.sendBefore o = false → x.length ≤ 256 * u.get (Reg.matchInst x.inst) Fld.matchInstEager →
              Does (.sendJob o) s (u.pumpOp o 320).goOn)
          ∧ (x.kind = .send → s.sendBefore o = false → 256 * u.get (Reg.matchInst x.inst) Fld.matchInstEager < x.length → ∀ v : State,
              v = u.setOp o { y with nextPkt := pktsOf x.length } →
              Does (.sendJob o) s (v.queueOp o { v.soloPacket y opSendRdv x.length [] (x.key % 65536) with key := 0 }).goOn)
          ∧ (x.kind = .lock → Does (.lockJob o) s
              (u.queueOp o { u.soloPacket y opLock 64 [] (bits x.desc.w3.toNat 2 0) with locked := true }).goOn)))

/-- A job that has not ended, one that waits for its link to leave D3hot, and one of a collective whose result is still being placed do
not complete. One that has ended with status 0 writes its
entry or releases its slot, ends its sampling record, is dropped, frees its place in its ring and counts for the count triggers; one with
another status is counted first. -/
def Obligations.JobEnds : Prop :=
  ∀ (s : State) (o : Nat), s.powered = true →
    ((Table.find s.rma.ops o = none ∨ s.xp.placing.any (fun pl => pl.op == o && pl.pkt.op == opColl) = true) → Does (.jobComplete o) s s)
    ∧ (∀ x, Table.find s.rma.ops o = some x → s.xp.placing.any (fun pl => pl.op == o && pl.pkt.op == opColl) = false →
        ((x.done = false ∨ (s.d3hot (s.instLink x.inst) = true ∧ x.silent = false)) → Does (.jobComplete o) s s)
        ∧ (∀ u : State, x.done = true → (s.d3hot (s.instLink x.inst) = false ∨ x.silent = true) →
            u = (if x.status = 0 then s
              else s.count ⟨0x501, some (s.rae x.engine), some x.inst, some x.remote, some x.tc, some x.mgr, 1⟩) →
            (x.ring = none → Does (.jobComplete o) s ((((u.slotDone o x).sampleEnd o x).dropOp o).fireCount x.inst x.cq).goOn)
            ∧ (∀ (r : Nat) (v : State), x.ring = some r → v = ((u.slotDone o x).sampleEnd o x).dropOp o →
                Does (.jobComplete o) s ((v.setSq x.inst r { v.sq x.inst r with jobs := (v.sq x.inst r).jobs - 1 }).fireCount
                  x.inst x.cq).goOn)))

/-- A command of an instance in progress refuses another with error 1 and changes nothing else; one whose checks fail stays busy with the
error and has no effect; else its effect takes place: CREATE draws the pools and the instance is ACTIVE, QUIESCE stops the rings and
QUIESCING begins, RESUME makes it ACTIVE with nothing else changed, RESET empties it, REMOVE returns the pools and leaves it FREE, and MOVE
binds it anew and leaves it QUIESCED. The end of a command clears `busy`, sets `done` and raises a PF0 event. -/
def Obligations.InstanceCommands : Prop :=
  ∀ (s : State) (i : Fin 4096), s.powered = true →
    (s.structured = false → Does (.create i) s (s.notice 61 (Reg.instCmd i))
      ∧ Does (.quiesce i) s (s.notice 61 (Reg.instCmd i))
      ∧ Does (.resume i) s (s.notice 61 (Reg.instCmd i)) ∧ Does (.reset i) s (s.notice 61 (Reg.instCmd i))
      ∧ Does (.remove i) s (s.notice 61 (Reg.instCmd i)) ∧ Does (.move i) s (s.notice 61 (Reg.instCmd i)))
    ∧ (s.structured = true → s.flag (Reg.instCmd i) Fld.instCmdBusy = true → ∀ t : State, t = s.put (Reg.instCmd i) Fld.instCmdErr 1 →
        Does (.create i) s t ∧ Does (.quiesce i) s t ∧ Does (.resume i) s t ∧ Does (.reset i) s t ∧ Does (.remove i) s t ∧ Does (.move i) s t)
    ∧ (s.structured = true → s.flag (Reg.instCmd i) Fld.instCmdBusy = false → ∀ (k : Nat → State), (∀ c, k c = s.cmdTaken i c) →
        (State.createCheck i (k 1) = 0 → Does (.create i) s (((k 1).setInst i { (k 1).inst i with op := .create }).createInst i))
        ∧ (State.createCheck i (k 1) ≠ 0 → State.createCheck i (k 1) ≠ 4 →
            Does (.create i) s ((k 1).put (Reg.instCmd i) Fld.instCmdErr (State.createCheck i (k 1))))
        ∧ (State.createCheck i (k 1) = 4 → Does (.create i) s (((k 1).put (Reg.instCmd i) Fld.instCmdErr 4).put (Reg.instCmd i)
            Fld.instCmdErrPool ((k 1).poolShort ((k 1).allocOf i))))
        ∧ ((k 2).instState i ∈ [1, 4, 5] → Does (.quiesce i) s
            ((((k 2).setInst i { (k 2).inst i with op := .quiesce }).stopRings i).setInstState i 2))
        ∧ ((k 2).instState i ∉ [1, 4, 5] → Does (.quiesce i) s ((k 2).put (Reg.instCmd i) Fld.instCmdErr 2))
        ∧ ((k 3).instState i = 3 → Does (.resume i) s (((k 3).setInst i { (k 3).inst i with op := .resume }).setInstState i 1))
        ∧ ((k 3).instState i ≠ 3 → Does (.resume i) s ((k 3).put (Reg.instCmd i) Fld.instCmdErr 2))
        ∧ ((k 4).instState i = 3 → Does (.reset i) s ((((k 4).setInst i { (k 4).inst i with op := .reset }).clearInst i).setInstState i 1))
        ∧ ((k 4).instState i ≠ 3 → Does (.reset i) s ((k 4).put (Reg.instCmd i) Fld.instCmdErr 2))
        ∧ ((k 5).instState i = 3 → Does (.remove i) s (((k 5).setInst i { (k 5).inst i with op := .remove }).removeInst i))
        ∧ ((k 5).instState i ≠ 3 → Does (.remove i) s ((k 5).put (Reg.instCmd i) Fld.instCmdErr 2))
        ∧ (State.moveCheck i (k 6) = 0 → Does (.move i) s (((k 6).setInst i { (k 6).inst i with op := .move }).moveInst i))
        ∧ (State.moveCheck i (k 6) ≠ 0 → Does (.move i) s ((k 6).put (Reg.instCmd i) Fld.instCmdErr (State.moveCheck i (k 6)))))
    ∧ (s.instState i ≠ 2 → ∀ d, Does (.quiesceEnd i d) s s)
    ∧ (s.instState i = 2 → (s.quiet i = false → Does (.quiesceEnd i true) s s) ∧ Does (.quiesceEnd i false) s (s.quiesceDone i)
        ∧ (s.quiet i = true → Does (.quiesceEnd i true) s (s.quiesceDone i)))
    ∧ ((s.flag (Reg.instCmd i) Fld.instCmdBusy = false ∨ ((s.inst i).op = .quiesce ∧ s.instState i = 2)) → Does (.instCmdEnd i) s s)
    ∧ (s.flag (Reg.instCmd i) Fld.instCmdBusy = true → ((s.inst i).op ≠ .quiesce ∨ s.instState i ≠ 2) → Does (.instCmdEnd i) s
        ((((s.setInst i { s.inst i with op := .none, prev := none }).put (Reg.instCmd i) Fld.instCmdBusy 0).put (Reg.instCmd i)
          Fld.instCmdDone 1).raiseEvent 1))

/-- Each side of the mailbox sets the other's flag with a PF0 event or the tenant's vector, and clears its own; a flip of the dirty log
changes the active bitmap, empties the word cache and is busy until its end; without a structure the writes are discarded with an event. -/
def Obligations.MailboxAndDirtyLog : Prop :=
  ∀ (s : State) (i : Fin 4096), s.powered = true →
    (s.structured = true →
      Does (.toMgrSet i) s ((s.put (Reg.mbxCtrl i) Fld.mbxCtrlToMgr 1).raiseEvent 2)
      ∧ Does (.toMgrClear i) s (s.put (Reg.mbxCtrl i) Fld.mbxCtrlToMgr 0)
      ∧ Does (.toTenantSet i) s ((s.put (Reg.mbxCtrl i) Fld.mbxCtrlToTenant 1).signalVf i (s.get (Reg.tMbxCtrl i) Fld.tMbxCtrlMbxVec))
      ∧ Does (.toTenantClear i) s (s.put (Reg.mbxCtrl i) Fld.mbxCtrlToTenant 0)
      ∧ (s.logWait = [] → Yields (.dlogFlip i) s (fun t =>
          t.get (Reg.dlogCtrl i) Fld.dlogCtrlActive = (1 - s.get (Reg.dlogCtrl i) Fld.dlogCtrlActive)
          ∧ t.flag (Reg.dlogCtrl i) Fld.dlogCtrlBusy = true ∧ (t.inst i).dlogWords = []
          ∧ (∀ a, a ≠ Reg.dlogCtrl i → t.word a = s.word a))))
    ∧ (s.structured = false → Does (.toMgrSet i) s (s.notice 61 (Reg.tMbxCtrl i)) ∧ Does (.toMgrClear i) s (s.notice 61 (Reg.mbxCtrl i))
      ∧ Does (.toTenantSet i) s (s.notice 61 (Reg.mbxCtrl i)) ∧ Does (.toTenantClear i) s (s.notice 61 (Reg.tMbxCtrl i))
      ∧ Does (.dlogFlip i) s (s.notice 61 (Reg.dlogCtrl i)))
    ∧ (s.flag (Reg.dlogCtrl i) Fld.dlogCtrlBusy = true → Does (.dlogFlipEnd i) s (s.put (Reg.dlogCtrl i) Fld.dlogCtrlBusy 0))
    ∧ (s.flag (Reg.dlogCtrl i) Fld.dlogCtrlBusy = false → Does (.dlogFlipEnd i) s s)

/-- A request that both stages let past translates to itself; one at 2^48 or above faults; one that the cache holds and permits goes on at
once; whatever waited goes on with the answer, and a device without a structure translates nothing. A read or a mark of a walk that is not
there only ends its request; a failed read ends its walk with a fault of its stage; a walk that an invalidation caught starts again; a mark whose CAS fails ends it with a fault
of kind 5 (the model's reading, log 23). -/
def Obligations.TranslationSteps : Prop :=
  ∀ (s : State) (i : Fin 4096) (q : XlatReq), s.powered = true →
    (s.structured = false → Does (.translate i q) s s)
    ∧ (s.structured = true → (q.stage1 && s.s1On i) = false → s.s2Mode i = 2 → Does (.translate i q) s
        (s.resumeAll [⟨i, q, some (q.addr.toNat % 2 ^ 52, q.addr.toNat % 2 ^ 52)⟩]))
    ∧ (s.structured = true → (q.stage1 && s.s1On i) = true → 2 ^ 48 ≤ q.addr.toNat → Does (.translate i q) s
        ((s.xlFault i q 7 0 0 q.addr.toNat).resumeAll [⟨i, q, none⟩]))
    ∧ (∀ t, s.structured = true → ((q.stage1 && s.s1On i) = true ∨ s.s2Mode i ≠ 2) → q.addr.toNat < 2 ^ 48 →
        s.tlbHit i q.stage1 q.addr.toNat q.acc = some t → Does (.translate i q) s
          ((s.count ⟨0x700, none, some i, some q.addr.toNat, none, some false, 1⟩).resumeAll
            [⟨i, q, some (t.base + q.addr.toNat % 2 ^ t.size, t.gpa + q.addr.toNat % 2 ^ t.size)⟩]))
    ∧ (∀ (w : Nat) (r : ReadRes), (s.xl.walks.find? (fun x => x.id == w && x.mark.isNone)) = none →
        Does (.walkReadDone w r) s ({ s with dma := s.dma.filter (fun e => e.why != ReadWhy.walk w) } : State).goOn)
    ∧ (∀ (w : Nat) (x : WalkSt) (t u : State) (l : List XDone), (s.xl.walks.find? (fun x => x.id == w && x.mark.isNone)) = some x →
        x.restart = false → t = { s with dma := s.dma.filter (fun e => e.why != ReadWhy.walk w) } →
        t.walkStep x (if x.inS2 then .fault 5 1 x.s2Level x.s2In else .fault 5 0 x.s1Level x.req.addr.toNat) = (l, u) →
        Does (.walkReadDone w .failed) s (u.resumeAll l))
    ∧ (∀ (w : Nat) (x y : WalkSt) (e : Word) (a : WalkAct) (t u v : State) (l : List XDone),
        (s.xl.walks.find? (fun x => x.id == w && x.mark.isNone)) = some x →
        x.restart = false → t = ({ s with dma := s.dma.filter (fun e => e.why != ReadWhy.walk w) } : State).cacheWalk x e →
        t.walkEntry x e = (y, a) →
        (((∃ b, a = .read b) ∨ ∃ b, a = .done b) → x.inS2 = true → pteLeaf e = true → v = t.cacheS2 x e) →
        (((∀ b, a ≠ .read b ∧ a ≠ .done b) ∨ x.inS2 = false ∨ pteLeaf e = false) → v = t) → v.walkStep y a = (l, u) →
        Does (.walkReadDone w (.entry e)) s (u.resumeAll l))
    ∧ (∀ (w : Nat) (x : WalkSt) (r : ReadRes) (u : State) (l : List XDone),
        (s.xl.walks.find? (fun x => x.id == w && x.mark.isNone)) = some x → x.restart = true →
        State.walkAgain { s with dma := s.dma.filter (fun e => e.why != ReadWhy.walk w) } x = (l, u) →
        Does (.walkReadDone w r) s (u.resumeAll l))
    ∧ (∀ (w : Nat) (old : BitVec 64) (ok : Bool), (s.xl.walks.find? (fun x => x.id == w)) = none →
        Does (.markCasDone w old ok) s ({ s with dma := s.dma.filter (fun e => e.why != ReadWhy.mark w) } : State).goOn)
    ∧ (∀ (w : Nat) (old : BitVec 64) (x : WalkSt) (m : MarkSt) (t u : State) (l : List XDone),
        (s.xl.walks.find? (fun x => x.id == w)) = some x → x.mark = some m → x.restart = false →
        t = { s with dma := s.dma.filter (fun e => e.why != ReadWhy.mark w) } → t.walkStep x (x.markFault m.which 5) = (l, u) →
        Does (.markCasDone w old false) s (u.resumeAll l))

/-- An invalidation that starts while one is in progress is refused with its error; else it is noted, `busy` is set and every cached entry
of its scope goes; its end, once no access that used such an
entry waits, clears `busy`. A head write consumes as many records as lie between, never more than there are. A grant that
touches a reserved region is discarded with an event. A window register takes what is written, except that a window that may not be
enabled stays off. Without a structure each write is discarded with an event. -/
def Obligations.TranslationControl : Prop :=
  ∀ (s : State) (i : Fin 4096), s.powered = true →
    (s.structured = false → Does .xlatInv s (s.notice 61 Reg.xlatInv) ∧ Does (.xlInv i) s (s.notice 61 (Reg.tXlInv i))
      ∧ (∀ h, Does (.faultqHeadWrite h) s (s.notice 61 Reg.faultq)) ∧ (∀ v, Does (.dmGrantWrite i v) s (s.notice 61 (Reg.dmGrant i)))
      ∧ (∀ w r v, Does (.windowWrite i w r v) s (s.notice 61 (Reg.winCfg i w))))
    ∧ (s.structured = true →
        (s.flag Reg.xlatInv Fld.xlatInvBusy = true → Does .xlatInv s (s.put Reg.xlatInv Fld.xlatInvInvErr 1))
        ∧ (∀ (k j a len : Nat), s.flag Reg.xlatInv Fld.xlatInvBusy = false → k = s.get Reg.xlatInv Fld.xlatInvScope →
            j = s.get Reg.xlatInv Fld.xlatInvInst → a = (s.word Reg.invAddr).toNat → len = s.get Reg.invLen Fld.invLenLen →
            ((1 ≤ k ∧ k ≤ 5) → Yields .xlatInv s (fun t => t.flag Reg.xlatInv Fld.xlatInvBusy = true
                ∧ t.xl.mgrInv = ⟨true, k, j, a, len⟩ ∧ (∀ e ∈ t.xl.tlb, e.inScope k j (s.s2RootOf j) a len = false)
                ∧ (∀ e ∈ t.xl.tlb, e ∈ s.xl.tlb) ∧ (∀ b, b ≠ Reg.xlatInv → t.word b = s.word b) ∧ t.rma = s.rma))
            ∧ (¬ (1 ≤ k ∧ k ≤ 5) → Yields .xlatInv s (fun t => t.xl.tlb = s.xl.tlb ∧ t.xl.mgrInv = ⟨true, k, j, a, len⟩)))
        ∧ (s.flag (Reg.tXlInv i) Fld.tXlInvBusy = true → Does (.xlInv i) s (s.put (Reg.tXlInv i) Fld.tXlInvErr 1))
        ∧ (∀ (a len : Nat), s.flag (Reg.tXlInv i) Fld.tXlInvBusy = false → a = (s.word (Reg.tInvAddr i)).toNat →
            len = s.get (Reg.tInvLen i) Fld.tInvLenLen → s.get (Reg.tXlInv i) Fld.tXlInvScope = 2 →
            Yields (.xlInv i) s (fun t => t.flag (Reg.tXlInv i) Fld.tXlInvBusy = true
                ∧ (∀ e ∈ t.xl.tlb, e.inScope 2 i (s.s2RootOf i) a len = false)
                ∧ (∀ e ∈ s.xl.tlb, e.inst ≠ i → e ∈ t.xl.tlb)))
        ∧ (∀ h : BitVec 6, s.get Reg.faultq Fld.faultqCount < subMod 6 h.toNat (s.get Reg.faultq Fld.faultqHead) →
            Does (.faultqHeadWrite h) s s)
        ∧ (∀ h : BitVec 6, subMod 6 h.toNat (s.get Reg.faultq Fld.faultqHead) ≤ s.get Reg.faultq Fld.faultqCount →
            Does (.faultqHeadWrite h) s ((s.put Reg.faultq Fld.faultqHead h.toNat).put Reg.faultq Fld.faultqCount
              (s.get Reg.faultq Fld.faultqCount - subMod 6 h.toNat (s.get Reg.faultq Fld.faultqHead))))
        ∧ (∀ v : BitVec 64, (s.touchesRsv (Fld.dmGrantDmBase.get v * 2 ^ 21) (Fld.dmGrantDmLen.get v * 2 ^ 21) = true →
              Does (.dmGrantWrite i v) s (s.notice 59 (Reg.dmGrant i)))
            ∧ (s.touchesRsv (Fld.dmGrantDmBase.get v * 2 ^ 21) (Fld.dmGrantDmLen.get v * 2 ^ 21) = false →
              Does (.dmGrantWrite i v) s ((s.put (Reg.dmGrant i) Fld.dmGrantDmBase (Fld.dmGrantDmBase.get v)).put (Reg.dmGrant i)
                Fld.dmGrantDmLen (Fld.dmGrantDmLen.get v))))
        ∧ (∀ (w : Fin 128) (v : BitVec 64),
            (Fld.winCfgKind.get v = 0 → (s.word (Reg.winBase i w)).toNat < 2 ^ 48 →
              Does (.windowWrite i w 0 v) s (s.setWord (Reg.winCfg i w) (BitVec.ofNat 64 (v.toNat % 2 ^ 49))))
            ∧ (Fld.winCfgKind.get v = 0 → 2 ^ 48 ≤ (s.word (Reg.winBase i w)).toNat →
              Does (.windowWrite i w 0 v) s (s.setWord (Reg.winCfg i w) (Fld.winCfgEnable.put (BitVec.ofNat 64 (v.toNat % 2 ^ 49)) 0)))
            ∧ (Fld.winCfgKind.get v ≠ 0 → s.get (Reg.dmGrant i) Fld.dmGrantDmLen = 0 →
              Does (.windowWrite i w 0 v) s (s.setWord (Reg.winCfg i w) (Fld.winCfgEnable.put (BitVec.ofNat 64 (v.toNat % 2 ^ 49)) 0)))
            ∧ (Fld.winCfgKind.get v ≠ 0 → s.get (Reg.dmGrant i) Fld.dmGrantDmLen ≠ 0 →
              Does (.windowWrite i w 0 v) s (s.setWord (Reg.winCfg i w) (BitVec.ofNat 64 (v.toNat % 2 ^ 49))))
            ∧ Does (.windowWrite i w 1 v) s (s.setWord (Reg.winBase i w) v)
            ∧ Does (.windowWrite i w 2 v) s (s.setWord (Reg.winLen i w) (BitVec.ofNat 64 (v.toNat % 2 ^ 49)))
            ∧ Does (.windowWrite i w 3 v) s (s.put (Reg.winStat i w) Fld.winStatRejects (v.toNat % 2 ^ 32))))
    ∧ (s.invWaits s.xl.mgrInv = true → Does (.invDone none) s s)
    ∧ (s.invWaits (Table.getD s.xl.tenInv InvSt.init i) = true → Does (.invDone (some i)) s s)
    ∧ (s.invWaits s.xl.mgrInv = false → Does (.invDone none) s { s.put Reg.xlatInv Fld.xlatInvBusy 0 with xl := { s.xl with mgrInv := InvSt.init } })
    ∧ (s.invWaits (Table.getD s.xl.tenInv InvSt.init i) = false → Does (.invDone (some i)) s { s.put (Reg.tXlInv i) Fld.tXlInvBusy 0 with xl := { s.xl with tenInv := Table.del s.xl.tenInv i } })

/-- A message is handed over to its context once its order allows, or refused with reason 24 or 26; the next item of an idle context that
its engine serves is decided, and an engine serves a context of the highest priority with work, or one that has waited `age` decisions;
a walk with a cause stops at a restart point that it has, and goes on from there; an idle context is unpinned; a move to an engine
that is up pins it there when it ends; a reset empties the context and raises a PF0 event when it ends. -/
def Obligations.MatchingContexts : Prop :=
  ∀ (s : State) (d : Fin 65536) (i : Fin 4096), s.powered = true →
    (∀ (idx : Fin 1048576) (q : BitVec 24) (h : Nat × Nat × Packet) (t : State),
        s.xp.held.find? (fun h => h.1 == idx.val && h.2.1 == q.toNat && h.2.2.tInst == i.val) = some h →
        t = { s with xp := { s.xp with held := s.xp.held.erase h } } →
        (s.turnOf i idx q.toNat = false → Does (.matchHandover i idx q) s s)
        ∧ (s.turnOf i idx q.toNat = true →
            ((s.inst i).ctx ≤ h.2.2.aux % 65536 → Does (.matchHandover i idx q) s (t.refuseMsg h.2.2 24))
            ∧ (h.2.2.aux % 65536 < (s.inst i).ctx →
              ((s.ctx ((s.inst i).ctxBase + h.2.2.aux % 65536)).resetting = true → Does (.matchHandover i idx q) s (t.refuseMsg h.2.2 26))
              ∧ ((s.ctx ((s.inst i).ctxBase + h.2.2.aux % 65536)).resetting = false → Does (.matchHandover i idx q) s
                  (t.enterCtx ((s.inst i).ctxBase + h.2.2.aux % 65536) i (.msg h.2.2))))))
    ∧ (∀ (idx : Fin 1048576) (q : BitVec 24), s.xp.held.find? (fun h => h.1 == idx.val && h.2.1 == q.toNat && h.2.2.tInst == i.val) = none →
        Does (.matchHandover i idx q) s s)
    ∧ ((s.ctx d).queue = [] → Does (.arrive d) s s ∧ Does (.post d) s s ∧ (∀ w, Does (.walkInterrupt ⟨d, w⟩) s s))
    ∧ (∀ u m l, u = s.pin d (s.ctxInst d) → (s.ctx d).queue = .msg m :: l → Does (.post d) s s
        ∧ (((u.ctx d).idle && u.engineServes d) = false → Does (.arrive d) s u)
        ∧ (((u.ctx d).idle && u.engineServes d) = true → Does (.arrive d) s
            (((u.serveCtx d).setCtx d { u.ctx d with queue := (u.ctx d).queue.tail, waited := 0 }).runItem d (.msg m) 0)))
    ∧ (∀ u o l, u = s.pin d (s.ctxInst d) → (s.ctx d).queue = .recv o :: l → Does (.arrive d) s s
        ∧ (((u.ctx d).idle && u.engineServes d) = false → Does (.post d) s u)
        ∧ (((u.ctx d).idle && u.engineServes d) = true → Does (.post d) s
            (((u.serveCtx d).setCtx d { u.ctx d with queue := (u.ctx d).queue.tail, waited := 0 }).runItem d (.recv o) 0)))
    ∧ (∀ it l (stop : WalkStop), (s.ctx d).queue = it :: l →
        (((s.ctx d).walk.isNone && s.walkCause d) = false → Does (.walkInterrupt ⟨d, stop⟩) s s)
        ∧ (((s.ctx d).walk.isNone && s.walkCause d) = true →
          ((s.setCtx d { s.ctx d with queue := l }).stopAt d it stop = none → Does (.walkInterrupt ⟨d, stop⟩) s s)
          ∧ (∀ u w, (s.setCtx d { s.ctx d with queue := l }).stopAt d it stop = some (u, w) → Does (.walkInterrupt ⟨d, stop⟩) s
              ((u.setCtx d { u.ctx d with walk := some w }).bump Reg.matchStat2 Fld.matchStat2Interrupts 1))))
    ∧ ((s.ctx d).walk = none → Does (.walkResume d) s s)
    ∧ (∀ w, (s.ctx d).walk = some w →
        (((s.ctx d).ready && s.engineServes d) = false → Does (.walkResume d) s s)
        ∧ (((s.ctx d).ready && s.engineServes d) = true → Does (.walkResume d) s
            (((s.serveCtx d).setCtx d { s.ctx d with walk := none, waited := 0 }).resumeMatch d w)))
    ∧ (∀ e, s.serveNext e = some d.val → d.val ∈ s.readyAt e ∧ (s.get Reg.matchCtrl Fld.matchCtrlAge ≤ (s.ctx d).waited
        ∨ ∀ x ∈ s.readyAt e, s.prioOf d ≤ s.prioOf x))
    ∧ ((s.ctx d).queue = [] → (s.ctx d).walk = none → Does (.unpin d) s (s.put (Reg.ctxCfg d) Fld.ctxCfgPinned 0))
    ∧ (((s.ctx d).queue ≠ [] ∨ (s.ctx d).walk ≠ none) → Does (.unpin d) s s)
    ∧ (s.structured = false → (∀ e, Does (.migrate d e) s (s.notice 61 (Reg.ctxCfg d))) ∧ Does (.ctxReset d) s (s.notice 61 (Reg.ctxCfg d)))
    ∧ (s.structured = true → (∀ (e : Fin 32) (t : State), t = s.put (Reg.ctxCfg d) Fld.ctxCfgMigTo e →
          (t.dillUp e = false → Does (.migrate d e) s (t.post (400 + e) 59 0 (Reg.ctxCfg d)))
          ∧ (t.dillUp e = true → Does (.migrate d e) s ((t.setCtx d { t.ctx d with migrateTo := some e.val }).put (Reg.ctxCfg d) Fld.ctxCfgBusy 1)))
        ∧ (∀ t : State, t = s.emptyCtx d (some 29) → Does (.ctxReset d) s ((t.setCtx d { t.ctx d with resetting := true }).put
            (Reg.ctxCfg d) Fld.ctxCfgBusy 1)))
    ∧ ((s.ctx d).migrateTo = none → Does (.migrateEnd d) s s)
    ∧ (∀ e, (s.ctx d).migrateTo = some e →
        ((s.ctx d).resetting = true → Does (.migrateEnd d) s s)
        ∧ ((s.ctx d).resetting = false → Does (.migrateEnd d) s ((((s.setCtx d { s.ctx d with migrateTo := none }).put (Reg.ctxCfg d)
            Fld.ctxCfgPinned 1).put (Reg.ctxCfg d) Fld.ctxCfgEngine e).put (Reg.ctxCfg d) Fld.ctxCfgBusy 0)))
    ∧ ((s.ctx d).resetting = false → Does (.ctxResetEnd d) s s)
    ∧ ((s.ctx d).resetting = true → Does (.ctxResetEnd d) s (((s.setCtx d { s.ctx d with resetting := false }).put (Reg.ctxCfg d)
        Fld.ctxCfgBusy (b2n (s.ctx d).migrateTo.isSome)).raiseEvent 5))

/-- R389, R395: an arriving message takes the earliest posted receive of its context that matches it, and a receive the earliest unexpected
message that it matches; none is taken where none matches. The lists of a context stand in the order of posting and of arrival, which
filing, unlinking and storing keep. -/
def Obligations.MatchingOrder : Prop :=
  (∀ (c : CtxSt), c.ordered →
    (∀ (m : Packet) (r : Posted), (c.arrivePick m).1 = some r → r ∈ c.posted ∧ r.matches (BitVec.ofNat 64 m.base) (srcId m) = true
      ∧ ∀ x ∈ c.posted, x.matches (BitVec.ofNat 64 m.base) (srcId m) = true → r.pseq ≤ x.pseq)
    ∧ (∀ m : Packet, (c.arrivePick m).1 = none → ∀ x ∈ c.posted, x.matches (BitVec.ofNat 64 m.base) (srcId m) = false)
    ∧ (∀ (r : Posted) (u : Unexp), (c.postPick r).1 = some u → u ∈ c.unexp ∧ r.matches u.bits u.sid = true
      ∧ ∀ x ∈ c.unexp, r.matches x.bits x.sid = true → u.aseq ≤ x.aseq)
    ∧ (∀ r : Posted, (c.postPick r).1 = none → ∀ x ∈ c.unexp, r.matches x.bits x.sid = false))
  ∧ (∀ (s : State) (d : Nat), (s.ctx d).ordered →
    (∀ o, ((s.filePosted d o).ctx d).ordered) ∧ (∀ m, ((s.fileUnexp d m).ctx d).ordered) ∧ (∀ p, ((s.commitPick d p).ctx d).ordered))

/-- A read of an entry shows its index and list, and whether it is in use; a write of the pools that fits, before the fabric is enabled and
while no context is allocated, fills them; any other is discarded with an event, as are both without a structure. -/
def Obligations.MatchingWindow : Prop :=
  ∀ (s : State), s.powered = true →
    (s.structured = false → (∀ b n, Does (.entryRead b n) s (s.notice 61 Reg.entSel)) ∧ (∀ v, Does (.poolWrite v) s (s.notice 61 Reg.matchPool)))
    ∧ (s.structured = true → ∀ (b : Bool) (n : Nat) (t : State),
        t = (s.put Reg.entSel Fld.entSelIndex n).put Reg.entSel Fld.entSelList (b2n b) →
        (∀ ws, t.entryWords b n = some ws → Does (.entryRead b n) s ((t.putEntry ws).put Reg.entSel Fld.entSelInUse 1))
        ∧ (t.entryWords b n = none → Does (.entryRead b n) s ((t.putEntry []).put Reg.entSel Fld.entSelInUse 0)))
    ∧ (s.structured = true → ∀ (v w : BitVec 64) (p u : Nat), p = min 16 (Fld.matchPoolPreM.get v) → u = min 16 (Fld.matchPoolUxeM.get v) →
        w = Fld.matchPoolUxeM.put (Fld.matchPoolPreM.put (BitVec.ofNat 64 (v.toNat % 2 ^ 32)) p) u →
        (s.imgState = 2 → 72 * (p + u) + Fld.matchPoolBounceMib.get v + Fld.matchPoolSegMib.get v ≤ 512 * s.get Reg.cohRegion Fld.cohRegionSizeGib →
          (∀ e ∈ s.insts, e.2.ctx = 0) → Yields (.poolWrite v) s (fun t => t.word Reg.matchPool = w
            ∧ t.mt.freePosted = Fld.matchPoolPreM.get w * 2 ^ 20 ∧ t.mt.freeUnexp = Fld.matchPoolUxeM.get w * 2 ^ 20
            ∧ t.mt.freeBounce = Fld.matchPoolBounceMib.get w * 4096 ∧ t.mt.freeSeg = Fld.matchPoolSegMib.get w * 2 ^ 14
            ∧ (∀ a, a ≠ Reg.matchPool → t.word a = s.word a)))
        ∧ ((s.imgState ≠ 2 ∨ 512 * s.get Reg.cohRegion Fld.cohRegionSizeGib < 72 * (p + u) + Fld.matchPoolBounceMib.get v + Fld.matchPoolSegMib.get v
            ∨ ∃ e ∈ s.insts, e.2.ctx ≠ 0) → Does (.poolWrite v) s (s.notice 59 Reg.matchPool)))

/-- Setting `valid` of a communicator that passes its checks sets it with its sequence at 0, and shows whether this device leads and its tree
position; one that fails shows the first error. `abort` ends its collectives and clears `valid`. A collective job is taken by the command of
its own kind: one that breaks a check fails with status 34, one beyond the depth waits, and else it takes the next sequence number and its
transfer ID, and starts, unless its failure is already known, with whose status it then ends. -/
def Obligations.CollectiveJobs : Prop :=
  ∀ (s : State) (c : Fin 4096) (o : Nat), s.powered = true →
    (s.structured = false → Does (.commValid c) s (s.notice 61 (Reg.commCtl c)) ∧ Does (.commAbort c) s (s.notice 61 (Reg.commCtl c)))
    ∧ (s.structured = true → Does (.commAbort c) s (s.abortComm c)
        ∧ (s.commValid c = true → Does (.commValid c) s s)
        ∧ (s.commValid c = false → s.commCheck c ≠ 0 → Does (.commValid c) s (s.put (Reg.commCtl c) Fld.commCtlErr (s.commCheck c)))
        ∧ (s.commValid c = false → s.commCheck c = 0 → Yields (.commValid c) s (fun t =>
            t.flag (Reg.commCtl c) Fld.commCtlValid = true ∧ t.get (Reg.commCtl c) Fld.commCtlErr = 0
            ∧ t.get (Reg.commCtl c) Fld.commCtlCseq = 0 ∧ t.flag (Reg.commCtl c) Fld.commCtlLeader = s.isLeader c
            ∧ (∀ a, a ≠ Reg.commCtl c → t.word a = s.word a)
            ∧ t.colls = { s.colls with failed := s.colls.failed.filter (fun e => e.1 != c.val) })))
    ∧ (Table.find s.rma.ops o = none → Does (.barrier o) s s ∧ Does (.broadcast o) s s ∧ Does (.reduce o) s s ∧ Does (.allreduce o) s s)
    ∧ (∀ (x : OpSt) (k : Nat), Table.find s.rma.ops o = some x → k = bits x.desc.w2.toNat 14 12 →
        ((x.kind ≠ .coll ∨ x.started = true ∨ x.done = true ∨ s.mayStart o x = false) →
          Does (.barrier o) s s ∧ Does (.broadcast o) s s ∧ Does (.reduce o) s s ∧ Does (.allreduce o) s s)
        ∧ (x.kind = .coll → x.started = false → x.done = false → s.mayStart o x = true →
          (∀ t : State, (s.collBad x = true → t = s.finishOp o 34) →
            (s.collBad x = false → s.get Reg.collCtrl Fld.collCtrlDepth ≤ s.get (Reg.commCtl (x.desc.w2.toNat % 4096)) Fld.commCtlPending →
              t = s) →
            (s.collBad x = true ∨ s.get Reg.collCtrl Fld.collCtrlDepth ≤ s.get (Reg.commCtl (x.desc.w2.toNat % 4096)) Fld.commCtlPending) →
            (k = 0 → Does (.barrier o) s t) ∧ (k = 1 → Does (.broadcast o) s t) ∧ (k = 2 → Does (.reduce o) s t)
            ∧ (k = 3 → Does (.allreduce o) s t))
          ∧ (∀ (t u v : State) (a n xid len : Nat) (y : CollSt), s.collBad x = false → a = Reg.commCtl (x.desc.w2.toNat % 4096) →
              s.get a Fld.commCtlPending < s.get Reg.collCtrl Fld.collCtrlDepth → n = s.get a Fld.commCtlCseq →
              (s.put a Fld.commCtlCseq ((n + 1) % 2 ^ 32)).newXid x.engine 0 = (xid, t) →
              len = x.desc.w3.toNat % 2 ^ 32 * elemSize (bits x.desc.w2.toNat 18 15) (bits x.desc.w2.toNat 21 19) →
              u = t.setOp o { x with started := true, xid := xid, rspXid := xid, segs := [(x.desc.w4.toNat, len)], length := len } →
              y = ⟨x.desc.w2.toNat % 4096, n, o, k, bits x.desc.w2.toNat 18 15, bits x.desc.w2.toNat 21 19, bits x.desc.w2.toNat 23 22,
                bits x.desc.w2.toNat 41 24, x.desc.w3.toNat % 2 ^ 32,
                match u.coll (x.desc.w2.toNat % 4096) n with | some e => e.segs | none => []⟩ →
              (u.noticed (x.desc.w2.toNat % 4096) n = none → v = (u.setColl y).pumpColl (x.desc.w2.toNat % 4096) n) →
              (∀ st, u.noticed (x.desc.w2.toNat % 4096) n = some st → v = (u.finishOp o st).bump Reg.collStat Fld.collStatFailed 1) →
              (k = 0 → Does (.barrier o) s v) ∧ (k = 1 → Does (.broadcast o) s v) ∧ (k = 2 → Does (.reduce o) s v)
              ∧ (k = 3 → Does (.allreduce o) s v))))

/-- A collective packet that fails the checks of arrival goes no further; one that passes joins its collective as an input or as a result;
a failure notice for a communicator that is not valid is answered with reason 6, one for a collective already failed is ignored, and else
the collective fails with the status carried; an engine whose store has room admits what waits, and touches no collective of another. -/
def Obligations.CollectivePackets : Prop :=
  ∀ (s t : State) (p : Packet), s.powered = true →
    ((p.op ≠ opColl ∨ collPhase p ≠ 0) → Does (.collUp p) s s) ∧ ((p.op ≠ opColl ∨ collPhase p ≠ 1) → Does (.collDown p) s s)
    ∧ ((p.op ≠ opColl ∨ collPhase p ≠ 6) → Does (.failPacket p) s s)
    ∧ (p.op = opColl → s.accept p = (false, t) → (collPhase p = 0 → Does (.collUp p) s t) ∧ (collPhase p = 1 → Does (.collDown p) s t)
        ∧ (collPhase p = 6 → Does (.failPacket p) s t))
    ∧ (p.op = opColl → s.accept p = (true, t) → (collPhase p = 0 → Does (.collUp p) s (t.collArrive p false))
        ∧ (collPhase p = 1 → Does (.collDown p) s (t.collArrive p true))
        ∧ (∀ (u : State) (c n : Nat), collPhase p = 6 → u = t.bump Reg.collStat1 Fld.collStat1FailRx 1 → c = p.aux % 4096 → n = p.base % 2 ^ 32 →
            (u.commValid c = false → Does (.failPacket p) s (u.sendNcomp p 6))
            ∧ (u.commValid c = true → u.noticed c n ≠ none → Does (.failPacket p) s u)
            ∧ (∀ x, u.commValid c = true → u.noticed c n = none → u.coll c n = some x →
                Does (.failPacket p) s (u.failColl x (p.xlen % 256) p.src))
            ∧ (u.commValid c = true → u.noticed c n = none → u.coll c n = none →
                Does (.failPacket p) s (u.failColl ⟨c, n, 0, 0, 0, 0, 0, 0, 0, []⟩ (p.xlen % 256) p.src))))
    ∧ (∀ e : Fin 16, (∀ x ∈ s.colls.colls, s.commEngine x.comm ≠ e) → Does (.segmentAdmit e) s s)
    ∧ (∀ (e : Fin 16) (x : CollSt) (u : State), s.colls.colls = [x] → s.commEngine x.comm = e →
        u = (x.segs.filter (fun g => !g.admitted)).foldl (fun s g =>
          ((s.admitSeg x.comm x.seq g.index).beginSeg x.comm x.seq g.index).advanceSeg x.comm x.seq g.index) s →
        Does (.segmentAdmit e) s ((u.pumpColl x.comm x.seq).collOver x.comm x.seq))

/-- A service that is started while one runs shows status 1, and at a device that does not lead position 0 of a valid management communicator
status 2; else it runs. A service packet that fails the checks of arrival goes no further, one that names no management communicator here is
answered with reason 6, and else it does its part: an arm, an up-phase packet and a freeze of a snapshot, its record, and a wave. An arm that
no freeze followed is discarded. -/
def Obligations.GlobalServices : Prop :=
  ∀ (s : State) (v : BitVec 64) (p : Packet) (c : Nat), s.powered = true → c = Fld.gsvcMcomm.get v →
    (s.structured = false → ∀ t : State, t = s.notice 61 Reg.gsvc →
      Does (.snapshotGo v) s t ∧ Does (.waveAbortGo v) s t ∧ Does (.waveClearGo v) s t ∧ Does (.waveSafeGo v) s t)
    ∧ (s.structured = true → s.colls.svcOp ≠ 0 → ∀ t : State, t = s.put Reg.gsvc Fld.gsvcStatus 1 →
      Does (.snapshotGo v) s t ∧ Does (.waveAbortGo v) s t ∧ Does (.waveClearGo v) s t ∧ Does (.waveSafeGo v) s t)
    ∧ (∀ t : State, t = s.putGsvc v → s.structured = true → s.colls.svcOp = 0 →
        ((t.svcValid c && t.isLeader c && t.tpos c == 0) = false → ∀ u : State, u = t.put Reg.gsvc Fld.gsvcStatus 2 →
          Does (.snapshotGo v) s u ∧ Does (.waveAbortGo v) s u ∧ Does (.waveClearGo v) s u ∧ Does (.waveSafeGo v) s u)
        ∧ ((t.svcValid c && t.isLeader c && t.tpos c == 0) = true → ∀ (o : Nat) (u : State) (run : Bool → State),
            t.addOp { OpSt.init with inst := 4096, engine := 16, mgr := true, started := true } = (o, u) →
            (∀ w, run w = ((({ u with colls := { u.colls with svcOp := o, svcComm := c, svcWave := w, snapSeen := [] } } : State).put Reg.gsvc
              Fld.gsvcBusy 1).put Reg.gsvc Fld.gsvcStatus 0).put Reg.gsvc Fld.gsvcCounted 0) →
            Does (.snapshotGo v) s (((run false).svcDown c 2 (run false).fid (run false).fid (run false).colls.svcOp).arm c
              ((run false).svcPkt c 2 6 (run false).fid []))
            ∧ (∀ (k : Nat) (w : State), w = (((run true).svcDown c 5 (waveBase (run true).fid k (Fld.gsvcTarget.get v)) (run true).fid
                (run true).colls.svcOp).waveAct c k (Fld.gsvcTarget.get v)).waveSettle →
                (k = 1 → Does (.waveAbortGo v) s w) ∧ (k = 2 → Does (.waveClearGo v) s w) ∧ (k = 3 → Does (.waveSafeGo v) s w))))
    ∧ (∀ (c : Packet → Instr) (ph : Nat), (ph = 2 ∧ c = .armPacket ∨ ph = 3 ∧ c = .snapshotUp ∨ ph = 4 ∧ c = .freezePacket
          ∨ ph = 7 ∧ c = .snapshotRecord ∨ ph = 5 ∧ c = .wavePacket) →
        ((p.op ≠ opColl ∨ collPhase p ≠ ph) → Does (c p) s s)
        ∧ (p.op = opColl → collPhase p = ph →
          (∀ t : State, s.accept p = (false, t) → Does (c p) s t.goOn)
          ∧ (∀ t : State, s.accept p = (true, t) → t.svcValid (p.aux % 4096) = false → Does (c p) s (t.sendNcomp p 6).goOn)))
    ∧ (∀ (t : State) (k : Nat), p.op = opColl → s.accept p = (true, t) → k = p.aux % 4096 → t.svcValid k = true →
        (collPhase p = 2 → Does (.armPacket p) s ((t.svcDown k 2 p.base p.src 0).arm k p).goOn)
        ∧ (collPhase p = 3 → Does (.snapshotUp p) s (({ t with colls := { t.colls with
            upFrom := t.colls.upFrom.filter (fun f => f != p.src) ++ [p.src] } } : State).svcUp k).goOn)
        ∧ (collPhase p = 4 → Does (.freezePacket p) s ((t.svcDown k 4 p.base p.src 0).svcFreeze k (p.base % 2 ^ 18)).goOn)
        ∧ (collPhase p = 7 → Does (.snapshotRecord p) s (t.svcRecord k p.src p.payload).goOn)
        ∧ (collPhase p = 5 → Does (.wavePacket p) s (((t.svcDown k 5 p.base p.src 0).waveAct k (bits p.base 33 32)
            (bits p.base 47 36)).waveSettle).goOn))
    ∧ (s.colls.armed = none → Does .armDiscard s s)
    ∧ (s.colls.armed ≠ none → Does .armDiscard s (({ s with colls := { s.colls with armed := none, upFrom := [], upDone := false } } : State).put
        Reg.perfCtrl Fld.perfCtrlArmHeld 0))

/-- A trigger that may be enabled is, and one that is refused posts an event; disabling stops its handler and drops its firings; a timer
trigger fires with the microseconds since the apply; an idle core takes the trigger of its cluster that fired first; a frame gives every
instance its time again; a core is held, with or without a stop of its handler; its memories are written while it is held and idle and only
then; and a budget trap and a stop request end its handler with results 3 and 5. -/
def Obligations.HandlerControl : Prop :=
  ∀ (s : State) (t : Fin 4096) (c : Fin 68), s.powered = true →
    (s.structured = false → Does (.trigEnable t) s (s.notice 61 (Reg.trigCfg t)) ∧ Does (.trigDisable t) s (s.notice 61 (Reg.trigCfg t))
      ∧ (∀ a b, Does (.coreHold c a b) s (s.notice 61 (Reg.handCore c)))
      ∧ (∀ loc off l, Does (.imemWrite c loc off l) s (s.notice 61 (coreWindow c loc off))))
    ∧ (s.structured = true →
        (s.trigOn t = true → Does (.trigEnable t) s s
          ∧ Does (.trigDisable t) s (((s.put (Reg.trigCfg t) Fld.trigCfgEnable 0).stopTrigger t).dropFirings t))
        ∧ (s.trigOn t = false → Does (.trigDisable t) s s
          ∧ (s.trigRefused t = true → Does (.trigEnable t) s (s.notice 59 (Reg.trigCfg t)))
          ∧ (s.trigRefused t = false → Does (.trigEnable t) s (s.put (Reg.trigCfg t) Fld.trigCfgEnable 1)))
        ∧ (∀ (a b : Bool) (u : State), u = (s.put (Reg.handCore c) Fld.handCoreHold (b2n a)).put (Reg.handCore c) Fld.handCoreHoldStop (b2n b) →
            Does (.coreHold c a b) s (if a && b then u.handlerEnd c 5 else u))
        ∧ (∀ (loc : Bool) (off : Nat) (l : List Byte),
            ((s.cstate c ≠ 3 ∨ (if loc then 0x20000 else 0x10000) < off + l.length) →
              Does (.imemWrite c loc off l) s (s.post (456 + c) 59 0 (coreWindow c loc off)))
            ∧ (s.cstate c = 3 → off + l.length ≤ 0x10000 → Does (.imemWrite c false off l) s
                (s.setCore c { s.core c with imem := writeBytes (s.core c).imem 0 off l }))
            ∧ (s.cstate c = 3 → off + l.length ≤ 0x20000 → Does (.imemWrite c true off l) s
                (s.setCore c ((s.core c).localWrite off l)))))
    ∧ (s.trigOn t = true → s.get (Reg.trigCfg t) Fld.trigCfgKind = 3 → s.get (Reg.trigArg t) Fld.trigArgArg ≠ 0 →
        Does (.triggerTimer t) s (s.fire t (BitVec.ofNat 64 s.usSinceApply) 0 0 0))
    ∧ ((s.trigOn t = false ∨ s.get (Reg.trigCfg t) Fld.trigCfgKind ≠ 3 ∨ s.get (Reg.trigArg t) Fld.trigArgArg = 0) → Does (.triggerTimer t) s s)
    ∧ ((s.enabled = false ∨ s.cstate c ≠ 0 ∨ s.firstFired (s.dispatchable (s.clusterOf c)) = none) → Does (.handlerDispatch c) s s)
    ∧ (∀ u, s.enabled = true → s.cstate c = 0 → s.firstFired (s.dispatchable (s.clusterOf c)) = some u →
        Does (.handlerDispatch c) s (s.startHandler c u))
    ∧ Does .frameTick s { s with
        insts := s.insts.map (fun e => (e.1, { e.2 with slotUsed := 0 }))
        hand := { s.hand with cores := s.hand.cores.map (fun e => (e.1, { e.2 with chargeNs := s.now })) } }
    ∧ ((s.core c).running = false → Does (.budgetTrap c) s s ∧ Does (.stopRequest c) s s)
    ∧ Does (.budgetTrap c) s (s.handlerEnd c 3) ∧ Does (.stopRequest c) s (s.handlerEnd c 5)

/-- R456, R457: the word of every instruction of a core spells that instruction, with every field at every value, and a word that spells an
instruction is its word: no bit is dropped. A core that runs a handler and waits for no lock executes the instruction that its next word
spells and no other, and one whose next word has an `op` outside R457 ends its handler with result 1. -/
def Obligations.SorrelDecode : Prop :=
  (∀ (i : Instr) (c : Fin 68) (w : BitVec 32), coreWord i = some (c, w) → decodeCore c w = some i)
  ∧ (∀ (i : Instr) (c : Fin 68) (w : BitVec 32), decodeCore c w = some i → coreWord i = some (c, w))
  ∧ (∀ (i : Instr) (c : Fin 68) (w : BitVec 32) (s : State), s.powered = true → coreWord i = some (c, w) →
      (s.core c).running = true → (s.core c).lockWait = none →
      (decodeCore c (s.core c).nextWord = none → Does i s (s.handlerEnd c 1))
      ∧ (decodeCore c (s.core c).nextWord ≠ none → (s.core c).nextWord ≠ w → Does i s s))

/-- On a core that runs a handler and waits for no lock, and that has it next in its instruction memory, an arithmetic instruction whose registers all exist puts its result in `rd`
and the next instruction follows; a function of `alu` beyond 15 is an illegal instruction, result 1. -/
def Obligations.SorrelArithmetic : Prop :=
  ∀ (s : State) (c : Fin 68) (x : CoreSt) (rd ra rb : BitVec 5) (fn : BitVec 11) (imm : BitVec 16) (a b : BitVec 64),
    s.powered = true → x = s.core c → x.running = true → x.lockWait = none → rd.toNat < 25 → ra.toNat < 25 → a = x.reg ra.toNat →
    (rb.toNat < 25 → b = x.reg rb.toNat →
      (fn = 0 → Runs (.alu c rd ra rb fn) s (s.result c x rd (a + b)))
      ∧ (fn = 1 → Runs (.alu c rd ra rb fn) s (s.result c x rd (a - b)))
      ∧ (fn = 2 → Runs (.alu c rd ra rb fn) s (s.result c x rd (a &&& b)))
      ∧ (fn = 3 → Runs (.alu c rd ra rb fn) s (s.result c x rd (a ||| b)))
      ∧ (fn = 4 → Runs (.alu c rd ra rb fn) s (s.result c x rd (a ^^^ b)))
      ∧ (fn = 5 → Runs (.alu c rd ra rb fn) s (s.result c x rd (BitVec.ofNat 64 (a.toNat * 2 ^ (b.toNat % 64)))))
      ∧ (fn = 6 → Runs (.alu c rd ra rb fn) s (s.result c x rd (BitVec.ofNat 64 (a.toNat / 2 ^ (b.toNat % 64)))))
      ∧ (fn = 7 → Runs (.alu c rd ra rb fn) s (s.result c x rd (BitVec.ofInt 64 (a.toInt / 2 ^ (b.toNat % 64)))))
      ∧ (fn = 8 → Runs (.alu c rd ra rb fn) s (s.result c x rd (BitVec.ofNat 64 (a.toNat * b.toNat))))
      ∧ (fn = 9 → Runs (.alu c rd ra rb fn) s (s.result c x rd (BitVec.ofNat 64 (a.toNat * b.toNat / 2 ^ 64))))
      ∧ (fn = 10 → Runs (.alu c rd ra rb fn) s (s.result c x rd (if a.toInt < b.toInt then 1 else 0)))
      ∧ (fn = 11 → Runs (.alu c rd ra rb fn) s (s.result c x rd (if a.toNat < b.toNat then 1 else 0)))
      ∧ (fn = 12 → Runs (.alu c rd ra rb fn) s (s.result c x rd (BitVec.ofInt 64 (min a.toInt b.toInt))))
      ∧ (fn = 13 → Runs (.alu c rd ra rb fn) s (s.result c x rd (BitVec.ofInt 64 (max a.toInt b.toInt))))
      ∧ (fn = 14 → Runs (.alu c rd ra rb fn) s (s.result c x rd (BitVec.ofNat 64 (min a.toNat b.toNat))))
      ∧ (fn = 15 → Runs (.alu c rd ra rb fn) s (s.result c x rd (BitVec.ofNat 64 (max a.toNat b.toNat))))
      ∧ (16 ≤ fn.toNat → Runs (.alu c rd ra rb fn) s (s.handlerEnd c 1)))
    ∧ Runs (.addi c rd ra imm) s (s.result c x rd (a + BitVec.ofInt 64 imm.toInt))
    ∧ Runs (.andi c rd ra imm) s (s.result c x rd (a &&& BitVec.ofNat 64 imm.toNat))
    ∧ Runs (.ori c rd ra imm) s (s.result c x rd (a ||| BitVec.ofNat 64 imm.toNat))
    ∧ Runs (.xori c rd ra imm) s (s.result c x rd (a ^^^ BitVec.ofNat 64 imm.toNat))
    ∧ Runs (.lui c rd ra imm) s (s.result c x rd (BitVec.ofInt 64 (imm.toInt * 2 ^ 16)))
    ∧ Runs (.insh c rd ra imm) s (s.result c x rd (BitVec.ofNat 64 ((x.reg rd.toNat).toNat * 2 ^ 16 + imm.toNat)))

/-- A load or store of 1, 2, 4 or 8 bytes that its core executes next, at a place that its handler may reach reads or writes exactly those bytes, little-endian, of its
core's local data or of device memory; a misaligned access, or one beyond what the handler may reach, ends the handler with result 2, as
does a store to an armed lock line; an atomic in device memory returns the old value, an operation beyond 6 is illegal, and one in local
data ends the handler with result 2. -/
def Obligations.SorrelMemory : Prop :=
  ∀ (s : State) (c : Fin 68) (x : CoreSt) (rd ra rb : BitVec 5) (imm : BitVec 16) (fn : BitVec 11) (n e : Nat),
    s.powered = true → x = s.core c → x.running = true → x.lockWait = none → rd.toNat < 25 → ra.toNat < 25 →
    e = (x.reg ra.toNat + imm.signExtend 64).toNat →
    (∀ (ld st : Instr), ((n = 1 ∧ ld = .ld1 c rd ra imm ∧ st = .st1 c rd ra imm) ∨ (n = 2 ∧ ld = .ld2 c rd ra imm ∧ st = .st2 c rd ra imm)
          ∨ (n = 4 ∧ ld = .ld4 c rd ra imm ∧ st = .st4 c rd ra imm) ∨ (n = 8 ∧ ld = .ld8 c rd ra imm ∧ st = .st8 c rd ra imm)) →
        (s.haddr x e n = .bad → Runs ld s (s.handlerEnd c 2) ∧ Runs st s (s.handlerEnd c 2))
        ∧ (e % n ≠ 0 → Runs ld s (s.handlerEnd c 2) ∧ Runs st s (s.handlerEnd c 2))
        ∧ (∀ a, s.haddr x e n = .loc a → Runs ld s (s.result c x rd (BitVec.ofNat 64 (leNat (readBytes x.localMem 0 a n))))
            ∧ Runs st s (s.retire c { x with localMem := writeBytes x.localMem 0 a (leBytes (x.reg rd.toNat).toNat n) }))
        ∧ (∀ a, s.haddr x e n = .dev a →
            (∀ l t, s.coreLoad c a n = (some l, t) → Runs ld s (t.result c x rd (BitVec.ofNat 64 (leNat l))))
            ∧ (∀ t, s.coreLoad c a n = (none, t) → Runs ld s (t.handlerEnd c 6))
            ∧ (s.touchesLock a n = true → Runs st s (s.handlerEnd c 2))
            ∧ (s.touchesLock a n = false → Runs st s ((s.coreStore c a (leBytes (x.reg rd.toNat).toNat n)).retire c x))))
    ∧ (rb.toNat < 25 → ∀ k : Nat, k = fn.toNat % 16 →
        (6 < k → Runs (.amo c rd ra rb fn) s (s.handlerEnd c 1))
        ∧ (k ≤ 6 → (∀ a, s.haddr x (x.reg ra.toNat).toNat 8 ≠ .dev a) → Runs (.amo c rd ra rb fn) s (s.handlerEnd c 2))
        ∧ (∀ a, k ≤ 6 → s.haddr x (x.reg ra.toNat).toNat 8 = .dev a →
            (s.touchesLock a 8 = true → Runs (.amo c rd ra rb fn) s (s.handlerEnd c 2))
            ∧ (s.touchesLock a 8 = false → ∀ (p q : Nat), (k = 2 → p = (x.reg rd.toNat).toNat ∧ q = (x.reg rb.toNat).toNat) →
                (k ≠ 2 → p = (x.reg rb.toNat).toNat ∧ q = 0) →
                (∀ m t, s.devAtomic a k 8 p q = (some m, t) → Runs (.amo c rd ra rb fn) s (t.result c x rd (BitVec.ofNat 64 m)))
                ∧ (∀ t, s.devAtomic a k 8 p q = (none, t) → Runs (.amo c rd ra rb fn) s (t.handlerEnd c 6)))))

/-- Of the instruction that a core executes next: a branch whose condition holds goes to its target, counted in instructions from its own address, and any other to the next
instruction; `j` and `jr` go to their targets; `call` gives the callee its arguments and its return address in a new window and spills the
oldest when seven are resident; `ret` gives its results to the caller's window and returns, and ends the outermost function, and with it the
handler, with result 0; `done` ends the handler with its result; `fence` passes to the next instruction. -/
def Obligations.SorrelControl : Prop :=
  ∀ (s : State) (c : Fin 68) (x : CoreSt) (rd ra rb : BitVec 5) (off : BitVec 16) (fn : BitVec 11) (a b : BitVec 64),
    s.powered = true → x = s.core c → x.running = true → x.lockWait = none →
    (ra.toNat < 25 → a = x.reg ra.toNat →
      (rb.toNat < 25 → b = x.reg rb.toNat → ∀ t u : State, t = s.retireAt c x (x.pc + 4 * off.toInt) → u = s.retireAt c x (x.pc + 4) →
        Runs (.beq c ra rb off) s (if a = b then t else u) ∧ Runs (.bne c ra rb off) s (if a = b then u else t)
        ∧ Runs (.blt c ra rb off) s (if a.toInt < b.toInt then t else u) ∧ Runs (.bge c ra rb off) s (if a.toInt < b.toInt then u else t)
        ∧ Runs (.bltu c ra rb off) s (if a.toNat < b.toNat then t else u) ∧ Runs (.bgeu c ra rb off) s (if a.toNat < b.toNat then u else t))
      ∧ (a.toNat % 4 = 0 → Runs (.jr c ra rd rb fn) s (s.retireAt c x a.toNat))
      ∧ (a.toNat % 4 ≠ 0 → Runs (.jr c ra rd rb fn) s (s.retireAt c x (-1))))
    ∧ (∀ o : BitVec 26, Runs (.j c o) s (s.retireAt c x (x.pc + 4 * o.toInt)))
    ∧ Runs (.fence c rd ra rb fn) s (s.retireAt c x (x.pc + 4))
    ∧ (∀ imm : BitVec 16, Runs (.done c rd ra imm) s (s.handlerEnd c (imm.toNat % 256)))
    ∧ (∀ (n : BitVec 4) (o : BitVec 22),
        (8 < n.toNat → Runs (.call c n o) s (s.handlerEnd c 1))
        ∧ (n.toNat ≤ 8 → x.resident < 7 → Runs (.call c n o) s (s.retireAt c { x with
            windows := setIdx x.windows ((x.wix + 1) % 7)
              ⟨((x.window.regs.drop 8).take n.toNat ++ List.replicate 16 0).take 16, BitVec.ofNat 64 (x.pc + 4)⟩
            wix := (x.wix + 1) % 7, resident := x.resident + 1 } (x.pc + 4 * o.toInt)))
        ∧ (n.toNat ≤ 8 → 7 ≤ x.resident → s.spillBytes < 136 * (x.spilled + 1) → Runs (.call c n o) s (s.handlerEnd c 4))
        ∧ (∀ (y : CoreSt) (t : State), n.toNat ≤ 8 → 7 ≤ x.resident → 136 * (x.spilled + 1) ≤ s.spillBytes →
            y = x.localWrite (s.spillBase + 136 * x.spilled) (x.windows.getD ((x.wix + 1) % 7) Window.init).bytes →
            t = s.count ⟨0xA02, some c, some x.inst, none, none, some x.mgr, 1⟩ →
            Runs (.call c n o) s (t.retireAt c { y with
              windows := setIdx x.windows ((x.wix + 1) % 7)
                ⟨((x.window.regs.drop 8).take n.toNat ++ List.replicate 16 0).take 16, BitVec.ofNat 64 (x.pc + 4)⟩
              wix := (x.wix + 1) % 7, resident := 7, spilled := x.spilled + 1 } (x.pc + 4 * o.toInt)))
        ∧ (4 < n.toNat → Runs (.ret c n o) s (s.handlerEnd c 1))
        ∧ (n.toNat ≤ 4 → x.resident ≤ 1 → x.spilled = 0 → Runs (.ret c n o) s (s.handlerEnd c 0))
        ∧ (∀ w : Window, n.toNat ≤ 4 → 1 < x.resident → w = x.windows.getD ((x.wix + 6) % 7) Window.init →
            Runs (.ret c n o) s (s.retireAt c { x with
              windows := setIdx x.windows ((x.wix + 6) % 7)
                ⟨w.regs.take 8 ++ x.window.regs.take n.toNat ++ w.regs.drop (8 + n.toNat), w.link⟩
              wix := (x.wix + 6) % 7, resident := x.resident - 1 } x.window.link.toNat))
        ∧ (∀ (y : CoreSt) (t : State) (w : Window), n.toNat ≤ 4 → x.resident ≤ 1 → 0 < x.spilled → s.unspill c x = (y, t) →
            w = y.windows.getD ((x.wix + 6) % 7) Window.init →
            Runs (.ret c n o) s (t.retireAt c { y with
              windows := setIdx y.windows ((x.wix + 6) % 7)
                ⟨w.regs.take 8 ++ x.window.regs.take n.toNat ++ w.regs.drop (8 + n.toNat), w.link⟩
              wix := (x.wix + 6) % 7, resident := y.resident - 1 } x.window.link.toNat)))

/-- `csr` returns the device's nanoseconds since the apply, the core, the instance, the fabric ID, the trigger, the budget left and the link
register, with cycles free, and a number beyond 7 is illegal; `desc` hands a descriptor of local data to an engine; `lkacq` and `lkrel` act on
the lock that their address names, with 0 for success, 1 for a rejection and 2 for a full pool, and an address that names no line ends the
handler with result 2. An instruction that names a reserved register is illegal, and one on a core that runs no handler, or waits, has no
effect. -/
def Obligations.SorrelSystem : Prop :=
  ∀ (s : State) (c : Fin 68) (x : CoreSt) (rd ra rb : BitVec 5) (fn : BitVec 11) (a : Nat),
    s.powered = true → x = s.core c →
    ((x.running = false ∨ x.lockWait ≠ none) → Does (.csr c rd ra rb fn) s s ∧ Does (.desc c rd ra rb fn) s s ∧ Does (.lkacq c rd ra rb fn) s s
      ∧ Does (.lkrel c rd ra rb fn) s s)
    ∧ (x.running = true → x.lockWait = none → 25 ≤ rd.toNat → Runs (.csr c rd ra rb fn) s (s.handlerEnd c 1)
      ∧ Runs (.desc c rd ra rb fn) s (s.handlerEnd c 1) ∧ Runs (.lkacq c rd ra rb fn) s (s.handlerEnd c 1)
      ∧ Runs (.lkrel c rd ra rb fn) s (s.handlerEnd c 1) ∧ (∀ fn', Runs (.alu c rd ra rb fn') s (s.handlerEnd c 1)))
    ∧ (x.running = true → x.lockWait = none → rd.toNat < 25 →
        (fn = 0 → Runs (.csr c rd ra rb fn) s (State.result { s with freeCtr := s.freeCtr + 1 } c x rd (Config.freeValue s.freeCtr)))
        ∧ (fn = 1 → Runs (.csr c rd ra rb fn) s (s.result c x rd (BitVec.ofNat 64 (s.now - s.applyNs))))
        ∧ (fn = 2 → ∀ k, s.logicalCore c = some k → Runs (.csr c rd ra rb fn) s (s.result c x rd (BitVec.ofNat 64 k)))
        ∧ (fn = 3 → Runs (.csr c rd ra rb fn) s (s.result c x rd (BitVec.ofNat 64 x.inst)))
        ∧ (fn = 4 → Runs (.csr c rd ra rb fn) s (s.result c x rd (BitVec.ofNat 64 s.fid)))
        ∧ (fn = 5 → Runs (.csr c rd ra rb fn) s (s.result c x rd (BitVec.ofNat 64 x.trig)))
        ∧ (fn = 6 → Runs (.csr c rd ra rb fn) s (s.result c x rd (BitVec.ofNat 64
            (1000 * s.get Reg.handCtrl Fld.handCtrlBudgetUs - (s.now - x.startNs)))))
        ∧ (fn = 7 → Runs (.csr c rd ra rb fn) s (s.result c x rd x.window.link))
        ∧ (8 ≤ fn.toNat → Runs (.csr c rd ra rb fn) s (s.handlerEnd c 1)))
    ∧ (x.running = true → x.lockWait = none → rd.toNat < 25 → ra.toNat < 25 → rb.toNat < 25 → a = (x.reg ra.toNat).toNat →
        ((∀ k, s.haddr x a 64 ≠ .loc k) → Runs (.desc c rd ra rb fn) s (s.handlerEnd c 2))
        ∧ (∀ k r t, s.haddr x a 64 = .loc k → s.descJob x (Desc.ofBytes (readBytes x.localMem 0 k 64)) (x.reg rb.toNat).toNat = (r, t) →
            Runs (.desc c rd ra rb fn) s (t.result c x rd (BitVec.ofNat 64 r)))
        ∧ (s.lockAddr x a = none → Runs (.lkacq c rd ra rb fn) s (s.handlerEnd c 2) ∧ Runs (.lkrel c rd ra rb fn) s (s.handlerEnd c 2))
        ∧ (s.lockAddr x a = some none → Runs (.lkacq c rd ra rb fn) s (s.result c x rd 1) ∧ Runs (.lkrel c rd ra rb fn) s (s.result c x rd 1))
        ∧ (∀ l key, s.lockAddr x a = some (some l) → key = (x.reg rb.toNat).toNat % 2 ^ 32 →
            (s.lockPasses 1 l key (s.lockCoreId c) = false → Runs (.lkacq c rd ra rb fn) s (s.result c x rd 1))
            ∧ (s.lockPasses 2 l key (s.lockCoreId c) = false → Runs (.lkrel c rd ra rb fn) s (s.result c x rd 1))
            ∧ (s.lockPasses 2 l key (s.lockCoreId c) = true → Runs (.lkrel c rd ra rb fn) s ((s.lockPass l).result c x rd 0))
            ∧ (s.lockPasses 1 l key (s.lockCoreId c) = true →
                (s.lockHeld l = false → Runs (.lkacq c rd ra rb fn) s ((s.lockTake l (s.lockCoreId c) 0).result c x rd 0))
                ∧ (s.lockHeld l = true → s.waitersFull = true → Runs (.lkacq c rd ra rb fn) s
                    ((s.bump Reg.lockCnt Fld.lockCntPoolFull 1).result c x rd 2))
                ∧ (s.lockHeld l = true → s.waitersFull = false → Runs (.lkacq c rd ra rb fn) s
                    ((s.setCore c { x with lockWait := some (rd.toNat, l) }).setWaiters l
                      (s.hand.lockWait ++ [⟨l, s.lockCoreId c, 0, s.fid, x.inst, some c.val, none⟩]))))))

/-- A request for a line that is not busy is served: a caching one makes the line busy until the answers it awaits have come, and a
non-caching read, write or atomic is performed at once; one for a busy line is counted and queued behind it, as long as its slice has room;
a caching request outside the region has no effect, nor has any request of a device without a structure. -/
def Obligations.CoherenceRequests : Prop :=
  ∀ (s : State) (line a : Nat) (g : CohAgent) (l : List Byte) (op : Fin 8) (w : Bool) (x y : Nat), s.powered = true →
    (s.structured = false → Does (.gets g line) s s ∧ Does (.getm g line) s s ∧ Does (.upgrade g line) s s ∧ Does (.readna line) s s
      ∧ Does (.writena a l) s s ∧ Does (.atomicna a op w x y) s s ∧ Does (.putm g line l) s s ∧ Does (.pute g line) s s)
    ∧ (s.inRegion (64 * line) = false → Does (.gets g line) s s ∧ Does (.getm g line) s s ∧ Does (.upgrade g line) s s)
    ∧ (s.structured = true → Does (.putm g line l) s (s.putBack g line (some l)) ∧ Does (.pute g line) s (s.putBack g line none))
    ∧ (s.structured = true → s.inRegion (64 * line) = true → s.hand.busy.find? (fun b => b.line == line) = none →
        (s.sliceBusy (lineSlice line) < 256 → Does (.gets g line) s (s.cohAccept line (.getS g) g [])
          ∧ Does (.getm g line) s (s.cohAccept line (.getM g) g []) ∧ Does (.upgrade g line) s (s.cohAccept line (.upgrade g) g []))
        ∧ (256 ≤ s.sliceBusy (lineSlice line) → Does (.gets g line) s s ∧ Does (.getm g line) s s ∧ Does (.upgrade g line) s s))
    ∧ (s.structured = true → s.hand.busy.find? (fun b => b.line == line) = none → Does (.readna line) s (s.devRead (64 * line) 64).2)
    ∧ (s.structured = true → s.hand.busy.find? (fun b => b.line == a / 64) = none →
        ((∀ k ∈ linesOf a l.length, k ∉ s.rma.armed) → Does (.writena a l) s (s.devWrite a l))
        ∧ (∀ k, (linesOf a l.length).find? (fun j => s.rma.armed.contains j) = some k →
            Does (.writena a l) s (s.post (525 + 2 * lineSlice k) 59 0 (64 * k)))
        ∧ (∀ n, n = (if w then 16 else 8) → (∀ k ∈ linesOf a n, k ∉ s.rma.armed) →
            Does (.atomicna a op w x y) s (s.devAtomic a op n x y).2)
        ∧ (∀ n k, n = (if w then 16 else 8) → (linesOf a n).find? (fun j => s.rma.armed.contains j) = some k →
            Does (.atomicna a op w x y) s (s.post (525 + 2 * lineSlice k) 59 0 (64 * k))))
    ∧ (∀ (b : BusyLine) (c : Instr) (r : CohReq) (t : State), s.structured = true → s.hand.busy.find? (fun b => b.line == line) = some b →
        s.inRegion (64 * line) = true →
        ((c = .gets g line ∧ r = .getS g) ∨ (c = .getm g line ∧ r = .getM g) ∨ (c = .upgrade g line ∧ r = .upgrade g)
          ∨ (c = .readna line ∧ r = .readNA) ∨ (c = .writena a l ∧ r = .writeNA a l ∧ a / 64 = line)
          ∨ (c = .atomicna a op w x y ∧ r = .atomicNA a op w x y ∧ a / 64 = line)) →
        (1024 ≤ s.sliceQueued (lineSlice line) → Does c s s)
        ∧ (s.sliceQueued (lineSlice line) < 1024 → t = s.bump (Reg.slCnt1 (lineSlice line)) Fld.slCnt1BusyWait 1 →
            Does c s { t with hand := { t.hand with
              busy := s.hand.busy.map (fun z => if z.line = line then { b with waiting := b.waiting ++ [r] } else z) } }))

/-- A holder that a busy line awaits gives up what the request takes: an owner asked for a GetS shares, and drops for a GetM or upgrade; a
sharer drops on an invalidation; an agent that is not asked does nothing. The last answer leaves the requester awaited, whose own response
ends the busy period with the grant and lets the queue go on. R488: the directory window
holds the line, and its `go`, which reads as 0, shows the entry of that line. -/
def Obligations.CoherenceAnswers : Prop :=
  ∀ (s : State) (a q : CohAgent) (line : Nat), s.powered = true →
    (s.asked a line = none → Does (.forward a line) s s ∧ Does (.invalidation a line) s s)
    ∧ (s.asked a line = some (.getS q) → Does (.forward a line) s (s.ownerShares line a) ∧ Does (.invalidation a line) s s)
    ∧ ((s.asked a line = some (.getM q) ∨ s.asked a line = some (.upgrade q)) →
        (s.owner line = some a → Does (.forward a line) s (s.holderDrops line a) ∧ Does (.invalidation a line) s s)
        ∧ (s.owner line ≠ some a → Does (.forward a line) s s ∧ Does (.invalidation a line) s (s.holderDrops line a)))
    ∧ (s.hand.busy.find? (fun b => b.line == line) = none → Does (.coherentResponse a line) s s)
    ∧ (∀ b, s.hand.busy.find? (fun b => b.line == line) = some b → b.req.from_ = some q →
        (a ∉ b.await → Does (.coherentResponse a line) s s)
        ∧ (∀ t : State, a ∈ b.await → a = q → t = { s with hand := { s.hand with busy := s.hand.busy.filter (fun x => x.line != line) } } →
            (b.req = .getS q → Does (.coherentResponse a line) s ((t.grantS line q).cohNext line b.waiting))
            ∧ (b.req ≠ .getS q → Does (.coherentResponse a line) s ((t.grantM line q).cohNext line b.waiting)))
        ∧ (a ∈ b.await → a ≠ q → s.stillHolds b.req a line = true → Does (.coherentResponse a line) s s)
        ∧ (∀ l, a ∈ b.await → a ≠ q → s.stillHolds b.req a line = false → l = b.await.erase a →
            Does (.coherentResponse a line) s { s with hand := { s.hand with busy := s.hand.busy.map (fun x =>
              if x.line = line then { b with await := if l = [] then [q] else l } else x) } }))
    ∧ (Reg.dirSel = 0x1600100 ∧ Reg.dirData 0 = 0x1600108 ∧ Reg.dirData 1 = 0x1600110 ∧ Fld.dirSelLine = ⟨0, 31⟩ ∧ Fld.dirSelGo = ⟨31, 1⟩
        ∧ Fld.dirSelGo.get (s.regView Reg.dirSel) = 0
        ∧ (s.structured = true → ∀ t : State, t = s.writeAt Reg.dirSel 8 (BitVec.ofNat 64 (line % 2 ^ 31 + 2 ^ 31)) →
            t.get Reg.dirSel Fld.dirSelLine = line % 2 ^ 31
            ∧ t.word (Reg.dirData 0) = BitVec.ofNat 64 (s.dirOf (line % 2 ^ 31)).toNat
            ∧ t.word (Reg.dirData 1) = BitVec.ofNat 64 ((s.dirOf (line % 2 ^ 31)).toNat / 2 ^ 64)))
    ∧ (s.structured = false → Does (.dirRead line) s (s.notice 61 Reg.dirSel))
    ∧ (s.structured = true → Yields (.dirRead line) s (fun t =>
        t.get Reg.dirSel Fld.dirSelLine = line % 2 ^ 31 ∧ t.word (Reg.dirData 0) = BitVec.ofNat 64 (s.dirOf (line % 2 ^ 31)).toNat
        ∧ t.word (Reg.dirData 1) = BitVec.ofNat 64 ((s.dirOf (line % 2 ^ 31)).toNat / 2 ^ 64)
        ∧ (∀ r, r ≠ Reg.dirSel → r ≠ Reg.dirData 0 → r ≠ Reg.dirData 1 → t.word r = s.word r) ∧ t.rma = s.rma ∧ t.hand = s.hand))

/-- A LOCK packet reaches the meaning of its own operation; one that fails the checks of arrival has no effect of its own, and one that finds
the waiter pool full is counted and answered before its number is received. A packet whose checks fail is answered with reason 7; else the lock is
armed, taken or queued for, passed to its head waiter or freed, disarmed, or an acquire is taken back. A forced hand-over shows its error,
or passes the lock, clears the error, and logs and counts the pass. -/
def Obligations.Locks : Prop :=
  ∀ (s : State) (p : Packet), s.powered = true →
    (∀ k : Fin 5, (p.op ≠ opLock ∨ p.aux % 8 ≠ k) → (k = 0 → Does (.lockArm p) s s) ∧ (k = 1 → Does (.lockAcquire p) s s)
        ∧ (k = 2 → Does (.lockRelease p) s s) ∧ (k = 3 → Does (.lockDisarm p) s s) ∧ (k = 4 → Does (.lockCancel p) s s))
    ∧ (∀ (c : Instr) (t : State), p.op = opLock →
        ((c = .lockArm p ∧ p.aux % 8 = 0) ∨ (c = .lockRelease p ∧ p.aux % 8 = 2) ∨ (c = .lockDisarm p ∧ p.aux % 8 = 3)
          ∨ (c = .lockCancel p ∧ p.aux % 8 = 4)) →
        (s.acceptIf p (fun _ => false) = (false, t) → Does c s t)
        ∧ (s.acceptIf p (fun _ => false) = (true, t) →
            (t.mustHold p.tInst = true → Does c s (t.hold p))
            ∧ (t.mustHold p.tInst = false →
                (t.lockLine p.tInst p.base = none → Does c s (t.sendNcomp p 7))
                ∧ (∀ l, t.lockLine p.tInst p.base = some l →
                    (t.lockPasses (p.aux % 8) l p.key (lockSrc p) = false → Does c s (t.sendNcomp p 7))
                    ∧ (t.lockPasses (p.aux % 8) l p.key (lockSrc p) = true →
                        (c = .lockArm p → Does c s ((t.lockArm p.tInst l p.key).sendComp p))
                        ∧ (c = .lockRelease p → Does c s ((t.lockPass l).sendComp p))
                        ∧ (c = .lockDisarm p → Does c s ((t.lockDisarm l).sendComp p))
                        ∧ (c = .lockCancel p → Does c s (t.lockAct p 4 l)))))))
    ∧ (∀ t : State, p.op = opLock → p.aux % 8 = 1 →
        (s.acceptIf p (fun s => s.lockPoolFull p) = (false, t) → Does (.lockAcquire p) s (if t.lockPoolFull p then
          t.bump Reg.lockCnt Fld.lockCntPoolFull 1 else t))
        ∧ (s.acceptIf p (fun s => s.lockPoolFull p) = (true, t) → t.mustHold p.tInst = false → ∀ l, t.lockLine p.tInst p.base = some l →
            t.lockPasses 1 l p.key (lockSrc p) = true →
            (t.lockHeld l = false → Does (.lockAcquire p) s ((t.lockTake l (lockSrc p) p.xid).sendComp p))
            ∧ (t.lockHeld l = true → Does (.lockAcquire p) s (t.setWaiters l
                (t.hand.lockWait ++ [⟨l, lockSrc p, p.xid, p.src, p.sInst, none, some p⟩])))))
    ∧ (∀ v : BitVec 64, (s.structured = false → Does (.forcedHandover v) s (s.notice 61 Reg.lockForce))
        ∧ (∀ (t : State) (l : Nat), s.structured = true → t = s.put Reg.lockForce Fld.lockForceFline (Fld.lockForceFline.get v) →
            l = t.get Reg.lockForce Fld.lockForceFline →
            (Fld.lockForceGo.get v = 0 → Does (.forcedHandover v) s t)
            ∧ (Fld.lockForceGo.get v ≠ 0 →
                (t.lockArmed l = false → Does (.forcedHandover v) s (t.put Reg.lockForce Fld.lockForceFerr 1))
                ∧ (t.lockArmed l = true → t.lockHeld l = false → Does (.forcedHandover v) s (t.put Reg.lockForce Fld.lockForceFerr 2))
                ∧ (t.lockArmed l = true → t.lockHeld l = true → t.lockOwnerId l ≠ t.get Reg.lockForceOwn Fld.lockForceOwnExpect →
                    Does (.forcedHandover v) s (t.put Reg.lockForce Fld.lockForceFerr 3))
                ∧ (∀ u : State, t.lockArmed l = true → t.lockHeld l = true → t.lockOwnerId l = t.get Reg.lockForceOwn Fld.lockForceOwnExpect →
                    u = (t.lockPass l).put Reg.lockForce Fld.lockForceFerr 0 → Does (.forcedHandover v) s
                      (((u.lockLog l (t.lockOwner l) (u.lockOwner l)).bump Reg.lockCnt Fld.lockCntForced 1).post
                        (525 + 2 * sliceOf (64 * l)) 59 0 Reg.lockForce)))))

/-- A message of class 0 goes to the information queue; one of another class is recorded, holds its cause where that persists, is classified
as its source counts or compares severities, and acts on its memory controller. A counting window that ends zeroes `count` while `sev` is 0.
FORCE posts kind 63; SEV_CLR zeroes `sev` and `count` and posts a persisting cause again unless its unit is fenced; RECORD_RELEASE frees the
record; an information head write consumes records, or is ignored. The forced safe state and idle lanes need their confirmation; a thermal
trip enters the safe state with cause 3 and posts its message. -/
def Obligations.FaultNetwork : Prop :=
  ∀ (s : State) (m : CodedMsg) (k : Fin 640) (h : BitVec 8) (c : BitVec 16), s.powered = true →
    (∀ t : State, t = { s with flt := { s.flt with net := s.flt.net.erase m } } →
        (m.cls = 0 → Does (.codedMessage m) s (t.infoAdd m))
        ∧ (∀ u : State, m.cls ≠ 0 → u = (t.record m).holdActive m →
            (u.flag (Reg.srcCfg m.src) Fld.srcCfgCounting = true → Does (.codedMessage m) s ((u.classifyCount m).hbmError m))
            ∧ (u.flag (Reg.srcCfg m.src) Fld.srcCfgCounting = false → Does (.codedMessage m) s ((u.classifySev m).hbmError m))))
    ∧ (k.val ∉ s.flt.windowOpen → Does (.countWindowEnd k) s s)
    ∧ (∀ t : State, k.val ∈ s.flt.windowOpen → t = { s with flt := { s.flt with windowOpen := s.flt.windowOpen.filter (fun x => x != k.val) } } →
        Does (.countWindowEnd k) s (if s.get (Reg.srcStat k) Fld.srcStatSev = 0 then t.put (Reg.srcStat k) Fld.srcStatCount 0 else t))
    ∧ Does (.force k) s (s.post k 63 (s.get (Reg.srcCfg k) Fld.srcCfgForceClass) 0)
    ∧ (∀ t u : State, t = (s.put (Reg.srcStat k) Fld.srcStatSev 0).put (Reg.srcStat k) Fld.srcStatCount 0 →
        u = { t with flt := { t.flt with windowOpen := t.flt.windowOpen.filter (fun x => x != k.val) } } →
        (u.srcFenced k = true → Does (.sevClr k) s u)
        ∧ (u.srcFenced k = false → u.flt.ownActive.find? (fun m => m.src.val == k.val) = none → Does (.sevClr k) s u)
        ∧ (∀ a, u.srcFenced k = false → u.flt.ownActive.find? (fun m => m.src.val == k.val) = some a →
            Does (.sevClr k) s { u with flt := { u.flt with net := u.flt.net ++ [a] } }))
    ∧ Does (.recordRelease k) s (s.put (Reg.rec0 k) Fld.rec0Valid 0)
    ∧ (∀ n, n = (h.toNat + 256 - s.get Reg.infoHead Fld.infoHeadHead) % 256 →
        (s.get Reg.faultStat Fld.faultStatInfoCount < n → Does (.infoHeadWrite h) s s)
        ∧ (n ≤ s.get Reg.faultStat Fld.faultStatInfoCount → Does (.infoHeadWrite h) s ((s.put Reg.infoHead Fld.infoHeadHead h.toNat).put
            Reg.faultStat Fld.faultStatInfoCount (s.get Reg.faultStat Fld.faultStatInfoCount - n))))
    ∧ (c ≠ 0xA5C3 → Does (.forceSafe c) s s ∧ (∀ b, Does (.forceLanes c b) s s))
    ∧ Yields (.forceSafe 0xA5C3) s (fun t => t.safe = true)
    ∧ (∀ b, Does (.forceLanes 0xA5C3 b) s (s.forceLanes b))
    ∧ (∀ n : Fin 64, Does (.thermalTrip n) s ((s.enterSafe 3 632).post 632 0 3 n)
        ∧ Yields (.thermalTrip n) s (fun t => t.safe = true))

/-- A heartbeat of the active core is noted, may commit an epoch of the journal (which one is the model's free value, log 119), and marks
a standby that is neither fenced nor loading as in step; a takeover ends with the
other core active, counted and reported. A supervisor command is refused with error 1 during a takeover, with 2 without an active core, and
is ignored while one is in progress; a load needs a standby in step (3) and a valid image (5), and a swap a standby in step. The end of a
load shows error 4 where the journal formats differ. -/
def Obligations.Supervisor : Prop :=
  ∀ (s : State), s.powered = true →
    (∀ k : Fin 2, ((s.sageActive ≠ k ∨ s.sageUp = false) → Does (.heartbeat k) s s)
        ∧ (∀ t : State, s.sageActive = k → s.sageUp = true → t = ({ s with flt := { s.flt with sage := { s.flt.sage with beatAt := s.now } } } : State).journalWritten →
            Does (.heartbeat k) s (if t.isFenced (.sage (1 - k.val)) || t.flt.sage.loading then t else t.put Reg.sageStat Fld.sageStatStandbyOk 1)))
    ∧ Does .heartbeatMiss s s.takeover
    ∧ (s.flag Reg.sageStat Fld.sageStatTakeover = false → Does .takeoverEnd s s)
    ∧ (s.flag Reg.sageStat Fld.sageStatTakeover = true → Does .takeoverEnd s (((((s.put Reg.sageStat Fld.sageStatActive (1 - s.sageActive)).put
        Reg.sageStat Fld.sageStatTakeover 0).put Reg.sageStat Fld.sageStatStandbyOk 0).bump Reg.sageStat Fld.sageStatTakeovers 1).raiseEvent 18))
    ∧ (s.flag Reg.sageStat Fld.sageStatTakeover = true → ∀ t : State, t = s.put Reg.sageCmd Fld.sageCmdSerr 1 →
        Does .fwLoad s t ∧ Does .swap s t ∧ Does .restart s t)
    ∧ (s.flag Reg.sageStat Fld.sageStatTakeover = false → s.sageUp = false → ∀ t : State, t = s.put Reg.sageCmd Fld.sageCmdSerr 2 →
        Does .fwLoad s t ∧ Does .swap s t ∧ Does .restart s t)
    ∧ (s.flag Reg.sageStat Fld.sageStatTakeover = false → s.sageUp = true → s.flag Reg.sageCmd Fld.sageCmdBusy = true →
        Does .fwLoad s s ∧ Does .swap s s ∧ Does .restart s s)
    ∧ (s.flag Reg.sageStat Fld.sageStatTakeover = false → s.sageUp = true → s.flag Reg.sageCmd Fld.sageCmdBusy = false →
        (s.flag Reg.sageStat Fld.sageStatStandbyOk = false → Does .fwLoad s (s.put Reg.sageCmd Fld.sageCmdSerr 3)
          ∧ Does .swap s (s.put Reg.sageCmd Fld.sageCmdSerr 3))
        ∧ (s.flag Reg.sageStat Fld.sageStatStandbyOk = true →
            (s.firmwareOk = false → Does .fwLoad s (s.put Reg.sageCmd Fld.sageCmdSerr 5))
            ∧ (s.firmwareOk = true → Does .fwLoad s (((({ s with flt := { s.flt with sage := { s.flt.sage with loading := true } } } : State).put
                Reg.sageCmd Fld.sageCmdSerr 0).put Reg.sageCmd Fld.sageCmdBusy 1).put Reg.sageStat Fld.sageStatStandbyOk 0))
            ∧ Yields .swap s (fun t => t.get Reg.sageStat Fld.sageStatActive = (1 - s.sageActive) % 2
                ∧ t.get Reg.sageCmd Fld.sageCmdSerr = 0 ∧ (∀ a, a ≠ Reg.sageStat → a ≠ Reg.sageCmd → t.word a = s.word a)))
        ∧ (∀ t : State, t = s.put Reg.sageCmd Fld.sageCmdSerr 0 →
            (t.isFenced (.sage (1 - s.sageActive)) = false → Does .restart s t)
            ∧ (t.isFenced (.sage (1 - s.sageActive)) = true → Does .restart s (({ t with
                fenced := t.fenced.filter (fun u => u != FUnit.sage (1 - s.sageActive)) } : State).put Reg.sageStat Fld.sageStatStandbyOk 1))))
    ∧ (s.flt.sage.loading = false → ∀ b, Does (.fwLoadEnd b) s s)
    ∧ (∀ t : State, s.flt.sage.loading = true → t = ({ s with flt := { s.flt with sage := { s.flt.sage with loading := false } } } : State).put
        Reg.sageCmd Fld.sageCmdBusy 0 → Does (.fwLoadEnd true) s (t.put Reg.sageStat Fld.sageStatStandbyOk 1)
        ∧ Does (.fwLoadEnd false) s ((t.put Reg.sageCmd Fld.sageCmdSerr 4).put Reg.sageStat Fld.sageStatStandbyOk 1))

/-- A drain names its slot and releases one drained before; when its wait ends its ports go to OFF; it is drained once all is empty; clearing
it brings the ports up. A spare is refused with error 3, 4 or 2, or its replacement starts. A page is named and its retirement begins; at its
end the lines that could not be read are poisoned and the next one follows. A replacement leaves the units of every other logical number, the
other fences, the tiles, the ports, the links and the instances as they were, and a retirement those of the other stacks (R511). -/
def Obligations.Repairs : Prop :=
  ∀ (s : State), s.powered = true →
    (∀ (k : Fin 18) (t u : State), t = ((s.put Reg.repair Fld.repairSlot k).put Reg.repair Fld.repairDrain 1).put Reg.repair Fld.repairDrained 0 →
        u = ({ t with flt := { t.flt with drainWait := !t.isFenced (.tile (t.tileOf k)) } } : State).put Reg.repair Fld.repairDrained
          (b2n (t.isFenced (.tile (t.tileOf k)))) →
        ((s.flag Reg.repair Fld.repairDrain = false ∨ s.get Reg.repair Fld.repairSlot = k) → Does (.drain k) s u)
        ∧ (s.flag Reg.repair Fld.repairDrain = true → s.get Reg.repair Fld.repairSlot ≠ k →
            Does (.drain k) s (u.bringUpSlot (s.get Reg.repair Fld.repairSlot))))
    ∧ (s.flag Reg.repair Fld.repairDrain = false → Does .drainWaitEnd s s ∧ Does .drained s s ∧ Does .drainClear s s)
    ∧ (s.flag Reg.repair Fld.repairDrain = true →
        (s.flt.drainWait = true → Does .drained s s ∧ Does .drainWaitEnd s ((slotPorts (s.get Reg.repair Fld.repairSlot)).foldl (fun s p => s.tryOff p)
          { s with flt := { s.flt with drainWait := false } }))
        ∧ (s.flt.drainWait = false → Does .drainWaitEnd s s
            ∧ (s.slotEmpty (s.get Reg.repair Fld.repairSlot) = true → Does .drained s (s.put Reg.repair Fld.repairDrained 1))
            ∧ (s.slotEmpty (s.get Reg.repair Fld.repairSlot) = false → Does .drained s s))
        ∧ (∀ t : State, t = (s.put Reg.repair Fld.repairDrain 0).put Reg.repair Fld.repairDrained 0 → Does .drainClear s
            (({ t with flt := { t.flt with drainWait := false } } : State).bringUpSlot (t.get Reg.repair Fld.repairSlot))))
    ∧ (∀ v : BitVec 64, (s.flag Reg.spare Fld.spareBusy = true → Does (.spareGo v) s (s.put Reg.spare Fld.spareSerr 3))
        ∧ (∀ t : State, s.flag Reg.spare Fld.spareBusy = false →
            t = (s.put Reg.spare Fld.spareKind (Fld.spareKind.get v)).put Reg.spare Fld.spareUnit (Fld.spareUnit.get v) →
            (t.sageUp = false → Does (.spareGo v) s (t.put Reg.spare Fld.spareSerr 4))
            ∧ (t.sageUp = true → (t.structured = false ∨ kindCount (Fld.spareKind.get v) ≤ Fld.spareUnit.get v) →
                Does (.spareGo v) s (t.put Reg.spare Fld.spareSerr 2))
            ∧ (t.sageUp = true → t.structured = true → Fld.spareUnit.get v < kindCount (Fld.spareKind.get v) →
                Does (.spareGo v) s (t.startSpare (Fld.spareKind.get v) (Fld.spareUnit.get v)))))
    ∧ Does .spareEnd s s.finishSpare
    ∧ (∀ kind u old : Nat, s.flt.spareOp = some (kind, u, old) → 1 ≤ kind → kind ≤ 4 → u < kindCount kind →
        (∀ k v : Nat, 1 ≤ k → k ≤ 4 → v < kindCount k → k ≠ kind ∨ v ≠ u → s.finishSpare.physUnit k v = s.physUnit k v)
        ∧ (∀ f : FUnit, f ≠ unitOf kind old → (f ∈ s.finishSpare.fenced ↔ f ∈ s.fenced))
        ∧ s.finishSpare.tileMap = s.tileMap ∧ s.finishSpare.ports = s.ports ∧ s.finishSpare.links = s.links
        ∧ s.finishSpare.insts = s.insts)
    ∧ (∀ (n m : Fin 4) (p : Nat), m ≠ n → Table.getD (s.retirePage n p).flt.retired [] m = Table.getD s.flt.retired [] m
        ∧ Table.getD (s.retirePage n p).flt.retiring [] m = Table.getD s.flt.retiring [] m
        ∧ (s.retirePage n p).engMap = s.engMap ∧ (s.retirePage n p).insts = s.insts)
    ∧ (∀ (n : Fin 4) (p : BitVec 25), (s.structured = false → Does (.retire n p) s (s.notice 61 (Reg.hbmRetire n)))
        ∧ (s.structured = true → Does (.retire n p) s ((s.put (Reg.hbmRetire n) Fld.hbmRetirePage p.toNat).retirePage n p.toNat)))
    ∧ (∀ (n : Fin 4) (l : List Nat), (Table.getD s.flt.retiring [] n = [] → Does (.retireEnd n l) s s)
        ∧ (∀ (p : Nat) (rest done : List Nat) (t : State), Table.getD s.flt.retiring [] n = p :: rest →
            t = l.foldl (fun s b => s.poison (64 * p + b % 64)) s → done = Table.getD t.flt.retired [] n ++ [p] →
            Does (.retireEnd n l) s ((({ t with flt := { t.flt with retired := Table.put t.flt.retired n done
                                                                    retiring := Table.put t.flt.retiring n rest } } : State).put (Reg.hbmRetire n)
              Fld.hbmRetireBusy (b2n (!rest.isEmpty))).put (Reg.hbmRetire n) Fld.hbmRetireUsed done.length)))

/-- R527: a write to CNT_SEL zeroes CNT_VAL and clears `wrap`, selects what the counter counts from then on, and leaves the snapshot bank; an
enable that fails its check is refused; a freeze while a fabric arm is held
shows its error, and any other copies the counts; a clear zeroes them. Sampling is enabled where its buffer may lie, or refused with `serr`;
records are released, or a bad index is ignored. A bandwidth window ends with its counts gone. -/
def Obligations.Telemetry : Prop :=
  ∀ (s : State) (k : Fin 1024) (v : BitVec 64) (r : BitVec 21), s.powered = true →
    Yields (.cntSelWrite k v) s (fun t => t.word (Reg.cntVal k) = 0 ∧ t.get (Reg.cntSel k) Fld.cntSelWrap = 0
      ∧ t.get (Reg.cntSel k) Fld.cntSelEvent = Fld.cntSelEvent.get v
      ∧ (∀ j : Fin 1024, t.word (Reg.snap j) = s.word (Reg.snap j))
      ∧ (∀ a, a ≠ Reg.cntSel k → a ≠ Reg.cntVal k → t.word a = s.word a) ∧ t.mon = s.mon)
    ∧ (Fld.cntSelEnable.get v = 1 → s.cntCheck k v ≠ 0 → Fld.cntSelPriv.get v ≠ 3 → s.cntCheck k v < 8 →
        Yields (.cntSelWrite k v) s (fun t => t.flag (Reg.cntSel k) Fld.cntSelEnable = false
          ∧ t.get (Reg.cntSel k) Fld.cntSelErr = s.cntCheck k v))
    ∧ (s.flag Reg.perfCtrl Fld.perfCtrlArmHeld = true → Does .freeze s (s.put Reg.perfCtrl Fld.perfCtrlFrzErr 1))
    ∧ (s.flag Reg.perfCtrl Fld.perfCtrlArmHeld = false → Does .freeze s (s.freeze 0))
    ∧ Yields .clear s (fun t => ∀ j : Fin 1024, t.word (Reg.cntVal j) = 0 ∧ t.flag (Reg.cntSel j) Fld.cntSelWrap = false
        ∧ t.word (Reg.snap j) = s.word (Reg.snap j))
    ∧ (Fld.sampCtrlEnable.get v = 0 → Yields (.sampEnable v) s (fun t => t.flag Reg.sampCtrl Fld.sampCtrlEnable = false
        ∧ t.get Reg.sampCtrl Fld.sampCtrlInst = Fld.sampCtrlInst.get v ∧ t.get Reg.sampCtrl Fld.sampCtrlRing = Fld.sampCtrlRing.get v
        ∧ (∀ a, a ≠ Reg.sampCtrl → t.word a = s.word a)))
    ∧ (Fld.sampCtrlEnable.get v = 1 → hbmSize < s.get Reg.sampBuf Fld.sampBufBase * 4096 + 64 * 2 ^ s.get Reg.sampBuf Fld.sampBufLogN →
        Yields (.sampEnable v) s (fun t => t.get Reg.sampStat Fld.sampStatSerr = 1
          ∧ t.flag Reg.sampCtrl Fld.sampCtrlEnable = s.flag Reg.sampCtrl Fld.sampCtrlEnable))
    ∧ (∀ n, n = (s.get Reg.sampStat Fld.sampStatWr + 2 ^ 21 - r.toNat) % 2 ^ 21 →
        ((s.sampUnread < n ∨ 2 ^ s.get Reg.sampBuf Fld.sampBufLogN < n) → Does (.sampRdWrite r) s s)
        ∧ (n ≤ s.sampUnread → n ≤ 2 ^ s.get Reg.sampBuf Fld.sampBufLogN → Does (.sampRdWrite r) s
            (s.put Reg.sampStat Fld.sampStatRd r.toNat)))
    ∧ Yields .bwWindowEnd s (fun t => t.mon.bwTx = [] ∧ t.mon.bwRx = [] ∧ t.rma = s.rma)

/-- A rail or sensor sample is stored with its extremes; a droop beyond its threshold is counted with the deepest, and one beyond twice the
threshold is posted; a clear of the extremes takes the present reading; a lane reference out of its limits, or an island whose PLL unlocks,
posts a fatal clock fault, a host reference for each Basil island that it feeds; an acknowledgement settles the rail, a first or second timeout asks again, and a third fails AVS; the loss of
standby power leaves the device without power. -/
def Obligations.SensorsAndPower : Prop :=
  ∀ (s : State), s.powered = true →
    (∀ (r : Fin 24) (v : BitVec 16) (b : Bool), Yields (.railSample r v b) s (fun t => t.get (Reg.rail r) Fld.railNow = v.toNat % 2 ^ Fld.railNow.width
        ∧ t.hand = s.hand ∧ t.rma = s.rma))
    ∧ (∀ (k : Fin 64) (v : BitVec 16), Yields (.tempSample k v) s (fun t => t.get (Reg.temp k) Fld.tempNow = v.toNat % 2 ^ Fld.tempNow.width
        ∧ t.hand = s.hand ∧ t.rma = s.rma))
    ∧ (∀ (i : Fin 74) (d : Nat), (d ≤ s.get (Reg.droop i) Fld.droopThreshMv → Does (.droop i d) s s)
        ∧ (∀ t : State, s.get (Reg.droop i) Fld.droopThreshMv < d → t = (s.bump (Reg.droop i) Fld.droopEvents 1).raise (Reg.droop i) Fld.droopWorst d →
            Does (.droop i d) s (if 2 * s.get (Reg.droop i) Fld.droopThreshMv < d then t.post 630 0 1 i else t)))
    ∧ (∀ i : Fin 64, Does (.mmClr true i) s (s.put (Reg.temp i) Fld.tempMax (s.get (Reg.temp i) Fld.tempNow)))
    ∧ (∀ i : Fin 24, Does (.mmClr false i) s ((s.put (Reg.rail i) Fld.railMin (s.get (Reg.rail i) Fld.railNow)).put (Reg.rail i)
        Fld.railMax (s.get (Reg.rail i) Fld.railNow)))
    ∧ (∀ (c : RefInput) (n : Nat), (∀ h, c ≠ .href h) → (n ≤ 500 → Does (.refCheck c true n) s (s.dropActive 633))
        ∧ (500 < n → Does (.refCheck c true n) s (s.postFree 633 5 3)) ∧ Does (.refCheck c false n) s (s.postFree 633 5 3))
    ∧ (∀ (h : Fin 4) (n : Nat),
        (s.flag Reg.strap Fld.strapHrefMode = false → Does (.refCheck (.href h) true n) s (s.dropActive (hostSrc h 11))
          ∧ Does (.refCheck (.href h) false n) s (s.postFree (hostSrc h 11) 5 3))
        ∧ (s.flag Reg.strap Fld.strapHrefMode = true →
          (h ≠ 0 → ∀ b : Bool, Does (.refCheck (.href h) b n) s s)
          ∧ Does (.refCheck (.href 0) true n) s ((List.range 4).foldl (fun s k => s.dropActive (hostSrc k 11)) s)
          ∧ Does (.refCheck (.href 0) false n) s ((List.range 4).foldl (fun s k => s.postFree (hostSrc k 11) 5 3) s)))
    ∧ (∀ i : Fin 74, Does (.pllUnlock i) s (s.postFree (s.clockSrc i).1 (s.clockSrc i).2 3))
    ∧ (s.side.avsBusy = false → Does .avsbusAcknowledge s s ∧ Does .avsTimeout s s)
    ∧ (s.side.avsBusy = true → Does .avsbusAcknowledge s (({ s.put Reg.avs Fld.avsCoreSet s.side.avsSet with
          side := { s.side with avsBusy := false, avsTries := 0 } } : State).releaseRaises.askRail)
        ∧ (∀ t : State, s.side.avsTries < 2 → t = s.bump Reg.avs Fld.avsAvsErr 1 → Does .avsTimeout s
            (({ t with side := { t.side with avsTries := s.side.avsTries + 1 } } : State).emit (.avs s.side.avsSet)))
        ∧ (2 ≤ s.side.avsTries → Yields .avsTimeout s (fun t => t.flag Reg.avs Fld.avsAvsFail = true ∧ t.side.avsBusy = false)))
    ∧ Yields .vsbLoss s (fun t => t.powered = false ∧ t.pins = ⟨false, false⟩)

/-- Every sideband command is answered with its completion code: reads with their data, an invalid index or address with 1, a wrong
confirmation with 2, what Sage serves without an active core with 3, flash commands while an image command runs with 4, and a register
whose island refuses the access with 5. SAFE enters the
safe state, and completes while it is held; LANES forces the lanes; flash commands write the board's flash alone. The endpoint ID is
assigned and read, and the versions and types are answered. -/
def Obligations.SidebandCommands : Prop :=
  ∀ (s : State) (c : BitVec 16) (off : BitVec 32) (v : BitVec 64) (k e : BitVec 8), s.powered = true →
    Does .readIdent s (s.respond 1 0 ((List.range 4).flatMap (fun k => leBytes (s.regView (8 * k)).toNat 8)))
    ∧ Yields (.readFlog k) s (fun t => ∃ l : List Byte, t.out = s.out ++ [.sideband 130 0 l] ∧ t.regs = s.regs)
    ∧ (∀ b : Bool, ((if b then 64 else 24) ≤ k.toNat → Does (.readSensor b k) s (s.respond 3 1 []))
        ∧ (k.toNat < (if b then 64 else 24) → Does (.readSensor b k) s
            (s.respond 3 0 (leBytes (s.regView (if b then Reg.temp k.toNat else Reg.rail k.toNat)).toNat 8))))
    ∧ (c ≠ 0xA5C3 → Does (.safe c) s (s.respond 4 2 []) ∧ (k.toNat ≤ 1 → Does (.lanes k c) s (s.respond 5 2 [])))
    ∧ (s.safe = true → Does (.safe 0xA5C3) s (s.respond 4 0 []))
    ∧ (s.safe = false → Yields (.safe 0xA5C3) s (fun t => t.safe = true))
    ∧ (1 < k.toNat → Does (.lanes k c) s (s.respond 5 1 []))
    ∧ Does (.lanes 0 0xA5C3) s ((s.forceLanes false).respond 5 0 []) ∧ Does (.lanes 1 0xA5C3) s ((s.forceLanes true).respond 5 0 [])
    ∧ (2 ^ 28 ≤ off.toNat → Does (.readReg off) s (s.respond 7 1 [])
        ∧ exec (.writeReg off v) s = .next (s.keep (s.respond 8 1 [])).drivePins)
    ∧ (off.toNat < 2 ^ 28 → byBay off.toNat = true → Does (.readReg off) s (s.readFor 7 off.toNat))
    ∧ (off.toNat < 2 ^ 28 → byBay off.toNat = false → (s.sageUp = true →
          Does (.readReg off) s (if s.regShut off.toNat then s.respond 7 5 [] else s.readFor 7 off.toNat))
        ∧ (s.sageUp = false → Does (.readReg off) s (s.respond 7 3 [])))
    ∧ (off.toNat < 2 ^ 28 →
        (s.sageUp = true → exec (.writeReg off v) s = .next (s.keep (if s.regShut off.toNat then s.respond 8 5 []
          else (s.respond 8 0 []).writeAt off.toNat 8 v)).drivePins)
        ∧ (s.sageUp = false → exec (.writeReg off v) s = .next (s.keep (s.respond 8 3 [])).drivePins))
    ∧ (∀ (a : Nat) (l : List Byte), (l.length = 0 ∨ 48 < l.length) → Yields (.flashWrite a l) s (fun t => t.img = s.img
        ∧ t.out = s.out ++ [.sideband 137 1 []]))
    ∧ (∀ (a : Nat) (l : List Byte), 0 < l.length → l.length ≤ 48 → s.sageUp = true → s.imgBusy = false →
        Yields (.flashWrite a l) s (fun t => t.img.flash = writeBytes s.img.flash 0xFF a l ∧ t.regs = s.regs ∧ t.rma = s.rma
          ∧ t.out = s.out ++ [.flashOp a l.length, .sideband 137 0 []]))
    ∧ (∀ a : Nat, s.sageUp = true → s.imgBusy = true → Yields (.flashErase a) s (fun t => t.img = s.img ∧ t.out = s.out ++ [.sideband 138 4 []]))
    ∧ (∀ a : Nat, s.sageUp = true → s.imgBusy = false → Yields (.flashErase a) s (fun t => t.regs = s.regs
          ∧ (∀ b, 65536 * a ≤ b → b < 65536 * a + 65536 → readBytes t.img.flash 0xFF b 1 = [0xFF])
          ∧ (∀ b, (b < 65536 * a ∨ 65536 * a + 65536 ≤ b) → readBytes t.img.flash 0xFF b 1 = readBytes s.img.flash 0xFF b 1)))
    ∧ ((e = 0 ∨ e = 255) → Does (.setEndpointId e) s (s.emit (.mctp 1 [2])))
    ∧ (e ≠ 0 → e ≠ 255 → Yields (.setEndpointId e) s (fun t => t.get Reg.smb Fld.smbEid = e.toNat ∧ t.side.eidSet = true
        ∧ t.out = s.out ++ [.mctp 1 [0, 0, e, 0]]))
    ∧ Does .getEndpointId s (s.emit (.mctp 2 [0, BitVec.ofNat 8 (s.get Reg.smb Fld.smbEid), 0, 0]))
    ∧ Yields .getMctpVersionSupport s (fun t => ∃ l : List Byte, l.length = 4 ∧ t.out = s.out ++ [.mctp 4 ([0, 1] ++ l)] ∧ t.regs = s.regs)
    ∧ Does .getMessageTypeSupport s (s.emit (.mctp 5 [0, 2, 0x00, 0x7E]))
    ∧ Does .getVendorDefinedMessageSupport s (s.emit (.mctp 6 [0, 0xFF, 0x00, 0x0A, 0x71, 0, 0]))

/-- A lost arbitration is counted: the first seven in a row make the entry wait and read again, and the eighth abandons it, counts a
failure, marks the entry and posts the event. An entry reads again only while it waits. A poll reads the enabled entries alone, and a
successful read ends an entry's losses. A clock held low too long is released. Of the test port,
BYPASS, IDCODE and SAMPLE/PRELOAD select their instruction and leave the pins in operation; the other instructions take or float the
pins while TEST_EN was sampled as 1, and act as BYPASS otherwise; a reset of the port ends any drive. None changes anything else. -/
def Obligations.SmbusAndTestPort : Prop :=
  ∀ (s : State) (k : Fin 8) (v : BitVec 16) (l : List (BitVec 16)) (bs : List Bool), s.powered = true →
    (Table.getD s.side.losses 0 k < 7 → Yields (.arbLost k) s (fun t =>
        Table.getD t.side.losses 0 k = Table.getD s.side.losses 0 k + 1 ∧ t.side.retryWait.contains k.val = true
        ∧ t.regs = (s.bump Reg.smb Fld.smbArbLost 1).regs ∧ t.out = s.out ∧ t.flt.net = s.flt.net))
    ∧ (7 ≤ Table.getD s.side.losses 0 k → Yields (.arbLost k) s (fun t =>
        t.side.retryWait.contains k.val = false ∧ t.flag (Reg.pollCfg k) Fld.pollCfgFail = true
        ∧ t.regs = (((s.bump Reg.smb Fld.smbArbLost 1).bump Reg.smb Fld.smbCtrlFail 1).put (Reg.pollCfg k) Fld.pollCfgFail 1).regs
        ∧ ∃ w : BitVec 52, t.flt.net = s.flt.net ++ [⟨635, 4, 2, w⟩]))
    ∧ (s.side.retryWait.contains k.val = false → Does (.arbRetry k) s s)
    ∧ (s.side.retryWait.contains k.val = true → Yields (.arbRetry k) s (fun t => t.side.retryWait.contains k.val = false
        ∧ t.side.losses = s.side.losses ∧ t.regs = s.regs ∧ t.out = s.out ++ [.smbRead k (s.get (Reg.pollCfg k) Fld.pollCfgAddr)
          (s.get (Reg.pollCfg k) Fld.pollCfgCmd) (s.flag (Reg.pollCfg k) Fld.pollCfgWord)]))
    ∧ (s.flag Reg.smb Fld.smbCtrlEn = false → Does (.smbPoll l) s s)
    ∧ (s.flag Reg.smb Fld.smbCtrlEn = true → s.flag (Reg.pollCfg 0) Fld.pollCfgEnable = false → Does (.smbPoll [v]) s s)
    ∧ (s.flag Reg.smb Fld.smbCtrlEn = true → s.flag (Reg.pollCfg 0) Fld.pollCfgEnable = true → Yields (.smbPoll [v]) s (fun t =>
        t.get (Reg.pollData 0) Fld.pollDataValue = (if s.flag (Reg.pollCfg 0) Fld.pollCfgWord then v.toNat else v.toNat % 256)
        ∧ t.get (Reg.pollData 0) Fld.pollDataTime = s.now / 1000 % 2 ^ 32
        ∧ t.side.retryWait.contains 0 = false ∧ (∀ a, a ≠ Reg.pollData 0 → t.word a = s.word a)))
    ∧ Does .smbusClockLowTimeout s (s.emit .smbRelease)
    ∧ Does .bypass s (s.jtag 0xFF 0)
    ∧ Does .idcode s ((s.jtag 0x01 0).emit (.jtagId 0x101449C3))
    ∧ Does (.samplePreload bs) s ({ s with side := { s.side with boundary := bs } }.jtag 0x02 0)
    ∧ (∀ c : Instr × Nat × Nat, c ∈ [(.extest, 0x00, 1), (.highz, 0x0A, 2), (.clamp, 0x0B, 3), (.extestPulse, 0x08, 4),
        (.extestTrain, 0x09, 5)] →
          Does c.1 s (if s.flag Reg.strap Fld.strapTestEn then s.jtag c.2.1 c.2.2 else s.jtag 0xFF 0))
    ∧ Does .trstAssert s (s.jtag 0x01 0)
    ∧ (∀ i d : Nat, (s.jtag i d).side = { s.side with jtagIr := i, jtagDrive := d } ∧ (s.jtag i d).regs = s.regs
        ∧ (s.jtag i d).out = s.out ∧ (s.jtag i d).flt = s.flt)
end

