-- ==== Sys2Proof/Laws/Table.lean ====
section
/-! SUPPORT. Laws of sparse tables, of the byte memories made of them, and of bit fields: read after write, and that every memory
operation keeps the canonical form. -/

namespace Sys2Proof.Machine

/-! ## Tables -/

@[simp] theorem Table.find_nil {α : Type} (k : Nat) : Table.find ([] : Table α) k = none := rfl

theorem Table.find_put {α : Type} (t : Table α) (k j : Nat) (v : α) :
    Table.find (Table.put t k v) j = if j = k then some v else Table.find t j := by
  induction t with
  | nil => simp [Table.put, Table.find]
  | cons x t ih =>
    obtain ⟨i, w⟩ := x
    unfold Table.put
    split
    · simp [Table.find]
    · split
      · subst_vars
        by_cases h : j = i <;> simp [Table.find, h]
      · simp only [Table.find, ih]
        grind

@[simp] theorem Table.find_put_same {α : Type} (t : Table α) (k : Nat) (v : α) :
    Table.find (Table.put t k v) k = some v := by simp [Table.find_put]

theorem Table.find_put_other {α : Type} (t : Table α) (k j : Nat) (v : α) (h : j ≠ k) :
    Table.find (Table.put t k v) j = Table.find t j := by simp [Table.find_put, h]

/-- A key of a list whose keys are above `lo` is above `lo`. -/
theorem Table.find_above {α : Type} (t : Table α) (lo k : Nat) (h : Table.above lo t) (hk : k ≤ lo) :
    Table.find t k = none := by
  induction t generalizing lo with
  | nil => rfl
  | cons x t ih =>
    obtain ⟨i, w⟩ := x
    simp only [Table.above, Bool.and_eq_true, decide_eq_true_eq] at h
    unfold Table.find
    rw [if_neg (by omega)]
    exact ih i h.2 (by omega)

theorem Table.above_mono {α : Type} (t : Table α) (lo k : Nat) (h : Table.above lo t) (hk : k ≤ lo) : Table.above k t := by
  cases t with
  | nil => rfl
  | cons x t =>
    simp only [Table.above, Bool.and_eq_true, decide_eq_true_eq] at h ⊢
    exact ⟨by omega, h.2⟩

theorem Table.above_put {α : Type} (t : Table α) (lo k : Nat) (v : α) (h : Table.above lo t) (hk : lo < k) :
    Table.above lo (Table.put t k v) := by
  induction t generalizing lo with
  | nil => simp [Table.put, Table.above, hk]
  | cons x t ih =>
    obtain ⟨i, w⟩ := x
    simp only [Table.above, Bool.and_eq_true, decide_eq_true_eq] at h
    unfold Table.put
    split
    · simp [Table.above, h.2, *]
    · split
      · subst_vars; simp [Table.above, h.1, h.2]
      · simp only [Table.above, Bool.and_eq_true, decide_eq_true_eq]
        exact ⟨h.1, ih i h.2 (by omega)⟩

theorem Table.sorted_put {α : Type} (t : Table α) (k : Nat) (v : α) (h : Table.sorted t) : Table.sorted (Table.put t k v) := by
  cases t with
  | nil => rfl
  | cons x t =>
    obtain ⟨i, w⟩ := x
    simp only [Table.sorted] at h
    unfold Table.put
    split
    · simp [Table.sorted, Table.above, *]
    · split
      · subst_vars; exact h
      · exact Table.above_put t i k v h (by omega)

theorem Table.above_del {α : Type} (t : Table α) (lo k : Nat) (h : Table.above lo t) : Table.above lo (Table.del t k) := by
  induction t generalizing lo with
  | nil => rfl
  | cons x t ih =>
    obtain ⟨i, w⟩ := x
    simp only [Table.above, Bool.and_eq_true, decide_eq_true_eq] at h
    unfold Table.del
    split
    · exact Table.above_mono t i lo h.2 (by omega)
    · simp only [Table.above, Bool.and_eq_true, decide_eq_true_eq]
      exact ⟨h.1, ih i h.2⟩

theorem Table.sorted_of_above {α : Type} (t : Table α) (lo : Nat) (h : Table.above lo t) : Table.sorted t := by
  cases t with
  | nil => rfl
  | cons x t =>
    simp only [Table.above, Bool.and_eq_true] at h
    exact h.2

theorem Table.sorted_del {α : Type} (t : Table α) (k : Nat) (h : Table.sorted t) : Table.sorted (Table.del t k) := by
  cases t with
  | nil => rfl
  | cons x t =>
    obtain ⟨i, w⟩ := x
    simp only [Table.sorted] at h
    unfold Table.del
    split
    · exact Table.sorted_of_above t i h
    · exact Table.above_del t i k h

theorem Table.find_del {α : Type} (t : Table α) (k j : Nat) (h : Table.sorted t) :
    Table.find (Table.del t k) j = if j = k then none else Table.find t j := by
  induction t with
  | nil => simp [Table.del]
  | cons x t ih =>
    obtain ⟨i, w⟩ := x
    simp only [Table.sorted] at h
    unfold Table.del
    split
    · subst_vars
      by_cases e : j = i
      · simp [e, Table.find_above t i i h (Nat.le_refl i)]
      · simp [Table.find, e]
    · have := ih (Table.sorted_of_above t i h)
      simp only [Table.find, this]
      grind

theorem Table.sorted_set {α : Type} [DecidableEq α] (t : Table α) (d : α) (k : Nat) (v : α) (h : Table.sorted t) :
    Table.sorted (Table.set t d k v) := by
  unfold Table.set
  split
  · exact Table.sorted_del t k h
  · exact Table.sorted_put t k v h

theorem Table.getD_set {α : Type} [DecidableEq α] (t : Table α) (d : α) (k j : Nat) (v : α) (h : Table.sorted t) :
    Table.getD (Table.set t d k v) d j = if j = k then v else Table.getD t d j := by
  unfold Table.getD Table.set
  split
  · rw [Table.find_del t k j h]; split <;> simp_all
  · rw [Table.find_put]; split <;> simp

/-! ## Byte memories -/

theorem Table.all_put {α : Type} (t : Table α) (k : Nat) (v : α) (p : Nat × α → Bool) (h : t.all p) (hv : p (k, v)) :
    (Table.put t k v).all p := by
  induction t with
  | nil => simp [Table.put, hv]
  | cons x t ih =>
    obtain ⟨i, w⟩ := x
    simp only [List.all_cons, Bool.and_eq_true] at h
    unfold Table.put
    split
    · simp [hv, h.1, h.2]
    · split
      · simp [hv, h.2]
      · simp [h.1, ih h.2]

theorem Table.all_del {α : Type} (t : Table α) (k : Nat) (p : Nat × α → Bool) (h : t.all p) : (Table.del t k).all p := by
  induction t with
  | nil => rfl
  | cons x t ih =>
    obtain ⟨i, w⟩ := x
    simp only [List.all_cons, Bool.and_eq_true] at h
    unfold Table.del
    split
    · exact h.2
    · simp [h.1, ih h.2]

theorem Memory.wf_nil (d : Byte) : Memory.wf [] d := rfl

/-- A byte written keeps the canonical form. -/
theorem Memory.wf_set (m : List Host.Cell) (d : Byte) (a : Nat) (b : Byte) (h : Memory.wf m d) :
    Memory.wf (Table.set m d a b) d := by
  simp only [Memory.wf, Bool.and_eq_true] at h ⊢
  refine ⟨Table.sorted_set m d a b h.1, ?_⟩
  unfold Table.set
  split
  · exact Table.all_del m a _ h.2
  · exact Table.all_put m a b _ h.2 (by simpa using ‹_›)

/-- Bytes written keep the canonical form. -/
theorem Memory.wf_writeBytes (l : List Byte) (m : List Host.Cell) (d : Byte) (a : Nat) (h : Memory.wf m d) :
    Memory.wf (writeBytes m d a l) d := by
  induction l generalizing m a with
  | nil => exact h
  | cons b t ih => exact ih (Table.set m d a b) (a + 1) (Memory.wf_set m d a b h)

theorem Table.above_filter {α : Type} (t : Table α) (lo : Nat) (p : Nat × α → Bool) (h : Table.above lo t) :
    Table.above lo (t.filter p) := by
  induction t generalizing lo with
  | nil => rfl
  | cons x t ih =>
    simp only [Table.above, Bool.and_eq_true, decide_eq_true_eq] at h
    simp only [List.filter_cons]
    split
    · simp only [Table.above, Bool.and_eq_true, decide_eq_true_eq]
      exact ⟨h.1, ih x.1 h.2⟩
    · exact ih lo (Table.above_mono t x.1 lo h.2 (by omega))

theorem Table.sorted_filter {α : Type} (t : Table α) (p : Nat × α → Bool) (h : Table.sorted t) : Table.sorted (t.filter p) := by
  cases t with
  | nil => rfl
  | cons x t =>
    simp only [Table.sorted] at h
    simp only [List.filter_cons]
    split
    · exact Table.above_filter t x.1 p h
    · exact Table.sorted_of_above _ x.1 (Table.above_filter t x.1 p h)

/-- Cells dropped (an erased sector, a zeroed ring) keep the canonical form. -/
theorem Memory.wf_filter (m : List Host.Cell) (d : Byte) (p : Host.Cell → Bool) (h : Memory.wf m d) : Memory.wf (m.filter p) d := by
  simp only [Memory.wf, Bool.and_eq_true] at h ⊢
  refine ⟨Table.sorted_filter m p h.1, ?_⟩
  simp only [List.all_eq_true, List.mem_filter] at h ⊢
  exact fun x hx => h.2 x hx.1

/-- What a byte reads after bytes were written. -/
theorem Memory.getD_writeBytes (l : List Byte) (m : List Host.Cell) (d : Byte) (a b : Nat) (h : Memory.wf m d) :
    Table.getD (writeBytes m d a l) d b = if a ≤ b ∧ b < a + l.length then l.getD (b - a) d else Table.getD m d b := by
  induction l generalizing m a with
  | nil => simp [writeBytes]
  | cons x t ih =>
    have hs : Table.sorted m := by simp only [Memory.wf, Bool.and_eq_true] at h; exact h.1
    rw [writeBytes, ih _ _ (Memory.wf_set m d a x h), Table.getD_set m d a b x hs]
    by_cases h1 : a + 1 ≤ b ∧ b < a + 1 + t.length
    · rw [if_pos h1, if_pos (by simp only [List.length_cons]; omega)]
      obtain ⟨n, rfl⟩ : ∃ n, b = a + 1 + n := ⟨b - (a + 1), by omega⟩
      rw [show a + 1 + n - a = n + 1 by omega, show a + 1 + n - (a + 1) = n by omega]
      simp
    · rw [if_neg h1]
      by_cases e : b = a
      · subst e; simp
      · rw [if_neg e, if_neg (by simp only [List.length_cons]; omega)]

/-- A write leaves every byte outside it alone. -/
theorem Memory.getD_writeBytes_other (l : List Byte) (m : List Host.Cell) (d : Byte) (a b : Nat) (h : Memory.wf m d)
    (hb : b < a ∨ a + l.length ≤ b) : Table.getD (writeBytes m d a l) d b = Table.getD m d b := by
  rw [Memory.getD_writeBytes l m d a b h, if_neg (by omega)]

/-- Dropping a key leaves every other key's entry alone. -/
theorem Table.find_del_other {α : Type} (t : Table α) (k j : Nat) (h : j ≠ k) : Table.find (Table.del t k) j = Table.find t j := by
  induction t with
  | nil => rfl
  | cons x t ih =>
    obtain ⟨a, v⟩ := x
    simp only [Table.del]
    by_cases e : k = a
    · rw [if_pos e]; simp only [Table.find]; rw [if_neg (by omega)]
    · rw [if_neg e]; simp only [Table.find, ih]

/-- A write leaves every byte outside it alone, whatever the memory's form. -/
theorem Memory.getD_writeBytes_frame (l : List Byte) (m : List Host.Cell) (d : Byte) (a b : Nat) (hb : b < a ∨ a + l.length ≤ b) :
    Table.getD (writeBytes m d a l) d b = Table.getD m d b := by
  induction l generalizing m a with
  | nil => rfl
  | cons x t ih =>
    simp only [List.length_cons] at hb
    rw [writeBytes, ih _ _ (by omega)]
    simp only [Table.getD, Table.set]
    split
    · rw [Table.find_del_other m a b (by omega)]
    · rw [Table.find_put_other m a b x (by omega)]

theorem readBytes_length (m : List Host.Cell) (d : Byte) (a n : Nat) : (readBytes m d a n).length = n := by
  induction n generalizing a with
  | zero => rfl
  | succ n ih => simp [readBytes, ih]

theorem readBytes_congr (m m' : List Host.Cell) (d : Byte) (a n : Nat)
    (h : ∀ b, a ≤ b → b < a + n → Table.getD m d b = Table.getD m' d b) : readBytes m d a n = readBytes m' d a n := by
  induction n generalizing a with
  | zero => rfl
  | succ n ih =>
    simp only [readBytes]
    rw [h a (by omega) (by omega), ih (a + 1) (fun b h1 h2 => h b (by omega) (by omega))]

/-- A read of bytes just written gives them. -/
theorem readBytes_writeBytes (l : List Byte) (m : List Host.Cell) (d : Byte) (a : Nat) (h : Memory.wf m d) :
    readBytes (writeBytes m d a l) d a l.length = l := by
  induction l generalizing m a with
  | nil => rfl
  | cons x t ih =>
    have h' := Memory.wf_set m d a x h
    have hs : Table.sorted m := by simp only [Memory.wf, Bool.and_eq_true] at h; exact h.1
    simp only [List.length_cons, writeBytes, readBytes]
    rw [ih _ _ h', Memory.getD_writeBytes_other t _ d (a + 1) a h' (by omega), Table.getD_set m d a a x hs]
    simp

/-! ## Bit fields -/

theorem Field.get_testBit (f : Field) (w : Word) (i : Nat) :
    (f.get w).testBit i = (decide (i < f.width) && w.getLsbD (f.lo + i)) := by
  simp [Field.get, Nat.testBit_mod_two_pow, Nat.testBit_shiftRight, BitVec.getLsbD]

theorem Field.put_getLsbD (f : Field) (w : Word) (v i : Nat) (h : f.fits) :
    (f.put w v).getLsbD i =
      if f.lo ≤ i ∧ i < f.lo + f.width then v.testBit (i - f.lo) else w.getLsbD i := by
  simp only [Field.fits, decide_eq_true_eq] at h
  simp only [Field.put, Field.mask, Field.make, BitVec.getLsbD_or, BitVec.getLsbD_and, BitVec.getLsbD_not, BitVec.getLsbD_ofNat,
    Nat.testBit_shiftLeft, Nat.testBit_two_pow_sub_one, Nat.testBit_mod_two_pow]
  by_cases hi : i < 64
  · by_cases h1 : f.lo ≤ i <;> by_cases h2 : i - f.lo < f.width <;> simp [hi, h1, h2] <;> grind
  · have hw : w.getLsbD i = false := BitVec.getLsbD_of_ge w i (by omega)
    simp [hi, hw]
    omega

/-- A field just written reads the value, cut to its width. -/
theorem Field.get_put (f : Field) (w : Word) (v : Nat) (h : f.fits) : f.get (f.put w v) = v % 2 ^ f.width := by
  apply Nat.eq_of_testBit_eq
  intro i
  rw [Field.get_testBit, Field.put_getLsbD f w v _ h, Nat.testBit_mod_two_pow]
  by_cases hi : i < f.width <;> simp [hi]

/-- A write of one field leaves every other field alone. -/
theorem Field.get_put_apart (f g : Field) (w : Word) (v : Nat) (h : g.fits) (a : f.apart g) : f.get (g.put w v) = f.get w := by
  simp only [Field.apart, decide_eq_true_eq] at a
  apply Nat.eq_of_testBit_eq
  intro i
  rw [Field.get_testBit, Field.get_testBit, Field.put_getLsbD g w v _ h]
  by_cases hi : i < f.width
  · rw [if_neg (by omega)]
  · simp [hi]

end Sys2Proof.Machine
end

