-- ==== Sys2Proof/Laws/State.lean ====
section
/-! SUPPORT. Laws of the state: what each shared update leaves alone, field by field, and reading a register after a write. -/

namespace Sys2Proof.Machine

/-! ## setWord -/

@[simp] theorem State.setWord_regs (s : State) (a : Nat) (w : Word) : (s.setWord a w).regs = Table.put s.regs a w := rfl
@[simp] theorem State.setWord_pending (s : State) (a : Nat) (w : Word) : (s.setWord a w).pending = s.pending := rfl
@[simp] theorem State.setWord_out (s : State) (a : Nat) (w : Word) : (s.setWord a w).out = s.out := rfl
@[simp] theorem State.setWord_freeCtr (s : State) (a : Nat) (w : Word) : (s.setWord a w).freeCtr = s.freeCtr := rfl
@[simp] theorem State.setWord_powered (s : State) (a : Nat) (w : Word) : (s.setWord a w).powered = s.powered := rfl
@[simp] theorem State.setWord_now (s : State) (a : Nat) (w : Word) : (s.setWord a w).now = s.now := rfl
@[simp] theorem State.setWord_applyNs (s : State) (a : Nat) (w : Word) : (s.setWord a w).applyNs = s.applyNs := rfl
@[simp] theorem State.setWord_basicHeld (s : State) (a : Nat) (w : Word) : (s.setWord a w).basicHeld = s.basicHeld := rfl
@[simp] theorem State.setWord_islands (s : State) (a : Nat) (w : Word) : (s.setWord a w).islands = s.islands := rfl
@[simp] theorem State.setWord_fenced (s : State) (a : Nat) (w : Word) : (s.setWord a w).fenced = s.fenced := rfl
@[simp] theorem State.setWord_engMap (s : State) (a : Nat) (w : Word) : (s.setWord a w).engMap = s.engMap := rfl
@[simp] theorem State.setWord_spareMap (s : State) (a : Nat) (w : Word) : (s.setWord a w).spareMap = s.spareMap := rfl
@[simp] theorem State.setWord_tileMap (s : State) (a : Nat) (w : Word) : (s.setWord a w).tileMap = s.tileMap := rfl
@[simp] theorem State.setWord_spareTile (s : State) (a : Nat) (w : Word) : (s.setWord a w).spareTile = s.spareTile := rfl
@[simp] theorem State.setWord_fuse (s : State) (a : Nat) (w : Word) : (s.setWord a w).fuse = s.fuse := rfl
@[simp] theorem State.setWord_tailCache (s : State) (a : Nat) (w : Word) : (s.setWord a w).tailCache = s.tailCache := rfl
@[simp] theorem State.setWord_img (s : State) (a : Nat) (w : Word) : (s.setWord a w).img = s.img := rfl
@[simp] theorem State.setWord_ports (s : State) (a : Nat) (w : Word) : (s.setWord a w).ports = s.ports := rfl
@[simp] theorem State.setWord_lanes (s : State) (a : Nat) (w : Word) : (s.setWord a w).lanes = s.lanes := rfl
@[simp] theorem State.setWord_macros (s : State) (a : Nat) (w : Word) : (s.setWord a w).macros = s.macros := rfl
@[simp] theorem State.setWord_links (s : State) (a : Nat) (w : Word) : (s.setWord a w).links = s.links := rfl
@[simp] theorem State.setWord_wait (s : State) (a : Nat) (w : Word) : (s.setWord a w).wait = s.wait := rfl
@[simp] theorem State.setWord_nextId (s : State) (a : Nat) (w : Word) : (s.setWord a w).nextId = s.nextId := rfl
@[simp] theorem State.setWord_outs (s : State) (a : Nat) (w : Word) : (s.setWord a w).outs = s.outs := rfl
@[simp] theorem State.setWord_announced (s : State) (a : Nat) (w : Word) : (s.setWord a w).announced = s.announced := rfl
@[simp] theorem State.setWord_route (s : State) (a : Nat) (w : Word) : (s.setWord a w).route = s.route := rfl
@[simp] theorem State.setWord_xp (s : State) (a : Nat) (w : Word) : (s.setWord a w).xp = s.xp := rfl
@[simp] theorem State.setWord_sqs (s : State) (a : Nat) (w : Word) : (s.setWord a w).sqs = s.sqs := rfl
@[simp] theorem State.setWord_cqs (s : State) (a : Nat) (w : Word) : (s.setWord a w).cqs = s.cqs := rfl
@[simp] theorem State.setWord_insts (s : State) (a : Nat) (w : Word) : (s.setWord a w).insts = s.insts := rfl
@[simp] theorem State.setWord_hosts (s : State) (a : Nat) (w : Word) : (s.setWord a w).hosts = s.hosts := rfl
@[simp] theorem State.setWord_dma (s : State) (a : Nat) (w : Word) : (s.setWord a w).dma = s.dma := rfl
@[simp] theorem State.setWord_dmaQ (s : State) (a : Nat) (w : Word) : (s.setWord a w).dmaQ = s.dmaQ := rfl
@[simp] theorem State.setWord_logWait (s : State) (a : Nat) (w : Word) : (s.setWord a w).logWait = s.logWait := rfl
@[simp] theorem State.setWord_heldArr (s : State) (a : Nat) (w : Word) : (s.setWord a w).heldArr = s.heldArr := rfl
@[simp] theorem State.setWord_xl (s : State) (a : Nat) (w : Word) : (s.setWord a w).xl = s.xl := rfl
@[simp] theorem State.setWord_rma (s : State) (a : Nat) (w : Word) : (s.setWord a w).rma = s.rma := rfl
@[simp] theorem State.setWord_mt (s : State) (a : Nat) (w : Word) : (s.setWord a w).mt = s.mt := rfl
@[simp] theorem State.setWord_colls (s : State) (a : Nat) (w : Word) : (s.setWord a w).colls = s.colls := rfl
@[simp] theorem State.setWord_hand (s : State) (a : Nat) (w : Word) : (s.setWord a w).hand = s.hand := rfl
@[simp] theorem State.setWord_flt (s : State) (a : Nat) (w : Word) : (s.setWord a w).flt = s.flt := rfl
@[simp] theorem State.setWord_mon (s : State) (a : Nat) (w : Word) : (s.setWord a w).mon = s.mon := rfl
@[simp] theorem State.setWord_side (s : State) (a : Nat) (w : Word) : (s.setWord a w).side = s.side := rfl
@[simp] theorem State.setWord_pins (s : State) (a : Nat) (w : Word) : (s.setWord a w).pins = s.pins := rfl

/-! ## put -/

@[simp] theorem State.put_pending (s : State) (a : Nat) (f : Field) (v : Nat) : (s.put a f v).pending = s.pending := rfl
@[simp] theorem State.put_out (s : State) (a : Nat) (f : Field) (v : Nat) : (s.put a f v).out = s.out := rfl
@[simp] theorem State.put_freeCtr (s : State) (a : Nat) (f : Field) (v : Nat) : (s.put a f v).freeCtr = s.freeCtr := rfl
@[simp] theorem State.put_powered (s : State) (a : Nat) (f : Field) (v : Nat) : (s.put a f v).powered = s.powered := rfl
@[simp] theorem State.put_now (s : State) (a : Nat) (f : Field) (v : Nat) : (s.put a f v).now = s.now := rfl
@[simp] theorem State.put_applyNs (s : State) (a : Nat) (f : Field) (v : Nat) : (s.put a f v).applyNs = s.applyNs := rfl
@[simp] theorem State.put_basicHeld (s : State) (a : Nat) (f : Field) (v : Nat) : (s.put a f v).basicHeld = s.basicHeld := rfl
@[simp] theorem State.put_islands (s : State) (a : Nat) (f : Field) (v : Nat) : (s.put a f v).islands = s.islands := rfl
@[simp] theorem State.put_fenced (s : State) (a : Nat) (f : Field) (v : Nat) : (s.put a f v).fenced = s.fenced := rfl
@[simp] theorem State.put_engMap (s : State) (a : Nat) (f : Field) (v : Nat) : (s.put a f v).engMap = s.engMap := rfl
@[simp] theorem State.put_spareMap (s : State) (a : Nat) (f : Field) (v : Nat) : (s.put a f v).spareMap = s.spareMap := rfl
@[simp] theorem State.put_tileMap (s : State) (a : Nat) (f : Field) (v : Nat) : (s.put a f v).tileMap = s.tileMap := rfl
@[simp] theorem State.put_spareTile (s : State) (a : Nat) (f : Field) (v : Nat) : (s.put a f v).spareTile = s.spareTile := rfl
@[simp] theorem State.put_fuse (s : State) (a : Nat) (f : Field) (v : Nat) : (s.put a f v).fuse = s.fuse := rfl
@[simp] theorem State.put_tailCache (s : State) (a : Nat) (f : Field) (v : Nat) : (s.put a f v).tailCache = s.tailCache := rfl
@[simp] theorem State.put_img (s : State) (a : Nat) (f : Field) (v : Nat) : (s.put a f v).img = s.img := rfl
@[simp] theorem State.put_ports (s : State) (a : Nat) (f : Field) (v : Nat) : (s.put a f v).ports = s.ports := rfl
@[simp] theorem State.put_lanes (s : State) (a : Nat) (f : Field) (v : Nat) : (s.put a f v).lanes = s.lanes := rfl
@[simp] theorem State.put_macros (s : State) (a : Nat) (f : Field) (v : Nat) : (s.put a f v).macros = s.macros := rfl
@[simp] theorem State.put_links (s : State) (a : Nat) (f : Field) (v : Nat) : (s.put a f v).links = s.links := rfl
@[simp] theorem State.put_wait (s : State) (a : Nat) (f : Field) (v : Nat) : (s.put a f v).wait = s.wait := rfl
@[simp] theorem State.put_nextId (s : State) (a : Nat) (f : Field) (v : Nat) : (s.put a f v).nextId = s.nextId := rfl
@[simp] theorem State.put_outs (s : State) (a : Nat) (f : Field) (v : Nat) : (s.put a f v).outs = s.outs := rfl
@[simp] theorem State.put_announced (s : State) (a : Nat) (f : Field) (v : Nat) : (s.put a f v).announced = s.announced := rfl
@[simp] theorem State.put_route (s : State) (a : Nat) (f : Field) (v : Nat) : (s.put a f v).route = s.route := rfl
@[simp] theorem State.put_xp (s : State) (a : Nat) (f : Field) (v : Nat) : (s.put a f v).xp = s.xp := rfl
@[simp] theorem State.put_sqs (s : State) (a : Nat) (f : Field) (v : Nat) : (s.put a f v).sqs = s.sqs := rfl
@[simp] theorem State.put_cqs (s : State) (a : Nat) (f : Field) (v : Nat) : (s.put a f v).cqs = s.cqs := rfl
@[simp] theorem State.put_insts (s : State) (a : Nat) (f : Field) (v : Nat) : (s.put a f v).insts = s.insts := rfl
@[simp] theorem State.put_hosts (s : State) (a : Nat) (f : Field) (v : Nat) : (s.put a f v).hosts = s.hosts := rfl
@[simp] theorem State.put_dma (s : State) (a : Nat) (f : Field) (v : Nat) : (s.put a f v).dma = s.dma := rfl
@[simp] theorem State.put_dmaQ (s : State) (a : Nat) (f : Field) (v : Nat) : (s.put a f v).dmaQ = s.dmaQ := rfl
@[simp] theorem State.put_logWait (s : State) (a : Nat) (f : Field) (v : Nat) : (s.put a f v).logWait = s.logWait := rfl
@[simp] theorem State.put_heldArr (s : State) (a : Nat) (f : Field) (v : Nat) : (s.put a f v).heldArr = s.heldArr := rfl
@[simp] theorem State.put_xl (s : State) (a : Nat) (f : Field) (v : Nat) : (s.put a f v).xl = s.xl := rfl
@[simp] theorem State.put_rma (s : State) (a : Nat) (f : Field) (v : Nat) : (s.put a f v).rma = s.rma := rfl
@[simp] theorem State.put_mt (s : State) (a : Nat) (f : Field) (v : Nat) : (s.put a f v).mt = s.mt := rfl
@[simp] theorem State.put_colls (s : State) (a : Nat) (f : Field) (v : Nat) : (s.put a f v).colls = s.colls := rfl
@[simp] theorem State.put_hand (s : State) (a : Nat) (f : Field) (v : Nat) : (s.put a f v).hand = s.hand := rfl
@[simp] theorem State.put_flt (s : State) (a : Nat) (f : Field) (v : Nat) : (s.put a f v).flt = s.flt := rfl
@[simp] theorem State.put_mon (s : State) (a : Nat) (f : Field) (v : Nat) : (s.put a f v).mon = s.mon := rfl
@[simp] theorem State.put_side (s : State) (a : Nat) (f : Field) (v : Nat) : (s.put a f v).side = s.side := rfl
@[simp] theorem State.put_pins (s : State) (a : Nat) (f : Field) (v : Nat) : (s.put a f v).pins = s.pins := rfl

/-! ## bump -/

@[simp] theorem State.bump_pending (s : State) (a : Nat) (f : Field) (n : Nat) : (s.bump a f n).pending = s.pending := rfl
@[simp] theorem State.bump_out (s : State) (a : Nat) (f : Field) (n : Nat) : (s.bump a f n).out = s.out := rfl
@[simp] theorem State.bump_freeCtr (s : State) (a : Nat) (f : Field) (n : Nat) : (s.bump a f n).freeCtr = s.freeCtr := rfl
@[simp] theorem State.bump_powered (s : State) (a : Nat) (f : Field) (n : Nat) : (s.bump a f n).powered = s.powered := rfl
@[simp] theorem State.bump_now (s : State) (a : Nat) (f : Field) (n : Nat) : (s.bump a f n).now = s.now := rfl
@[simp] theorem State.bump_applyNs (s : State) (a : Nat) (f : Field) (n : Nat) : (s.bump a f n).applyNs = s.applyNs := rfl
@[simp] theorem State.bump_basicHeld (s : State) (a : Nat) (f : Field) (n : Nat) : (s.bump a f n).basicHeld = s.basicHeld := rfl
@[simp] theorem State.bump_islands (s : State) (a : Nat) (f : Field) (n : Nat) : (s.bump a f n).islands = s.islands := rfl
@[simp] theorem State.bump_fenced (s : State) (a : Nat) (f : Field) (n : Nat) : (s.bump a f n).fenced = s.fenced := rfl
@[simp] theorem State.bump_engMap (s : State) (a : Nat) (f : Field) (n : Nat) : (s.bump a f n).engMap = s.engMap := rfl
@[simp] theorem State.bump_spareMap (s : State) (a : Nat) (f : Field) (n : Nat) : (s.bump a f n).spareMap = s.spareMap := rfl
@[simp] theorem State.bump_tileMap (s : State) (a : Nat) (f : Field) (n : Nat) : (s.bump a f n).tileMap = s.tileMap := rfl
@[simp] theorem State.bump_spareTile (s : State) (a : Nat) (f : Field) (n : Nat) : (s.bump a f n).spareTile = s.spareTile := rfl
@[simp] theorem State.bump_fuse (s : State) (a : Nat) (f : Field) (n : Nat) : (s.bump a f n).fuse = s.fuse := rfl
@[simp] theorem State.bump_tailCache (s : State) (a : Nat) (f : Field) (n : Nat) : (s.bump a f n).tailCache = s.tailCache := rfl
@[simp] theorem State.bump_img (s : State) (a : Nat) (f : Field) (n : Nat) : (s.bump a f n).img = s.img := rfl
@[simp] theorem State.bump_ports (s : State) (a : Nat) (f : Field) (n : Nat) : (s.bump a f n).ports = s.ports := rfl
@[simp] theorem State.bump_lanes (s : State) (a : Nat) (f : Field) (n : Nat) : (s.bump a f n).lanes = s.lanes := rfl
@[simp] theorem State.bump_macros (s : State) (a : Nat) (f : Field) (n : Nat) : (s.bump a f n).macros = s.macros := rfl
@[simp] theorem State.bump_links (s : State) (a : Nat) (f : Field) (n : Nat) : (s.bump a f n).links = s.links := rfl
@[simp] theorem State.bump_wait (s : State) (a : Nat) (f : Field) (n : Nat) : (s.bump a f n).wait = s.wait := rfl
@[simp] theorem State.bump_nextId (s : State) (a : Nat) (f : Field) (n : Nat) : (s.bump a f n).nextId = s.nextId := rfl
@[simp] theorem State.bump_outs (s : State) (a : Nat) (f : Field) (n : Nat) : (s.bump a f n).outs = s.outs := rfl
@[simp] theorem State.bump_announced (s : State) (a : Nat) (f : Field) (n : Nat) : (s.bump a f n).announced = s.announced := rfl
@[simp] theorem State.bump_route (s : State) (a : Nat) (f : Field) (n : Nat) : (s.bump a f n).route = s.route := rfl
@[simp] theorem State.bump_xp (s : State) (a : Nat) (f : Field) (n : Nat) : (s.bump a f n).xp = s.xp := rfl
@[simp] theorem State.bump_sqs (s : State) (a : Nat) (f : Field) (n : Nat) : (s.bump a f n).sqs = s.sqs := rfl
@[simp] theorem State.bump_cqs (s : State) (a : Nat) (f : Field) (n : Nat) : (s.bump a f n).cqs = s.cqs := rfl
@[simp] theorem State.bump_insts (s : State) (a : Nat) (f : Field) (n : Nat) : (s.bump a f n).insts = s.insts := rfl
@[simp] theorem State.bump_hosts (s : State) (a : Nat) (f : Field) (n : Nat) : (s.bump a f n).hosts = s.hosts := rfl
@[simp] theorem State.bump_dma (s : State) (a : Nat) (f : Field) (n : Nat) : (s.bump a f n).dma = s.dma := rfl
@[simp] theorem State.bump_dmaQ (s : State) (a : Nat) (f : Field) (n : Nat) : (s.bump a f n).dmaQ = s.dmaQ := rfl
@[simp] theorem State.bump_logWait (s : State) (a : Nat) (f : Field) (n : Nat) : (s.bump a f n).logWait = s.logWait := rfl
@[simp] theorem State.bump_heldArr (s : State) (a : Nat) (f : Field) (n : Nat) : (s.bump a f n).heldArr = s.heldArr := rfl
@[simp] theorem State.bump_xl (s : State) (a : Nat) (f : Field) (n : Nat) : (s.bump a f n).xl = s.xl := rfl
@[simp] theorem State.bump_rma (s : State) (a : Nat) (f : Field) (n : Nat) : (s.bump a f n).rma = s.rma := rfl
@[simp] theorem State.bump_mt (s : State) (a : Nat) (f : Field) (n : Nat) : (s.bump a f n).mt = s.mt := rfl
@[simp] theorem State.bump_colls (s : State) (a : Nat) (f : Field) (n : Nat) : (s.bump a f n).colls = s.colls := rfl
@[simp] theorem State.bump_hand (s : State) (a : Nat) (f : Field) (n : Nat) : (s.bump a f n).hand = s.hand := rfl
@[simp] theorem State.bump_flt (s : State) (a : Nat) (f : Field) (n : Nat) : (s.bump a f n).flt = s.flt := rfl
@[simp] theorem State.bump_mon (s : State) (a : Nat) (f : Field) (n : Nat) : (s.bump a f n).mon = s.mon := rfl
@[simp] theorem State.bump_side (s : State) (a : Nat) (f : Field) (n : Nat) : (s.bump a f n).side = s.side := rfl
@[simp] theorem State.bump_pins (s : State) (a : Nat) (f : Field) (n : Nat) : (s.bump a f n).pins = s.pins := rfl

/-! ## raise -/

@[simp] theorem State.raise_pending (s : State) (a : Nat) (f : Field) (n : Nat) : (s.raise a f n).pending = s.pending := rfl
@[simp] theorem State.raise_out (s : State) (a : Nat) (f : Field) (n : Nat) : (s.raise a f n).out = s.out := rfl
@[simp] theorem State.raise_freeCtr (s : State) (a : Nat) (f : Field) (n : Nat) : (s.raise a f n).freeCtr = s.freeCtr := rfl
@[simp] theorem State.raise_powered (s : State) (a : Nat) (f : Field) (n : Nat) : (s.raise a f n).powered = s.powered := rfl
@[simp] theorem State.raise_now (s : State) (a : Nat) (f : Field) (n : Nat) : (s.raise a f n).now = s.now := rfl
@[simp] theorem State.raise_applyNs (s : State) (a : Nat) (f : Field) (n : Nat) : (s.raise a f n).applyNs = s.applyNs := rfl
@[simp] theorem State.raise_basicHeld (s : State) (a : Nat) (f : Field) (n : Nat) : (s.raise a f n).basicHeld = s.basicHeld := rfl
@[simp] theorem State.raise_islands (s : State) (a : Nat) (f : Field) (n : Nat) : (s.raise a f n).islands = s.islands := rfl
@[simp] theorem State.raise_fenced (s : State) (a : Nat) (f : Field) (n : Nat) : (s.raise a f n).fenced = s.fenced := rfl
@[simp] theorem State.raise_engMap (s : State) (a : Nat) (f : Field) (n : Nat) : (s.raise a f n).engMap = s.engMap := rfl
@[simp] theorem State.raise_spareMap (s : State) (a : Nat) (f : Field) (n : Nat) : (s.raise a f n).spareMap = s.spareMap := rfl
@[simp] theorem State.raise_tileMap (s : State) (a : Nat) (f : Field) (n : Nat) : (s.raise a f n).tileMap = s.tileMap := rfl
@[simp] theorem State.raise_spareTile (s : State) (a : Nat) (f : Field) (n : Nat) : (s.raise a f n).spareTile = s.spareTile := rfl
@[simp] theorem State.raise_fuse (s : State) (a : Nat) (f : Field) (n : Nat) : (s.raise a f n).fuse = s.fuse := rfl
@[simp] theorem State.raise_tailCache (s : State) (a : Nat) (f : Field) (n : Nat) : (s.raise a f n).tailCache = s.tailCache := rfl
@[simp] theorem State.raise_img (s : State) (a : Nat) (f : Field) (n : Nat) : (s.raise a f n).img = s.img := rfl
@[simp] theorem State.raise_ports (s : State) (a : Nat) (f : Field) (n : Nat) : (s.raise a f n).ports = s.ports := rfl
@[simp] theorem State.raise_lanes (s : State) (a : Nat) (f : Field) (n : Nat) : (s.raise a f n).lanes = s.lanes := rfl
@[simp] theorem State.raise_macros (s : State) (a : Nat) (f : Field) (n : Nat) : (s.raise a f n).macros = s.macros := rfl
@[simp] theorem State.raise_links (s : State) (a : Nat) (f : Field) (n : Nat) : (s.raise a f n).links = s.links := rfl
@[simp] theorem State.raise_wait (s : State) (a : Nat) (f : Field) (n : Nat) : (s.raise a f n).wait = s.wait := rfl
@[simp] theorem State.raise_nextId (s : State) (a : Nat) (f : Field) (n : Nat) : (s.raise a f n).nextId = s.nextId := rfl
@[simp] theorem State.raise_outs (s : State) (a : Nat) (f : Field) (n : Nat) : (s.raise a f n).outs = s.outs := rfl
@[simp] theorem State.raise_announced (s : State) (a : Nat) (f : Field) (n : Nat) : (s.raise a f n).announced = s.announced := rfl
@[simp] theorem State.raise_route (s : State) (a : Nat) (f : Field) (n : Nat) : (s.raise a f n).route = s.route := rfl
@[simp] theorem State.raise_xp (s : State) (a : Nat) (f : Field) (n : Nat) : (s.raise a f n).xp = s.xp := rfl
@[simp] theorem State.raise_sqs (s : State) (a : Nat) (f : Field) (n : Nat) : (s.raise a f n).sqs = s.sqs := rfl
@[simp] theorem State.raise_cqs (s : State) (a : Nat) (f : Field) (n : Nat) : (s.raise a f n).cqs = s.cqs := rfl
@[simp] theorem State.raise_insts (s : State) (a : Nat) (f : Field) (n : Nat) : (s.raise a f n).insts = s.insts := rfl
@[simp] theorem State.raise_hosts (s : State) (a : Nat) (f : Field) (n : Nat) : (s.raise a f n).hosts = s.hosts := rfl
@[simp] theorem State.raise_dma (s : State) (a : Nat) (f : Field) (n : Nat) : (s.raise a f n).dma = s.dma := rfl
@[simp] theorem State.raise_dmaQ (s : State) (a : Nat) (f : Field) (n : Nat) : (s.raise a f n).dmaQ = s.dmaQ := rfl
@[simp] theorem State.raise_logWait (s : State) (a : Nat) (f : Field) (n : Nat) : (s.raise a f n).logWait = s.logWait := rfl
@[simp] theorem State.raise_heldArr (s : State) (a : Nat) (f : Field) (n : Nat) : (s.raise a f n).heldArr = s.heldArr := rfl
@[simp] theorem State.raise_xl (s : State) (a : Nat) (f : Field) (n : Nat) : (s.raise a f n).xl = s.xl := rfl
@[simp] theorem State.raise_rma (s : State) (a : Nat) (f : Field) (n : Nat) : (s.raise a f n).rma = s.rma := rfl
@[simp] theorem State.raise_mt (s : State) (a : Nat) (f : Field) (n : Nat) : (s.raise a f n).mt = s.mt := rfl
@[simp] theorem State.raise_colls (s : State) (a : Nat) (f : Field) (n : Nat) : (s.raise a f n).colls = s.colls := rfl
@[simp] theorem State.raise_hand (s : State) (a : Nat) (f : Field) (n : Nat) : (s.raise a f n).hand = s.hand := rfl
@[simp] theorem State.raise_flt (s : State) (a : Nat) (f : Field) (n : Nat) : (s.raise a f n).flt = s.flt := rfl
@[simp] theorem State.raise_mon (s : State) (a : Nat) (f : Field) (n : Nat) : (s.raise a f n).mon = s.mon := rfl
@[simp] theorem State.raise_side (s : State) (a : Nat) (f : Field) (n : Nat) : (s.raise a f n).side = s.side := rfl
@[simp] theorem State.raise_pins (s : State) (a : Nat) (f : Field) (n : Nat) : (s.raise a f n).pins = s.pins := rfl

/-! ## emit -/

@[simp] theorem State.emit_out (s : State) (o : Out) : (s.emit o).out = s.out ++ [o] := rfl
@[simp] theorem State.emit_pending (s : State) (o : Out) : (s.emit o).pending = s.pending := rfl
@[simp] theorem State.emit_freeCtr (s : State) (o : Out) : (s.emit o).freeCtr = s.freeCtr := rfl
@[simp] theorem State.emit_powered (s : State) (o : Out) : (s.emit o).powered = s.powered := rfl
@[simp] theorem State.emit_now (s : State) (o : Out) : (s.emit o).now = s.now := rfl
@[simp] theorem State.emit_applyNs (s : State) (o : Out) : (s.emit o).applyNs = s.applyNs := rfl
@[simp] theorem State.emit_regs (s : State) (o : Out) : (s.emit o).regs = s.regs := rfl
@[simp] theorem State.emit_basicHeld (s : State) (o : Out) : (s.emit o).basicHeld = s.basicHeld := rfl
@[simp] theorem State.emit_islands (s : State) (o : Out) : (s.emit o).islands = s.islands := rfl
@[simp] theorem State.emit_fenced (s : State) (o : Out) : (s.emit o).fenced = s.fenced := rfl
@[simp] theorem State.emit_engMap (s : State) (o : Out) : (s.emit o).engMap = s.engMap := rfl
@[simp] theorem State.emit_spareMap (s : State) (o : Out) : (s.emit o).spareMap = s.spareMap := rfl
@[simp] theorem State.emit_tileMap (s : State) (o : Out) : (s.emit o).tileMap = s.tileMap := rfl
@[simp] theorem State.emit_spareTile (s : State) (o : Out) : (s.emit o).spareTile = s.spareTile := rfl
@[simp] theorem State.emit_fuse (s : State) (o : Out) : (s.emit o).fuse = s.fuse := rfl
@[simp] theorem State.emit_tailCache (s : State) (o : Out) : (s.emit o).tailCache = s.tailCache := rfl
@[simp] theorem State.emit_img (s : State) (o : Out) : (s.emit o).img = s.img := rfl
@[simp] theorem State.emit_ports (s : State) (o : Out) : (s.emit o).ports = s.ports := rfl
@[simp] theorem State.emit_lanes (s : State) (o : Out) : (s.emit o).lanes = s.lanes := rfl
@[simp] theorem State.emit_macros (s : State) (o : Out) : (s.emit o).macros = s.macros := rfl
@[simp] theorem State.emit_links (s : State) (o : Out) : (s.emit o).links = s.links := rfl
@[simp] theorem State.emit_wait (s : State) (o : Out) : (s.emit o).wait = s.wait := rfl
@[simp] theorem State.emit_nextId (s : State) (o : Out) : (s.emit o).nextId = s.nextId := rfl
@[simp] theorem State.emit_outs (s : State) (o : Out) : (s.emit o).outs = s.outs := rfl
@[simp] theorem State.emit_announced (s : State) (o : Out) : (s.emit o).announced = s.announced := rfl
@[simp] theorem State.emit_route (s : State) (o : Out) : (s.emit o).route = s.route := rfl
@[simp] theorem State.emit_xp (s : State) (o : Out) : (s.emit o).xp = s.xp := rfl
@[simp] theorem State.emit_sqs (s : State) (o : Out) : (s.emit o).sqs = s.sqs := rfl
@[simp] theorem State.emit_cqs (s : State) (o : Out) : (s.emit o).cqs = s.cqs := rfl
@[simp] theorem State.emit_insts (s : State) (o : Out) : (s.emit o).insts = s.insts := rfl
@[simp] theorem State.emit_hosts (s : State) (o : Out) : (s.emit o).hosts = s.hosts := rfl
@[simp] theorem State.emit_dma (s : State) (o : Out) : (s.emit o).dma = s.dma := rfl
@[simp] theorem State.emit_dmaQ (s : State) (o : Out) : (s.emit o).dmaQ = s.dmaQ := rfl
@[simp] theorem State.emit_logWait (s : State) (o : Out) : (s.emit o).logWait = s.logWait := rfl
@[simp] theorem State.emit_heldArr (s : State) (o : Out) : (s.emit o).heldArr = s.heldArr := rfl
@[simp] theorem State.emit_xl (s : State) (o : Out) : (s.emit o).xl = s.xl := rfl
@[simp] theorem State.emit_rma (s : State) (o : Out) : (s.emit o).rma = s.rma := rfl
@[simp] theorem State.emit_mt (s : State) (o : Out) : (s.emit o).mt = s.mt := rfl
@[simp] theorem State.emit_colls (s : State) (o : Out) : (s.emit o).colls = s.colls := rfl
@[simp] theorem State.emit_hand (s : State) (o : Out) : (s.emit o).hand = s.hand := rfl
@[simp] theorem State.emit_flt (s : State) (o : Out) : (s.emit o).flt = s.flt := rfl
@[simp] theorem State.emit_mon (s : State) (o : Out) : (s.emit o).mon = s.mon := rfl
@[simp] theorem State.emit_side (s : State) (o : Out) : (s.emit o).side = s.side := rfl
@[simp] theorem State.emit_pins (s : State) (o : Out) : (s.emit o).pins = s.pins := rfl

/-! ## setHost -/

@[simp] theorem State.setHost_hosts (s : State) (n : Nat) (h : HostSt) : (s.setHost n h).hosts = Table.put s.hosts n h := rfl
@[simp] theorem State.setHost_pending (s : State) (n : Nat) (h : HostSt) : (s.setHost n h).pending = s.pending := rfl
@[simp] theorem State.setHost_out (s : State) (n : Nat) (h : HostSt) : (s.setHost n h).out = s.out := rfl
@[simp] theorem State.setHost_freeCtr (s : State) (n : Nat) (h : HostSt) : (s.setHost n h).freeCtr = s.freeCtr := rfl
@[simp] theorem State.setHost_powered (s : State) (n : Nat) (h : HostSt) : (s.setHost n h).powered = s.powered := rfl
@[simp] theorem State.setHost_now (s : State) (n : Nat) (h : HostSt) : (s.setHost n h).now = s.now := rfl
@[simp] theorem State.setHost_applyNs (s : State) (n : Nat) (h : HostSt) : (s.setHost n h).applyNs = s.applyNs := rfl
@[simp] theorem State.setHost_regs (s : State) (n : Nat) (h : HostSt) : (s.setHost n h).regs = s.regs := rfl
@[simp] theorem State.setHost_basicHeld (s : State) (n : Nat) (h : HostSt) : (s.setHost n h).basicHeld = s.basicHeld := rfl
@[simp] theorem State.setHost_islands (s : State) (n : Nat) (h : HostSt) : (s.setHost n h).islands = s.islands := rfl
@[simp] theorem State.setHost_fenced (s : State) (n : Nat) (h : HostSt) : (s.setHost n h).fenced = s.fenced := rfl
@[simp] theorem State.setHost_engMap (s : State) (n : Nat) (h : HostSt) : (s.setHost n h).engMap = s.engMap := rfl
@[simp] theorem State.setHost_spareMap (s : State) (n : Nat) (h : HostSt) : (s.setHost n h).spareMap = s.spareMap := rfl
@[simp] theorem State.setHost_tileMap (s : State) (n : Nat) (h : HostSt) : (s.setHost n h).tileMap = s.tileMap := rfl
@[simp] theorem State.setHost_spareTile (s : State) (n : Nat) (h : HostSt) : (s.setHost n h).spareTile = s.spareTile := rfl
@[simp] theorem State.setHost_fuse (s : State) (n : Nat) (h : HostSt) : (s.setHost n h).fuse = s.fuse := rfl
@[simp] theorem State.setHost_tailCache (s : State) (n : Nat) (h : HostSt) : (s.setHost n h).tailCache = s.tailCache := rfl
@[simp] theorem State.setHost_img (s : State) (n : Nat) (h : HostSt) : (s.setHost n h).img = s.img := rfl
@[simp] theorem State.setHost_ports (s : State) (n : Nat) (h : HostSt) : (s.setHost n h).ports = s.ports := rfl
@[simp] theorem State.setHost_lanes (s : State) (n : Nat) (h : HostSt) : (s.setHost n h).lanes = s.lanes := rfl
@[simp] theorem State.setHost_macros (s : State) (n : Nat) (h : HostSt) : (s.setHost n h).macros = s.macros := rfl
@[simp] theorem State.setHost_links (s : State) (n : Nat) (h : HostSt) : (s.setHost n h).links = s.links := rfl
@[simp] theorem State.setHost_wait (s : State) (n : Nat) (h : HostSt) : (s.setHost n h).wait = s.wait := rfl
@[simp] theorem State.setHost_nextId (s : State) (n : Nat) (h : HostSt) : (s.setHost n h).nextId = s.nextId := rfl
@[simp] theorem State.setHost_outs (s : State) (n : Nat) (h : HostSt) : (s.setHost n h).outs = s.outs := rfl
@[simp] theorem State.setHost_announced (s : State) (n : Nat) (h : HostSt) : (s.setHost n h).announced = s.announced := rfl
@[simp] theorem State.setHost_route (s : State) (n : Nat) (h : HostSt) : (s.setHost n h).route = s.route := rfl
@[simp] theorem State.setHost_xp (s : State) (n : Nat) (h : HostSt) : (s.setHost n h).xp = s.xp := rfl
@[simp] theorem State.setHost_sqs (s : State) (n : Nat) (h : HostSt) : (s.setHost n h).sqs = s.sqs := rfl
@[simp] theorem State.setHost_cqs (s : State) (n : Nat) (h : HostSt) : (s.setHost n h).cqs = s.cqs := rfl
@[simp] theorem State.setHost_insts (s : State) (n : Nat) (h : HostSt) : (s.setHost n h).insts = s.insts := rfl
@[simp] theorem State.setHost_dma (s : State) (n : Nat) (h : HostSt) : (s.setHost n h).dma = s.dma := rfl
@[simp] theorem State.setHost_dmaQ (s : State) (n : Nat) (h : HostSt) : (s.setHost n h).dmaQ = s.dmaQ := rfl
@[simp] theorem State.setHost_logWait (s : State) (n : Nat) (h : HostSt) : (s.setHost n h).logWait = s.logWait := rfl
@[simp] theorem State.setHost_heldArr (s : State) (n : Nat) (h : HostSt) : (s.setHost n h).heldArr = s.heldArr := rfl
@[simp] theorem State.setHost_xl (s : State) (n : Nat) (h : HostSt) : (s.setHost n h).xl = s.xl := rfl
@[simp] theorem State.setHost_rma (s : State) (n : Nat) (h : HostSt) : (s.setHost n h).rma = s.rma := rfl
@[simp] theorem State.setHost_mt (s : State) (n : Nat) (h : HostSt) : (s.setHost n h).mt = s.mt := rfl
@[simp] theorem State.setHost_colls (s : State) (n : Nat) (h : HostSt) : (s.setHost n h).colls = s.colls := rfl
@[simp] theorem State.setHost_hand (s : State) (n : Nat) (h : HostSt) : (s.setHost n h).hand = s.hand := rfl
@[simp] theorem State.setHost_flt (s : State) (n : Nat) (h : HostSt) : (s.setHost n h).flt = s.flt := rfl
@[simp] theorem State.setHost_mon (s : State) (n : Nat) (h : HostSt) : (s.setHost n h).mon = s.mon := rfl
@[simp] theorem State.setHost_side (s : State) (n : Nat) (h : HostSt) : (s.setHost n h).side = s.side := rfl
@[simp] theorem State.setHost_pins (s : State) (n : Nat) (h : HostSt) : (s.setHost n h).pins = s.pins := rfl

/-! ## setInst -/

@[simp] theorem State.setInst_insts (s : State) (i : Nat) (x : InstSt) : (s.setInst i x).insts = Table.put s.insts i x := rfl
@[simp] theorem State.setInst_pending (s : State) (i : Nat) (x : InstSt) : (s.setInst i x).pending = s.pending := rfl
@[simp] theorem State.setInst_out (s : State) (i : Nat) (x : InstSt) : (s.setInst i x).out = s.out := rfl
@[simp] theorem State.setInst_freeCtr (s : State) (i : Nat) (x : InstSt) : (s.setInst i x).freeCtr = s.freeCtr := rfl
@[simp] theorem State.setInst_powered (s : State) (i : Nat) (x : InstSt) : (s.setInst i x).powered = s.powered := rfl
@[simp] theorem State.setInst_now (s : State) (i : Nat) (x : InstSt) : (s.setInst i x).now = s.now := rfl
@[simp] theorem State.setInst_applyNs (s : State) (i : Nat) (x : InstSt) : (s.setInst i x).applyNs = s.applyNs := rfl
@[simp] theorem State.setInst_regs (s : State) (i : Nat) (x : InstSt) : (s.setInst i x).regs = s.regs := rfl
@[simp] theorem State.setInst_basicHeld (s : State) (i : Nat) (x : InstSt) : (s.setInst i x).basicHeld = s.basicHeld := rfl
@[simp] theorem State.setInst_islands (s : State) (i : Nat) (x : InstSt) : (s.setInst i x).islands = s.islands := rfl
@[simp] theorem State.setInst_fenced (s : State) (i : Nat) (x : InstSt) : (s.setInst i x).fenced = s.fenced := rfl
@[simp] theorem State.setInst_engMap (s : State) (i : Nat) (x : InstSt) : (s.setInst i x).engMap = s.engMap := rfl
@[simp] theorem State.setInst_spareMap (s : State) (i : Nat) (x : InstSt) : (s.setInst i x).spareMap = s.spareMap := rfl
@[simp] theorem State.setInst_tileMap (s : State) (i : Nat) (x : InstSt) : (s.setInst i x).tileMap = s.tileMap := rfl
@[simp] theorem State.setInst_spareTile (s : State) (i : Nat) (x : InstSt) : (s.setInst i x).spareTile = s.spareTile := rfl
@[simp] theorem State.setInst_fuse (s : State) (i : Nat) (x : InstSt) : (s.setInst i x).fuse = s.fuse := rfl
@[simp] theorem State.setInst_tailCache (s : State) (i : Nat) (x : InstSt) : (s.setInst i x).tailCache = s.tailCache := rfl
@[simp] theorem State.setInst_img (s : State) (i : Nat) (x : InstSt) : (s.setInst i x).img = s.img := rfl
@[simp] theorem State.setInst_ports (s : State) (i : Nat) (x : InstSt) : (s.setInst i x).ports = s.ports := rfl
@[simp] theorem State.setInst_lanes (s : State) (i : Nat) (x : InstSt) : (s.setInst i x).lanes = s.lanes := rfl
@[simp] theorem State.setInst_macros (s : State) (i : Nat) (x : InstSt) : (s.setInst i x).macros = s.macros := rfl
@[simp] theorem State.setInst_links (s : State) (i : Nat) (x : InstSt) : (s.setInst i x).links = s.links := rfl
@[simp] theorem State.setInst_wait (s : State) (i : Nat) (x : InstSt) : (s.setInst i x).wait = s.wait := rfl
@[simp] theorem State.setInst_nextId (s : State) (i : Nat) (x : InstSt) : (s.setInst i x).nextId = s.nextId := rfl
@[simp] theorem State.setInst_outs (s : State) (i : Nat) (x : InstSt) : (s.setInst i x).outs = s.outs := rfl
@[simp] theorem State.setInst_announced (s : State) (i : Nat) (x : InstSt) : (s.setInst i x).announced = s.announced := rfl
@[simp] theorem State.setInst_route (s : State) (i : Nat) (x : InstSt) : (s.setInst i x).route = s.route := rfl
@[simp] theorem State.setInst_xp (s : State) (i : Nat) (x : InstSt) : (s.setInst i x).xp = s.xp := rfl
@[simp] theorem State.setInst_sqs (s : State) (i : Nat) (x : InstSt) : (s.setInst i x).sqs = s.sqs := rfl
@[simp] theorem State.setInst_cqs (s : State) (i : Nat) (x : InstSt) : (s.setInst i x).cqs = s.cqs := rfl
@[simp] theorem State.setInst_hosts (s : State) (i : Nat) (x : InstSt) : (s.setInst i x).hosts = s.hosts := rfl
@[simp] theorem State.setInst_dma (s : State) (i : Nat) (x : InstSt) : (s.setInst i x).dma = s.dma := rfl
@[simp] theorem State.setInst_dmaQ (s : State) (i : Nat) (x : InstSt) : (s.setInst i x).dmaQ = s.dmaQ := rfl
@[simp] theorem State.setInst_logWait (s : State) (i : Nat) (x : InstSt) : (s.setInst i x).logWait = s.logWait := rfl
@[simp] theorem State.setInst_heldArr (s : State) (i : Nat) (x : InstSt) : (s.setInst i x).heldArr = s.heldArr := rfl
@[simp] theorem State.setInst_xl (s : State) (i : Nat) (x : InstSt) : (s.setInst i x).xl = s.xl := rfl
@[simp] theorem State.setInst_rma (s : State) (i : Nat) (x : InstSt) : (s.setInst i x).rma = s.rma := rfl
@[simp] theorem State.setInst_mt (s : State) (i : Nat) (x : InstSt) : (s.setInst i x).mt = s.mt := rfl
@[simp] theorem State.setInst_colls (s : State) (i : Nat) (x : InstSt) : (s.setInst i x).colls = s.colls := rfl
@[simp] theorem State.setInst_hand (s : State) (i : Nat) (x : InstSt) : (s.setInst i x).hand = s.hand := rfl
@[simp] theorem State.setInst_flt (s : State) (i : Nat) (x : InstSt) : (s.setInst i x).flt = s.flt := rfl
@[simp] theorem State.setInst_mon (s : State) (i : Nat) (x : InstSt) : (s.setInst i x).mon = s.mon := rfl
@[simp] theorem State.setInst_side (s : State) (i : Nat) (x : InstSt) : (s.setInst i x).side = s.side := rfl
@[simp] theorem State.setInst_pins (s : State) (i : Nat) (x : InstSt) : (s.setInst i x).pins = s.pins := rfl

/-! ## setPort -/

@[simp] theorem State.setPort_ports (s : State) (p : Nat) (x : PortSt) : (s.setPort p x).ports = Table.put s.ports p x := rfl
@[simp] theorem State.setPort_pending (s : State) (p : Nat) (x : PortSt) : (s.setPort p x).pending = s.pending := rfl
@[simp] theorem State.setPort_out (s : State) (p : Nat) (x : PortSt) : (s.setPort p x).out = s.out := rfl
@[simp] theorem State.setPort_freeCtr (s : State) (p : Nat) (x : PortSt) : (s.setPort p x).freeCtr = s.freeCtr := rfl
@[simp] theorem State.setPort_powered (s : State) (p : Nat) (x : PortSt) : (s.setPort p x).powered = s.powered := rfl
@[simp] theorem State.setPort_now (s : State) (p : Nat) (x : PortSt) : (s.setPort p x).now = s.now := rfl
@[simp] theorem State.setPort_applyNs (s : State) (p : Nat) (x : PortSt) : (s.setPort p x).applyNs = s.applyNs := rfl
@[simp] theorem State.setPort_regs (s : State) (p : Nat) (x : PortSt) : (s.setPort p x).regs = s.regs := rfl
@[simp] theorem State.setPort_basicHeld (s : State) (p : Nat) (x : PortSt) : (s.setPort p x).basicHeld = s.basicHeld := rfl
@[simp] theorem State.setPort_islands (s : State) (p : Nat) (x : PortSt) : (s.setPort p x).islands = s.islands := rfl
@[simp] theorem State.setPort_fenced (s : State) (p : Nat) (x : PortSt) : (s.setPort p x).fenced = s.fenced := rfl
@[simp] theorem State.setPort_engMap (s : State) (p : Nat) (x : PortSt) : (s.setPort p x).engMap = s.engMap := rfl
@[simp] theorem State.setPort_spareMap (s : State) (p : Nat) (x : PortSt) : (s.setPort p x).spareMap = s.spareMap := rfl
@[simp] theorem State.setPort_tileMap (s : State) (p : Nat) (x : PortSt) : (s.setPort p x).tileMap = s.tileMap := rfl
@[simp] theorem State.setPort_spareTile (s : State) (p : Nat) (x : PortSt) : (s.setPort p x).spareTile = s.spareTile := rfl
@[simp] theorem State.setPort_fuse (s : State) (p : Nat) (x : PortSt) : (s.setPort p x).fuse = s.fuse := rfl
@[simp] theorem State.setPort_tailCache (s : State) (p : Nat) (x : PortSt) : (s.setPort p x).tailCache = s.tailCache := rfl
@[simp] theorem State.setPort_img (s : State) (p : Nat) (x : PortSt) : (s.setPort p x).img = s.img := rfl
@[simp] theorem State.setPort_lanes (s : State) (p : Nat) (x : PortSt) : (s.setPort p x).lanes = s.lanes := rfl
@[simp] theorem State.setPort_macros (s : State) (p : Nat) (x : PortSt) : (s.setPort p x).macros = s.macros := rfl
@[simp] theorem State.setPort_links (s : State) (p : Nat) (x : PortSt) : (s.setPort p x).links = s.links := rfl
@[simp] theorem State.setPort_wait (s : State) (p : Nat) (x : PortSt) : (s.setPort p x).wait = s.wait := rfl
@[simp] theorem State.setPort_nextId (s : State) (p : Nat) (x : PortSt) : (s.setPort p x).nextId = s.nextId := rfl
@[simp] theorem State.setPort_outs (s : State) (p : Nat) (x : PortSt) : (s.setPort p x).outs = s.outs := rfl
@[simp] theorem State.setPort_announced (s : State) (p : Nat) (x : PortSt) : (s.setPort p x).announced = s.announced := rfl
@[simp] theorem State.setPort_route (s : State) (p : Nat) (x : PortSt) : (s.setPort p x).route = s.route := rfl
@[simp] theorem State.setPort_xp (s : State) (p : Nat) (x : PortSt) : (s.setPort p x).xp = s.xp := rfl
@[simp] theorem State.setPort_sqs (s : State) (p : Nat) (x : PortSt) : (s.setPort p x).sqs = s.sqs := rfl
@[simp] theorem State.setPort_cqs (s : State) (p : Nat) (x : PortSt) : (s.setPort p x).cqs = s.cqs := rfl
@[simp] theorem State.setPort_insts (s : State) (p : Nat) (x : PortSt) : (s.setPort p x).insts = s.insts := rfl
@[simp] theorem State.setPort_hosts (s : State) (p : Nat) (x : PortSt) : (s.setPort p x).hosts = s.hosts := rfl
@[simp] theorem State.setPort_dma (s : State) (p : Nat) (x : PortSt) : (s.setPort p x).dma = s.dma := rfl
@[simp] theorem State.setPort_dmaQ (s : State) (p : Nat) (x : PortSt) : (s.setPort p x).dmaQ = s.dmaQ := rfl
@[simp] theorem State.setPort_logWait (s : State) (p : Nat) (x : PortSt) : (s.setPort p x).logWait = s.logWait := rfl
@[simp] theorem State.setPort_heldArr (s : State) (p : Nat) (x : PortSt) : (s.setPort p x).heldArr = s.heldArr := rfl
@[simp] theorem State.setPort_xl (s : State) (p : Nat) (x : PortSt) : (s.setPort p x).xl = s.xl := rfl
@[simp] theorem State.setPort_rma (s : State) (p : Nat) (x : PortSt) : (s.setPort p x).rma = s.rma := rfl
@[simp] theorem State.setPort_mt (s : State) (p : Nat) (x : PortSt) : (s.setPort p x).mt = s.mt := rfl
@[simp] theorem State.setPort_colls (s : State) (p : Nat) (x : PortSt) : (s.setPort p x).colls = s.colls := rfl
@[simp] theorem State.setPort_hand (s : State) (p : Nat) (x : PortSt) : (s.setPort p x).hand = s.hand := rfl
@[simp] theorem State.setPort_flt (s : State) (p : Nat) (x : PortSt) : (s.setPort p x).flt = s.flt := rfl
@[simp] theorem State.setPort_mon (s : State) (p : Nat) (x : PortSt) : (s.setPort p x).mon = s.mon := rfl
@[simp] theorem State.setPort_side (s : State) (p : Nat) (x : PortSt) : (s.setPort p x).side = s.side := rfl
@[simp] theorem State.setPort_pins (s : State) (p : Nat) (x : PortSt) : (s.setPort p x).pins = s.pins := rfl

/-! ## setLink -/

@[simp] theorem State.setLink_links (s : State) (p : Nat) (x : LinkSt) : (s.setLink p x).links = Table.put s.links p x := rfl
@[simp] theorem State.setLink_pending (s : State) (p : Nat) (x : LinkSt) : (s.setLink p x).pending = s.pending := rfl
@[simp] theorem State.setLink_out (s : State) (p : Nat) (x : LinkSt) : (s.setLink p x).out = s.out := rfl
@[simp] theorem State.setLink_freeCtr (s : State) (p : Nat) (x : LinkSt) : (s.setLink p x).freeCtr = s.freeCtr := rfl
@[simp] theorem State.setLink_powered (s : State) (p : Nat) (x : LinkSt) : (s.setLink p x).powered = s.powered := rfl
@[simp] theorem State.setLink_now (s : State) (p : Nat) (x : LinkSt) : (s.setLink p x).now = s.now := rfl
@[simp] theorem State.setLink_applyNs (s : State) (p : Nat) (x : LinkSt) : (s.setLink p x).applyNs = s.applyNs := rfl
@[simp] theorem State.setLink_regs (s : State) (p : Nat) (x : LinkSt) : (s.setLink p x).regs = s.regs := rfl
@[simp] theorem State.setLink_basicHeld (s : State) (p : Nat) (x : LinkSt) : (s.setLink p x).basicHeld = s.basicHeld := rfl
@[simp] theorem State.setLink_islands (s : State) (p : Nat) (x : LinkSt) : (s.setLink p x).islands = s.islands := rfl
@[simp] theorem State.setLink_fenced (s : State) (p : Nat) (x : LinkSt) : (s.setLink p x).fenced = s.fenced := rfl
@[simp] theorem State.setLink_engMap (s : State) (p : Nat) (x : LinkSt) : (s.setLink p x).engMap = s.engMap := rfl
@[simp] theorem State.setLink_spareMap (s : State) (p : Nat) (x : LinkSt) : (s.setLink p x).spareMap = s.spareMap := rfl
@[simp] theorem State.setLink_tileMap (s : State) (p : Nat) (x : LinkSt) : (s.setLink p x).tileMap = s.tileMap := rfl
@[simp] theorem State.setLink_spareTile (s : State) (p : Nat) (x : LinkSt) : (s.setLink p x).spareTile = s.spareTile := rfl
@[simp] theorem State.setLink_fuse (s : State) (p : Nat) (x : LinkSt) : (s.setLink p x).fuse = s.fuse := rfl
@[simp] theorem State.setLink_tailCache (s : State) (p : Nat) (x : LinkSt) : (s.setLink p x).tailCache = s.tailCache := rfl
@[simp] theorem State.setLink_img (s : State) (p : Nat) (x : LinkSt) : (s.setLink p x).img = s.img := rfl
@[simp] theorem State.setLink_ports (s : State) (p : Nat) (x : LinkSt) : (s.setLink p x).ports = s.ports := rfl
@[simp] theorem State.setLink_lanes (s : State) (p : Nat) (x : LinkSt) : (s.setLink p x).lanes = s.lanes := rfl
@[simp] theorem State.setLink_macros (s : State) (p : Nat) (x : LinkSt) : (s.setLink p x).macros = s.macros := rfl
@[simp] theorem State.setLink_wait (s : State) (p : Nat) (x : LinkSt) : (s.setLink p x).wait = s.wait := rfl
@[simp] theorem State.setLink_nextId (s : State) (p : Nat) (x : LinkSt) : (s.setLink p x).nextId = s.nextId := rfl
@[simp] theorem State.setLink_outs (s : State) (p : Nat) (x : LinkSt) : (s.setLink p x).outs = s.outs := rfl
@[simp] theorem State.setLink_announced (s : State) (p : Nat) (x : LinkSt) : (s.setLink p x).announced = s.announced := rfl
@[simp] theorem State.setLink_route (s : State) (p : Nat) (x : LinkSt) : (s.setLink p x).route = s.route := rfl
@[simp] theorem State.setLink_xp (s : State) (p : Nat) (x : LinkSt) : (s.setLink p x).xp = s.xp := rfl
@[simp] theorem State.setLink_sqs (s : State) (p : Nat) (x : LinkSt) : (s.setLink p x).sqs = s.sqs := rfl
@[simp] theorem State.setLink_cqs (s : State) (p : Nat) (x : LinkSt) : (s.setLink p x).cqs = s.cqs := rfl
@[simp] theorem State.setLink_insts (s : State) (p : Nat) (x : LinkSt) : (s.setLink p x).insts = s.insts := rfl
@[simp] theorem State.setLink_hosts (s : State) (p : Nat) (x : LinkSt) : (s.setLink p x).hosts = s.hosts := rfl
@[simp] theorem State.setLink_dma (s : State) (p : Nat) (x : LinkSt) : (s.setLink p x).dma = s.dma := rfl
@[simp] theorem State.setLink_dmaQ (s : State) (p : Nat) (x : LinkSt) : (s.setLink p x).dmaQ = s.dmaQ := rfl
@[simp] theorem State.setLink_logWait (s : State) (p : Nat) (x : LinkSt) : (s.setLink p x).logWait = s.logWait := rfl
@[simp] theorem State.setLink_heldArr (s : State) (p : Nat) (x : LinkSt) : (s.setLink p x).heldArr = s.heldArr := rfl
@[simp] theorem State.setLink_xl (s : State) (p : Nat) (x : LinkSt) : (s.setLink p x).xl = s.xl := rfl
@[simp] theorem State.setLink_rma (s : State) (p : Nat) (x : LinkSt) : (s.setLink p x).rma = s.rma := rfl
@[simp] theorem State.setLink_mt (s : State) (p : Nat) (x : LinkSt) : (s.setLink p x).mt = s.mt := rfl
@[simp] theorem State.setLink_colls (s : State) (p : Nat) (x : LinkSt) : (s.setLink p x).colls = s.colls := rfl
@[simp] theorem State.setLink_hand (s : State) (p : Nat) (x : LinkSt) : (s.setLink p x).hand = s.hand := rfl
@[simp] theorem State.setLink_flt (s : State) (p : Nat) (x : LinkSt) : (s.setLink p x).flt = s.flt := rfl
@[simp] theorem State.setLink_mon (s : State) (p : Nat) (x : LinkSt) : (s.setLink p x).mon = s.mon := rfl
@[simp] theorem State.setLink_side (s : State) (p : Nat) (x : LinkSt) : (s.setLink p x).side = s.side := rfl
@[simp] theorem State.setLink_pins (s : State) (p : Nat) (x : LinkSt) : (s.setLink p x).pins = s.pins := rfl

/-! ## setLane -/

@[simp] theorem State.setLane_lanes (s : State) (k : Nat) (x : LaneSt) : (s.setLane k x).lanes = Table.put s.lanes k x := rfl
@[simp] theorem State.setLane_pending (s : State) (k : Nat) (x : LaneSt) : (s.setLane k x).pending = s.pending := rfl
@[simp] theorem State.setLane_out (s : State) (k : Nat) (x : LaneSt) : (s.setLane k x).out = s.out := rfl
@[simp] theorem State.setLane_freeCtr (s : State) (k : Nat) (x : LaneSt) : (s.setLane k x).freeCtr = s.freeCtr := rfl
@[simp] theorem State.setLane_powered (s : State) (k : Nat) (x : LaneSt) : (s.setLane k x).powered = s.powered := rfl
@[simp] theorem State.setLane_now (s : State) (k : Nat) (x : LaneSt) : (s.setLane k x).now = s.now := rfl
@[simp] theorem State.setLane_applyNs (s : State) (k : Nat) (x : LaneSt) : (s.setLane k x).applyNs = s.applyNs := rfl
@[simp] theorem State.setLane_regs (s : State) (k : Nat) (x : LaneSt) : (s.setLane k x).regs = s.regs := rfl
@[simp] theorem State.setLane_basicHeld (s : State) (k : Nat) (x : LaneSt) : (s.setLane k x).basicHeld = s.basicHeld := rfl
@[simp] theorem State.setLane_islands (s : State) (k : Nat) (x : LaneSt) : (s.setLane k x).islands = s.islands := rfl
@[simp] theorem State.setLane_fenced (s : State) (k : Nat) (x : LaneSt) : (s.setLane k x).fenced = s.fenced := rfl
@[simp] theorem State.setLane_engMap (s : State) (k : Nat) (x : LaneSt) : (s.setLane k x).engMap = s.engMap := rfl
@[simp] theorem State.setLane_spareMap (s : State) (k : Nat) (x : LaneSt) : (s.setLane k x).spareMap = s.spareMap := rfl
@[simp] theorem State.setLane_tileMap (s : State) (k : Nat) (x : LaneSt) : (s.setLane k x).tileMap = s.tileMap := rfl
@[simp] theorem State.setLane_spareTile (s : State) (k : Nat) (x : LaneSt) : (s.setLane k x).spareTile = s.spareTile := rfl
@[simp] theorem State.setLane_fuse (s : State) (k : Nat) (x : LaneSt) : (s.setLane k x).fuse = s.fuse := rfl
@[simp] theorem State.setLane_tailCache (s : State) (k : Nat) (x : LaneSt) : (s.setLane k x).tailCache = s.tailCache := rfl
@[simp] theorem State.setLane_img (s : State) (k : Nat) (x : LaneSt) : (s.setLane k x).img = s.img := rfl
@[simp] theorem State.setLane_ports (s : State) (k : Nat) (x : LaneSt) : (s.setLane k x).ports = s.ports := rfl
@[simp] theorem State.setLane_macros (s : State) (k : Nat) (x : LaneSt) : (s.setLane k x).macros = s.macros := rfl
@[simp] theorem State.setLane_links (s : State) (k : Nat) (x : LaneSt) : (s.setLane k x).links = s.links := rfl
@[simp] theorem State.setLane_wait (s : State) (k : Nat) (x : LaneSt) : (s.setLane k x).wait = s.wait := rfl
@[simp] theorem State.setLane_nextId (s : State) (k : Nat) (x : LaneSt) : (s.setLane k x).nextId = s.nextId := rfl
@[simp] theorem State.setLane_outs (s : State) (k : Nat) (x : LaneSt) : (s.setLane k x).outs = s.outs := rfl
@[simp] theorem State.setLane_announced (s : State) (k : Nat) (x : LaneSt) : (s.setLane k x).announced = s.announced := rfl
@[simp] theorem State.setLane_route (s : State) (k : Nat) (x : LaneSt) : (s.setLane k x).route = s.route := rfl
@[simp] theorem State.setLane_xp (s : State) (k : Nat) (x : LaneSt) : (s.setLane k x).xp = s.xp := rfl
@[simp] theorem State.setLane_sqs (s : State) (k : Nat) (x : LaneSt) : (s.setLane k x).sqs = s.sqs := rfl
@[simp] theorem State.setLane_cqs (s : State) (k : Nat) (x : LaneSt) : (s.setLane k x).cqs = s.cqs := rfl
@[simp] theorem State.setLane_insts (s : State) (k : Nat) (x : LaneSt) : (s.setLane k x).insts = s.insts := rfl
@[simp] theorem State.setLane_hosts (s : State) (k : Nat) (x : LaneSt) : (s.setLane k x).hosts = s.hosts := rfl
@[simp] theorem State.setLane_dma (s : State) (k : Nat) (x : LaneSt) : (s.setLane k x).dma = s.dma := rfl
@[simp] theorem State.setLane_dmaQ (s : State) (k : Nat) (x : LaneSt) : (s.setLane k x).dmaQ = s.dmaQ := rfl
@[simp] theorem State.setLane_logWait (s : State) (k : Nat) (x : LaneSt) : (s.setLane k x).logWait = s.logWait := rfl
@[simp] theorem State.setLane_heldArr (s : State) (k : Nat) (x : LaneSt) : (s.setLane k x).heldArr = s.heldArr := rfl
@[simp] theorem State.setLane_xl (s : State) (k : Nat) (x : LaneSt) : (s.setLane k x).xl = s.xl := rfl
@[simp] theorem State.setLane_rma (s : State) (k : Nat) (x : LaneSt) : (s.setLane k x).rma = s.rma := rfl
@[simp] theorem State.setLane_mt (s : State) (k : Nat) (x : LaneSt) : (s.setLane k x).mt = s.mt := rfl
@[simp] theorem State.setLane_colls (s : State) (k : Nat) (x : LaneSt) : (s.setLane k x).colls = s.colls := rfl
@[simp] theorem State.setLane_hand (s : State) (k : Nat) (x : LaneSt) : (s.setLane k x).hand = s.hand := rfl
@[simp] theorem State.setLane_flt (s : State) (k : Nat) (x : LaneSt) : (s.setLane k x).flt = s.flt := rfl
@[simp] theorem State.setLane_mon (s : State) (k : Nat) (x : LaneSt) : (s.setLane k x).mon = s.mon := rfl
@[simp] theorem State.setLane_side (s : State) (k : Nat) (x : LaneSt) : (s.setLane k x).side = s.side := rfl
@[simp] theorem State.setLane_pins (s : State) (k : Nat) (x : LaneSt) : (s.setLane k x).pins = s.pins := rfl

/-! ## setIsland -/

@[simp] theorem State.setIsland_islands (s : State) (i : Nat) (x : Island) : (s.setIsland i x).islands = Table.put s.islands i x := rfl
@[simp] theorem State.setIsland_pending (s : State) (i : Nat) (x : Island) : (s.setIsland i x).pending = s.pending := rfl
@[simp] theorem State.setIsland_out (s : State) (i : Nat) (x : Island) : (s.setIsland i x).out = s.out := rfl
@[simp] theorem State.setIsland_freeCtr (s : State) (i : Nat) (x : Island) : (s.setIsland i x).freeCtr = s.freeCtr := rfl
@[simp] theorem State.setIsland_powered (s : State) (i : Nat) (x : Island) : (s.setIsland i x).powered = s.powered := rfl
@[simp] theorem State.setIsland_now (s : State) (i : Nat) (x : Island) : (s.setIsland i x).now = s.now := rfl
@[simp] theorem State.setIsland_applyNs (s : State) (i : Nat) (x : Island) : (s.setIsland i x).applyNs = s.applyNs := rfl
@[simp] theorem State.setIsland_regs (s : State) (i : Nat) (x : Island) : (s.setIsland i x).regs = s.regs := rfl
@[simp] theorem State.setIsland_basicHeld (s : State) (i : Nat) (x : Island) : (s.setIsland i x).basicHeld = s.basicHeld := rfl
@[simp] theorem State.setIsland_fenced (s : State) (i : Nat) (x : Island) : (s.setIsland i x).fenced = s.fenced := rfl
@[simp] theorem State.setIsland_engMap (s : State) (i : Nat) (x : Island) : (s.setIsland i x).engMap = s.engMap := rfl
@[simp] theorem State.setIsland_spareMap (s : State) (i : Nat) (x : Island) : (s.setIsland i x).spareMap = s.spareMap := rfl
@[simp] theorem State.setIsland_tileMap (s : State) (i : Nat) (x : Island) : (s.setIsland i x).tileMap = s.tileMap := rfl
@[simp] theorem State.setIsland_spareTile (s : State) (i : Nat) (x : Island) : (s.setIsland i x).spareTile = s.spareTile := rfl
@[simp] theorem State.setIsland_fuse (s : State) (i : Nat) (x : Island) : (s.setIsland i x).fuse = s.fuse := rfl
@[simp] theorem State.setIsland_tailCache (s : State) (i : Nat) (x : Island) : (s.setIsland i x).tailCache = s.tailCache := rfl
@[simp] theorem State.setIsland_img (s : State) (i : Nat) (x : Island) : (s.setIsland i x).img = s.img := rfl
@[simp] theorem State.setIsland_ports (s : State) (i : Nat) (x : Island) : (s.setIsland i x).ports = s.ports := rfl
@[simp] theorem State.setIsland_lanes (s : State) (i : Nat) (x : Island) : (s.setIsland i x).lanes = s.lanes := rfl
@[simp] theorem State.setIsland_macros (s : State) (i : Nat) (x : Island) : (s.setIsland i x).macros = s.macros := rfl
@[simp] theorem State.setIsland_links (s : State) (i : Nat) (x : Island) : (s.setIsland i x).links = s.links := rfl
@[simp] theorem State.setIsland_wait (s : State) (i : Nat) (x : Island) : (s.setIsland i x).wait = s.wait := rfl
@[simp] theorem State.setIsland_nextId (s : State) (i : Nat) (x : Island) : (s.setIsland i x).nextId = s.nextId := rfl
@[simp] theorem State.setIsland_outs (s : State) (i : Nat) (x : Island) : (s.setIsland i x).outs = s.outs := rfl
@[simp] theorem State.setIsland_announced (s : State) (i : Nat) (x : Island) : (s.setIsland i x).announced = s.announced := rfl
@[simp] theorem State.setIsland_route (s : State) (i : Nat) (x : Island) : (s.setIsland i x).route = s.route := rfl
@[simp] theorem State.setIsland_xp (s : State) (i : Nat) (x : Island) : (s.setIsland i x).xp = s.xp := rfl
@[simp] theorem State.setIsland_sqs (s : State) (i : Nat) (x : Island) : (s.setIsland i x).sqs = s.sqs := rfl
@[simp] theorem State.setIsland_cqs (s : State) (i : Nat) (x : Island) : (s.setIsland i x).cqs = s.cqs := rfl
@[simp] theorem State.setIsland_insts (s : State) (i : Nat) (x : Island) : (s.setIsland i x).insts = s.insts := rfl
@[simp] theorem State.setIsland_hosts (s : State) (i : Nat) (x : Island) : (s.setIsland i x).hosts = s.hosts := rfl
@[simp] theorem State.setIsland_dma (s : State) (i : Nat) (x : Island) : (s.setIsland i x).dma = s.dma := rfl
@[simp] theorem State.setIsland_dmaQ (s : State) (i : Nat) (x : Island) : (s.setIsland i x).dmaQ = s.dmaQ := rfl
@[simp] theorem State.setIsland_logWait (s : State) (i : Nat) (x : Island) : (s.setIsland i x).logWait = s.logWait := rfl
@[simp] theorem State.setIsland_heldArr (s : State) (i : Nat) (x : Island) : (s.setIsland i x).heldArr = s.heldArr := rfl
@[simp] theorem State.setIsland_xl (s : State) (i : Nat) (x : Island) : (s.setIsland i x).xl = s.xl := rfl
@[simp] theorem State.setIsland_rma (s : State) (i : Nat) (x : Island) : (s.setIsland i x).rma = s.rma := rfl
@[simp] theorem State.setIsland_mt (s : State) (i : Nat) (x : Island) : (s.setIsland i x).mt = s.mt := rfl
@[simp] theorem State.setIsland_colls (s : State) (i : Nat) (x : Island) : (s.setIsland i x).colls = s.colls := rfl
@[simp] theorem State.setIsland_hand (s : State) (i : Nat) (x : Island) : (s.setIsland i x).hand = s.hand := rfl
@[simp] theorem State.setIsland_flt (s : State) (i : Nat) (x : Island) : (s.setIsland i x).flt = s.flt := rfl
@[simp] theorem State.setIsland_mon (s : State) (i : Nat) (x : Island) : (s.setIsland i x).mon = s.mon := rfl
@[simp] theorem State.setIsland_side (s : State) (i : Nat) (x : Island) : (s.setIsland i x).side = s.side := rfl
@[simp] theorem State.setIsland_pins (s : State) (i : Nat) (x : Island) : (s.setIsland i x).pins = s.pins := rfl

/-! ## setOp -/

@[simp] theorem State.setOp_pending (s : State) (o : Nat) (x : OpSt) : (s.setOp o x).pending = s.pending := rfl
@[simp] theorem State.setOp_out (s : State) (o : Nat) (x : OpSt) : (s.setOp o x).out = s.out := rfl
@[simp] theorem State.setOp_freeCtr (s : State) (o : Nat) (x : OpSt) : (s.setOp o x).freeCtr = s.freeCtr := rfl
@[simp] theorem State.setOp_powered (s : State) (o : Nat) (x : OpSt) : (s.setOp o x).powered = s.powered := rfl
@[simp] theorem State.setOp_now (s : State) (o : Nat) (x : OpSt) : (s.setOp o x).now = s.now := rfl
@[simp] theorem State.setOp_applyNs (s : State) (o : Nat) (x : OpSt) : (s.setOp o x).applyNs = s.applyNs := rfl
@[simp] theorem State.setOp_regs (s : State) (o : Nat) (x : OpSt) : (s.setOp o x).regs = s.regs := rfl
@[simp] theorem State.setOp_basicHeld (s : State) (o : Nat) (x : OpSt) : (s.setOp o x).basicHeld = s.basicHeld := rfl
@[simp] theorem State.setOp_islands (s : State) (o : Nat) (x : OpSt) : (s.setOp o x).islands = s.islands := rfl
@[simp] theorem State.setOp_fenced (s : State) (o : Nat) (x : OpSt) : (s.setOp o x).fenced = s.fenced := rfl
@[simp] theorem State.setOp_engMap (s : State) (o : Nat) (x : OpSt) : (s.setOp o x).engMap = s.engMap := rfl
@[simp] theorem State.setOp_spareMap (s : State) (o : Nat) (x : OpSt) : (s.setOp o x).spareMap = s.spareMap := rfl
@[simp] theorem State.setOp_tileMap (s : State) (o : Nat) (x : OpSt) : (s.setOp o x).tileMap = s.tileMap := rfl
@[simp] theorem State.setOp_spareTile (s : State) (o : Nat) (x : OpSt) : (s.setOp o x).spareTile = s.spareTile := rfl
@[simp] theorem State.setOp_fuse (s : State) (o : Nat) (x : OpSt) : (s.setOp o x).fuse = s.fuse := rfl
@[simp] theorem State.setOp_tailCache (s : State) (o : Nat) (x : OpSt) : (s.setOp o x).tailCache = s.tailCache := rfl
@[simp] theorem State.setOp_img (s : State) (o : Nat) (x : OpSt) : (s.setOp o x).img = s.img := rfl
@[simp] theorem State.setOp_ports (s : State) (o : Nat) (x : OpSt) : (s.setOp o x).ports = s.ports := rfl
@[simp] theorem State.setOp_lanes (s : State) (o : Nat) (x : OpSt) : (s.setOp o x).lanes = s.lanes := rfl
@[simp] theorem State.setOp_macros (s : State) (o : Nat) (x : OpSt) : (s.setOp o x).macros = s.macros := rfl
@[simp] theorem State.setOp_links (s : State) (o : Nat) (x : OpSt) : (s.setOp o x).links = s.links := rfl
@[simp] theorem State.setOp_wait (s : State) (o : Nat) (x : OpSt) : (s.setOp o x).wait = s.wait := rfl
@[simp] theorem State.setOp_nextId (s : State) (o : Nat) (x : OpSt) : (s.setOp o x).nextId = s.nextId := rfl
@[simp] theorem State.setOp_outs (s : State) (o : Nat) (x : OpSt) : (s.setOp o x).outs = s.outs := rfl
@[simp] theorem State.setOp_announced (s : State) (o : Nat) (x : OpSt) : (s.setOp o x).announced = s.announced := rfl
@[simp] theorem State.setOp_route (s : State) (o : Nat) (x : OpSt) : (s.setOp o x).route = s.route := rfl
@[simp] theorem State.setOp_xp (s : State) (o : Nat) (x : OpSt) : (s.setOp o x).xp = s.xp := rfl
@[simp] theorem State.setOp_sqs (s : State) (o : Nat) (x : OpSt) : (s.setOp o x).sqs = s.sqs := rfl
@[simp] theorem State.setOp_cqs (s : State) (o : Nat) (x : OpSt) : (s.setOp o x).cqs = s.cqs := rfl
@[simp] theorem State.setOp_insts (s : State) (o : Nat) (x : OpSt) : (s.setOp o x).insts = s.insts := rfl
@[simp] theorem State.setOp_hosts (s : State) (o : Nat) (x : OpSt) : (s.setOp o x).hosts = s.hosts := rfl
@[simp] theorem State.setOp_dma (s : State) (o : Nat) (x : OpSt) : (s.setOp o x).dma = s.dma := rfl
@[simp] theorem State.setOp_dmaQ (s : State) (o : Nat) (x : OpSt) : (s.setOp o x).dmaQ = s.dmaQ := rfl
@[simp] theorem State.setOp_logWait (s : State) (o : Nat) (x : OpSt) : (s.setOp o x).logWait = s.logWait := rfl
@[simp] theorem State.setOp_heldArr (s : State) (o : Nat) (x : OpSt) : (s.setOp o x).heldArr = s.heldArr := rfl
@[simp] theorem State.setOp_xl (s : State) (o : Nat) (x : OpSt) : (s.setOp o x).xl = s.xl := rfl
@[simp] theorem State.setOp_mt (s : State) (o : Nat) (x : OpSt) : (s.setOp o x).mt = s.mt := rfl
@[simp] theorem State.setOp_colls (s : State) (o : Nat) (x : OpSt) : (s.setOp o x).colls = s.colls := rfl
@[simp] theorem State.setOp_hand (s : State) (o : Nat) (x : OpSt) : (s.setOp o x).hand = s.hand := rfl
@[simp] theorem State.setOp_flt (s : State) (o : Nat) (x : OpSt) : (s.setOp o x).flt = s.flt := rfl
@[simp] theorem State.setOp_mon (s : State) (o : Nat) (x : OpSt) : (s.setOp o x).mon = s.mon := rfl
@[simp] theorem State.setOp_side (s : State) (o : Nat) (x : OpSt) : (s.setOp o x).side = s.side := rfl
@[simp] theorem State.setOp_pins (s : State) (o : Nat) (x : OpSt) : (s.setOp o x).pins = s.pins := rfl

/-! ## hbmWrite -/

@[simp] theorem State.hbmWrite_pending (s : State) (a : Nat) (l : List Byte) : (s.hbmWrite a l).pending = s.pending := rfl
@[simp] theorem State.hbmWrite_out (s : State) (a : Nat) (l : List Byte) : (s.hbmWrite a l).out = s.out := rfl
@[simp] theorem State.hbmWrite_freeCtr (s : State) (a : Nat) (l : List Byte) : (s.hbmWrite a l).freeCtr = s.freeCtr := rfl
@[simp] theorem State.hbmWrite_powered (s : State) (a : Nat) (l : List Byte) : (s.hbmWrite a l).powered = s.powered := rfl
@[simp] theorem State.hbmWrite_now (s : State) (a : Nat) (l : List Byte) : (s.hbmWrite a l).now = s.now := rfl
@[simp] theorem State.hbmWrite_applyNs (s : State) (a : Nat) (l : List Byte) : (s.hbmWrite a l).applyNs = s.applyNs := rfl
@[simp] theorem State.hbmWrite_regs (s : State) (a : Nat) (l : List Byte) : (s.hbmWrite a l).regs = s.regs := rfl
@[simp] theorem State.hbmWrite_basicHeld (s : State) (a : Nat) (l : List Byte) : (s.hbmWrite a l).basicHeld = s.basicHeld := rfl
@[simp] theorem State.hbmWrite_islands (s : State) (a : Nat) (l : List Byte) : (s.hbmWrite a l).islands = s.islands := rfl
@[simp] theorem State.hbmWrite_fenced (s : State) (a : Nat) (l : List Byte) : (s.hbmWrite a l).fenced = s.fenced := rfl
@[simp] theorem State.hbmWrite_engMap (s : State) (a : Nat) (l : List Byte) : (s.hbmWrite a l).engMap = s.engMap := rfl
@[simp] theorem State.hbmWrite_spareMap (s : State) (a : Nat) (l : List Byte) : (s.hbmWrite a l).spareMap = s.spareMap := rfl
@[simp] theorem State.hbmWrite_tileMap (s : State) (a : Nat) (l : List Byte) : (s.hbmWrite a l).tileMap = s.tileMap := rfl
@[simp] theorem State.hbmWrite_spareTile (s : State) (a : Nat) (l : List Byte) : (s.hbmWrite a l).spareTile = s.spareTile := rfl
@[simp] theorem State.hbmWrite_fuse (s : State) (a : Nat) (l : List Byte) : (s.hbmWrite a l).fuse = s.fuse := rfl
@[simp] theorem State.hbmWrite_tailCache (s : State) (a : Nat) (l : List Byte) : (s.hbmWrite a l).tailCache = s.tailCache := rfl
@[simp] theorem State.hbmWrite_img (s : State) (a : Nat) (l : List Byte) : (s.hbmWrite a l).img = s.img := rfl
@[simp] theorem State.hbmWrite_ports (s : State) (a : Nat) (l : List Byte) : (s.hbmWrite a l).ports = s.ports := rfl
@[simp] theorem State.hbmWrite_lanes (s : State) (a : Nat) (l : List Byte) : (s.hbmWrite a l).lanes = s.lanes := rfl
@[simp] theorem State.hbmWrite_macros (s : State) (a : Nat) (l : List Byte) : (s.hbmWrite a l).macros = s.macros := rfl
@[simp] theorem State.hbmWrite_links (s : State) (a : Nat) (l : List Byte) : (s.hbmWrite a l).links = s.links := rfl
@[simp] theorem State.hbmWrite_wait (s : State) (a : Nat) (l : List Byte) : (s.hbmWrite a l).wait = s.wait := rfl
@[simp] theorem State.hbmWrite_nextId (s : State) (a : Nat) (l : List Byte) : (s.hbmWrite a l).nextId = s.nextId := rfl
@[simp] theorem State.hbmWrite_outs (s : State) (a : Nat) (l : List Byte) : (s.hbmWrite a l).outs = s.outs := rfl
@[simp] theorem State.hbmWrite_announced (s : State) (a : Nat) (l : List Byte) : (s.hbmWrite a l).announced = s.announced := rfl
@[simp] theorem State.hbmWrite_route (s : State) (a : Nat) (l : List Byte) : (s.hbmWrite a l).route = s.route := rfl
@[simp] theorem State.hbmWrite_xp (s : State) (a : Nat) (l : List Byte) : (s.hbmWrite a l).xp = s.xp := rfl
@[simp] theorem State.hbmWrite_sqs (s : State) (a : Nat) (l : List Byte) : (s.hbmWrite a l).sqs = s.sqs := rfl
@[simp] theorem State.hbmWrite_cqs (s : State) (a : Nat) (l : List Byte) : (s.hbmWrite a l).cqs = s.cqs := rfl
@[simp] theorem State.hbmWrite_insts (s : State) (a : Nat) (l : List Byte) : (s.hbmWrite a l).insts = s.insts := rfl
@[simp] theorem State.hbmWrite_hosts (s : State) (a : Nat) (l : List Byte) : (s.hbmWrite a l).hosts = s.hosts := rfl
@[simp] theorem State.hbmWrite_dma (s : State) (a : Nat) (l : List Byte) : (s.hbmWrite a l).dma = s.dma := rfl
@[simp] theorem State.hbmWrite_dmaQ (s : State) (a : Nat) (l : List Byte) : (s.hbmWrite a l).dmaQ = s.dmaQ := rfl
@[simp] theorem State.hbmWrite_logWait (s : State) (a : Nat) (l : List Byte) : (s.hbmWrite a l).logWait = s.logWait := rfl
@[simp] theorem State.hbmWrite_heldArr (s : State) (a : Nat) (l : List Byte) : (s.hbmWrite a l).heldArr = s.heldArr := rfl
@[simp] theorem State.hbmWrite_xl (s : State) (a : Nat) (l : List Byte) : (s.hbmWrite a l).xl = s.xl := rfl
@[simp] theorem State.hbmWrite_mt (s : State) (a : Nat) (l : List Byte) : (s.hbmWrite a l).mt = s.mt := rfl
@[simp] theorem State.hbmWrite_colls (s : State) (a : Nat) (l : List Byte) : (s.hbmWrite a l).colls = s.colls := rfl
@[simp] theorem State.hbmWrite_hand (s : State) (a : Nat) (l : List Byte) : (s.hbmWrite a l).hand = s.hand := rfl
@[simp] theorem State.hbmWrite_flt (s : State) (a : Nat) (l : List Byte) : (s.hbmWrite a l).flt = s.flt := rfl
@[simp] theorem State.hbmWrite_mon (s : State) (a : Nat) (l : List Byte) : (s.hbmWrite a l).mon = s.mon := rfl
@[simp] theorem State.hbmWrite_side (s : State) (a : Nat) (l : List Byte) : (s.hbmWrite a l).side = s.side := rfl
@[simp] theorem State.hbmWrite_pins (s : State) (a : Nat) (l : List Byte) : (s.hbmWrite a l).pins = s.pins := rfl

/-! ## drivePins -/

@[simp] theorem State.drivePins_pins (s : State) : s.drivePins.pins = s.levels := rfl
@[simp] theorem State.drivePins_pending (s : State) : (s.drivePins).pending = s.pending := rfl
@[simp] theorem State.drivePins_out (s : State) : (s.drivePins).out = s.out := rfl
@[simp] theorem State.drivePins_freeCtr (s : State) : (s.drivePins).freeCtr = s.freeCtr := rfl
@[simp] theorem State.drivePins_powered (s : State) : (s.drivePins).powered = s.powered := rfl
@[simp] theorem State.drivePins_now (s : State) : (s.drivePins).now = s.now := rfl
@[simp] theorem State.drivePins_applyNs (s : State) : (s.drivePins).applyNs = s.applyNs := rfl
@[simp] theorem State.drivePins_regs (s : State) : (s.drivePins).regs = s.regs := rfl
@[simp] theorem State.drivePins_basicHeld (s : State) : (s.drivePins).basicHeld = s.basicHeld := rfl
@[simp] theorem State.drivePins_islands (s : State) : (s.drivePins).islands = s.islands := rfl
@[simp] theorem State.drivePins_fenced (s : State) : (s.drivePins).fenced = s.fenced := rfl
@[simp] theorem State.drivePins_engMap (s : State) : (s.drivePins).engMap = s.engMap := rfl
@[simp] theorem State.drivePins_spareMap (s : State) : (s.drivePins).spareMap = s.spareMap := rfl
@[simp] theorem State.drivePins_tileMap (s : State) : (s.drivePins).tileMap = s.tileMap := rfl
@[simp] theorem State.drivePins_spareTile (s : State) : (s.drivePins).spareTile = s.spareTile := rfl
@[simp] theorem State.drivePins_fuse (s : State) : (s.drivePins).fuse = s.fuse := rfl
@[simp] theorem State.drivePins_tailCache (s : State) : (s.drivePins).tailCache = s.tailCache := rfl
@[simp] theorem State.drivePins_img (s : State) : (s.drivePins).img = s.img := rfl
@[simp] theorem State.drivePins_ports (s : State) : (s.drivePins).ports = s.ports := rfl
@[simp] theorem State.drivePins_lanes (s : State) : (s.drivePins).lanes = s.lanes := rfl
@[simp] theorem State.drivePins_macros (s : State) : (s.drivePins).macros = s.macros := rfl
@[simp] theorem State.drivePins_links (s : State) : (s.drivePins).links = s.links := rfl
@[simp] theorem State.drivePins_wait (s : State) : (s.drivePins).wait = s.wait := rfl
@[simp] theorem State.drivePins_nextId (s : State) : (s.drivePins).nextId = s.nextId := rfl
@[simp] theorem State.drivePins_outs (s : State) : (s.drivePins).outs = s.outs := rfl
@[simp] theorem State.drivePins_announced (s : State) : (s.drivePins).announced = s.announced := rfl
@[simp] theorem State.drivePins_route (s : State) : (s.drivePins).route = s.route := rfl
@[simp] theorem State.drivePins_xp (s : State) : (s.drivePins).xp = s.xp := rfl
@[simp] theorem State.drivePins_sqs (s : State) : (s.drivePins).sqs = s.sqs := rfl
@[simp] theorem State.drivePins_cqs (s : State) : (s.drivePins).cqs = s.cqs := rfl
@[simp] theorem State.drivePins_insts (s : State) : (s.drivePins).insts = s.insts := rfl
@[simp] theorem State.drivePins_hosts (s : State) : (s.drivePins).hosts = s.hosts := rfl
@[simp] theorem State.drivePins_dma (s : State) : (s.drivePins).dma = s.dma := rfl
@[simp] theorem State.drivePins_dmaQ (s : State) : (s.drivePins).dmaQ = s.dmaQ := rfl
@[simp] theorem State.drivePins_logWait (s : State) : (s.drivePins).logWait = s.logWait := rfl
@[simp] theorem State.drivePins_heldArr (s : State) : (s.drivePins).heldArr = s.heldArr := rfl
@[simp] theorem State.drivePins_xl (s : State) : (s.drivePins).xl = s.xl := rfl
@[simp] theorem State.drivePins_rma (s : State) : (s.drivePins).rma = s.rma := rfl
@[simp] theorem State.drivePins_mt (s : State) : (s.drivePins).mt = s.mt := rfl
@[simp] theorem State.drivePins_colls (s : State) : (s.drivePins).colls = s.colls := rfl
@[simp] theorem State.drivePins_hand (s : State) : (s.drivePins).hand = s.hand := rfl
@[simp] theorem State.drivePins_flt (s : State) : (s.drivePins).flt = s.flt := rfl
@[simp] theorem State.drivePins_mon (s : State) : (s.drivePins).mon = s.mon := rfl
@[simp] theorem State.drivePins_side (s : State) : (s.drivePins).side = s.side := rfl

/-! ## keep -/

@[simp] theorem State.keep_pending (s t : State) : (s.keep t).pending = s.pending := rfl
@[simp] theorem State.keep_out (s t : State) : (s.keep t).out = t.out := rfl
@[simp] theorem State.keep_freeCtr (s t : State) : (s.keep t).freeCtr = t.freeCtr := rfl
@[simp] theorem State.keep_powered (s t : State) : (s.keep t).powered = t.powered := rfl
@[simp] theorem State.keep_now (s t : State) : (s.keep t).now = t.now := rfl
@[simp] theorem State.keep_applyNs (s t : State) : (s.keep t).applyNs = t.applyNs := rfl
@[simp] theorem State.keep_regs (s t : State) : (s.keep t).regs = t.regs := rfl
@[simp] theorem State.keep_basicHeld (s t : State) : (s.keep t).basicHeld = t.basicHeld := rfl
@[simp] theorem State.keep_islands (s t : State) : (s.keep t).islands = t.islands := rfl
@[simp] theorem State.keep_fenced (s t : State) : (s.keep t).fenced = t.fenced := rfl
@[simp] theorem State.keep_engMap (s t : State) : (s.keep t).engMap = t.engMap := rfl
@[simp] theorem State.keep_spareMap (s t : State) : (s.keep t).spareMap = t.spareMap := rfl
@[simp] theorem State.keep_tileMap (s t : State) : (s.keep t).tileMap = t.tileMap := rfl
@[simp] theorem State.keep_spareTile (s t : State) : (s.keep t).spareTile = t.spareTile := rfl
@[simp] theorem State.keep_fuse (s t : State) : (s.keep t).fuse = s.fuse := rfl
@[simp] theorem State.keep_tailCache (s t : State) : (s.keep t).tailCache = t.tailCache := rfl
@[simp] theorem State.keep_ports (s t : State) : (s.keep t).ports = t.ports := rfl
@[simp] theorem State.keep_lanes (s t : State) : (s.keep t).lanes = t.lanes := rfl
@[simp] theorem State.keep_macros (s t : State) : (s.keep t).macros = t.macros := rfl
@[simp] theorem State.keep_links (s t : State) : (s.keep t).links = t.links := rfl
@[simp] theorem State.keep_wait (s t : State) : (s.keep t).wait = t.wait := rfl
@[simp] theorem State.keep_nextId (s t : State) : (s.keep t).nextId = t.nextId := rfl
@[simp] theorem State.keep_outs (s t : State) : (s.keep t).outs = t.outs := rfl
@[simp] theorem State.keep_announced (s t : State) : (s.keep t).announced = t.announced := rfl
@[simp] theorem State.keep_route (s t : State) : (s.keep t).route = t.route := rfl
@[simp] theorem State.keep_xp (s t : State) : (s.keep t).xp = t.xp := rfl
@[simp] theorem State.keep_sqs (s t : State) : (s.keep t).sqs = t.sqs := rfl
@[simp] theorem State.keep_cqs (s t : State) : (s.keep t).cqs = t.cqs := rfl
@[simp] theorem State.keep_insts (s t : State) : (s.keep t).insts = t.insts := rfl
@[simp] theorem State.keep_hosts (s t : State) : (s.keep t).hosts = t.hosts := rfl
@[simp] theorem State.keep_dma (s t : State) : (s.keep t).dma = t.dma := rfl
@[simp] theorem State.keep_dmaQ (s t : State) : (s.keep t).dmaQ = t.dmaQ := rfl
@[simp] theorem State.keep_logWait (s t : State) : (s.keep t).logWait = t.logWait := rfl
@[simp] theorem State.keep_heldArr (s t : State) : (s.keep t).heldArr = t.heldArr := rfl
@[simp] theorem State.keep_xl (s t : State) : (s.keep t).xl = t.xl := rfl
@[simp] theorem State.keep_rma (s t : State) : (s.keep t).rma = t.rma := rfl
@[simp] theorem State.keep_mt (s t : State) : (s.keep t).mt = t.mt := rfl
@[simp] theorem State.keep_colls (s t : State) : (s.keep t).colls = t.colls := rfl
@[simp] theorem State.keep_hand (s t : State) : (s.keep t).hand = t.hand := rfl
@[simp] theorem State.keep_flt (s t : State) : (s.keep t).flt = t.flt := rfl
@[simp] theorem State.keep_mon (s t : State) : (s.keep t).mon = t.mon := rfl
@[simp] theorem State.keep_side (s t : State) : (s.keep t).side = t.side := rfl
@[simp] theorem State.keep_pins (s t : State) : (s.keep t).pins = t.pins := rfl

/-! ## latch -/

@[simp] theorem State.latch_pending (s t : State) : (s.latch t).pending = t.pending := rfl
@[simp] theorem State.latch_out (s t : State) : (s.latch t).out = t.out := rfl
@[simp] theorem State.latch_freeCtr (s t : State) : (s.latch t).freeCtr = t.freeCtr := rfl
@[simp] theorem State.latch_powered (s t : State) : (s.latch t).powered = t.powered := rfl
@[simp] theorem State.latch_now (s t : State) : (s.latch t).now = t.now := rfl
@[simp] theorem State.latch_applyNs (s t : State) : (s.latch t).applyNs = t.applyNs := rfl
@[simp] theorem State.latch_regs (s t : State) : (s.latch t).regs = t.regs := rfl
@[simp] theorem State.latch_basicHeld (s t : State) : (s.latch t).basicHeld = t.basicHeld := rfl
@[simp] theorem State.latch_islands (s t : State) : (s.latch t).islands = t.islands := rfl
@[simp] theorem State.latch_fenced (s t : State) : (s.latch t).fenced = t.fenced := rfl
@[simp] theorem State.latch_engMap (s t : State) : (s.latch t).engMap = t.engMap := rfl
@[simp] theorem State.latch_spareMap (s t : State) : (s.latch t).spareMap = t.spareMap := rfl
@[simp] theorem State.latch_tileMap (s t : State) : (s.latch t).tileMap = t.tileMap := rfl
@[simp] theorem State.latch_spareTile (s t : State) : (s.latch t).spareTile = t.spareTile := rfl
@[simp] theorem State.latch_fuse (s t : State) : (s.latch t).fuse = t.fuse := rfl
@[simp] theorem State.latch_tailCache (s t : State) : (s.latch t).tailCache = t.tailCache := rfl
@[simp] theorem State.latch_img (s t : State) : (s.latch t).img = t.img := rfl
@[simp] theorem State.latch_ports (s t : State) : (s.latch t).ports = t.ports := rfl
@[simp] theorem State.latch_lanes (s t : State) : (s.latch t).lanes = t.lanes := rfl
@[simp] theorem State.latch_macros (s t : State) : (s.latch t).macros = t.macros := rfl
@[simp] theorem State.latch_links (s t : State) : (s.latch t).links = t.links := rfl
@[simp] theorem State.latch_wait (s t : State) : (s.latch t).wait = t.wait := rfl
@[simp] theorem State.latch_nextId (s t : State) : (s.latch t).nextId = t.nextId := rfl
@[simp] theorem State.latch_outs (s t : State) : (s.latch t).outs = t.outs := rfl
@[simp] theorem State.latch_announced (s t : State) : (s.latch t).announced = t.announced := rfl
@[simp] theorem State.latch_route (s t : State) : (s.latch t).route = t.route := rfl
@[simp] theorem State.latch_xp (s t : State) : (s.latch t).xp = t.xp := rfl
@[simp] theorem State.latch_sqs (s t : State) : (s.latch t).sqs = t.sqs := rfl
@[simp] theorem State.latch_cqs (s t : State) : (s.latch t).cqs = t.cqs := rfl
@[simp] theorem State.latch_insts (s t : State) : (s.latch t).insts = t.insts := rfl
@[simp] theorem State.latch_hosts (s t : State) : (s.latch t).hosts = t.hosts := rfl
@[simp] theorem State.latch_dma (s t : State) : (s.latch t).dma = t.dma := rfl
@[simp] theorem State.latch_dmaQ (s t : State) : (s.latch t).dmaQ = t.dmaQ := rfl
@[simp] theorem State.latch_logWait (s t : State) : (s.latch t).logWait = t.logWait := rfl
@[simp] theorem State.latch_heldArr (s t : State) : (s.latch t).heldArr = t.heldArr := rfl
@[simp] theorem State.latch_xl (s t : State) : (s.latch t).xl = t.xl := rfl
@[simp] theorem State.latch_rma (s t : State) : (s.latch t).rma = t.rma := rfl
@[simp] theorem State.latch_mt (s t : State) : (s.latch t).mt = t.mt := rfl
@[simp] theorem State.latch_colls (s t : State) : (s.latch t).colls = t.colls := rfl
@[simp] theorem State.latch_hand (s t : State) : (s.latch t).hand = t.hand := rfl
@[simp] theorem State.latch_mon (s t : State) : (s.latch t).mon = t.mon := rfl
@[simp] theorem State.latch_side (s t : State) : (s.latch t).side = t.side := rfl
@[simp] theorem State.latch_pins (s t : State) : (s.latch t).pins = t.pins := rfl

@[simp] theorem State.keep_flash (s t : State) : (s.keep t).img.flash = s.img.flash := rfl
@[simp] theorem State.latch_safe (s t : State) : (s.latch t).flt.safeLatched = (s.flt.safeLatched || t.flt.safeLatched) := rfl

/-! ## Registers -/

@[simp] theorem State.resetOf_setWord (s : State) (a : Nat) (w : Word) : (s.setWord a w).resetOf = s.resetOf := rfl

theorem State.word_setWord (s : State) (a b : Nat) (w : Word) : (s.setWord a w).word b = if b = a then w else s.word b := by
  unfold State.word
  rw [State.setWord_regs, Table.find_put, State.resetOf_setWord]
  by_cases h : b = a <;> simp [h]

@[simp] theorem State.word_setWord_same (s : State) (a : Nat) (w : Word) : (s.setWord a w).word a = w := by
  simp [State.word_setWord]

theorem State.word_setWord_other (s : State) (a b : Nat) (w : Word) (h : b ≠ a) : (s.setWord a w).word b = s.word b := by
  simp [State.word_setWord, h]

theorem State.word_put_other (s : State) (a b : Nat) (f : Field) (v : Nat) (h : b ≠ a) : (s.put a f v).word b = s.word b :=
  State.word_setWord_other s a b _ h

/-- A field just written reads the value, cut to its width. -/
theorem State.get_put (s : State) (a : Nat) (f : Field) (v : Nat) (h : f.fits) : (s.put a f v).get a f = v % 2 ^ f.width := by
  simp [State.get, State.put, Field.get_put f _ v h]

/-- A write of one field leaves every other field of its register alone. -/
theorem State.get_put_apart (s : State) (a : Nat) (f g : Field) (v : Nat) (h : g.fits) (d : f.apart g) :
    (s.put a g v).get a f = s.get a f := by
  simp [State.get, State.put, Field.get_put_apart f g _ v h d]

/-- A write of one register leaves every field of the others alone. -/
theorem State.get_put_other (s : State) (a b : Nat) (f g : Field) (v : Nat) (h : b ≠ a) : (s.put a g v).get b f = s.get b f := by
  simp [State.get, State.word_put_other s a b g v h]

/-- Device memory: bytes just written read back, and every byte outside them is as before. -/
theorem State.hbmRead_hbmWrite (s : State) (a : Nat) (l : List Byte) (h : Memory.wf s.rma.hbm 0) :
    (s.hbmWrite a l).hbmRead a l.length = l := readBytes_writeBytes l s.rma.hbm 0 a h

theorem State.hbmRead_hbmWrite_other (s : State) (a b n : Nat) (l : List Byte) (h : Memory.wf s.rma.hbm 0)
    (d : b + n ≤ a ∨ a + l.length ≤ b) : (s.hbmWrite a l).hbmRead b n = s.hbmRead b n :=
  readBytes_congr _ _ 0 b n (fun c h1 h2 => Memory.getD_writeBytes_other l s.rma.hbm 0 a c h (by omega))

/-- Device memory keeps its canonical form. -/
theorem State.hbmWrite_wf (s : State) (a : Nat) (l : List Byte) (h : Memory.wf s.rma.hbm 0) :
    Memory.wf (s.hbmWrite a l).rma.hbm 0 := Memory.wf_writeBytes l s.rma.hbm 0 a h

end Sys2Proof.Machine
end

