-- ==== Sys2Proof/Laws/Act.lean ====
section
/-! SUPPORT. Laws of the end of every command: what `act` and its three variants answer, and what they keep. -/

namespace Sys2Proof.Machine

/-! ## The finished state -/

@[simp] theorem State.finish_pending (s t : State) : (s.finish t).pending = s.pending := rfl
@[simp] theorem State.finish_out (s t : State) : (s.finish t).out = t.out := rfl
@[simp] theorem State.finish_freeCtr (s t : State) : (s.finish t).freeCtr = t.freeCtr := rfl
@[simp] theorem State.finish_powered (s t : State) : (s.finish t).powered = t.powered := rfl
@[simp] theorem State.finish_now (s t : State) : (s.finish t).now = t.now := rfl
@[simp] theorem State.finish_applyNs (s t : State) : (s.finish t).applyNs = t.applyNs := rfl
@[simp] theorem State.finish_regs (s t : State) : (s.finish t).regs = t.regs := rfl
@[simp] theorem State.finish_basicHeld (s t : State) : (s.finish t).basicHeld = t.basicHeld := rfl
@[simp] theorem State.finish_islands (s t : State) : (s.finish t).islands = t.islands := rfl
@[simp] theorem State.finish_fenced (s t : State) : (s.finish t).fenced = t.fenced := rfl
@[simp] theorem State.finish_engMap (s t : State) : (s.finish t).engMap = t.engMap := rfl
@[simp] theorem State.finish_spareMap (s t : State) : (s.finish t).spareMap = t.spareMap := rfl
@[simp] theorem State.finish_tileMap (s t : State) : (s.finish t).tileMap = t.tileMap := rfl
@[simp] theorem State.finish_spareTile (s t : State) : (s.finish t).spareTile = t.spareTile := rfl
@[simp] theorem State.finish_fuse (s t : State) : (s.finish t).fuse = s.fuse := rfl
@[simp] theorem State.finish_tailCache (s t : State) : (s.finish t).tailCache = t.tailCache := rfl
@[simp] theorem State.finish_ports (s t : State) : (s.finish t).ports = t.ports := rfl
@[simp] theorem State.finish_lanes (s t : State) : (s.finish t).lanes = t.lanes := rfl
@[simp] theorem State.finish_macros (s t : State) : (s.finish t).macros = t.macros := rfl
@[simp] theorem State.finish_links (s t : State) : (s.finish t).links = t.links := rfl
@[simp] theorem State.finish_wait (s t : State) : (s.finish t).wait = t.wait := rfl
@[simp] theorem State.finish_nextId (s t : State) : (s.finish t).nextId = t.nextId := rfl
@[simp] theorem State.finish_outs (s t : State) : (s.finish t).outs = t.outs := rfl
@[simp] theorem State.finish_announced (s t : State) : (s.finish t).announced = t.announced := rfl
@[simp] theorem State.finish_route (s t : State) : (s.finish t).route = t.route := rfl
@[simp] theorem State.finish_xp (s t : State) : (s.finish t).xp = t.xp := rfl
@[simp] theorem State.finish_sqs (s t : State) : (s.finish t).sqs = t.sqs := rfl
@[simp] theorem State.finish_cqs (s t : State) : (s.finish t).cqs = t.cqs := rfl
@[simp] theorem State.finish_insts (s t : State) : (s.finish t).insts = t.insts := rfl
@[simp] theorem State.finish_hosts (s t : State) : (s.finish t).hosts = t.hosts := rfl
@[simp] theorem State.finish_dma (s t : State) : (s.finish t).dma = t.dma := rfl
@[simp] theorem State.finish_dmaQ (s t : State) : (s.finish t).dmaQ = t.dmaQ := rfl
@[simp] theorem State.finish_logWait (s t : State) : (s.finish t).logWait = t.logWait := rfl
@[simp] theorem State.finish_heldArr (s t : State) : (s.finish t).heldArr = t.heldArr := rfl
@[simp] theorem State.finish_xl (s t : State) : (s.finish t).xl = t.xl := rfl
@[simp] theorem State.finish_rma (s t : State) : (s.finish t).rma = t.rma := rfl
@[simp] theorem State.finish_mt (s t : State) : (s.finish t).mt = t.mt := rfl
@[simp] theorem State.finish_colls (s t : State) : (s.finish t).colls = t.colls := rfl
@[simp] theorem State.finish_hand (s t : State) : (s.finish t).hand = t.hand := rfl
@[simp] theorem State.finish_mon (s t : State) : (s.finish t).mon = t.mon := rfl
@[simp] theorem State.finish_side (s t : State) : (s.finish t).side = t.side := rfl
@[simp] theorem State.finish_flash (s t : State) : (s.finish t).img.flash = s.img.flash := rfl
@[simp] theorem State.finish_staging (s t : State) : (s.finish t).img.staging = t.img.staging := rfl
@[simp] theorem State.finish_op (s t : State) : (s.finish t).img.op = t.img.op := rfl
@[simp] theorem State.finish_applied (s t : State) : (s.finish t).img.applied = t.img.applied := rfl
@[simp] theorem State.finish_net (s t : State) : (s.finish t).flt.net = t.flt.net := rfl
@[simp] theorem State.finish_safe (s t : State) : (s.finish t).flt.safeLatched = (s.flt.safeLatched || t.flt.safeLatched) := rfl
@[simp] theorem State.finish_word (s t : State) : (s.finish t).word = t.word := rfl
@[simp] theorem State.finish_get (s t : State) : (s.finish t).get = t.get := rfl
@[simp] theorem State.finish_flag (s t : State) : (s.finish t).flag = t.flag := rfl
theorem State.finish_pins (s t : State) : (s.finish t).pins = (s.finish t).levels := rfl

/-! ## What the four forms of a command's end answer -/

theorem act_powered (s : State) (f : State → State) (h : s.powered = true) : act s f = .next (s.finish (f s)) := by
  simp [act, h, State.finish]

theorem actReset_powered (s : State) (f : State → State) (h : s.powered = true) :
    actReset s f = .next (s.keep (f s)).drivePins := by simp [actReset, h]

theorem actFuse_powered (s : State) (f : State → State) (h : s.powered = true) :
    actFuse s f = .next { s.keep (f s) with fuse := (f s).fuse }.drivePins := by simp [actFuse, h]

theorem actFlash_powered (s : State) (f : State → State) (h : s.powered = true) :
    actFlash s f = .next (s.latch { f s with pending := s.pending, fuse := s.fuse }).drivePins := by simp [actFlash, h]

/-- The form in which a command's effect is shown: its meaning is `act` of `f`, and `f s` is the effect. -/
theorem does_of {c : Instr} {s t : State} {f : State → State} (h : s.powered = true) (e : exec c s = act s f) (g : f s = t) :
    Does c s t := by rw [Does, e, act_powered s f h, g]

/-- The same for a property of the next state. -/
theorem yields_of {c : Instr} {s : State} {f : State → State} {P : State → Prop} (h : s.powered = true) (e : exec c s = act s f)
    (g : P (s.finish (f s))) : Yields c s P := ⟨_, by rw [e, act_powered s f h], g⟩

/-- Everything that a command of the common form keeps. -/
theorem act_keeps (s t : State) (f : State → State) (h : act s f = .next t) :
    t.pending = s.pending ∧ t.fuse = s.fuse ∧ t.img.flash = s.img.flash ∧ (s.flt.safeLatched = true → t.flt.safeLatched = true)
      ∧ (s.pinsFollow → t.pinsFollow) := by
  unfold act at h
  injection h with h
  subst h
  split
  · exact ⟨rfl, rfl, rfl, fun e => by simp [State.drivePins, State.latch, State.keep, e], fun _ => rfl⟩
  · exact ⟨rfl, rfl, rfl, id, id⟩

/-- Everything that a command which may reset the device keeps. -/
theorem actReset_keeps (s t : State) (f : State → State) (h : actReset s f = .next t) :
    t.pending = s.pending ∧ t.fuse = s.fuse ∧ t.img.flash = s.img.flash ∧ (s.pinsFollow → t.pinsFollow) := by
  unfold actReset at h
  injection h with h
  subst h
  split
  · exact ⟨rfl, rfl, rfl, fun _ => rfl⟩
  · exact ⟨rfl, rfl, rfl, id⟩

/-- What the end of fuse programming keeps. -/
theorem actFuse_keeps (s t : State) (f : State → State) (h : actFuse s f = .next t) :
    t.pending = s.pending ∧ t.img.flash = s.img.flash ∧ (s.pinsFollow → t.pinsFollow) := by
  unfold actFuse at h
  injection h with h
  subst h
  split
  · exact ⟨rfl, rfl, fun _ => rfl⟩
  · exact ⟨rfl, rfl, id⟩

/-- What a flash command keeps. -/
theorem actFlash_keeps (s t : State) (f : State → State) (h : actFlash s f = .next t) :
    t.pending = s.pending ∧ t.fuse = s.fuse ∧ (s.flt.safeLatched = true → t.flt.safeLatched = true)
      ∧ (s.pinsFollow → t.pinsFollow) := by
  unfold actFlash at h
  injection h with h
  subst h
  split
  · exact ⟨rfl, rfl, fun e => by simp [State.drivePins, State.latch, e], fun _ => rfl⟩
  · exact ⟨rfl, rfl, id, id⟩

end Sys2Proof.Machine
end

