-- ==== Sys2Proof/Laws/Dispatch.lean ====
section
/-! SUPPORT. Laws of dispatch: exec on each constructor is one call of its meaning, and each meaning ends in one of four forms. -/

namespace Sys2Proof.Machine

theorem exec_registerWrite (acc : RegAccess) (s : State) : exec (.registerWrite acc) s = execRegisterWrite acc s := rfl
theorem exec_lockSet (reg : LockReg) (value : BitVec 64) (s : State) : exec (.lockSet reg value) s = execLockSet reg value s := rfl
theorem exec_expertChange (blk : ExpertBlock) (on : Bool) (s : State) : exec (.expertChange blk on) s = execExpertChange blk on s := rfl
theorem exec_islandChannelsOpen (isl : Fin 74) (s : State) : exec (.islandChannelsOpen isl) s = execIslandChannelsOpen isl s := rfl
theorem exec_stagingWrite (off : Nat) (data : List Byte) (s : State) : exec (.stagingWrite off data) s = execStagingWrite off data s := rfl
theorem exec_load (s : State) : exec (.load) s = execLoad s := rfl
theorem exec_loadEnd (hbmOk : Bool) (s : State) : exec (.loadEnd hbmOk) s = execLoadEnd hbmOk s := rfl
theorem exec_apply (s : State) : exec (.apply) s = execApply s := rfl
theorem exec_applyEnd (hbmOk : Bool) (s : State) : exec (.applyEnd hbmOk) s = execApplyEnd hbmOk s := rfl
theorem exec_enable (s : State) : exec (.enable) s = execEnable s := rfl
theorem exec_flashLoad (secondary : Bool) (s : State) : exec (.flashLoad secondary) s = execFlashLoad secondary s := rfl
theorem exec_flashFetchEnd (readOk : Bool) (s : State) : exec (.flashFetchEnd readOk) s = execFlashFetchEnd readOk s := rfl
theorem exec_fuseProgram (confirm : BitVec 16) (slot : Fin 4) (s : State) : exec (.fuseProgram confirm slot) s = execFuseProgram confirm slot s := rfl
theorem exec_fuseRevoke (confirm : BitVec 16) (slot : Fin 4) (s : State) : exec (.fuseRevoke confirm slot) s = execFuseRevoke confirm slot s := rfl
theorem exec_fuseReqCust (confirm : BitVec 16) (s : State) : exec (.fuseReqCust confirm) s = execFuseReqCust confirm s := rfl
theorem exec_fuseEnd (readback : Bool) (s : State) : exec (.fuseEnd readback) s = execFuseEnd readback s := rfl
theorem exec_coldReset (cause : ColdCause) (straps : Straps) (s : State) : exec (.coldReset cause straps) s = execColdReset cause straps s := rfl
theorem exec_warmReset (cause : WarmCause) (s : State) : exec (.warmReset cause) s = execWarmReset cause s := rfl
theorem exec_bayResetWarm (confirm : BitVec 16) (s : State) : exec (.bayResetWarm confirm) s = execBayResetWarm confirm s := rfl
theorem exec_bayResetCold (confirm : BitVec 16) (straps : Straps) (s : State) : exec (.bayResetCold confirm straps) s = execBayResetCold confirm straps s := rfl
theorem exec_detectTry (p : Fin 144) (hitA hitB : Bool) (echoA echoB : Echo) (s : State) : exec (.detectTry p hitA hitB echoA echoB) s = execDetectTry p hitA hitB echoA echoB s := rfl
theorem exec_trainingFramesValid (p : Fin 144) (s : State) : exec (.trainingFramesValid p) s = execTrainingFramesValid p s := rfl
theorem exec_adaptReady (p : Fin 144) (lossA lossB : Nat) (s : State) : exec (.adaptReady p lossA lossB) s = execAdaptReady p lossA lossB s := rfl
theorem exec_alignmentMarker (lane : Fin 288) (m : Marker) (s : State) : exec (.alignmentMarker lane m) s = execAlignmentMarker lane m s := rfl
theorem exec_codeword (lane : Fin 288) (word : RxCodeword) (s : State) : exec (.codeword lane word) s = execCodeword lane word s := rfl
theorem exec_lossOfSignal (lane : Fin 288) (s : State) : exec (.lossOfSignal lane) s = execLossOfSignal lane s := rfl
theorem exec_stateTimeout (p : Fin 144) (s : State) : exec (.stateTimeout p) s = execStateTimeout p s := rfl
theorem exec_capTimer (p : Fin 144) (s : State) : exec (.capTimer p) s = execCapTimer p s := rfl
theorem exec_cap (p : Fin 144) (c : CapRec) (s : State) : exec (.cap p c) s = execCap p c s := rfl
theorem exec_capAck (p : Fin 144) (crc : BitVec 16) (s : State) : exec (.capAck p crc) s = execCapAck p crc s := rfl
theorem exec_echoReq (p : Fin 144) (num : BitVec 16) (stamp : BitVec 64) (turn : BitVec 32) (s : State) : exec (.echoReq p num stamp turn) s = execEchoReq p num stamp turn s := rfl
theorem exec_echoRsp (p : Fin 144) (num : BitVec 16) (elapsed : Nat) (turn : BitVec 32) (s : State) : exec (.echoRsp p num elapsed turn) s = execEchoRsp p num elapsed turn s := rfl
theorem exec_echoTimeout (p : Fin 144) (s : State) : exec (.echoTimeout p) s = execEchoTimeout p s := rfl
theorem exec_measureEnd (p : Fin 144) (s : State) : exec (.measureEnd p) s = execMeasureEnd p s := rfl
theorem exec_adapt (p : Fin 144) (lane : Fin 288) (_coeff : BitVec 48) (s : State) : exec (.adapt p lane _coeff) s = execAdapt p lane _coeff s := rfl
theorem exec_adaptRefine (lane : Fin 288) (coeff : BitVec 18) (s : State) : exec (.adaptRefine lane coeff) s = execAdaptRefine lane coeff s := rfl
theorem exec_loadSample (m : Fin 36) (load : Nat) (s : State) : exec (.loadSample m load) s = execLoadSample m load s := rfl
theorem exec_remeasureEnd (m : Fin 36) (margins : List Nat) (target : Nat) (s : State) : exec (.remeasureEnd m margins target) s = execRemeasureEnd m margins target s := rfl
theorem exec_degrade (p : Fin 144) (pos : Fin 2) (s : State) : exec (.degrade p pos) s = execDegrade p pos s := rfl
theorem exec_degradeAck (p : Fin 144) (pos : Fin 2) (s : State) : exec (.degradeAck p pos) s = execDegradeAck p pos s := rfl
theorem exec_retrain (p : Fin 144) (s : State) : exec (.retrain p) s = execRetrain p s := rfl
theorem exec_laneRestart (p : Fin 144) (s : State) : exec (.laneRestart p) s = execLaneRestart p s := rfl
theorem exec_laneRetrain (p : Fin 144) (s : State) : exec (.laneRetrain p) s = execLaneRetrain p s := rfl
theorem exec_laneHold (p : Fin 144) (hold : Bool) (s : State) : exec (.laneHold p hold) s = execLaneHold p hold s := rfl
theorem exec_laneRelane (p : Fin 144) (s : State) : exec (.laneRelane p) s = execLaneRelane p s := rfl
theorem exec_laneRecal (n : Fin 19) (s : State) : exec (.laneRecal n) s = execLaneRecal n s := rfl
theorem exec_slip (n : Fin 19) (k : Fin 16) (bits : BitVec 12) (s : State) : exec (.slip n k bits) s = execSlip n k bits s := rfl
theorem exec_blockPosition (p : Fin 144) (s : State) : exec (.blockPosition p) s = execBlockPosition p s := rfl
theorem exec_seal (p : Fin 144) (flits : List RxFlit) (recs : List SealRec) (ack : BitVec 16) (blk : Nat) (s : State) : exec (.seal p flits recs ack blk) s = execSeal p flits recs ack blk s := rfl
theorem exec_credit (p : Fin 144) (recs : List CreditRec) (ack : BitVec 16) (s : State) : exec (.credit p recs ack) s = execCredit p recs ack s := rfl
theorem exec_nak (p : Fin 144) (nums : List (BitVec 16)) (ack : BitVec 16) (s : State) : exec (.nak p nums ack) s = execNak p nums ack s := rfl
theorem exec_replay (p : Fin 144) (first ack : BitVec 16) (s : State) : exec (.replay p first ack) s = execReplay p first ack s := rfl
theorem exec_keepalive (p : Fin 144) (next ack : BitVec 16) (empty : Bool) (s : State) : exec (.keepalive p next ack empty) s = execKeepalive p next ack empty s := rfl
theorem exec_init (p : Fin 144) (part : Fin 2) (reserve : List Nat) (shared cap : Nat) (next : BitVec 16) (s : State) : exec (.init p part reserve shared cap next) s = execInit p part reserve shared cap next s := rfl
theorem exec_initAck (p : Fin 144) (parts : BitVec 2) (s : State) : exec (.initAck p parts) s = execInitAck p parts s := rfl
theorem exec_initRepeat (p : Fin 144) (s : State) : exec (.initRepeat p) s = execInitRepeat p s := rfl
theorem exec_initTimeout (p : Fin 144) (s : State) : exec (.initTimeout p) s = execInitTimeout p s := rfl
theorem exec_keepaliveTimer (p : Fin 144) (s : State) : exec (.keepaliveTimer p) s = execKeepaliveTimer p s := rfl
theorem exec_creditDue (p : Fin 144) (s : State) : exec (.creditDue p) s = execCreditDue p s := rfl
theorem exec_nakTimeout (p : Fin 144) (num : BitVec 16) (s : State) : exec (.nakTimeout p num) s = execNakTimeout p num s := rfl
theorem exec_replayTimeout (p : Fin 144) (s : State) : exec (.replayTimeout p) s = execReplayTimeout p s := rfl
theorem exec_replayEscalation (p : Fin 144) (s : State) : exec (.replayEscalation p) s = execReplayEscalation p s := rfl
theorem exec_linkDownTimeout (p : Fin 144) (s : State) : exec (.linkDownTimeout p) s = execLinkDownTimeout p s := rfl
theorem exec_quietMoment (p : Fin 144) (s : State) : exec (.quietMoment p) s = execQuietMoment p s := rfl
theorem exec_leakIdle (p : Fin 144) (s : State) : exec (.leakIdle p) s = execLeakIdle p s := rfl
theorem exec_leakForce (p : Fin 144) (s : State) : exec (.leakForce p) s = execLeakForce p s := rfl
theorem exec_graceExpiry (id : Nat) (s : State) : exec (.graceExpiry id) s = execGraceExpiry id s := rfl
theorem exec_request (o : Fin 152) (ep : Fin 27) (cls : Fin 4) (s : State) : exec (.request o ep cls) s = execRequest o ep cls s := rfl
theorem exec_countUpdate (o : Fin 152) (ep : Fin 27) (cls : Fin 4) (s : State) : exec (.countUpdate o ep cls) s = execCountUpdate o ep cls s := rfl
theorem exec_creditAnnounce (p : Fin 144) (vc : Fin 24) (s : State) : exec (.creditAnnounce p vc) s = execCreditAnnounce p vc s := rfl
theorem exec_grantOpportunity (o : Fin 152) (s : State) : exec (.grantOpportunity o) s = execGrantOpportunity o s := rfl
theorem exec_declinePauseEnd (o : Fin 152) (s : State) : exec (.declinePauseEnd o) s = execDeclinePauseEnd o s := rfl
theorem exec_requestRetry (o : Fin 152) (ep : Fin 27) (cls : Fin 4) (s : State) : exec (.requestRetry o ep cls) s = execRequestRetry o ep cls s := rfl
theorem exec_grantEnd (o : Fin 152) (lane : Fin 8) (s : State) : exec (.grantEnd o lane) s = execGrantEnd o lane s := rfl
theorem exec_handshakeTimeout (o : Fin 152) (ep : Fin 27) (s : State) : exec (.handshakeTimeout o ep) s = execHandshakeTimeout o ep s := rfl
theorem exec_routeHop (p : Fin 144) (s : State) : exec (.routeHop p) s = execRouteHop p s := rfl
theorem exec_beaconPeriod (s : State) : exec (.beaconPeriod) s = execBeaconPeriod s := rfl
theorem exec_beacon (p : Fin 144) (b : BeaconRec) (s : State) : exec (.beacon p b) s = execBeacon p b s := rfl
theorem exec_beaconStale (i : Fin 32) (s : State) : exec (.beaconStale i) s = execBeaconStale i s := rfl
theorem exec_groupTableWrite (off : Nat) (data : List Byte) (s : State) : exec (.groupTableWrite off data) s = execGroupTableWrite off data s := rfl
theorem exec_routeCommit (s : State) : exec (.routeCommit) s = execRouteCommit s := rfl
theorem exec_routeCopy (s : State) : exec (.routeCopy) s = execRouteCopy s := rfl
theorem exec_bankOpEnd (s : State) : exec (.bankOpEnd) s = execBankOpEnd s := rfl
theorem exec_discGo (s : State) : exec (.discGo) s = execDiscGo s := rfl
theorem exec_discQ (p : Fin 144) (q : DiscQuery) (s : State) : exec (.discQ p q) s = execDiscQ p q s := rfl
theorem exec_discA (p : Fin 144) (a : DiscAnswer) (s : State) : exec (.discA p a) s = execDiscA p a s := rfl
theorem exec_discTimeout (s : State) : exec (.discTimeout) s = execDiscTimeout s := rfl
theorem exec_shaperRelease (inst : Fin 4096) (tc : Fin 8) (s : State) : exec (.shaperRelease inst tc) s = execShaperRelease inst tc s := rfl
theorem exec_policerBackoffEnd (inst : Fin 4096) (tc : Fin 8) (s : State) : exec (.policerBackoffEnd inst tc) s = execPolicerBackoffEnd inst tc s := rfl
theorem exec_peerFetchDone (idx : Fin 1048576) (s : State) : exec (.peerFetchDone idx) s = execPeerFetchDone idx s := rfl
theorem exec_peerEvictable (idx : Fin 1048576) (s : State) : exec (.peerEvictable idx) s = execPeerEvictable idx s := rfl
theorem exec_windowSend (idx : Fin 1048576) (s : State) : exec (.windowSend idx) s = execWindowSend idx s := rfl
theorem exec_put (pkt : Packet) (s : State) : exec (.put pkt) s = execPut pkt s := rfl
theorem exec_getReq (pkt : Packet) (s : State) : exec (.getReq pkt) s = execGetReq pkt s := rfl
theorem exec_getRsp (pkt : Packet) (s : State) : exec (.getRsp pkt) s = execGetRsp pkt s := rfl
theorem exec_atomic (pkt : Packet) (s : State) : exec (.atomic pkt) s = execAtomic pkt s := rfl
theorem exec_atomicRsp (pkt : Packet) (s : State) : exec (.atomicRsp pkt) s = execAtomicRsp pkt s := rfl
theorem exec_send (pkt : Packet) (s : State) : exec (.send pkt) s = execSend pkt s := rfl
theorem exec_sendRdv (pkt : Packet) (s : State) : exec (.sendRdv pkt) s = execSendRdv pkt s := rfl
theorem exec_comp (pkt : Packet) (s : State) : exec (.comp pkt) s = execComp pkt s := rfl
theorem exec_ncomp (pkt : Packet) (s : State) : exec (.ncomp pkt) s = execNcomp pkt s := rfl
theorem exec_ack (pkt : Packet) (s : State) : exec (.ack pkt) s = execAck pkt s := rfl
theorem exec_sync (pkt : Packet) (s : State) : exec (.sync pkt) s = execSync pkt s := rfl
theorem exec_ackTimer (idx : Fin 1048576) (s : State) : exec (.ackTimer idx) s = execAckTimer idx s := rfl
theorem exec_retryTimeout (idx : Fin 1048576) (seq : BitVec 24) (s : State) : exec (.retryTimeout idx seq) s = execRetryTimeout idx seq s := rfl
theorem exec_nackResend (idx : Fin 1048576) (seq : BitVec 24) (s : State) : exec (.nackResend idx seq) s = execNackResend idx seq s := rfl
theorem exec_windowUpdate (s : State) : exec (.windowUpdate) s = execWindowUpdate s := rfl
theorem exec_xferIdle (key : XferKey) (s : State) : exec (.xferIdle key) s = execXferIdle key s := rfl
theorem exec_placementDone (key : XferKey) (pidx : BitVec 20) (ok : PlaceResult) (s : State) : exec (.placementDone key pidx ok) s = execPlacementDone key pidx ok s := rfl
theorem exec_responseTimeout (xid : BitVec 32) (s : State) : exec (.responseTimeout xid) s = execResponseTimeout xid s := rfl
theorem exec_hwmReadClear (mark : HwmMark) (s : State) : exec (.hwmReadClear mark) s = execHwmReadClear mark s := rfl
theorem exec_configRequest (link : Fin 4) (fn : Nat) (req : CfgReq) (s : State) : exec (.configRequest link fn req) s = execConfigRequest link fn req s := rfl
theorem exec_readTimeout (link : Fin 4) (fn : Nat) (s : State) : exec (.readTimeout link fn) s = execReadTimeout link fn s := rfl
theorem exec_pf0Bar2Access (link : Fin 4) (acc : BarAccess) (s : State) : exec (.pf0Bar2Access link acc) s = execPf0Bar2Access link acc s := rfl
theorem exec_nearRingWrite (link : Fin 4) (vf : Nat) (off : Nat) (req : BarReq) (s : State) : exec (.nearRingWrite link vf off req) s = execNearRingWrite link vf off req s := rfl
theorem exec_dlDown (link : Fin 4) (s : State) : exec (.dlDown link) s = execDlDown link s := rfl
theorem exec_perst (link : Fin 4) (s : State) : exec (.perst link) s = execPerst link s := rfl
theorem exec_hotReset (link : Fin 4) (s : State) : exec (.hotReset link) s = execHotReset link s := rfl
theorem exec_linkTrained (link : Fin 4) (speed : Fin 8) (width : Fin 17) (flit : Bool) (s : State) : exec (.linkTrained link speed width flit) s = execLinkTrained link speed width flit s := rfl
theorem exec_hgraceExpiry (id : Nat) (s : State) : exec (.hgraceExpiry id) s = execHgraceExpiry id s := rfl
theorem exec_flrVf (link : Fin 4) (vf : Nat) (s : State) : exec (.flrVf link vf) s = execFlrVf link vf s := rfl
theorem exec_flrPf0 (link : Fin 4) (s : State) : exec (.flrPf0 link) s = execFlrPf0 link s := rfl
theorem exec_flrEnd (link : Fin 4) (fn : Nat) (s : State) : exec (.flrEnd link fn) s = execFlrEnd link fn s := rfl
theorem exec_d3hotEntry (link : Fin 4) (s : State) : exec (.d3hotEntry link) s = execD3hotEntry link s := rfl
theorem exec_d0Return (link : Fin 4) (s : State) : exec (.d0Return link) s = execD0Return link s := rfl
theorem exec_completionTimeout (link : Fin 4) (tag : Nat) (s : State) : exec (.completionTimeout link tag) s = execCompletionTimeout link tag s := rfl
theorem exec_poisonedTlp (link : Fin 4) (what : BadTlp) (s : State) : exec (.poisonedTlp link what) s = execPoisonedTlp link what s := rfl
theorem exec_ecrcError (link : Fin 4) (fn : Nat) (s : State) : exec (.ecrcError link fn) s = execEcrcError link fn s := rfl
theorem exec_atomicopCompletion (link : Fin 4) (tag : Nat) (status : CplStatus) (old : List Byte) (s : State) : exec (.atomicopCompletion link tag status old) s = execAtomicopCompletion link tag status old s := rfl
theorem exec_atomicRetry (link : Fin 4) (s : State) : exec (.atomicRetry link) s = execAtomicRetry link s := rfl
theorem exec_ringPoll (inst : Fin 4096) (ring : Fin 64) (s : State) : exec (.ringPoll inst ring) s = execRingPoll inst ring s := rfl
theorem exec_kick (inst : Fin 4096) (ring : Fin 64) (s : State) : exec (.kick inst ring) s = execKick inst ring s := rfl
theorem exec_sqEnable (inst : Fin 4096) (ring : Fin 64) (value : BitVec 64) (s : State) : exec (.sqEnable inst ring value) s = execSqEnable inst ring value s := rfl
theorem exec_sqDisable (inst : Fin 4096) (ring : Fin 64) (s : State) : exec (.sqDisable inst ring) s = execSqDisable inst ring s := rfl
theorem exec_nearRingZeroed (inst : Fin 4096) (ring : Fin 64) (s : State) : exec (.nearRingZeroed inst ring) s = execNearRingZeroed inst ring s := rfl
theorem exec_cqEnable (inst : Fin 4096) (ring : Fin 64) (value : BitVec 64) (s : State) : exec (.cqEnable inst ring value) s = execCqEnable inst ring value s := rfl
theorem exec_cqDisable (inst : Fin 4096) (ring : Fin 64) (s : State) : exec (.cqDisable inst ring) s = execCqDisable inst ring s := rfl
theorem exec_cqHeadWrite (inst : Fin 4096) (ring : Fin 64) (head : BitVec 16) (s : State) : exec (.cqHeadWrite inst ring head) s = execCqHeadWrite inst ring head s := rfl
theorem exec_jobComplete (job : Nat) (s : State) : exec (.jobComplete job) s = execJobComplete job s := rfl
theorem exec_putJob (job : Nat) (s : State) : exec (.putJob job) s = execPutJob job s := rfl
theorem exec_getJob (job : Nat) (s : State) : exec (.getJob job) s = execGetJob job s := rfl
theorem exec_putInl (job : Nat) (s : State) : exec (.putInl job) s = execPutInl job s := rfl
theorem exec_atomicJob (job : Nat) (s : State) : exec (.atomicJob job) s = execAtomicJob job s := rfl
theorem exec_sendJob (job : Nat) (s : State) : exec (.sendJob job) s = execSendJob job s := rfl
theorem exec_recv (job : Nat) (s : State) : exec (.recv job) s = execRecv job s := rfl
theorem exec_lockJob (job : Nat) (s : State) : exec (.lockJob job) s = execLockJob job s := rfl
theorem exec_barrier (job : Nat) (s : State) : exec (.barrier job) s = execBarrier job s := rfl
theorem exec_broadcast (job : Nat) (s : State) : exec (.broadcast job) s = execBroadcast job s := rfl
theorem exec_reduce (job : Nat) (s : State) : exec (.reduce job) s = execReduce job s := rfl
theorem exec_allreduce (job : Nat) (s : State) : exec (.allreduce job) s = execAllreduce job s := rfl
theorem exec_nop (job : Nat) (s : State) : exec (.nop job) s = execNop job s := rfl
theorem exec_seg (inst : Fin 4096) (ring : Fin 64) (d : Desc) (s : State) : exec (.seg inst ring d) s = execSeg inst ring d s := rfl
theorem exec_create (inst : Fin 4096) (s : State) : exec (.create inst) s = execCreate inst s := rfl
theorem exec_quiesce (inst : Fin 4096) (s : State) : exec (.quiesce inst) s = execQuiesce inst s := rfl
theorem exec_quiesceEnd (inst : Fin 4096) (drained : Bool) (s : State) : exec (.quiesceEnd inst drained) s = execQuiesceEnd inst drained s := rfl
theorem exec_resume (inst : Fin 4096) (s : State) : exec (.resume inst) s = execResume inst s := rfl
theorem exec_reset (inst : Fin 4096) (s : State) : exec (.reset inst) s = execReset inst s := rfl
theorem exec_remove (inst : Fin 4096) (s : State) : exec (.remove inst) s = execRemove inst s := rfl
theorem exec_move (inst : Fin 4096) (s : State) : exec (.move inst) s = execMove inst s := rfl
theorem exec_instCmdEnd (inst : Fin 4096) (s : State) : exec (.instCmdEnd inst) s = execInstCmdEnd inst s := rfl
theorem exec_toMgrSet (inst : Fin 4096) (s : State) : exec (.toMgrSet inst) s = execToMgrSet inst s := rfl
theorem exec_toMgrClear (inst : Fin 4096) (s : State) : exec (.toMgrClear inst) s = execToMgrClear inst s := rfl
theorem exec_toTenantSet (inst : Fin 4096) (s : State) : exec (.toTenantSet inst) s = execToTenantSet inst s := rfl
theorem exec_toTenantClear (inst : Fin 4096) (s : State) : exec (.toTenantClear inst) s = execToTenantClear inst s := rfl
theorem exec_dlogFlip (inst : Fin 4096) (s : State) : exec (.dlogFlip inst) s = execDlogFlip inst s := rfl
theorem exec_dlogFlipEnd (inst : Fin 4096) (s : State) : exec (.dlogFlipEnd inst) s = execDlogFlipEnd inst s := rfl
theorem exec_translate (inst : Fin 4096) (acc : XlatReq) (s : State) : exec (.translate inst acc) s = execTranslate inst acc s := rfl
theorem exec_walkReadDone (walk : Nat) (res : ReadRes) (s : State) : exec (.walkReadDone walk res) s = execWalkReadDone walk res s := rfl
theorem exec_markCasDone (walk : Nat) (old : BitVec 64) (ok : Bool) (s : State) : exec (.markCasDone walk old ok) s = execMarkCasDone walk old ok s := rfl
theorem exec_xlatInv (s : State) : exec (.xlatInv) s = execXlatInv s := rfl
theorem exec_xlInv (inst : Fin 4096) (s : State) : exec (.xlInv inst) s = execXlInv inst s := rfl
theorem exec_invDone (tenant : Option (Fin 4096)) (s : State) : exec (.invDone tenant) s = execInvDone tenant s := rfl
theorem exec_faultqHeadWrite (head : BitVec 6) (s : State) : exec (.faultqHeadWrite head) s = execFaultqHeadWrite head s := rfl
theorem exec_windowWrite (inst : Fin 4096) (w : Fin 128) (reg : Fin 4) (value : BitVec 64) (s : State) : exec (.windowWrite inst w reg value) s = execWindowWrite inst w reg value s := rfl
theorem exec_dmGrantWrite (inst : Fin 4096) (value : BitVec 64) (s : State) : exec (.dmGrantWrite inst value) s = execDmGrantWrite inst value s := rfl
theorem exec_matchHandover (inst : Fin 4096) (idx : Fin 1048576) (seq : BitVec 24) (s : State) : exec (.matchHandover inst idx seq) s = execMatchHandover inst idx seq s := rfl
theorem exec_arrive (d : Fin 65536) (s : State) : exec (.arrive d) s = execArrive d s := rfl
theorem exec_post (d : Fin 65536) (s : State) : exec (.post d) s = execPost d s := rfl
theorem exec_walkInterrupt (point : WalkPoint) (s : State) : exec (.walkInterrupt point) s = execWalkInterrupt point s := rfl
theorem exec_walkResume (d : Fin 65536) (s : State) : exec (.walkResume d) s = execWalkResume d s := rfl
theorem exec_unpin (d : Fin 65536) (s : State) : exec (.unpin d) s = execUnpin d s := rfl
theorem exec_migrate (d : Fin 65536) (migTo : Fin 32) (s : State) : exec (.migrate d migTo) s = execMigrate d migTo s := rfl
theorem exec_migrateEnd (d : Fin 65536) (s : State) : exec (.migrateEnd d) s = execMigrateEnd d s := rfl
theorem exec_ctxReset (d : Fin 65536) (s : State) : exec (.ctxReset d) s = execCtxReset d s := rfl
theorem exec_ctxResetEnd (d : Fin 65536) (s : State) : exec (.ctxResetEnd d) s = execCtxResetEnd d s := rfl
theorem exec_entryRead (list : Bool) (index : Nat) (s : State) : exec (.entryRead list index) s = execEntryRead list index s := rfl
theorem exec_poolWrite (value : BitVec 64) (s : State) : exec (.poolWrite value) s = execPoolWrite value s := rfl
theorem exec_commValid (c : Fin 4096) (s : State) : exec (.commValid c) s = execCommValid c s := rfl
theorem exec_commAbort (c : Fin 4096) (s : State) : exec (.commAbort c) s = execCommAbort c s := rfl
theorem exec_collUp (pkt : Packet) (s : State) : exec (.collUp pkt) s = execCollUp pkt s := rfl
theorem exec_collDown (pkt : Packet) (s : State) : exec (.collDown pkt) s = execCollDown pkt s := rfl
theorem exec_segmentAdmit (e : Fin 16) (s : State) : exec (.segmentAdmit e) s = execSegmentAdmit e s := rfl
theorem exec_failPacket (pkt : Packet) (s : State) : exec (.failPacket pkt) s = execFailPacket pkt s := rfl
theorem exec_snapshotGo (value : BitVec 64) (s : State) : exec (.snapshotGo value) s = execSnapshotGo value s := rfl
theorem exec_waveAbortGo (value : BitVec 64) (s : State) : exec (.waveAbortGo value) s = execWaveAbortGo value s := rfl
theorem exec_waveClearGo (value : BitVec 64) (s : State) : exec (.waveClearGo value) s = execWaveClearGo value s := rfl
theorem exec_waveSafeGo (value : BitVec 64) (s : State) : exec (.waveSafeGo value) s = execWaveSafeGo value s := rfl
theorem exec_armPacket (pkt : Packet) (s : State) : exec (.armPacket pkt) s = execArmPacket pkt s := rfl
theorem exec_snapshotUp (pkt : Packet) (s : State) : exec (.snapshotUp pkt) s = execSnapshotUp pkt s := rfl
theorem exec_freezePacket (pkt : Packet) (s : State) : exec (.freezePacket pkt) s = execFreezePacket pkt s := rfl
theorem exec_snapshotRecord (pkt : Packet) (s : State) : exec (.snapshotRecord pkt) s = execSnapshotRecord pkt s := rfl
theorem exec_wavePacket (pkt : Packet) (s : State) : exec (.wavePacket pkt) s = execWavePacket pkt s := rfl
theorem exec_armDiscard (s : State) : exec (.armDiscard) s = execArmDiscard s := rfl
theorem exec_triggerTimer (t : Fin 4096) (s : State) : exec (.triggerTimer t) s = execTriggerTimer t s := rfl
theorem exec_handlerDispatch (c : Fin 68) (s : State) : exec (.handlerDispatch c) s = execHandlerDispatch c s := rfl
theorem exec_frameTick (s : State) : exec (.frameTick) s = execFrameTick s := rfl
theorem exec_trigEnable (t : Fin 4096) (s : State) : exec (.trigEnable t) s = execTrigEnable t s := rfl
theorem exec_trigDisable (t : Fin 4096) (s : State) : exec (.trigDisable t) s = execTrigDisable t s := rfl
theorem exec_coreHold (c : Fin 68) (hold holdStop : Bool) (s : State) : exec (.coreHold c hold holdStop) s = execCoreHold c hold holdStop s := rfl
theorem exec_imemWrite (c : Fin 68) (loc : Bool) (off : Nat) (data : List Byte) (s : State) : exec (.imemWrite c loc off data) s = execImemWrite c loc off data s := rfl
theorem exec_budgetTrap (c : Fin 68) (s : State) : exec (.budgetTrap c) s = execBudgetTrap c s := rfl
theorem exec_stopRequest (c : Fin 68) (s : State) : exec (.stopRequest c) s = execStopRequest c s := rfl
theorem exec_alu (c : Fin 68) (rd ra rb : BitVec 5) (fn : BitVec 11) (s : State) : exec (.alu c rd ra rb fn) s = execAlu c rd ra rb fn s := rfl
theorem exec_addi (c : Fin 68) (rd ra : BitVec 5) (imm : BitVec 16) (s : State) : exec (.addi c rd ra imm) s = execAddi c rd ra imm s := rfl
theorem exec_andi (c : Fin 68) (rd ra : BitVec 5) (imm : BitVec 16) (s : State) : exec (.andi c rd ra imm) s = execAndi c rd ra imm s := rfl
theorem exec_ori (c : Fin 68) (rd ra : BitVec 5) (imm : BitVec 16) (s : State) : exec (.ori c rd ra imm) s = execOri c rd ra imm s := rfl
theorem exec_xori (c : Fin 68) (rd ra : BitVec 5) (imm : BitVec 16) (s : State) : exec (.xori c rd ra imm) s = execXori c rd ra imm s := rfl
theorem exec_lui (c : Fin 68) (rd _ra : BitVec 5) (imm : BitVec 16) (s : State) : exec (.lui c rd _ra imm) s = execLui c rd _ra imm s := rfl
theorem exec_insh (c : Fin 68) (rd _ra : BitVec 5) (imm : BitVec 16) (s : State) : exec (.insh c rd _ra imm) s = execInsh c rd _ra imm s := rfl
theorem exec_ld1 (c : Fin 68) (rd ra : BitVec 5) (imm : BitVec 16) (s : State) : exec (.ld1 c rd ra imm) s = execLd1 c rd ra imm s := rfl
theorem exec_ld2 (c : Fin 68) (rd ra : BitVec 5) (imm : BitVec 16) (s : State) : exec (.ld2 c rd ra imm) s = execLd2 c rd ra imm s := rfl
theorem exec_ld4 (c : Fin 68) (rd ra : BitVec 5) (imm : BitVec 16) (s : State) : exec (.ld4 c rd ra imm) s = execLd4 c rd ra imm s := rfl
theorem exec_ld8 (c : Fin 68) (rd ra : BitVec 5) (imm : BitVec 16) (s : State) : exec (.ld8 c rd ra imm) s = execLd8 c rd ra imm s := rfl
theorem exec_st1 (c : Fin 68) (rd ra : BitVec 5) (imm : BitVec 16) (s : State) : exec (.st1 c rd ra imm) s = execSt1 c rd ra imm s := rfl
theorem exec_st2 (c : Fin 68) (rd ra : BitVec 5) (imm : BitVec 16) (s : State) : exec (.st2 c rd ra imm) s = execSt2 c rd ra imm s := rfl
theorem exec_st4 (c : Fin 68) (rd ra : BitVec 5) (imm : BitVec 16) (s : State) : exec (.st4 c rd ra imm) s = execSt4 c rd ra imm s := rfl
theorem exec_st8 (c : Fin 68) (rd ra : BitVec 5) (imm : BitVec 16) (s : State) : exec (.st8 c rd ra imm) s = execSt8 c rd ra imm s := rfl
theorem exec_amo (c : Fin 68) (rd ra rb : BitVec 5) (fn : BitVec 11) (s : State) : exec (.amo c rd ra rb fn) s = execAmo c rd ra rb fn s := rfl
theorem exec_beq (c : Fin 68) (ra rb : BitVec 5) (off : BitVec 16) (s : State) : exec (.beq c ra rb off) s = execBeq c ra rb off s := rfl
theorem exec_bne (c : Fin 68) (ra rb : BitVec 5) (off : BitVec 16) (s : State) : exec (.bne c ra rb off) s = execBne c ra rb off s := rfl
theorem exec_blt (c : Fin 68) (ra rb : BitVec 5) (off : BitVec 16) (s : State) : exec (.blt c ra rb off) s = execBlt c ra rb off s := rfl
theorem exec_bge (c : Fin 68) (ra rb : BitVec 5) (off : BitVec 16) (s : State) : exec (.bge c ra rb off) s = execBge c ra rb off s := rfl
theorem exec_bltu (c : Fin 68) (ra rb : BitVec 5) (off : BitVec 16) (s : State) : exec (.bltu c ra rb off) s = execBltu c ra rb off s := rfl
theorem exec_bgeu (c : Fin 68) (ra rb : BitVec 5) (off : BitVec 16) (s : State) : exec (.bgeu c ra rb off) s = execBgeu c ra rb off s := rfl
theorem exec_call (c : Fin 68) (n : BitVec 4) (off : BitVec 22) (s : State) : exec (.call c n off) s = execCall c n off s := rfl
theorem exec_ret (c : Fin 68) (n : BitVec 4) (_off : BitVec 22) (s : State) : exec (.ret c n _off) s = execRet c n _off s := rfl
theorem exec_j (c : Fin 68) (off : BitVec 26) (s : State) : exec (.j c off) s = execJ c off s := rfl
theorem exec_jr (c : Fin 68) (ra _rd _rb : BitVec 5) (_fn : BitVec 11) (s : State) : exec (.jr c ra _rd _rb _fn) s = execJr c ra _rd _rb _fn s := rfl
theorem exec_csr (c : Fin 68) (rd _ra _rb : BitVec 5) (fn : BitVec 11) (s : State) : exec (.csr c rd _ra _rb fn) s = execCsr c rd _ra _rb fn s := rfl
theorem exec_desc (c : Fin 68) (rd ra rb : BitVec 5) (_fn : BitVec 11) (s : State) : exec (.desc c rd ra rb _fn) s = execDesc c rd ra rb _fn s := rfl
theorem exec_lkacq (c : Fin 68) (rd ra rb : BitVec 5) (_fn : BitVec 11) (s : State) : exec (.lkacq c rd ra rb _fn) s = execLkacq c rd ra rb _fn s := rfl
theorem exec_lkrel (c : Fin 68) (rd ra rb : BitVec 5) (_fn : BitVec 11) (s : State) : exec (.lkrel c rd ra rb _fn) s = execLkrel c rd ra rb _fn s := rfl
theorem exec_fence (c : Fin 68) (_rd _ra _rb : BitVec 5) (_fn : BitVec 11) (s : State) : exec (.fence c _rd _ra _rb _fn) s = execFence c _rd _ra _rb _fn s := rfl
theorem exec_done (c : Fin 68) (_rd _ra : BitVec 5) (imm : BitVec 16) (s : State) : exec (.done c _rd _ra imm) s = execDone c _rd _ra imm s := rfl
theorem exec_gets (a : CohAgent) (line : Nat) (s : State) : exec (.gets a line) s = execGets a line s := rfl
theorem exec_getm (a : CohAgent) (line : Nat) (s : State) : exec (.getm a line) s = execGetm a line s := rfl
theorem exec_upgrade (a : CohAgent) (line : Nat) (s : State) : exec (.upgrade a line) s = execUpgrade a line s := rfl
theorem exec_putm (a : CohAgent) (line : Nat) (data : List Byte) (s : State) : exec (.putm a line data) s = execPutm a line data s := rfl
theorem exec_pute (a : CohAgent) (line : Nat) (s : State) : exec (.pute a line) s = execPute a line s := rfl
theorem exec_readna (line : Nat) (s : State) : exec (.readna line) s = execReadna line s := rfl
theorem exec_writena (addr : Nat) (data : List Byte) (s : State) : exec (.writena addr data) s = execWritena addr data s := rfl
theorem exec_atomicna (addr : Nat) (op : Fin 8) (wide : Bool) (op1 op2 : Nat) (s : State) : exec (.atomicna addr op wide op1 op2) s = execAtomicna addr op wide op1 op2 s := rfl
theorem exec_forward (a : CohAgent) (line : Nat) (s : State) : exec (.forward a line) s = execForward a line s := rfl
theorem exec_invalidation (a : CohAgent) (line : Nat) (s : State) : exec (.invalidation a line) s = execInvalidation a line s := rfl
theorem exec_coherentResponse (a : CohAgent) (line : Nat) (s : State) : exec (.coherentResponse a line) s = execCoherentResponse a line s := rfl
theorem exec_dirRead (line : Nat) (s : State) : exec (.dirRead line) s = execDirRead line s := rfl
theorem exec_lockArm (pkt : Packet) (s : State) : exec (.lockArm pkt) s = execLockArm pkt s := rfl
theorem exec_lockAcquire (pkt : Packet) (s : State) : exec (.lockAcquire pkt) s = execLockAcquire pkt s := rfl
theorem exec_lockRelease (pkt : Packet) (s : State) : exec (.lockRelease pkt) s = execLockRelease pkt s := rfl
theorem exec_lockDisarm (pkt : Packet) (s : State) : exec (.lockDisarm pkt) s = execLockDisarm pkt s := rfl
theorem exec_lockCancel (pkt : Packet) (s : State) : exec (.lockCancel pkt) s = execLockCancel pkt s := rfl
theorem exec_forcedHandover (value : BitVec 64) (s : State) : exec (.forcedHandover value) s = execForcedHandover value s := rfl
theorem exec_codedMessage (m : CodedMsg) (s : State) : exec (.codedMessage m) s = execCodedMessage m s := rfl
theorem exec_countWindowEnd (src : Fin 640) (s : State) : exec (.countWindowEnd src) s = execCountWindowEnd src s := rfl
theorem exec_force (src : Fin 640) (s : State) : exec (.force src) s = execForce src s := rfl
theorem exec_sevClr (src : Fin 640) (s : State) : exec (.sevClr src) s = execSevClr src s := rfl
theorem exec_recordRelease (src : Fin 640) (s : State) : exec (.recordRelease src) s = execRecordRelease src s := rfl
theorem exec_infoHeadWrite (head : BitVec 8) (s : State) : exec (.infoHeadWrite head) s = execInfoHeadWrite head s := rfl
theorem exec_heartbeat (core : Fin 2) (s : State) : exec (.heartbeat core) s = execHeartbeat core s := rfl
theorem exec_heartbeatMiss (s : State) : exec (.heartbeatMiss) s = execHeartbeatMiss s := rfl
theorem exec_takeoverEnd (s : State) : exec (.takeoverEnd) s = execTakeoverEnd s := rfl
theorem exec_fwLoad (s : State) : exec (.fwLoad) s = execFwLoad s := rfl
theorem exec_fwLoadEnd (sameFormat : Bool) (s : State) : exec (.fwLoadEnd sameFormat) s = execFwLoadEnd sameFormat s := rfl
theorem exec_swap (s : State) : exec (.swap) s = execSwap s := rfl
theorem exec_restart (s : State) : exec (.restart) s = execRestart s := rfl
theorem exec_drain (slot : Fin 18) (s : State) : exec (.drain slot) s = execDrain slot s := rfl
theorem exec_drainWaitEnd (s : State) : exec (.drainWaitEnd) s = execDrainWaitEnd s := rfl
theorem exec_drained (s : State) : exec (.drained) s = execDrained s := rfl
theorem exec_drainClear (s : State) : exec (.drainClear) s = execDrainClear s := rfl
theorem exec_spareGo (value : BitVec 64) (s : State) : exec (.spareGo value) s = execSpareGo value s := rfl
theorem exec_spareEnd (s : State) : exec (.spareEnd) s = execSpareEnd s := rfl
theorem exec_retire (n : Fin 4) (page : BitVec 25) (s : State) : exec (.retire n page) s = execRetire n page s := rfl
theorem exec_retireEnd (n : Fin 4) (bad : List Nat) (s : State) : exec (.retireEnd n bad) s = execRetireEnd n bad s := rfl
theorem exec_forceSafe (confirm : BitVec 16) (s : State) : exec (.forceSafe confirm) s = execForceSafe confirm s := rfl
theorem exec_forceLanes (confirm : BitVec 16) (on : Bool) (s : State) : exec (.forceLanes confirm on) s = execForceLanes confirm on s := rfl
theorem exec_thermalTrip (sensor : Fin 64) (s : State) : exec (.thermalTrip sensor) s = execThermalTrip sensor s := rfl
theorem exec_cntSelWrite (k : Fin 1024) (value : BitVec 64) (s : State) : exec (.cntSelWrite k value) s = execCntSelWrite k value s := rfl
theorem exec_freeze (s : State) : exec (.freeze) s = execFreeze s := rfl
theorem exec_clear (s : State) : exec (.clear) s = execClear s := rfl
theorem exec_sampEnable (value : BitVec 64) (s : State) : exec (.sampEnable value) s = execSampEnable value s := rfl
theorem exec_sampRdWrite (rd : BitVec 21) (s : State) : exec (.sampRdWrite rd) s = execSampRdWrite rd s := rfl
theorem exec_bwWindowEnd (s : State) : exec (.bwWindowEnd) s = execBwWindowEnd s := rfl
theorem exec_railSample (r : Fin 24) (reading : BitVec 16) (bad : Bool) (s : State) : exec (.railSample r reading bad) s = execRailSample r reading bad s := rfl
theorem exec_tempSample (t : Fin 64) (reading : BitVec 16) (s : State) : exec (.tempSample t reading) s = execTempSample t reading s := rfl
theorem exec_droop (i : Fin 74) (depth : Nat) (s : State) : exec (.droop i depth) s = execDroop i depth s := rfl
theorem exec_mmClr (temp : Bool) (i : Nat) (s : State) : exec (.mmClr temp i) s = execMmClr temp i s := rfl
theorem exec_refCheck (clk : RefInput) (present : Bool) (ppm : Nat) (s : State) : exec (.refCheck clk present ppm) s = execRefCheck clk present ppm s := rfl
theorem exec_avsTimeout (s : State) : exec (.avsTimeout) s = execAvsTimeout s := rfl
theorem exec_vsbLoss (s : State) : exec (.vsbLoss) s = execVsbLoss s := rfl
theorem exec_readIdent (s : State) : exec (.readIdent) s = execReadIdent s := rfl
theorem exec_readFlog (first : BitVec 8) (s : State) : exec (.readFlog first) s = execReadFlog first s := rfl
theorem exec_readSensor (temp : Bool) (i : BitVec 8) (s : State) : exec (.readSensor temp i) s = execReadSensor temp i s := rfl
theorem exec_safe (confirm : BitVec 16) (s : State) : exec (.safe confirm) s = execSafe confirm s := rfl
theorem exec_lanes (on : BitVec 8) (confirm : BitVec 16) (s : State) : exec (.lanes on confirm) s = execLanes on confirm s := rfl
theorem exec_sidebandReset (code : BitVec 8) (confirm : BitVec 16) (straps : Straps) (s : State) : exec (.sidebandReset code confirm straps) s = execSidebandReset code confirm straps s := rfl
theorem exec_readReg (off : BitVec 32) (s : State) : exec (.readReg off) s = execReadReg off s := rfl
theorem exec_writeReg (off : BitVec 32) (value : BitVec 64) (s : State) : exec (.writeReg off value) s = execWriteReg off value s := rfl
theorem exec_flashWrite (off : Nat) (data : List Byte) (s : State) : exec (.flashWrite off data) s = execFlashWrite off data s := rfl
theorem exec_flashErase (sector : Nat) (s : State) : exec (.flashErase sector) s = execFlashErase sector s := rfl
theorem exec_setEndpointId (eid : BitVec 8) (s : State) : exec (.setEndpointId eid) s = execSetEndpointId eid s := rfl
theorem exec_getEndpointId (s : State) : exec (.getEndpointId) s = execGetEndpointId s := rfl
theorem exec_getMctpVersionSupport (s : State) : exec (.getMctpVersionSupport) s = execGetMctpVersionSupport s := rfl
theorem exec_getMessageTypeSupport (s : State) : exec (.getMessageTypeSupport) s = execGetMessageTypeSupport s := rfl
theorem exec_getVendorDefinedMessageSupport (s : State) : exec (.getVendorDefinedMessageSupport) s = execGetVendorDefinedMessageSupport s := rfl
theorem exec_arbLost (k : Fin 8) (s : State) : exec (.arbLost k) s = execArbLost k s := rfl
theorem exec_arbRetry (k : Fin 8) (s : State) : exec (.arbRetry k) s = execArbRetry k s := rfl
theorem exec_smbPoll (data : List (BitVec 16)) (s : State) : exec (.smbPoll data) s = execSmbPoll data s := rfl
theorem exec_bypass (s : State) : exec (.bypass) s = execBypass s := rfl
theorem exec_idcode (s : State) : exec (.idcode) s = execIdcode s := rfl
theorem exec_samplePreload (pins : List Bool) (s : State) : exec (.samplePreload pins) s = execSamplePreload pins s := rfl
theorem exec_extest (s : State) : exec (.extest) s = execExtest s := rfl
theorem exec_highz (s : State) : exec (.highz) s = execHighz s := rfl
theorem exec_clamp (s : State) : exec (.clamp) s = execClamp s := rfl
theorem exec_extestPulse (s : State) : exec (.extestPulse) s = execExtestPulse s := rfl
theorem exec_extestTrain (s : State) : exec (.extestTrain) s = execExtestTrain s := rfl
theorem exec_dmaReadCompletion (link : Fin 4) (tag : Nat) (data : List Byte) (s : State) : exec (.dmaReadCompletion link tag data) s = execDmaReadCompletion link tag data s := rfl
theorem exec_pllUnlock (isl : Fin 74) (s : State) : exec (.pllUnlock isl) s = execPllUnlock isl s := rfl
theorem exec_avsbusAcknowledge (s : State) : exec (.avsbusAcknowledge) s = execAvsbusAcknowledge s := rfl
theorem exec_smbusClockLowTimeout (s : State) : exec (.smbusClockLowTimeout) s = execSmbusClockLowTimeout s := rfl
theorem exec_trstAssert (s : State) : exec (.trstAssert) s = execTrstAssert s := rfl

/-- Every command but those that may reset the device or write its flash ends in the common form. -/
theorem exec_form (s : State) : (c : Instr) → c.mayReset = false → c.writesFlash = false → ∃ f, exec c s = act s f
  | .registerWrite _, h, _ => Bool.noConfusion h
  | .lockSet reg value, _, _ => ⟨_, exec_lockSet reg value s⟩
  | .expertChange blk on, _, _ => ⟨_, exec_expertChange blk on s⟩
  | .islandChannelsOpen isl, _, _ => ⟨_, exec_islandChannelsOpen isl s⟩
  | .stagingWrite off data, _, _ => ⟨_, exec_stagingWrite off data s⟩
  | .load, _, _ => ⟨_, exec_load s⟩
  | .loadEnd hbmOk, _, _ => ⟨_, exec_loadEnd hbmOk s⟩
  | .apply, _, _ => ⟨_, exec_apply s⟩
  | .applyEnd hbmOk, _, _ => ⟨_, exec_applyEnd hbmOk s⟩
  | .enable, _, _ => ⟨_, exec_enable s⟩
  | .flashLoad secondary, _, _ => ⟨_, exec_flashLoad secondary s⟩
  | .flashFetchEnd readOk, _, _ => ⟨_, exec_flashFetchEnd readOk s⟩
  | .fuseProgram confirm slot, _, _ => ⟨_, exec_fuseProgram confirm slot s⟩
  | .fuseRevoke confirm slot, _, _ => ⟨_, exec_fuseRevoke confirm slot s⟩
  | .fuseReqCust confirm, _, _ => ⟨_, exec_fuseReqCust confirm s⟩
  | .fuseEnd _, h, _ => Bool.noConfusion h
  | .coldReset _ _, h, _ => Bool.noConfusion h
  | .warmReset _, h, _ => Bool.noConfusion h
  | .bayResetWarm _, h, _ => Bool.noConfusion h
  | .bayResetCold _ _, h, _ => Bool.noConfusion h
  | .detectTry p hitA hitB echoA echoB, _, _ => ⟨_, exec_detectTry p hitA hitB echoA echoB s⟩
  | .trainingFramesValid p, _, _ => ⟨_, exec_trainingFramesValid p s⟩
  | .adaptReady p lossA lossB, _, _ => ⟨_, exec_adaptReady p lossA lossB s⟩
  | .alignmentMarker lane m, _, _ => ⟨_, exec_alignmentMarker lane m s⟩
  | .codeword lane word, _, _ => ⟨_, exec_codeword lane word s⟩
  | .lossOfSignal lane, _, _ => ⟨_, exec_lossOfSignal lane s⟩
  | .stateTimeout p, _, _ => ⟨_, exec_stateTimeout p s⟩
  | .capTimer p, _, _ => ⟨_, exec_capTimer p s⟩
  | .cap p c, _, _ => ⟨_, exec_cap p c s⟩
  | .capAck p crc, _, _ => ⟨_, exec_capAck p crc s⟩
  | .echoReq p num stamp turn, _, _ => ⟨_, exec_echoReq p num stamp turn s⟩
  | .echoRsp p num elapsed turn, _, _ => ⟨_, exec_echoRsp p num elapsed turn s⟩
  | .echoTimeout p, _, _ => ⟨_, exec_echoTimeout p s⟩
  | .measureEnd p, _, _ => ⟨_, exec_measureEnd p s⟩
  | .adapt p lane ucoeff, _, _ => ⟨_, exec_adapt p lane ucoeff s⟩
  | .adaptRefine lane coeff, _, _ => ⟨_, exec_adaptRefine lane coeff s⟩
  | .loadSample m load, _, _ => ⟨_, exec_loadSample m load s⟩
  | .remeasureEnd m margins target, _, _ => ⟨_, exec_remeasureEnd m margins target s⟩
  | .degrade p pos, _, _ => ⟨_, exec_degrade p pos s⟩
  | .degradeAck p pos, _, _ => ⟨_, exec_degradeAck p pos s⟩
  | .retrain p, _, _ => ⟨_, exec_retrain p s⟩
  | .laneRestart p, _, _ => ⟨_, exec_laneRestart p s⟩
  | .laneRetrain p, _, _ => ⟨_, exec_laneRetrain p s⟩
  | .laneHold p hold, _, _ => ⟨_, exec_laneHold p hold s⟩
  | .laneRelane p, _, _ => ⟨_, exec_laneRelane p s⟩
  | .laneRecal n, _, _ => ⟨_, exec_laneRecal n s⟩
  | .slip n k bits, _, _ => ⟨_, exec_slip n k bits s⟩
  | .blockPosition p, _, _ => ⟨_, exec_blockPosition p s⟩
  | .seal p flits recs ack blk, _, _ => ⟨_, exec_seal p flits recs ack blk s⟩
  | .credit p recs ack, _, _ => ⟨_, exec_credit p recs ack s⟩
  | .nak p nums ack, _, _ => ⟨_, exec_nak p nums ack s⟩
  | .replay p first ack, _, _ => ⟨_, exec_replay p first ack s⟩
  | .keepalive p next ack empty, _, _ => ⟨_, exec_keepalive p next ack empty s⟩
  | .init p part reserve shared cap next, _, _ => ⟨_, exec_init p part reserve shared cap next s⟩
  | .initAck p parts, _, _ => ⟨_, exec_initAck p parts s⟩
  | .initRepeat p, _, _ => ⟨_, exec_initRepeat p s⟩
  | .initTimeout p, _, _ => ⟨_, exec_initTimeout p s⟩
  | .keepaliveTimer p, _, _ => ⟨_, exec_keepaliveTimer p s⟩
  | .creditDue p, _, _ => ⟨_, exec_creditDue p s⟩
  | .nakTimeout p num, _, _ => ⟨_, exec_nakTimeout p num s⟩
  | .replayTimeout p, _, _ => ⟨_, exec_replayTimeout p s⟩
  | .replayEscalation p, _, _ => ⟨_, exec_replayEscalation p s⟩
  | .linkDownTimeout p, _, _ => ⟨_, exec_linkDownTimeout p s⟩
  | .quietMoment p, _, _ => ⟨_, exec_quietMoment p s⟩
  | .leakIdle p, _, _ => ⟨_, exec_leakIdle p s⟩
  | .leakForce p, _, _ => ⟨_, exec_leakForce p s⟩
  | .graceExpiry id, _, _ => ⟨_, exec_graceExpiry id s⟩
  | .request o ep cls, _, _ => ⟨_, exec_request o ep cls s⟩
  | .countUpdate o ep cls, _, _ => ⟨_, exec_countUpdate o ep cls s⟩
  | .creditAnnounce p vc, _, _ => ⟨_, exec_creditAnnounce p vc s⟩
  | .grantOpportunity o, _, _ => ⟨_, exec_grantOpportunity o s⟩
  | .declinePauseEnd o, _, _ => ⟨_, exec_declinePauseEnd o s⟩
  | .requestRetry o ep cls, _, _ => ⟨_, exec_requestRetry o ep cls s⟩
  | .grantEnd o lane, _, _ => ⟨_, exec_grantEnd o lane s⟩
  | .handshakeTimeout o ep, _, _ => ⟨_, exec_handshakeTimeout o ep s⟩
  | .routeHop p, _, _ => ⟨_, exec_routeHop p s⟩
  | .beaconPeriod, _, _ => ⟨_, exec_beaconPeriod s⟩
  | .beacon p b, _, _ => ⟨_, exec_beacon p b s⟩
  | .beaconStale i, _, _ => ⟨_, exec_beaconStale i s⟩
  | .groupTableWrite off data, _, _ => ⟨_, exec_groupTableWrite off data s⟩
  | .routeCommit, _, _ => ⟨_, exec_routeCommit s⟩
  | .routeCopy, _, _ => ⟨_, exec_routeCopy s⟩
  | .bankOpEnd, _, _ => ⟨_, exec_bankOpEnd s⟩
  | .discGo, _, _ => ⟨_, exec_discGo s⟩
  | .discQ p q, _, _ => ⟨_, exec_discQ p q s⟩
  | .discA p a, _, _ => ⟨_, exec_discA p a s⟩
  | .discTimeout, _, _ => ⟨_, exec_discTimeout s⟩
  | .shaperRelease inst tc, _, _ => ⟨_, exec_shaperRelease inst tc s⟩
  | .policerBackoffEnd inst tc, _, _ => ⟨_, exec_policerBackoffEnd inst tc s⟩
  | .peerFetchDone idx, _, _ => ⟨_, exec_peerFetchDone idx s⟩
  | .peerEvictable idx, _, _ => ⟨_, exec_peerEvictable idx s⟩
  | .windowSend idx, _, _ => ⟨_, exec_windowSend idx s⟩
  | .put pkt, _, _ => ⟨_, exec_put pkt s⟩
  | .getReq pkt, _, _ => ⟨_, exec_getReq pkt s⟩
  | .getRsp pkt, _, _ => ⟨_, exec_getRsp pkt s⟩
  | .atomic pkt, _, _ => ⟨_, exec_atomic pkt s⟩
  | .atomicRsp pkt, _, _ => ⟨_, exec_atomicRsp pkt s⟩
  | .send pkt, _, _ => ⟨_, exec_send pkt s⟩
  | .sendRdv pkt, _, _ => ⟨_, exec_sendRdv pkt s⟩
  | .comp pkt, _, _ => ⟨_, exec_comp pkt s⟩
  | .ncomp pkt, _, _ => ⟨_, exec_ncomp pkt s⟩
  | .ack pkt, _, _ => ⟨_, exec_ack pkt s⟩
  | .sync pkt, _, _ => ⟨_, exec_sync pkt s⟩
  | .ackTimer idx, _, _ => ⟨_, exec_ackTimer idx s⟩
  | .retryTimeout idx seq, _, _ => ⟨_, exec_retryTimeout idx seq s⟩
  | .nackResend idx seq, _, _ => ⟨_, exec_nackResend idx seq s⟩
  | .windowUpdate, _, _ => ⟨_, exec_windowUpdate s⟩
  | .xferIdle key, _, _ => ⟨_, exec_xferIdle key s⟩
  | .placementDone key pidx ok, _, _ => ⟨_, exec_placementDone key pidx ok s⟩
  | .responseTimeout xid, _, _ => ⟨_, exec_responseTimeout xid s⟩
  | .hwmReadClear mark, _, _ => ⟨_, exec_hwmReadClear mark s⟩
  | .configRequest link fn req, _, _ => ⟨_, exec_configRequest link fn req s⟩
  | .readTimeout link fn, _, _ => ⟨_, exec_readTimeout link fn s⟩
  | .pf0Bar2Access link acc, _, _ => ⟨_, exec_pf0Bar2Access link acc s⟩
  | .nearRingWrite link vf off req, _, _ => ⟨_, exec_nearRingWrite link vf off req s⟩
  | .dlDown link, _, _ => ⟨_, exec_dlDown link s⟩
  | .perst link, _, _ => ⟨_, exec_perst link s⟩
  | .hotReset link, _, _ => ⟨_, exec_hotReset link s⟩
  | .linkTrained link speed width flit, _, _ => ⟨_, exec_linkTrained link speed width flit s⟩
  | .hgraceExpiry id, _, _ => ⟨_, exec_hgraceExpiry id s⟩
  | .flrVf link vf, _, _ => ⟨_, exec_flrVf link vf s⟩
  | .flrPf0 link, _, _ => ⟨_, exec_flrPf0 link s⟩
  | .flrEnd link fn, _, _ => ⟨_, exec_flrEnd link fn s⟩
  | .d3hotEntry link, _, _ => ⟨_, exec_d3hotEntry link s⟩
  | .d0Return link, _, _ => ⟨_, exec_d0Return link s⟩
  | .completionTimeout link tag, _, _ => ⟨_, exec_completionTimeout link tag s⟩
  | .poisonedTlp link what, _, _ => ⟨_, exec_poisonedTlp link what s⟩
  | .ecrcError link fn, _, _ => ⟨_, exec_ecrcError link fn s⟩
  | .atomicopCompletion link tag status old, _, _ => ⟨_, exec_atomicopCompletion link tag status old s⟩
  | .atomicRetry link, _, _ => ⟨_, exec_atomicRetry link s⟩
  | .ringPoll inst ring, _, _ => ⟨_, exec_ringPoll inst ring s⟩
  | .kick inst ring, _, _ => ⟨_, exec_kick inst ring s⟩
  | .sqEnable inst ring value, _, _ => ⟨_, exec_sqEnable inst ring value s⟩
  | .sqDisable inst ring, _, _ => ⟨_, exec_sqDisable inst ring s⟩
  | .nearRingZeroed inst ring, _, _ => ⟨_, exec_nearRingZeroed inst ring s⟩
  | .cqEnable inst ring value, _, _ => ⟨_, exec_cqEnable inst ring value s⟩
  | .cqDisable inst ring, _, _ => ⟨_, exec_cqDisable inst ring s⟩
  | .cqHeadWrite inst ring head, _, _ => ⟨_, exec_cqHeadWrite inst ring head s⟩
  | .jobComplete job, _, _ => ⟨_, exec_jobComplete job s⟩
  | .putJob job, _, _ => ⟨_, exec_putJob job s⟩
  | .getJob job, _, _ => ⟨_, exec_getJob job s⟩
  | .putInl job, _, _ => ⟨_, exec_putInl job s⟩
  | .atomicJob job, _, _ => ⟨_, exec_atomicJob job s⟩
  | .sendJob job, _, _ => ⟨_, exec_sendJob job s⟩
  | .recv job, _, _ => ⟨_, exec_recv job s⟩
  | .lockJob job, _, _ => ⟨_, exec_lockJob job s⟩
  | .barrier job, _, _ => ⟨_, exec_barrier job s⟩
  | .broadcast job, _, _ => ⟨_, exec_broadcast job s⟩
  | .reduce job, _, _ => ⟨_, exec_reduce job s⟩
  | .allreduce job, _, _ => ⟨_, exec_allreduce job s⟩
  | .nop job, _, _ => ⟨_, exec_nop job s⟩
  | .seg inst ring d, _, _ => ⟨_, exec_seg inst ring d s⟩
  | .create inst, _, _ => ⟨_, exec_create inst s⟩
  | .quiesce inst, _, _ => ⟨_, exec_quiesce inst s⟩
  | .quiesceEnd inst drained, _, _ => ⟨_, exec_quiesceEnd inst drained s⟩
  | .resume inst, _, _ => ⟨_, exec_resume inst s⟩
  | .reset inst, _, _ => ⟨_, exec_reset inst s⟩
  | .remove inst, _, _ => ⟨_, exec_remove inst s⟩
  | .move inst, _, _ => ⟨_, exec_move inst s⟩
  | .instCmdEnd inst, _, _ => ⟨_, exec_instCmdEnd inst s⟩
  | .toMgrSet inst, _, _ => ⟨_, exec_toMgrSet inst s⟩
  | .toMgrClear inst, _, _ => ⟨_, exec_toMgrClear inst s⟩
  | .toTenantSet inst, _, _ => ⟨_, exec_toTenantSet inst s⟩
  | .toTenantClear inst, _, _ => ⟨_, exec_toTenantClear inst s⟩
  | .dlogFlip inst, _, _ => ⟨_, exec_dlogFlip inst s⟩
  | .dlogFlipEnd inst, _, _ => ⟨_, exec_dlogFlipEnd inst s⟩
  | .translate inst acc, _, _ => ⟨_, exec_translate inst acc s⟩
  | .walkReadDone walk res, _, _ => ⟨_, exec_walkReadDone walk res s⟩
  | .markCasDone walk old ok, _, _ => ⟨_, exec_markCasDone walk old ok s⟩
  | .xlatInv, _, _ => ⟨_, exec_xlatInv s⟩
  | .xlInv inst, _, _ => ⟨_, exec_xlInv inst s⟩
  | .invDone tenant, _, _ => ⟨_, exec_invDone tenant s⟩
  | .faultqHeadWrite head, _, _ => ⟨_, exec_faultqHeadWrite head s⟩
  | .windowWrite inst w reg value, _, _ => ⟨_, exec_windowWrite inst w reg value s⟩
  | .dmGrantWrite inst value, _, _ => ⟨_, exec_dmGrantWrite inst value s⟩
  | .matchHandover inst idx seq, _, _ => ⟨_, exec_matchHandover inst idx seq s⟩
  | .arrive d, _, _ => ⟨_, exec_arrive d s⟩
  | .post d, _, _ => ⟨_, exec_post d s⟩
  | .walkInterrupt point, _, _ => ⟨_, exec_walkInterrupt point s⟩
  | .walkResume d, _, _ => ⟨_, exec_walkResume d s⟩
  | .unpin d, _, _ => ⟨_, exec_unpin d s⟩
  | .migrate d migTo, _, _ => ⟨_, exec_migrate d migTo s⟩
  | .migrateEnd d, _, _ => ⟨_, exec_migrateEnd d s⟩
  | .ctxReset d, _, _ => ⟨_, exec_ctxReset d s⟩
  | .ctxResetEnd d, _, _ => ⟨_, exec_ctxResetEnd d s⟩
  | .entryRead list index, _, _ => ⟨_, exec_entryRead list index s⟩
  | .poolWrite value, _, _ => ⟨_, exec_poolWrite value s⟩
  | .commValid c, _, _ => ⟨_, exec_commValid c s⟩
  | .commAbort c, _, _ => ⟨_, exec_commAbort c s⟩
  | .collUp pkt, _, _ => ⟨_, exec_collUp pkt s⟩
  | .collDown pkt, _, _ => ⟨_, exec_collDown pkt s⟩
  | .segmentAdmit e, _, _ => ⟨_, exec_segmentAdmit e s⟩
  | .failPacket pkt, _, _ => ⟨_, exec_failPacket pkt s⟩
  | .snapshotGo value, _, _ => ⟨_, exec_snapshotGo value s⟩
  | .waveAbortGo value, _, _ => ⟨_, exec_waveAbortGo value s⟩
  | .waveClearGo value, _, _ => ⟨_, exec_waveClearGo value s⟩
  | .waveSafeGo value, _, _ => ⟨_, exec_waveSafeGo value s⟩
  | .armPacket pkt, _, _ => ⟨_, exec_armPacket pkt s⟩
  | .snapshotUp pkt, _, _ => ⟨_, exec_snapshotUp pkt s⟩
  | .freezePacket pkt, _, _ => ⟨_, exec_freezePacket pkt s⟩
  | .snapshotRecord pkt, _, _ => ⟨_, exec_snapshotRecord pkt s⟩
  | .wavePacket pkt, _, _ => ⟨_, exec_wavePacket pkt s⟩
  | .armDiscard, _, _ => ⟨_, exec_armDiscard s⟩
  | .triggerTimer t, _, _ => ⟨_, exec_triggerTimer t s⟩
  | .handlerDispatch c, _, _ => ⟨_, exec_handlerDispatch c s⟩
  | .frameTick, _, _ => ⟨_, exec_frameTick s⟩
  | .trigEnable t, _, _ => ⟨_, exec_trigEnable t s⟩
  | .trigDisable t, _, _ => ⟨_, exec_trigDisable t s⟩
  | .coreHold c hold holdStop, _, _ => ⟨_, exec_coreHold c hold holdStop s⟩
  | .imemWrite c loc off data, _, _ => ⟨_, exec_imemWrite c loc off data s⟩
  | .budgetTrap c, _, _ => ⟨_, exec_budgetTrap c s⟩
  | .stopRequest c, _, _ => ⟨_, exec_stopRequest c s⟩
  | .alu c rd ra rb fn, _, _ => ⟨_, exec_alu c rd ra rb fn s⟩
  | .addi c rd ra imm, _, _ => ⟨_, exec_addi c rd ra imm s⟩
  | .andi c rd ra imm, _, _ => ⟨_, exec_andi c rd ra imm s⟩
  | .ori c rd ra imm, _, _ => ⟨_, exec_ori c rd ra imm s⟩
  | .xori c rd ra imm, _, _ => ⟨_, exec_xori c rd ra imm s⟩
  | .lui c rd ura imm, _, _ => ⟨_, exec_lui c rd ura imm s⟩
  | .insh c rd ura imm, _, _ => ⟨_, exec_insh c rd ura imm s⟩
  | .ld1 c rd ra imm, _, _ => ⟨_, exec_ld1 c rd ra imm s⟩
  | .ld2 c rd ra imm, _, _ => ⟨_, exec_ld2 c rd ra imm s⟩
  | .ld4 c rd ra imm, _, _ => ⟨_, exec_ld4 c rd ra imm s⟩
  | .ld8 c rd ra imm, _, _ => ⟨_, exec_ld8 c rd ra imm s⟩
  | .st1 c rd ra imm, _, _ => ⟨_, exec_st1 c rd ra imm s⟩
  | .st2 c rd ra imm, _, _ => ⟨_, exec_st2 c rd ra imm s⟩
  | .st4 c rd ra imm, _, _ => ⟨_, exec_st4 c rd ra imm s⟩
  | .st8 c rd ra imm, _, _ => ⟨_, exec_st8 c rd ra imm s⟩
  | .amo c rd ra rb fn, _, _ => ⟨_, exec_amo c rd ra rb fn s⟩
  | .beq c ra rb off, _, _ => ⟨_, exec_beq c ra rb off s⟩
  | .bne c ra rb off, _, _ => ⟨_, exec_bne c ra rb off s⟩
  | .blt c ra rb off, _, _ => ⟨_, exec_blt c ra rb off s⟩
  | .bge c ra rb off, _, _ => ⟨_, exec_bge c ra rb off s⟩
  | .bltu c ra rb off, _, _ => ⟨_, exec_bltu c ra rb off s⟩
  | .bgeu c ra rb off, _, _ => ⟨_, exec_bgeu c ra rb off s⟩
  | .call c n off, _, _ => ⟨_, exec_call c n off s⟩
  | .ret c n uoff, _, _ => ⟨_, exec_ret c n uoff s⟩
  | .j c off, _, _ => ⟨_, exec_j c off s⟩
  | .jr c ra urd urb ufn, _, _ => ⟨_, exec_jr c ra urd urb ufn s⟩
  | .csr c rd ura urb fn, _, _ => ⟨_, exec_csr c rd ura urb fn s⟩
  | .desc c rd ra rb ufn, _, _ => ⟨_, exec_desc c rd ra rb ufn s⟩
  | .lkacq c rd ra rb ufn, _, _ => ⟨_, exec_lkacq c rd ra rb ufn s⟩
  | .lkrel c rd ra rb ufn, _, _ => ⟨_, exec_lkrel c rd ra rb ufn s⟩
  | .fence c urd ura urb ufn, _, _ => ⟨_, exec_fence c urd ura urb ufn s⟩
  | .done c urd ura imm, _, _ => ⟨_, exec_done c urd ura imm s⟩
  | .gets a line, _, _ => ⟨_, exec_gets a line s⟩
  | .getm a line, _, _ => ⟨_, exec_getm a line s⟩
  | .upgrade a line, _, _ => ⟨_, exec_upgrade a line s⟩
  | .putm a line data, _, _ => ⟨_, exec_putm a line data s⟩
  | .pute a line, _, _ => ⟨_, exec_pute a line s⟩
  | .readna line, _, _ => ⟨_, exec_readna line s⟩
  | .writena addr data, _, _ => ⟨_, exec_writena addr data s⟩
  | .atomicna addr op wide op1 op2, _, _ => ⟨_, exec_atomicna addr op wide op1 op2 s⟩
  | .forward a line, _, _ => ⟨_, exec_forward a line s⟩
  | .invalidation a line, _, _ => ⟨_, exec_invalidation a line s⟩
  | .coherentResponse a line, _, _ => ⟨_, exec_coherentResponse a line s⟩
  | .dirRead line, _, _ => ⟨_, exec_dirRead line s⟩
  | .lockArm pkt, _, _ => ⟨_, exec_lockArm pkt s⟩
  | .lockAcquire pkt, _, _ => ⟨_, exec_lockAcquire pkt s⟩
  | .lockRelease pkt, _, _ => ⟨_, exec_lockRelease pkt s⟩
  | .lockDisarm pkt, _, _ => ⟨_, exec_lockDisarm pkt s⟩
  | .lockCancel pkt, _, _ => ⟨_, exec_lockCancel pkt s⟩
  | .forcedHandover value, _, _ => ⟨_, exec_forcedHandover value s⟩
  | .codedMessage m, _, _ => ⟨_, exec_codedMessage m s⟩
  | .countWindowEnd src, _, _ => ⟨_, exec_countWindowEnd src s⟩
  | .force src, _, _ => ⟨_, exec_force src s⟩
  | .sevClr src, _, _ => ⟨_, exec_sevClr src s⟩
  | .recordRelease src, _, _ => ⟨_, exec_recordRelease src s⟩
  | .infoHeadWrite head, _, _ => ⟨_, exec_infoHeadWrite head s⟩
  | .heartbeat core, _, _ => ⟨_, exec_heartbeat core s⟩
  | .heartbeatMiss, _, _ => ⟨_, exec_heartbeatMiss s⟩
  | .takeoverEnd, _, _ => ⟨_, exec_takeoverEnd s⟩
  | .fwLoad, _, _ => ⟨_, exec_fwLoad s⟩
  | .fwLoadEnd sameFormat, _, _ => ⟨_, exec_fwLoadEnd sameFormat s⟩
  | .swap, _, _ => ⟨_, exec_swap s⟩
  | .restart, _, _ => ⟨_, exec_restart s⟩
  | .drain slot, _, _ => ⟨_, exec_drain slot s⟩
  | .drainWaitEnd, _, _ => ⟨_, exec_drainWaitEnd s⟩
  | .drained, _, _ => ⟨_, exec_drained s⟩
  | .drainClear, _, _ => ⟨_, exec_drainClear s⟩
  | .spareGo value, _, _ => ⟨_, exec_spareGo value s⟩
  | .spareEnd, _, _ => ⟨_, exec_spareEnd s⟩
  | .retire n page, _, _ => ⟨_, exec_retire n page s⟩
  | .retireEnd n bad, _, _ => ⟨_, exec_retireEnd n bad s⟩
  | .forceSafe confirm, _, _ => ⟨_, exec_forceSafe confirm s⟩
  | .forceLanes confirm on, _, _ => ⟨_, exec_forceLanes confirm on s⟩
  | .thermalTrip sensor, _, _ => ⟨_, exec_thermalTrip sensor s⟩
  | .cntSelWrite k value, _, _ => ⟨_, exec_cntSelWrite k value s⟩
  | .freeze, _, _ => ⟨_, exec_freeze s⟩
  | .clear, _, _ => ⟨_, exec_clear s⟩
  | .sampEnable value, _, _ => ⟨_, exec_sampEnable value s⟩
  | .sampRdWrite rd, _, _ => ⟨_, exec_sampRdWrite rd s⟩
  | .bwWindowEnd, _, _ => ⟨_, exec_bwWindowEnd s⟩
  | .railSample r reading bad, _, _ => ⟨_, exec_railSample r reading bad s⟩
  | .tempSample t reading, _, _ => ⟨_, exec_tempSample t reading s⟩
  | .droop i depth, _, _ => ⟨_, exec_droop i depth s⟩
  | .mmClr temp i, _, _ => ⟨_, exec_mmClr temp i s⟩
  | .refCheck clk present ppm, _, _ => ⟨_, exec_refCheck clk present ppm s⟩
  | .avsTimeout, _, _ => ⟨_, exec_avsTimeout s⟩
  | .vsbLoss, _, _ => ⟨_, exec_vsbLoss s⟩
  | .readIdent, _, _ => ⟨_, exec_readIdent s⟩
  | .readFlog first, _, _ => ⟨_, exec_readFlog first s⟩
  | .readSensor temp i, _, _ => ⟨_, exec_readSensor temp i s⟩
  | .safe confirm, _, _ => ⟨_, exec_safe confirm s⟩
  | .lanes on confirm, _, _ => ⟨_, exec_lanes on confirm s⟩
  | .sidebandReset _ _ _, h, _ => Bool.noConfusion h
  | .readReg off, _, _ => ⟨_, exec_readReg off s⟩
  | .writeReg _ _, h, _ => Bool.noConfusion h
  | .flashWrite _ _, _, h => Bool.noConfusion h
  | .flashErase _, _, h => Bool.noConfusion h
  | .setEndpointId eid, _, _ => ⟨_, exec_setEndpointId eid s⟩
  | .getEndpointId, _, _ => ⟨_, exec_getEndpointId s⟩
  | .getMctpVersionSupport, _, _ => ⟨_, exec_getMctpVersionSupport s⟩
  | .getMessageTypeSupport, _, _ => ⟨_, exec_getMessageTypeSupport s⟩
  | .getVendorDefinedMessageSupport, _, _ => ⟨_, exec_getVendorDefinedMessageSupport s⟩
  | .arbLost k, _, _ => ⟨_, exec_arbLost k s⟩
  | .arbRetry k, _, _ => ⟨_, exec_arbRetry k s⟩
  | .smbPoll data, _, _ => ⟨_, exec_smbPoll data s⟩
  | .bypass, _, _ => ⟨_, exec_bypass s⟩
  | .idcode, _, _ => ⟨_, exec_idcode s⟩
  | .samplePreload pins, _, _ => ⟨_, exec_samplePreload pins s⟩
  | .extest, _, _ => ⟨_, exec_extest s⟩
  | .highz, _, _ => ⟨_, exec_highz s⟩
  | .clamp, _, _ => ⟨_, exec_clamp s⟩
  | .extestPulse, _, _ => ⟨_, exec_extestPulse s⟩
  | .extestTrain, _, _ => ⟨_, exec_extestTrain s⟩
  | .dmaReadCompletion link tag data, _, _ => ⟨_, exec_dmaReadCompletion link tag data s⟩
  | .pllUnlock isl, _, _ => ⟨_, exec_pllUnlock isl s⟩
  | .avsbusAcknowledge, _, _ => ⟨_, exec_avsbusAcknowledge s⟩
  | .smbusClockLowTimeout, _, _ => ⟨_, exec_smbusClockLowTimeout s⟩
  | .trstAssert, _, _ => ⟨_, exec_trstAssert s⟩

end Sys2Proof.Machine
end

