-- ==== Sys2Proof/Laws/Ops.lean ====
section
/-! SUPPORT. Laws of shared operations: what counting an event and raising a PF0 event can change, said once as a principle of
preservation. -/

namespace Sys2Proof.Machine

/-- What holds of the start of a fold and is kept by each of its steps holds of its end. -/
theorem foldl_keeps {α β : Type} (P : β → Prop) (l : List α) (f : β → α → β) (b : β) (h : P b)
    (step : ∀ b x, x ∈ l → P b → P (f b x)) : P (l.foldl f b) := by
  induction l generalizing b with
  | nil => exact h
  | cons x l ih =>
    exact ih (f b x) (step b x List.mem_cons_self h) (fun b y hy => step b y (List.mem_cons_of_mem x hy))

/-- The registers in which events are counted. -/
def countReg (a : Nat) : Prop := 0x101000 ≤ a ∧ a < 0x109000

/-- The registers that raising a PF0 event may write: those of the counters, EVENTS and the pending bits. -/
def eventReg (a : Nat) : Prop := countReg a ∨ ∃ n, n < 4 ∧ (a = Reg.events n ∨ a = Reg.pfPba n 0)

/-- Counting an event writes registers of the counters alone. -/
theorem State.count_keeps (P : State → Prop) (e : Evt) (s : State) (h : P s)
    (set : ∀ (t : State) (a : Nat) (w : Word), countReg a → P t → P (t.setWord a w)) : P (s.count e) := by
  unfold State.count
  refine foldl_keeps P _ _ s h ?_
  intro t k hk ht
  have hb : k < 1024 := by
    simp only [State.cntList, List.mem_filterMap] at hk
    obtain ⟨r, _, hr⟩ := hk
    split at hr
    · injection hr; omega
    · exact absurd hr (by simp)
  split
  · unfold State.cntAdd
    have h1 : countReg (Reg.cntVal k) := by simp only [countReg, Reg.cntVal]; omega
    have h2 : countReg (Reg.cntSel k) := by simp only [countReg, Reg.cntSel]; omega
    simp only
    split
    · exact set _ _ _ h2 (set _ _ _ h1 ht)
    · exact set _ _ _ h1 ht
  · exact ht

/-- Raising a PF0 event writes EVENTS, pending bits, the counters, the emulated interrupt line and the outbox alone. -/
theorem State.raiseEvent_keeps (P : State → Prop) (v : Nat) (s : State) (hv : v < 64) (h : P s)
    (set : ∀ (t : State) (a : Nat) (w : Word), eventReg a → P t → P (t.setWord a w))
    (host : ∀ (t : State) (n : Nat) (x : HostSt), P t → P (t.setHost n x))
    (emit : ∀ (t : State) (o : Out), P t → P (t.emit o)) : P (s.raiseEvent v) := by
  unfold State.raiseEvent
  refine foldl_keeps P _ _ s h ?_
  intro t n hn ht
  have hn : n < 4 := List.mem_range.mp hn
  split
  · have h1 := set t (Reg.events n) (t.word (Reg.events n) ||| BitVec.ofNat 64 (1 <<< v)) (.inr ⟨n, hn, .inl rfl⟩) ht
    generalize (t.setWord (Reg.events n) (t.word (Reg.events n) ||| BitVec.ofNat 64 (1 <<< v))) = u at h1
    unfold State.signalPf
    split
    · unfold State.updateIntx
      split
      · exact h1
      · simp only
        split
        · exact emit _ _ (host _ _ _ h1)
        · split
          · exact emit _ _ (host _ _ _ h1)
          · exact h1
    · split
      · exact h1
      · split
        · simp only
          rw [show v / 64 = 0 by omega]
          exact set _ _ _ (.inr ⟨n, hn, .inr rfl⟩) h1
        · exact State.count_keeps P _ _ (emit _ _ h1) (fun t a w ha => set t a w (.inl ha))
  · exact ht

/-- Raising a PF0 event leaves every register outside the host blocks and the counters alone. -/
theorem State.raiseEvent_word (s : State) (v a : Nat) (hv : v < 64) (ha : a < 0x101000 ∨ (0x109000 ≤ a ∧ a < 0xA00000)) :
    (s.raiseEvent v).word a = s.word a := by
  refine State.raiseEvent_keeps (fun t => t.word a = s.word a) v s hv rfl ?_ (fun _ _ _ h => h) (fun _ _ h => h)
  intro t b w hb ht
  refine (State.word_setWord_other t b a w ?_).trans ht
  obtain h | ⟨n, hn, h | h⟩ := hb
  · simp only [countReg] at h; omega
  · simp only [h, Reg.events]; omega
  · simp only [h, Reg.pfPba]; omega

/-- Raising a PF0 event leaves the image block's own state alone. -/
theorem State.raiseEvent_img (s : State) (v : Nat) (hv : v < 64) : (s.raiseEvent v).img = s.img :=
  State.raiseEvent_keeps (fun t => t.img = s.img) v s hv rfl (fun _ _ _ _ h => h) (fun _ _ _ h => h) (fun _ _ h => h)

end Sys2Proof.Machine
end

