-- ==== Sys2Proof/Laws/Updates.lean ====
section
/-! SUPPORT. Laws of the updates of one record of a family (an output, a ring, a context, a core, a peer, an island): the field that each
replaces, every other field left alone, and the record that is read back. -/

namespace Sys2Proof.Machine

/-! ## setOut -/

@[simp] theorem State.setOut_outs (s : State) (o : Nat) (x : OutSt) : (s.setOut o x).outs = Table.put s.outs o x := rfl
@[simp] theorem State.setOut_pending (s : State) (o : Nat) (x : OutSt) : (s.setOut o x).pending = s.pending := rfl
@[simp] theorem State.setOut_out (s : State) (o : Nat) (x : OutSt) : (s.setOut o x).out = s.out := rfl
@[simp] theorem State.setOut_freeCtr (s : State) (o : Nat) (x : OutSt) : (s.setOut o x).freeCtr = s.freeCtr := rfl
@[simp] theorem State.setOut_powered (s : State) (o : Nat) (x : OutSt) : (s.setOut o x).powered = s.powered := rfl
@[simp] theorem State.setOut_now (s : State) (o : Nat) (x : OutSt) : (s.setOut o x).now = s.now := rfl
@[simp] theorem State.setOut_applyNs (s : State) (o : Nat) (x : OutSt) : (s.setOut o x).applyNs = s.applyNs := rfl
@[simp] theorem State.setOut_regs (s : State) (o : Nat) (x : OutSt) : (s.setOut o x).regs = s.regs := rfl
@[simp] theorem State.setOut_basicHeld (s : State) (o : Nat) (x : OutSt) : (s.setOut o x).basicHeld = s.basicHeld := rfl
@[simp] theorem State.setOut_islands (s : State) (o : Nat) (x : OutSt) : (s.setOut o x).islands = s.islands := rfl
@[simp] theorem State.setOut_fenced (s : State) (o : Nat) (x : OutSt) : (s.setOut o x).fenced = s.fenced := rfl
@[simp] theorem State.setOut_engMap (s : State) (o : Nat) (x : OutSt) : (s.setOut o x).engMap = s.engMap := rfl
@[simp] theorem State.setOut_spareMap (s : State) (o : Nat) (x : OutSt) : (s.setOut o x).spareMap = s.spareMap := rfl
@[simp] theorem State.setOut_tileMap (s : State) (o : Nat) (x : OutSt) : (s.setOut o x).tileMap = s.tileMap := rfl
@[simp] theorem State.setOut_spareTile (s : State) (o : Nat) (x : OutSt) : (s.setOut o x).spareTile = s.spareTile := rfl
@[simp] theorem State.setOut_fuse (s : State) (o : Nat) (x : OutSt) : (s.setOut o x).fuse = s.fuse := rfl
@[simp] theorem State.setOut_tailCache (s : State) (o : Nat) (x : OutSt) : (s.setOut o x).tailCache = s.tailCache := rfl
@[simp] theorem State.setOut_img (s : State) (o : Nat) (x : OutSt) : (s.setOut o x).img = s.img := rfl
@[simp] theorem State.setOut_ports (s : State) (o : Nat) (x : OutSt) : (s.setOut o x).ports = s.ports := rfl
@[simp] theorem State.setOut_lanes (s : State) (o : Nat) (x : OutSt) : (s.setOut o x).lanes = s.lanes := rfl
@[simp] theorem State.setOut_macros (s : State) (o : Nat) (x : OutSt) : (s.setOut o x).macros = s.macros := rfl
@[simp] theorem State.setOut_links (s : State) (o : Nat) (x : OutSt) : (s.setOut o x).links = s.links := rfl
@[simp] theorem State.setOut_wait (s : State) (o : Nat) (x : OutSt) : (s.setOut o x).wait = s.wait := rfl
@[simp] theorem State.setOut_nextId (s : State) (o : Nat) (x : OutSt) : (s.setOut o x).nextId = s.nextId := rfl
@[simp] theorem State.setOut_announced (s : State) (o : Nat) (x : OutSt) : (s.setOut o x).announced = s.announced := rfl
@[simp] theorem State.setOut_route (s : State) (o : Nat) (x : OutSt) : (s.setOut o x).route = s.route := rfl
@[simp] theorem State.setOut_xp (s : State) (o : Nat) (x : OutSt) : (s.setOut o x).xp = s.xp := rfl
@[simp] theorem State.setOut_sqs (s : State) (o : Nat) (x : OutSt) : (s.setOut o x).sqs = s.sqs := rfl
@[simp] theorem State.setOut_cqs (s : State) (o : Nat) (x : OutSt) : (s.setOut o x).cqs = s.cqs := rfl
@[simp] theorem State.setOut_insts (s : State) (o : Nat) (x : OutSt) : (s.setOut o x).insts = s.insts := rfl
@[simp] theorem State.setOut_hosts (s : State) (o : Nat) (x : OutSt) : (s.setOut o x).hosts = s.hosts := rfl
@[simp] theorem State.setOut_dma (s : State) (o : Nat) (x : OutSt) : (s.setOut o x).dma = s.dma := rfl
@[simp] theorem State.setOut_dmaQ (s : State) (o : Nat) (x : OutSt) : (s.setOut o x).dmaQ = s.dmaQ := rfl
@[simp] theorem State.setOut_logWait (s : State) (o : Nat) (x : OutSt) : (s.setOut o x).logWait = s.logWait := rfl
@[simp] theorem State.setOut_heldArr (s : State) (o : Nat) (x : OutSt) : (s.setOut o x).heldArr = s.heldArr := rfl
@[simp] theorem State.setOut_xl (s : State) (o : Nat) (x : OutSt) : (s.setOut o x).xl = s.xl := rfl
@[simp] theorem State.setOut_rma (s : State) (o : Nat) (x : OutSt) : (s.setOut o x).rma = s.rma := rfl
@[simp] theorem State.setOut_mt (s : State) (o : Nat) (x : OutSt) : (s.setOut o x).mt = s.mt := rfl
@[simp] theorem State.setOut_colls (s : State) (o : Nat) (x : OutSt) : (s.setOut o x).colls = s.colls := rfl
@[simp] theorem State.setOut_hand (s : State) (o : Nat) (x : OutSt) : (s.setOut o x).hand = s.hand := rfl
@[simp] theorem State.setOut_flt (s : State) (o : Nat) (x : OutSt) : (s.setOut o x).flt = s.flt := rfl
@[simp] theorem State.setOut_mon (s : State) (o : Nat) (x : OutSt) : (s.setOut o x).mon = s.mon := rfl
@[simp] theorem State.setOut_side (s : State) (o : Nat) (x : OutSt) : (s.setOut o x).side = s.side := rfl
@[simp] theorem State.setOut_pins (s : State) (o : Nat) (x : OutSt) : (s.setOut o x).pins = s.pins := rfl

/-! ## setMacro -/

@[simp] theorem State.setMacro_macros (s : State) (m : Nat) (x : MacroSt) : (s.setMacro m x).macros = Table.put s.macros m x := rfl
@[simp] theorem State.setMacro_pending (s : State) (m : Nat) (x : MacroSt) : (s.setMacro m x).pending = s.pending := rfl
@[simp] theorem State.setMacro_out (s : State) (m : Nat) (x : MacroSt) : (s.setMacro m x).out = s.out := rfl
@[simp] theorem State.setMacro_freeCtr (s : State) (m : Nat) (x : MacroSt) : (s.setMacro m x).freeCtr = s.freeCtr := rfl
@[simp] theorem State.setMacro_powered (s : State) (m : Nat) (x : MacroSt) : (s.setMacro m x).powered = s.powered := rfl
@[simp] theorem State.setMacro_now (s : State) (m : Nat) (x : MacroSt) : (s.setMacro m x).now = s.now := rfl
@[simp] theorem State.setMacro_applyNs (s : State) (m : Nat) (x : MacroSt) : (s.setMacro m x).applyNs = s.applyNs := rfl
@[simp] theorem State.setMacro_regs (s : State) (m : Nat) (x : MacroSt) : (s.setMacro m x).regs = s.regs := rfl
@[simp] theorem State.setMacro_basicHeld (s : State) (m : Nat) (x : MacroSt) : (s.setMacro m x).basicHeld = s.basicHeld := rfl
@[simp] theorem State.setMacro_islands (s : State) (m : Nat) (x : MacroSt) : (s.setMacro m x).islands = s.islands := rfl
@[simp] theorem State.setMacro_fenced (s : State) (m : Nat) (x : MacroSt) : (s.setMacro m x).fenced = s.fenced := rfl
@[simp] theorem State.setMacro_engMap (s : State) (m : Nat) (x : MacroSt) : (s.setMacro m x).engMap = s.engMap := rfl
@[simp] theorem State.setMacro_spareMap (s : State) (m : Nat) (x : MacroSt) : (s.setMacro m x).spareMap = s.spareMap := rfl
@[simp] theorem State.setMacro_tileMap (s : State) (m : Nat) (x : MacroSt) : (s.setMacro m x).tileMap = s.tileMap := rfl
@[simp] theorem State.setMacro_spareTile (s : State) (m : Nat) (x : MacroSt) : (s.setMacro m x).spareTile = s.spareTile := rfl
@[simp] theorem State.setMacro_fuse (s : State) (m : Nat) (x : MacroSt) : (s.setMacro m x).fuse = s.fuse := rfl
@[simp] theorem State.setMacro_tailCache (s : State) (m : Nat) (x : MacroSt) : (s.setMacro m x).tailCache = s.tailCache := rfl
@[simp] theorem State.setMacro_img (s : State) (m : Nat) (x : MacroSt) : (s.setMacro m x).img = s.img := rfl
@[simp] theorem State.setMacro_ports (s : State) (m : Nat) (x : MacroSt) : (s.setMacro m x).ports = s.ports := rfl
@[simp] theorem State.setMacro_lanes (s : State) (m : Nat) (x : MacroSt) : (s.setMacro m x).lanes = s.lanes := rfl
@[simp] theorem State.setMacro_links (s : State) (m : Nat) (x : MacroSt) : (s.setMacro m x).links = s.links := rfl
@[simp] theorem State.setMacro_wait (s : State) (m : Nat) (x : MacroSt) : (s.setMacro m x).wait = s.wait := rfl
@[simp] theorem State.setMacro_nextId (s : State) (m : Nat) (x : MacroSt) : (s.setMacro m x).nextId = s.nextId := rfl
@[simp] theorem State.setMacro_outs (s : State) (m : Nat) (x : MacroSt) : (s.setMacro m x).outs = s.outs := rfl
@[simp] theorem State.setMacro_announced (s : State) (m : Nat) (x : MacroSt) : (s.setMacro m x).announced = s.announced := rfl
@[simp] theorem State.setMacro_route (s : State) (m : Nat) (x : MacroSt) : (s.setMacro m x).route = s.route := rfl
@[simp] theorem State.setMacro_xp (s : State) (m : Nat) (x : MacroSt) : (s.setMacro m x).xp = s.xp := rfl
@[simp] theorem State.setMacro_sqs (s : State) (m : Nat) (x : MacroSt) : (s.setMacro m x).sqs = s.sqs := rfl
@[simp] theorem State.setMacro_cqs (s : State) (m : Nat) (x : MacroSt) : (s.setMacro m x).cqs = s.cqs := rfl
@[simp] theorem State.setMacro_insts (s : State) (m : Nat) (x : MacroSt) : (s.setMacro m x).insts = s.insts := rfl
@[simp] theorem State.setMacro_hosts (s : State) (m : Nat) (x : MacroSt) : (s.setMacro m x).hosts = s.hosts := rfl
@[simp] theorem State.setMacro_dma (s : State) (m : Nat) (x : MacroSt) : (s.setMacro m x).dma = s.dma := rfl
@[simp] theorem State.setMacro_dmaQ (s : State) (m : Nat) (x : MacroSt) : (s.setMacro m x).dmaQ = s.dmaQ := rfl
@[simp] theorem State.setMacro_logWait (s : State) (m : Nat) (x : MacroSt) : (s.setMacro m x).logWait = s.logWait := rfl
@[simp] theorem State.setMacro_heldArr (s : State) (m : Nat) (x : MacroSt) : (s.setMacro m x).heldArr = s.heldArr := rfl
@[simp] theorem State.setMacro_xl (s : State) (m : Nat) (x : MacroSt) : (s.setMacro m x).xl = s.xl := rfl
@[simp] theorem State.setMacro_rma (s : State) (m : Nat) (x : MacroSt) : (s.setMacro m x).rma = s.rma := rfl
@[simp] theorem State.setMacro_mt (s : State) (m : Nat) (x : MacroSt) : (s.setMacro m x).mt = s.mt := rfl
@[simp] theorem State.setMacro_colls (s : State) (m : Nat) (x : MacroSt) : (s.setMacro m x).colls = s.colls := rfl
@[simp] theorem State.setMacro_hand (s : State) (m : Nat) (x : MacroSt) : (s.setMacro m x).hand = s.hand := rfl
@[simp] theorem State.setMacro_flt (s : State) (m : Nat) (x : MacroSt) : (s.setMacro m x).flt = s.flt := rfl
@[simp] theorem State.setMacro_mon (s : State) (m : Nat) (x : MacroSt) : (s.setMacro m x).mon = s.mon := rfl
@[simp] theorem State.setMacro_side (s : State) (m : Nat) (x : MacroSt) : (s.setMacro m x).side = s.side := rfl
@[simp] theorem State.setMacro_pins (s : State) (m : Nat) (x : MacroSt) : (s.setMacro m x).pins = s.pins := rfl

/-! ## setSq -/

@[simp] theorem State.setSq_sqs (s : State) (i r : Nat) (q : SqSt) : (s.setSq i r q).sqs = Table.put s.sqs (ringKey i r) q := rfl
@[simp] theorem State.setSq_pending (s : State) (i r : Nat) (q : SqSt) : (s.setSq i r q).pending = s.pending := rfl
@[simp] theorem State.setSq_out (s : State) (i r : Nat) (q : SqSt) : (s.setSq i r q).out = s.out := rfl
@[simp] theorem State.setSq_freeCtr (s : State) (i r : Nat) (q : SqSt) : (s.setSq i r q).freeCtr = s.freeCtr := rfl
@[simp] theorem State.setSq_powered (s : State) (i r : Nat) (q : SqSt) : (s.setSq i r q).powered = s.powered := rfl
@[simp] theorem State.setSq_now (s : State) (i r : Nat) (q : SqSt) : (s.setSq i r q).now = s.now := rfl
@[simp] theorem State.setSq_applyNs (s : State) (i r : Nat) (q : SqSt) : (s.setSq i r q).applyNs = s.applyNs := rfl
@[simp] theorem State.setSq_basicHeld (s : State) (i r : Nat) (q : SqSt) : (s.setSq i r q).basicHeld = s.basicHeld := rfl
@[simp] theorem State.setSq_islands (s : State) (i r : Nat) (q : SqSt) : (s.setSq i r q).islands = s.islands := rfl
@[simp] theorem State.setSq_fenced (s : State) (i r : Nat) (q : SqSt) : (s.setSq i r q).fenced = s.fenced := rfl
@[simp] theorem State.setSq_engMap (s : State) (i r : Nat) (q : SqSt) : (s.setSq i r q).engMap = s.engMap := rfl
@[simp] theorem State.setSq_spareMap (s : State) (i r : Nat) (q : SqSt) : (s.setSq i r q).spareMap = s.spareMap := rfl
@[simp] theorem State.setSq_tileMap (s : State) (i r : Nat) (q : SqSt) : (s.setSq i r q).tileMap = s.tileMap := rfl
@[simp] theorem State.setSq_spareTile (s : State) (i r : Nat) (q : SqSt) : (s.setSq i r q).spareTile = s.spareTile := rfl
@[simp] theorem State.setSq_fuse (s : State) (i r : Nat) (q : SqSt) : (s.setSq i r q).fuse = s.fuse := rfl
@[simp] theorem State.setSq_tailCache (s : State) (i r : Nat) (q : SqSt) : (s.setSq i r q).tailCache = s.tailCache := rfl
@[simp] theorem State.setSq_img (s : State) (i r : Nat) (q : SqSt) : (s.setSq i r q).img = s.img := rfl
@[simp] theorem State.setSq_ports (s : State) (i r : Nat) (q : SqSt) : (s.setSq i r q).ports = s.ports := rfl
@[simp] theorem State.setSq_lanes (s : State) (i r : Nat) (q : SqSt) : (s.setSq i r q).lanes = s.lanes := rfl
@[simp] theorem State.setSq_macros (s : State) (i r : Nat) (q : SqSt) : (s.setSq i r q).macros = s.macros := rfl
@[simp] theorem State.setSq_links (s : State) (i r : Nat) (q : SqSt) : (s.setSq i r q).links = s.links := rfl
@[simp] theorem State.setSq_wait (s : State) (i r : Nat) (q : SqSt) : (s.setSq i r q).wait = s.wait := rfl
@[simp] theorem State.setSq_nextId (s : State) (i r : Nat) (q : SqSt) : (s.setSq i r q).nextId = s.nextId := rfl
@[simp] theorem State.setSq_outs (s : State) (i r : Nat) (q : SqSt) : (s.setSq i r q).outs = s.outs := rfl
@[simp] theorem State.setSq_announced (s : State) (i r : Nat) (q : SqSt) : (s.setSq i r q).announced = s.announced := rfl
@[simp] theorem State.setSq_route (s : State) (i r : Nat) (q : SqSt) : (s.setSq i r q).route = s.route := rfl
@[simp] theorem State.setSq_xp (s : State) (i r : Nat) (q : SqSt) : (s.setSq i r q).xp = s.xp := rfl
@[simp] theorem State.setSq_cqs (s : State) (i r : Nat) (q : SqSt) : (s.setSq i r q).cqs = s.cqs := rfl
@[simp] theorem State.setSq_insts (s : State) (i r : Nat) (q : SqSt) : (s.setSq i r q).insts = s.insts := rfl
@[simp] theorem State.setSq_hosts (s : State) (i r : Nat) (q : SqSt) : (s.setSq i r q).hosts = s.hosts := rfl
@[simp] theorem State.setSq_dma (s : State) (i r : Nat) (q : SqSt) : (s.setSq i r q).dma = s.dma := rfl
@[simp] theorem State.setSq_dmaQ (s : State) (i r : Nat) (q : SqSt) : (s.setSq i r q).dmaQ = s.dmaQ := rfl
@[simp] theorem State.setSq_logWait (s : State) (i r : Nat) (q : SqSt) : (s.setSq i r q).logWait = s.logWait := rfl
@[simp] theorem State.setSq_heldArr (s : State) (i r : Nat) (q : SqSt) : (s.setSq i r q).heldArr = s.heldArr := rfl
@[simp] theorem State.setSq_xl (s : State) (i r : Nat) (q : SqSt) : (s.setSq i r q).xl = s.xl := rfl
@[simp] theorem State.setSq_rma (s : State) (i r : Nat) (q : SqSt) : (s.setSq i r q).rma = s.rma := rfl
@[simp] theorem State.setSq_mt (s : State) (i r : Nat) (q : SqSt) : (s.setSq i r q).mt = s.mt := rfl
@[simp] theorem State.setSq_colls (s : State) (i r : Nat) (q : SqSt) : (s.setSq i r q).colls = s.colls := rfl
@[simp] theorem State.setSq_hand (s : State) (i r : Nat) (q : SqSt) : (s.setSq i r q).hand = s.hand := rfl
@[simp] theorem State.setSq_flt (s : State) (i r : Nat) (q : SqSt) : (s.setSq i r q).flt = s.flt := rfl
@[simp] theorem State.setSq_mon (s : State) (i r : Nat) (q : SqSt) : (s.setSq i r q).mon = s.mon := rfl
@[simp] theorem State.setSq_side (s : State) (i r : Nat) (q : SqSt) : (s.setSq i r q).side = s.side := rfl
@[simp] theorem State.setSq_pins (s : State) (i r : Nat) (q : SqSt) : (s.setSq i r q).pins = s.pins := rfl

/-! ## setCq -/

@[simp] theorem State.setCq_cqs (s : State) (i r : Nat) (q : CqSt) : (s.setCq i r q).cqs = Table.put s.cqs (ringKey i r) q := rfl
@[simp] theorem State.setCq_pending (s : State) (i r : Nat) (q : CqSt) : (s.setCq i r q).pending = s.pending := rfl
@[simp] theorem State.setCq_out (s : State) (i r : Nat) (q : CqSt) : (s.setCq i r q).out = s.out := rfl
@[simp] theorem State.setCq_freeCtr (s : State) (i r : Nat) (q : CqSt) : (s.setCq i r q).freeCtr = s.freeCtr := rfl
@[simp] theorem State.setCq_powered (s : State) (i r : Nat) (q : CqSt) : (s.setCq i r q).powered = s.powered := rfl
@[simp] theorem State.setCq_now (s : State) (i r : Nat) (q : CqSt) : (s.setCq i r q).now = s.now := rfl
@[simp] theorem State.setCq_applyNs (s : State) (i r : Nat) (q : CqSt) : (s.setCq i r q).applyNs = s.applyNs := rfl
@[simp] theorem State.setCq_basicHeld (s : State) (i r : Nat) (q : CqSt) : (s.setCq i r q).basicHeld = s.basicHeld := rfl
@[simp] theorem State.setCq_islands (s : State) (i r : Nat) (q : CqSt) : (s.setCq i r q).islands = s.islands := rfl
@[simp] theorem State.setCq_fenced (s : State) (i r : Nat) (q : CqSt) : (s.setCq i r q).fenced = s.fenced := rfl
@[simp] theorem State.setCq_engMap (s : State) (i r : Nat) (q : CqSt) : (s.setCq i r q).engMap = s.engMap := rfl
@[simp] theorem State.setCq_spareMap (s : State) (i r : Nat) (q : CqSt) : (s.setCq i r q).spareMap = s.spareMap := rfl
@[simp] theorem State.setCq_tileMap (s : State) (i r : Nat) (q : CqSt) : (s.setCq i r q).tileMap = s.tileMap := rfl
@[simp] theorem State.setCq_spareTile (s : State) (i r : Nat) (q : CqSt) : (s.setCq i r q).spareTile = s.spareTile := rfl
@[simp] theorem State.setCq_fuse (s : State) (i r : Nat) (q : CqSt) : (s.setCq i r q).fuse = s.fuse := rfl
@[simp] theorem State.setCq_tailCache (s : State) (i r : Nat) (q : CqSt) : (s.setCq i r q).tailCache = s.tailCache := rfl
@[simp] theorem State.setCq_img (s : State) (i r : Nat) (q : CqSt) : (s.setCq i r q).img = s.img := rfl
@[simp] theorem State.setCq_ports (s : State) (i r : Nat) (q : CqSt) : (s.setCq i r q).ports = s.ports := rfl
@[simp] theorem State.setCq_lanes (s : State) (i r : Nat) (q : CqSt) : (s.setCq i r q).lanes = s.lanes := rfl
@[simp] theorem State.setCq_macros (s : State) (i r : Nat) (q : CqSt) : (s.setCq i r q).macros = s.macros := rfl
@[simp] theorem State.setCq_links (s : State) (i r : Nat) (q : CqSt) : (s.setCq i r q).links = s.links := rfl
@[simp] theorem State.setCq_wait (s : State) (i r : Nat) (q : CqSt) : (s.setCq i r q).wait = s.wait := rfl
@[simp] theorem State.setCq_nextId (s : State) (i r : Nat) (q : CqSt) : (s.setCq i r q).nextId = s.nextId := rfl
@[simp] theorem State.setCq_outs (s : State) (i r : Nat) (q : CqSt) : (s.setCq i r q).outs = s.outs := rfl
@[simp] theorem State.setCq_announced (s : State) (i r : Nat) (q : CqSt) : (s.setCq i r q).announced = s.announced := rfl
@[simp] theorem State.setCq_route (s : State) (i r : Nat) (q : CqSt) : (s.setCq i r q).route = s.route := rfl
@[simp] theorem State.setCq_xp (s : State) (i r : Nat) (q : CqSt) : (s.setCq i r q).xp = s.xp := rfl
@[simp] theorem State.setCq_sqs (s : State) (i r : Nat) (q : CqSt) : (s.setCq i r q).sqs = s.sqs := rfl
@[simp] theorem State.setCq_insts (s : State) (i r : Nat) (q : CqSt) : (s.setCq i r q).insts = s.insts := rfl
@[simp] theorem State.setCq_hosts (s : State) (i r : Nat) (q : CqSt) : (s.setCq i r q).hosts = s.hosts := rfl
@[simp] theorem State.setCq_dma (s : State) (i r : Nat) (q : CqSt) : (s.setCq i r q).dma = s.dma := rfl
@[simp] theorem State.setCq_dmaQ (s : State) (i r : Nat) (q : CqSt) : (s.setCq i r q).dmaQ = s.dmaQ := rfl
@[simp] theorem State.setCq_logWait (s : State) (i r : Nat) (q : CqSt) : (s.setCq i r q).logWait = s.logWait := rfl
@[simp] theorem State.setCq_heldArr (s : State) (i r : Nat) (q : CqSt) : (s.setCq i r q).heldArr = s.heldArr := rfl
@[simp] theorem State.setCq_xl (s : State) (i r : Nat) (q : CqSt) : (s.setCq i r q).xl = s.xl := rfl
@[simp] theorem State.setCq_rma (s : State) (i r : Nat) (q : CqSt) : (s.setCq i r q).rma = s.rma := rfl
@[simp] theorem State.setCq_mt (s : State) (i r : Nat) (q : CqSt) : (s.setCq i r q).mt = s.mt := rfl
@[simp] theorem State.setCq_colls (s : State) (i r : Nat) (q : CqSt) : (s.setCq i r q).colls = s.colls := rfl
@[simp] theorem State.setCq_hand (s : State) (i r : Nat) (q : CqSt) : (s.setCq i r q).hand = s.hand := rfl
@[simp] theorem State.setCq_flt (s : State) (i r : Nat) (q : CqSt) : (s.setCq i r q).flt = s.flt := rfl
@[simp] theorem State.setCq_mon (s : State) (i r : Nat) (q : CqSt) : (s.setCq i r q).mon = s.mon := rfl
@[simp] theorem State.setCq_side (s : State) (i r : Nat) (q : CqSt) : (s.setCq i r q).side = s.side := rfl
@[simp] theorem State.setCq_pins (s : State) (i r : Nat) (q : CqSt) : (s.setCq i r q).pins = s.pins := rfl

/-! ## setCtx -/

@[simp] theorem State.setCtx_mt (s : State) (d : Nat) (c : CtxSt) : (s.setCtx d c).mt = { s.mt with ctx := Table.put s.mt.ctx d c } := rfl
@[simp] theorem State.setCtx_pending (s : State) (d : Nat) (c : CtxSt) : (s.setCtx d c).pending = s.pending := rfl
@[simp] theorem State.setCtx_out (s : State) (d : Nat) (c : CtxSt) : (s.setCtx d c).out = s.out := rfl
@[simp] theorem State.setCtx_freeCtr (s : State) (d : Nat) (c : CtxSt) : (s.setCtx d c).freeCtr = s.freeCtr := rfl
@[simp] theorem State.setCtx_powered (s : State) (d : Nat) (c : CtxSt) : (s.setCtx d c).powered = s.powered := rfl
@[simp] theorem State.setCtx_now (s : State) (d : Nat) (c : CtxSt) : (s.setCtx d c).now = s.now := rfl
@[simp] theorem State.setCtx_applyNs (s : State) (d : Nat) (c : CtxSt) : (s.setCtx d c).applyNs = s.applyNs := rfl
@[simp] theorem State.setCtx_basicHeld (s : State) (d : Nat) (c : CtxSt) : (s.setCtx d c).basicHeld = s.basicHeld := rfl
@[simp] theorem State.setCtx_islands (s : State) (d : Nat) (c : CtxSt) : (s.setCtx d c).islands = s.islands := rfl
@[simp] theorem State.setCtx_fenced (s : State) (d : Nat) (c : CtxSt) : (s.setCtx d c).fenced = s.fenced := rfl
@[simp] theorem State.setCtx_engMap (s : State) (d : Nat) (c : CtxSt) : (s.setCtx d c).engMap = s.engMap := rfl
@[simp] theorem State.setCtx_spareMap (s : State) (d : Nat) (c : CtxSt) : (s.setCtx d c).spareMap = s.spareMap := rfl
@[simp] theorem State.setCtx_tileMap (s : State) (d : Nat) (c : CtxSt) : (s.setCtx d c).tileMap = s.tileMap := rfl
@[simp] theorem State.setCtx_spareTile (s : State) (d : Nat) (c : CtxSt) : (s.setCtx d c).spareTile = s.spareTile := rfl
@[simp] theorem State.setCtx_fuse (s : State) (d : Nat) (c : CtxSt) : (s.setCtx d c).fuse = s.fuse := rfl
@[simp] theorem State.setCtx_tailCache (s : State) (d : Nat) (c : CtxSt) : (s.setCtx d c).tailCache = s.tailCache := rfl
@[simp] theorem State.setCtx_img (s : State) (d : Nat) (c : CtxSt) : (s.setCtx d c).img = s.img := rfl
@[simp] theorem State.setCtx_ports (s : State) (d : Nat) (c : CtxSt) : (s.setCtx d c).ports = s.ports := rfl
@[simp] theorem State.setCtx_lanes (s : State) (d : Nat) (c : CtxSt) : (s.setCtx d c).lanes = s.lanes := rfl
@[simp] theorem State.setCtx_macros (s : State) (d : Nat) (c : CtxSt) : (s.setCtx d c).macros = s.macros := rfl
@[simp] theorem State.setCtx_links (s : State) (d : Nat) (c : CtxSt) : (s.setCtx d c).links = s.links := rfl
@[simp] theorem State.setCtx_wait (s : State) (d : Nat) (c : CtxSt) : (s.setCtx d c).wait = s.wait := rfl
@[simp] theorem State.setCtx_nextId (s : State) (d : Nat) (c : CtxSt) : (s.setCtx d c).nextId = s.nextId := rfl
@[simp] theorem State.setCtx_outs (s : State) (d : Nat) (c : CtxSt) : (s.setCtx d c).outs = s.outs := rfl
@[simp] theorem State.setCtx_announced (s : State) (d : Nat) (c : CtxSt) : (s.setCtx d c).announced = s.announced := rfl
@[simp] theorem State.setCtx_route (s : State) (d : Nat) (c : CtxSt) : (s.setCtx d c).route = s.route := rfl
@[simp] theorem State.setCtx_xp (s : State) (d : Nat) (c : CtxSt) : (s.setCtx d c).xp = s.xp := rfl
@[simp] theorem State.setCtx_sqs (s : State) (d : Nat) (c : CtxSt) : (s.setCtx d c).sqs = s.sqs := rfl
@[simp] theorem State.setCtx_cqs (s : State) (d : Nat) (c : CtxSt) : (s.setCtx d c).cqs = s.cqs := rfl
@[simp] theorem State.setCtx_insts (s : State) (d : Nat) (c : CtxSt) : (s.setCtx d c).insts = s.insts := rfl
@[simp] theorem State.setCtx_hosts (s : State) (d : Nat) (c : CtxSt) : (s.setCtx d c).hosts = s.hosts := rfl
@[simp] theorem State.setCtx_dma (s : State) (d : Nat) (c : CtxSt) : (s.setCtx d c).dma = s.dma := rfl
@[simp] theorem State.setCtx_dmaQ (s : State) (d : Nat) (c : CtxSt) : (s.setCtx d c).dmaQ = s.dmaQ := rfl
@[simp] theorem State.setCtx_logWait (s : State) (d : Nat) (c : CtxSt) : (s.setCtx d c).logWait = s.logWait := rfl
@[simp] theorem State.setCtx_heldArr (s : State) (d : Nat) (c : CtxSt) : (s.setCtx d c).heldArr = s.heldArr := rfl
@[simp] theorem State.setCtx_xl (s : State) (d : Nat) (c : CtxSt) : (s.setCtx d c).xl = s.xl := rfl
@[simp] theorem State.setCtx_rma (s : State) (d : Nat) (c : CtxSt) : (s.setCtx d c).rma = s.rma := rfl
@[simp] theorem State.setCtx_colls (s : State) (d : Nat) (c : CtxSt) : (s.setCtx d c).colls = s.colls := rfl
@[simp] theorem State.setCtx_hand (s : State) (d : Nat) (c : CtxSt) : (s.setCtx d c).hand = s.hand := rfl
@[simp] theorem State.setCtx_flt (s : State) (d : Nat) (c : CtxSt) : (s.setCtx d c).flt = s.flt := rfl
@[simp] theorem State.setCtx_mon (s : State) (d : Nat) (c : CtxSt) : (s.setCtx d c).mon = s.mon := rfl
@[simp] theorem State.setCtx_side (s : State) (d : Nat) (c : CtxSt) : (s.setCtx d c).side = s.side := rfl
@[simp] theorem State.setCtx_pins (s : State) (d : Nat) (c : CtxSt) : (s.setCtx d c).pins = s.pins := rfl

/-! ## setCore -/

@[simp] theorem State.setCore_hand (s : State) (c : Nat) (x : CoreSt) : (s.setCore c x).hand = { s.hand with cores := Table.put s.hand.cores c x } := rfl
@[simp] theorem State.setCore_pending (s : State) (c : Nat) (x : CoreSt) : (s.setCore c x).pending = s.pending := rfl
@[simp] theorem State.setCore_out (s : State) (c : Nat) (x : CoreSt) : (s.setCore c x).out = s.out := rfl
@[simp] theorem State.setCore_freeCtr (s : State) (c : Nat) (x : CoreSt) : (s.setCore c x).freeCtr = s.freeCtr := rfl
@[simp] theorem State.setCore_powered (s : State) (c : Nat) (x : CoreSt) : (s.setCore c x).powered = s.powered := rfl
@[simp] theorem State.setCore_now (s : State) (c : Nat) (x : CoreSt) : (s.setCore c x).now = s.now := rfl
@[simp] theorem State.setCore_applyNs (s : State) (c : Nat) (x : CoreSt) : (s.setCore c x).applyNs = s.applyNs := rfl
@[simp] theorem State.setCore_regs (s : State) (c : Nat) (x : CoreSt) : (s.setCore c x).regs = s.regs := rfl
@[simp] theorem State.setCore_basicHeld (s : State) (c : Nat) (x : CoreSt) : (s.setCore c x).basicHeld = s.basicHeld := rfl
@[simp] theorem State.setCore_islands (s : State) (c : Nat) (x : CoreSt) : (s.setCore c x).islands = s.islands := rfl
@[simp] theorem State.setCore_fenced (s : State) (c : Nat) (x : CoreSt) : (s.setCore c x).fenced = s.fenced := rfl
@[simp] theorem State.setCore_engMap (s : State) (c : Nat) (x : CoreSt) : (s.setCore c x).engMap = s.engMap := rfl
@[simp] theorem State.setCore_spareMap (s : State) (c : Nat) (x : CoreSt) : (s.setCore c x).spareMap = s.spareMap := rfl
@[simp] theorem State.setCore_tileMap (s : State) (c : Nat) (x : CoreSt) : (s.setCore c x).tileMap = s.tileMap := rfl
@[simp] theorem State.setCore_spareTile (s : State) (c : Nat) (x : CoreSt) : (s.setCore c x).spareTile = s.spareTile := rfl
@[simp] theorem State.setCore_fuse (s : State) (c : Nat) (x : CoreSt) : (s.setCore c x).fuse = s.fuse := rfl
@[simp] theorem State.setCore_tailCache (s : State) (c : Nat) (x : CoreSt) : (s.setCore c x).tailCache = s.tailCache := rfl
@[simp] theorem State.setCore_img (s : State) (c : Nat) (x : CoreSt) : (s.setCore c x).img = s.img := rfl
@[simp] theorem State.setCore_ports (s : State) (c : Nat) (x : CoreSt) : (s.setCore c x).ports = s.ports := rfl
@[simp] theorem State.setCore_lanes (s : State) (c : Nat) (x : CoreSt) : (s.setCore c x).lanes = s.lanes := rfl
@[simp] theorem State.setCore_macros (s : State) (c : Nat) (x : CoreSt) : (s.setCore c x).macros = s.macros := rfl
@[simp] theorem State.setCore_links (s : State) (c : Nat) (x : CoreSt) : (s.setCore c x).links = s.links := rfl
@[simp] theorem State.setCore_wait (s : State) (c : Nat) (x : CoreSt) : (s.setCore c x).wait = s.wait := rfl
@[simp] theorem State.setCore_nextId (s : State) (c : Nat) (x : CoreSt) : (s.setCore c x).nextId = s.nextId := rfl
@[simp] theorem State.setCore_outs (s : State) (c : Nat) (x : CoreSt) : (s.setCore c x).outs = s.outs := rfl
@[simp] theorem State.setCore_announced (s : State) (c : Nat) (x : CoreSt) : (s.setCore c x).announced = s.announced := rfl
@[simp] theorem State.setCore_route (s : State) (c : Nat) (x : CoreSt) : (s.setCore c x).route = s.route := rfl
@[simp] theorem State.setCore_xp (s : State) (c : Nat) (x : CoreSt) : (s.setCore c x).xp = s.xp := rfl
@[simp] theorem State.setCore_sqs (s : State) (c : Nat) (x : CoreSt) : (s.setCore c x).sqs = s.sqs := rfl
@[simp] theorem State.setCore_cqs (s : State) (c : Nat) (x : CoreSt) : (s.setCore c x).cqs = s.cqs := rfl
@[simp] theorem State.setCore_insts (s : State) (c : Nat) (x : CoreSt) : (s.setCore c x).insts = s.insts := rfl
@[simp] theorem State.setCore_hosts (s : State) (c : Nat) (x : CoreSt) : (s.setCore c x).hosts = s.hosts := rfl
@[simp] theorem State.setCore_dma (s : State) (c : Nat) (x : CoreSt) : (s.setCore c x).dma = s.dma := rfl
@[simp] theorem State.setCore_dmaQ (s : State) (c : Nat) (x : CoreSt) : (s.setCore c x).dmaQ = s.dmaQ := rfl
@[simp] theorem State.setCore_logWait (s : State) (c : Nat) (x : CoreSt) : (s.setCore c x).logWait = s.logWait := rfl
@[simp] theorem State.setCore_heldArr (s : State) (c : Nat) (x : CoreSt) : (s.setCore c x).heldArr = s.heldArr := rfl
@[simp] theorem State.setCore_xl (s : State) (c : Nat) (x : CoreSt) : (s.setCore c x).xl = s.xl := rfl
@[simp] theorem State.setCore_rma (s : State) (c : Nat) (x : CoreSt) : (s.setCore c x).rma = s.rma := rfl
@[simp] theorem State.setCore_mt (s : State) (c : Nat) (x : CoreSt) : (s.setCore c x).mt = s.mt := rfl
@[simp] theorem State.setCore_colls (s : State) (c : Nat) (x : CoreSt) : (s.setCore c x).colls = s.colls := rfl
@[simp] theorem State.setCore_flt (s : State) (c : Nat) (x : CoreSt) : (s.setCore c x).flt = s.flt := rfl
@[simp] theorem State.setCore_mon (s : State) (c : Nat) (x : CoreSt) : (s.setCore c x).mon = s.mon := rfl
@[simp] theorem State.setCore_side (s : State) (c : Nat) (x : CoreSt) : (s.setCore c x).side = s.side := rfl
@[simp] theorem State.setCore_pins (s : State) (c : Nat) (x : CoreSt) : (s.setCore c x).pins = s.pins := rfl

/-! ## setPeer -/

@[simp] theorem State.setPeer_xp (s : State) (i : Nat) (r : PeerRec) : (s.setPeer i r).xp = { s.xp with peers := Table.put s.xp.peers i r } := rfl
@[simp] theorem State.setPeer_pending (s : State) (i : Nat) (r : PeerRec) : (s.setPeer i r).pending = s.pending := rfl
@[simp] theorem State.setPeer_out (s : State) (i : Nat) (r : PeerRec) : (s.setPeer i r).out = s.out := rfl
@[simp] theorem State.setPeer_freeCtr (s : State) (i : Nat) (r : PeerRec) : (s.setPeer i r).freeCtr = s.freeCtr := rfl
@[simp] theorem State.setPeer_powered (s : State) (i : Nat) (r : PeerRec) : (s.setPeer i r).powered = s.powered := rfl
@[simp] theorem State.setPeer_now (s : State) (i : Nat) (r : PeerRec) : (s.setPeer i r).now = s.now := rfl
@[simp] theorem State.setPeer_applyNs (s : State) (i : Nat) (r : PeerRec) : (s.setPeer i r).applyNs = s.applyNs := rfl
@[simp] theorem State.setPeer_regs (s : State) (i : Nat) (r : PeerRec) : (s.setPeer i r).regs = s.regs := rfl
@[simp] theorem State.setPeer_basicHeld (s : State) (i : Nat) (r : PeerRec) : (s.setPeer i r).basicHeld = s.basicHeld := rfl
@[simp] theorem State.setPeer_islands (s : State) (i : Nat) (r : PeerRec) : (s.setPeer i r).islands = s.islands := rfl
@[simp] theorem State.setPeer_fenced (s : State) (i : Nat) (r : PeerRec) : (s.setPeer i r).fenced = s.fenced := rfl
@[simp] theorem State.setPeer_engMap (s : State) (i : Nat) (r : PeerRec) : (s.setPeer i r).engMap = s.engMap := rfl
@[simp] theorem State.setPeer_spareMap (s : State) (i : Nat) (r : PeerRec) : (s.setPeer i r).spareMap = s.spareMap := rfl
@[simp] theorem State.setPeer_tileMap (s : State) (i : Nat) (r : PeerRec) : (s.setPeer i r).tileMap = s.tileMap := rfl
@[simp] theorem State.setPeer_spareTile (s : State) (i : Nat) (r : PeerRec) : (s.setPeer i r).spareTile = s.spareTile := rfl
@[simp] theorem State.setPeer_fuse (s : State) (i : Nat) (r : PeerRec) : (s.setPeer i r).fuse = s.fuse := rfl
@[simp] theorem State.setPeer_tailCache (s : State) (i : Nat) (r : PeerRec) : (s.setPeer i r).tailCache = s.tailCache := rfl
@[simp] theorem State.setPeer_img (s : State) (i : Nat) (r : PeerRec) : (s.setPeer i r).img = s.img := rfl
@[simp] theorem State.setPeer_ports (s : State) (i : Nat) (r : PeerRec) : (s.setPeer i r).ports = s.ports := rfl
@[simp] theorem State.setPeer_lanes (s : State) (i : Nat) (r : PeerRec) : (s.setPeer i r).lanes = s.lanes := rfl
@[simp] theorem State.setPeer_macros (s : State) (i : Nat) (r : PeerRec) : (s.setPeer i r).macros = s.macros := rfl
@[simp] theorem State.setPeer_links (s : State) (i : Nat) (r : PeerRec) : (s.setPeer i r).links = s.links := rfl
@[simp] theorem State.setPeer_wait (s : State) (i : Nat) (r : PeerRec) : (s.setPeer i r).wait = s.wait := rfl
@[simp] theorem State.setPeer_nextId (s : State) (i : Nat) (r : PeerRec) : (s.setPeer i r).nextId = s.nextId := rfl
@[simp] theorem State.setPeer_outs (s : State) (i : Nat) (r : PeerRec) : (s.setPeer i r).outs = s.outs := rfl
@[simp] theorem State.setPeer_announced (s : State) (i : Nat) (r : PeerRec) : (s.setPeer i r).announced = s.announced := rfl
@[simp] theorem State.setPeer_route (s : State) (i : Nat) (r : PeerRec) : (s.setPeer i r).route = s.route := rfl
@[simp] theorem State.setPeer_sqs (s : State) (i : Nat) (r : PeerRec) : (s.setPeer i r).sqs = s.sqs := rfl
@[simp] theorem State.setPeer_cqs (s : State) (i : Nat) (r : PeerRec) : (s.setPeer i r).cqs = s.cqs := rfl
@[simp] theorem State.setPeer_insts (s : State) (i : Nat) (r : PeerRec) : (s.setPeer i r).insts = s.insts := rfl
@[simp] theorem State.setPeer_hosts (s : State) (i : Nat) (r : PeerRec) : (s.setPeer i r).hosts = s.hosts := rfl
@[simp] theorem State.setPeer_dma (s : State) (i : Nat) (r : PeerRec) : (s.setPeer i r).dma = s.dma := rfl
@[simp] theorem State.setPeer_dmaQ (s : State) (i : Nat) (r : PeerRec) : (s.setPeer i r).dmaQ = s.dmaQ := rfl
@[simp] theorem State.setPeer_logWait (s : State) (i : Nat) (r : PeerRec) : (s.setPeer i r).logWait = s.logWait := rfl
@[simp] theorem State.setPeer_heldArr (s : State) (i : Nat) (r : PeerRec) : (s.setPeer i r).heldArr = s.heldArr := rfl
@[simp] theorem State.setPeer_xl (s : State) (i : Nat) (r : PeerRec) : (s.setPeer i r).xl = s.xl := rfl
@[simp] theorem State.setPeer_rma (s : State) (i : Nat) (r : PeerRec) : (s.setPeer i r).rma = s.rma := rfl
@[simp] theorem State.setPeer_mt (s : State) (i : Nat) (r : PeerRec) : (s.setPeer i r).mt = s.mt := rfl
@[simp] theorem State.setPeer_colls (s : State) (i : Nat) (r : PeerRec) : (s.setPeer i r).colls = s.colls := rfl
@[simp] theorem State.setPeer_hand (s : State) (i : Nat) (r : PeerRec) : (s.setPeer i r).hand = s.hand := rfl
@[simp] theorem State.setPeer_flt (s : State) (i : Nat) (r : PeerRec) : (s.setPeer i r).flt = s.flt := rfl
@[simp] theorem State.setPeer_mon (s : State) (i : Nat) (r : PeerRec) : (s.setPeer i r).mon = s.mon := rfl
@[simp] theorem State.setPeer_side (s : State) (i : Nat) (r : PeerRec) : (s.setPeer i r).side = s.side := rfl
@[simp] theorem State.setPeer_pins (s : State) (i : Nat) (r : PeerRec) : (s.setPeer i r).pins = s.pins := rfl

/-! ## setShaper -/

@[simp] theorem State.setShaper_xp (s : State) (k : Nat) (q : ShaperSt) : (s.setShaper k q).xp = { s.xp with shapers := Table.put s.xp.shapers k q } := rfl
@[simp] theorem State.setShaper_pending (s : State) (k : Nat) (q : ShaperSt) : (s.setShaper k q).pending = s.pending := rfl
@[simp] theorem State.setShaper_out (s : State) (k : Nat) (q : ShaperSt) : (s.setShaper k q).out = s.out := rfl
@[simp] theorem State.setShaper_freeCtr (s : State) (k : Nat) (q : ShaperSt) : (s.setShaper k q).freeCtr = s.freeCtr := rfl
@[simp] theorem State.setShaper_powered (s : State) (k : Nat) (q : ShaperSt) : (s.setShaper k q).powered = s.powered := rfl
@[simp] theorem State.setShaper_now (s : State) (k : Nat) (q : ShaperSt) : (s.setShaper k q).now = s.now := rfl
@[simp] theorem State.setShaper_applyNs (s : State) (k : Nat) (q : ShaperSt) : (s.setShaper k q).applyNs = s.applyNs := rfl
@[simp] theorem State.setShaper_basicHeld (s : State) (k : Nat) (q : ShaperSt) : (s.setShaper k q).basicHeld = s.basicHeld := rfl
@[simp] theorem State.setShaper_islands (s : State) (k : Nat) (q : ShaperSt) : (s.setShaper k q).islands = s.islands := rfl
@[simp] theorem State.setShaper_fenced (s : State) (k : Nat) (q : ShaperSt) : (s.setShaper k q).fenced = s.fenced := rfl
@[simp] theorem State.setShaper_engMap (s : State) (k : Nat) (q : ShaperSt) : (s.setShaper k q).engMap = s.engMap := rfl
@[simp] theorem State.setShaper_spareMap (s : State) (k : Nat) (q : ShaperSt) : (s.setShaper k q).spareMap = s.spareMap := rfl
@[simp] theorem State.setShaper_tileMap (s : State) (k : Nat) (q : ShaperSt) : (s.setShaper k q).tileMap = s.tileMap := rfl
@[simp] theorem State.setShaper_spareTile (s : State) (k : Nat) (q : ShaperSt) : (s.setShaper k q).spareTile = s.spareTile := rfl
@[simp] theorem State.setShaper_fuse (s : State) (k : Nat) (q : ShaperSt) : (s.setShaper k q).fuse = s.fuse := rfl
@[simp] theorem State.setShaper_tailCache (s : State) (k : Nat) (q : ShaperSt) : (s.setShaper k q).tailCache = s.tailCache := rfl
@[simp] theorem State.setShaper_img (s : State) (k : Nat) (q : ShaperSt) : (s.setShaper k q).img = s.img := rfl
@[simp] theorem State.setShaper_ports (s : State) (k : Nat) (q : ShaperSt) : (s.setShaper k q).ports = s.ports := rfl
@[simp] theorem State.setShaper_lanes (s : State) (k : Nat) (q : ShaperSt) : (s.setShaper k q).lanes = s.lanes := rfl
@[simp] theorem State.setShaper_macros (s : State) (k : Nat) (q : ShaperSt) : (s.setShaper k q).macros = s.macros := rfl
@[simp] theorem State.setShaper_links (s : State) (k : Nat) (q : ShaperSt) : (s.setShaper k q).links = s.links := rfl
@[simp] theorem State.setShaper_wait (s : State) (k : Nat) (q : ShaperSt) : (s.setShaper k q).wait = s.wait := rfl
@[simp] theorem State.setShaper_nextId (s : State) (k : Nat) (q : ShaperSt) : (s.setShaper k q).nextId = s.nextId := rfl
@[simp] theorem State.setShaper_outs (s : State) (k : Nat) (q : ShaperSt) : (s.setShaper k q).outs = s.outs := rfl
@[simp] theorem State.setShaper_announced (s : State) (k : Nat) (q : ShaperSt) : (s.setShaper k q).announced = s.announced := rfl
@[simp] theorem State.setShaper_route (s : State) (k : Nat) (q : ShaperSt) : (s.setShaper k q).route = s.route := rfl
@[simp] theorem State.setShaper_sqs (s : State) (k : Nat) (q : ShaperSt) : (s.setShaper k q).sqs = s.sqs := rfl
@[simp] theorem State.setShaper_cqs (s : State) (k : Nat) (q : ShaperSt) : (s.setShaper k q).cqs = s.cqs := rfl
@[simp] theorem State.setShaper_insts (s : State) (k : Nat) (q : ShaperSt) : (s.setShaper k q).insts = s.insts := rfl
@[simp] theorem State.setShaper_hosts (s : State) (k : Nat) (q : ShaperSt) : (s.setShaper k q).hosts = s.hosts := rfl
@[simp] theorem State.setShaper_dma (s : State) (k : Nat) (q : ShaperSt) : (s.setShaper k q).dma = s.dma := rfl
@[simp] theorem State.setShaper_dmaQ (s : State) (k : Nat) (q : ShaperSt) : (s.setShaper k q).dmaQ = s.dmaQ := rfl
@[simp] theorem State.setShaper_logWait (s : State) (k : Nat) (q : ShaperSt) : (s.setShaper k q).logWait = s.logWait := rfl
@[simp] theorem State.setShaper_heldArr (s : State) (k : Nat) (q : ShaperSt) : (s.setShaper k q).heldArr = s.heldArr := rfl
@[simp] theorem State.setShaper_xl (s : State) (k : Nat) (q : ShaperSt) : (s.setShaper k q).xl = s.xl := rfl
@[simp] theorem State.setShaper_rma (s : State) (k : Nat) (q : ShaperSt) : (s.setShaper k q).rma = s.rma := rfl
@[simp] theorem State.setShaper_mt (s : State) (k : Nat) (q : ShaperSt) : (s.setShaper k q).mt = s.mt := rfl
@[simp] theorem State.setShaper_colls (s : State) (k : Nat) (q : ShaperSt) : (s.setShaper k q).colls = s.colls := rfl
@[simp] theorem State.setShaper_hand (s : State) (k : Nat) (q : ShaperSt) : (s.setShaper k q).hand = s.hand := rfl
@[simp] theorem State.setShaper_flt (s : State) (k : Nat) (q : ShaperSt) : (s.setShaper k q).flt = s.flt := rfl
@[simp] theorem State.setShaper_mon (s : State) (k : Nat) (q : ShaperSt) : (s.setShaper k q).mon = s.mon := rfl
@[simp] theorem State.setShaper_side (s : State) (k : Nat) (q : ShaperSt) : (s.setShaper k q).side = s.side := rfl
@[simp] theorem State.setShaper_pins (s : State) (k : Nat) (q : ShaperSt) : (s.setShaper k q).pins = s.pins := rfl

/-! ## setTrig -/

@[simp] theorem State.setTrig_hand (s : State) (t : Nat) (x : TrigSt) : (s.setTrig t x).hand = { s.hand with trigs := Table.put s.hand.trigs t x } := rfl
@[simp] theorem State.setTrig_pending (s : State) (t : Nat) (x : TrigSt) : (s.setTrig t x).pending = s.pending := rfl
@[simp] theorem State.setTrig_out (s : State) (t : Nat) (x : TrigSt) : (s.setTrig t x).out = s.out := rfl
@[simp] theorem State.setTrig_freeCtr (s : State) (t : Nat) (x : TrigSt) : (s.setTrig t x).freeCtr = s.freeCtr := rfl
@[simp] theorem State.setTrig_powered (s : State) (t : Nat) (x : TrigSt) : (s.setTrig t x).powered = s.powered := rfl
@[simp] theorem State.setTrig_now (s : State) (t : Nat) (x : TrigSt) : (s.setTrig t x).now = s.now := rfl
@[simp] theorem State.setTrig_applyNs (s : State) (t : Nat) (x : TrigSt) : (s.setTrig t x).applyNs = s.applyNs := rfl
@[simp] theorem State.setTrig_regs (s : State) (t : Nat) (x : TrigSt) : (s.setTrig t x).regs = s.regs := rfl
@[simp] theorem State.setTrig_basicHeld (s : State) (t : Nat) (x : TrigSt) : (s.setTrig t x).basicHeld = s.basicHeld := rfl
@[simp] theorem State.setTrig_islands (s : State) (t : Nat) (x : TrigSt) : (s.setTrig t x).islands = s.islands := rfl
@[simp] theorem State.setTrig_fenced (s : State) (t : Nat) (x : TrigSt) : (s.setTrig t x).fenced = s.fenced := rfl
@[simp] theorem State.setTrig_engMap (s : State) (t : Nat) (x : TrigSt) : (s.setTrig t x).engMap = s.engMap := rfl
@[simp] theorem State.setTrig_spareMap (s : State) (t : Nat) (x : TrigSt) : (s.setTrig t x).spareMap = s.spareMap := rfl
@[simp] theorem State.setTrig_tileMap (s : State) (t : Nat) (x : TrigSt) : (s.setTrig t x).tileMap = s.tileMap := rfl
@[simp] theorem State.setTrig_spareTile (s : State) (t : Nat) (x : TrigSt) : (s.setTrig t x).spareTile = s.spareTile := rfl
@[simp] theorem State.setTrig_fuse (s : State) (t : Nat) (x : TrigSt) : (s.setTrig t x).fuse = s.fuse := rfl
@[simp] theorem State.setTrig_tailCache (s : State) (t : Nat) (x : TrigSt) : (s.setTrig t x).tailCache = s.tailCache := rfl
@[simp] theorem State.setTrig_img (s : State) (t : Nat) (x : TrigSt) : (s.setTrig t x).img = s.img := rfl
@[simp] theorem State.setTrig_ports (s : State) (t : Nat) (x : TrigSt) : (s.setTrig t x).ports = s.ports := rfl
@[simp] theorem State.setTrig_lanes (s : State) (t : Nat) (x : TrigSt) : (s.setTrig t x).lanes = s.lanes := rfl
@[simp] theorem State.setTrig_macros (s : State) (t : Nat) (x : TrigSt) : (s.setTrig t x).macros = s.macros := rfl
@[simp] theorem State.setTrig_links (s : State) (t : Nat) (x : TrigSt) : (s.setTrig t x).links = s.links := rfl
@[simp] theorem State.setTrig_wait (s : State) (t : Nat) (x : TrigSt) : (s.setTrig t x).wait = s.wait := rfl
@[simp] theorem State.setTrig_nextId (s : State) (t : Nat) (x : TrigSt) : (s.setTrig t x).nextId = s.nextId := rfl
@[simp] theorem State.setTrig_outs (s : State) (t : Nat) (x : TrigSt) : (s.setTrig t x).outs = s.outs := rfl
@[simp] theorem State.setTrig_announced (s : State) (t : Nat) (x : TrigSt) : (s.setTrig t x).announced = s.announced := rfl
@[simp] theorem State.setTrig_route (s : State) (t : Nat) (x : TrigSt) : (s.setTrig t x).route = s.route := rfl
@[simp] theorem State.setTrig_xp (s : State) (t : Nat) (x : TrigSt) : (s.setTrig t x).xp = s.xp := rfl
@[simp] theorem State.setTrig_sqs (s : State) (t : Nat) (x : TrigSt) : (s.setTrig t x).sqs = s.sqs := rfl
@[simp] theorem State.setTrig_cqs (s : State) (t : Nat) (x : TrigSt) : (s.setTrig t x).cqs = s.cqs := rfl
@[simp] theorem State.setTrig_insts (s : State) (t : Nat) (x : TrigSt) : (s.setTrig t x).insts = s.insts := rfl
@[simp] theorem State.setTrig_hosts (s : State) (t : Nat) (x : TrigSt) : (s.setTrig t x).hosts = s.hosts := rfl
@[simp] theorem State.setTrig_dma (s : State) (t : Nat) (x : TrigSt) : (s.setTrig t x).dma = s.dma := rfl
@[simp] theorem State.setTrig_dmaQ (s : State) (t : Nat) (x : TrigSt) : (s.setTrig t x).dmaQ = s.dmaQ := rfl
@[simp] theorem State.setTrig_logWait (s : State) (t : Nat) (x : TrigSt) : (s.setTrig t x).logWait = s.logWait := rfl
@[simp] theorem State.setTrig_heldArr (s : State) (t : Nat) (x : TrigSt) : (s.setTrig t x).heldArr = s.heldArr := rfl
@[simp] theorem State.setTrig_xl (s : State) (t : Nat) (x : TrigSt) : (s.setTrig t x).xl = s.xl := rfl
@[simp] theorem State.setTrig_rma (s : State) (t : Nat) (x : TrigSt) : (s.setTrig t x).rma = s.rma := rfl
@[simp] theorem State.setTrig_mt (s : State) (t : Nat) (x : TrigSt) : (s.setTrig t x).mt = s.mt := rfl
@[simp] theorem State.setTrig_colls (s : State) (t : Nat) (x : TrigSt) : (s.setTrig t x).colls = s.colls := rfl
@[simp] theorem State.setTrig_flt (s : State) (t : Nat) (x : TrigSt) : (s.setTrig t x).flt = s.flt := rfl
@[simp] theorem State.setTrig_mon (s : State) (t : Nat) (x : TrigSt) : (s.setTrig t x).mon = s.mon := rfl
@[simp] theorem State.setTrig_side (s : State) (t : Nat) (x : TrigSt) : (s.setTrig t x).side = s.side := rfl
@[simp] theorem State.setTrig_pins (s : State) (t : Nat) (x : TrigSt) : (s.setTrig t x).pins = s.pins := rfl

/-! ## The record that is read back -/

/-- A table read at a key just put, and at another. -/
@[simp] theorem Table.getD_put_same {α : Type} (t : Table α) (d : α) (k : Nat) (v : α) : Table.getD (Table.put t k v) d k = v := by
  simp [Table.getD]

theorem Table.getD_put_other {α : Type} (t : Table α) (d : α) (k j : Nat) (v : α) (h : j ≠ k) :
    Table.getD (Table.put t k v) d j = Table.getD t d j := by
  simp [Table.getD, Table.find_put_other t k j v h]

@[simp] theorem State.island_setIsland (s : State) (i : Nat) (x : Island) : (s.setIsland i x).island i = x := by
  simp [State.island]
theorem State.island_setIsland_other (s : State) (i : Nat) (x : Island) (j : Nat) (h : j ≠ i) : (s.setIsland i x).island j = s.island j := by
  simp [State.island, Table.getD_put_other _ _ _ _ _ h]
@[simp] theorem State.host_setHost (s : State) (n : Nat) (x : HostSt) : (s.setHost n x).host n = x := by
  simp [State.host]
theorem State.host_setHost_other (s : State) (n : Nat) (x : HostSt) (j : Nat) (h : j ≠ n) : (s.setHost n x).host j = s.host j := by
  simp [State.host, Table.getD_put_other _ _ _ _ _ h]
@[simp] theorem State.inst_setInst (s : State) (i : Nat) (x : InstSt) : (s.setInst i x).inst i = x := by
  simp [State.inst]
theorem State.inst_setInst_other (s : State) (i : Nat) (x : InstSt) (j : Nat) (h : j ≠ i) : (s.setInst i x).inst j = s.inst j := by
  simp [State.inst, Table.getD_put_other _ _ _ _ _ h]
@[simp] theorem State.port_setPort (s : State) (p : Nat) (x : PortSt) : (s.setPort p x).port p = x := by
  simp [State.port]
theorem State.port_setPort_other (s : State) (p : Nat) (x : PortSt) (j : Nat) (h : j ≠ p) : (s.setPort p x).port j = s.port j := by
  simp [State.port, Table.getD_put_other _ _ _ _ _ h]
@[simp] theorem State.link_setLink (s : State) (p : Nat) (x : LinkSt) : (s.setLink p x).link p = x := by
  simp [State.link]
theorem State.link_setLink_other (s : State) (p : Nat) (x : LinkSt) (j : Nat) (h : j ≠ p) : (s.setLink p x).link j = s.link j := by
  simp [State.link, Table.getD_put_other _ _ _ _ _ h]
@[simp] theorem State.lane_setLane (s : State) (k : Nat) (x : LaneSt) : (s.setLane k x).lane k = x := by
  simp [State.lane]
theorem State.lane_setLane_other (s : State) (k : Nat) (x : LaneSt) (j : Nat) (h : j ≠ k) : (s.setLane k x).lane j = s.lane j := by
  simp [State.lane, Table.getD_put_other _ _ _ _ _ h]
@[simp] theorem State.outp_setOut (s : State) (o : Nat) (x : OutSt) : (s.setOut o x).outp o = x := by
  simp [State.outp]
theorem State.outp_setOut_other (s : State) (o : Nat) (x : OutSt) (j : Nat) (h : j ≠ o) : (s.setOut o x).outp j = s.outp j := by
  simp [State.outp, Table.getD_put_other _ _ _ _ _ h]
@[simp] theorem State.macroSt_setMacro (s : State) (m : Nat) (x : MacroSt) : (s.setMacro m x).macroSt m = x := by
  simp [State.macroSt]
theorem State.macroSt_setMacro_other (s : State) (m : Nat) (x : MacroSt) (j : Nat) (h : j ≠ m) : (s.setMacro m x).macroSt j = s.macroSt j := by
  simp [State.macroSt, Table.getD_put_other _ _ _ _ _ h]
@[simp] theorem State.ctx_setCtx (s : State) (d : Nat) (c : CtxSt) : (s.setCtx d c).ctx d = c := by
  simp [State.ctx]
theorem State.ctx_setCtx_other (s : State) (d : Nat) (c : CtxSt) (j : Nat) (h : j ≠ d) : (s.setCtx d c).ctx j = s.ctx j := by
  simp [State.ctx, Table.getD_put_other _ _ _ _ _ h]
@[simp] theorem State.core_setCore (s : State) (c : Nat) (x : CoreSt) : (s.setCore c x).core c = x := by
  simp [State.core]
theorem State.core_setCore_other (s : State) (c : Nat) (x : CoreSt) (j : Nat) (h : j ≠ c) : (s.setCore c x).core j = s.core j := by
  simp [State.core, Table.getD_put_other _ _ _ _ _ h]
@[simp] theorem State.peer_setPeer (s : State) (i : Nat) (r : PeerRec) : (s.setPeer i r).peer i = r := by
  simp [State.peer]
theorem State.peer_setPeer_other (s : State) (i : Nat) (r : PeerRec) (j : Nat) (h : j ≠ i) : (s.setPeer i r).peer j = s.peer j := by
  simp [State.peer, Table.getD_put_other _ _ _ _ _ h]
@[simp] theorem State.sq_setSq (s : State) (i r : Nat) (q : SqSt) : (s.setSq i r q).sq i r = q := by simp [State.sq]
@[simp] theorem State.cq_setCq (s : State) (i r : Nat) (q : CqSt) : (s.setCq i r q).cq i r = q := by simp [State.cq]

end Sys2Proof.Machine
end

