-- ==== Sys2Proof/Tests/Slice0.lean ====
section
/-! SUPPORT. Tests: terms that the well-formedness check refuses, small tests of one command each against values worked out from the
spec, and for every statement of Obligations.lean a witness: states and operands that meet the hypotheses of its clauses. -/

set_option Elab.async false

namespace Sys2Proof.Tests

open Sys2Proof Sys2Proof.Machine

/-! ## Small states -/

/-- A full image of one row port on lanes 0 and 1. -/
def cfg : ImgConfig :=
  ⟨1, [⟨0, 1, 0⟩], List.range 18, 18, ⟨0, 1, 1, 0, 16, 16, [1]⟩, 31, List.replicate 144 [130, 65, 65, 65], 16, engMapReset, [], [], []⟩

/-- Every island in service. -/
def opened : Table Island := (List.range 74).map (fun i => (i, ⟨false, true, true, true, 0, false⟩))

/-- The device in IMAGE state `n`, with that image applied. -/
def dev (n : Nat) : State :=
  State.put { State.reset with img := { ImageSt.init with applied := some cfg }, islands := opened } Reg.imgStatus Fld.imgStatusState n

/-- The device with port 0 in a state. -/
def portIn (n : Nat) : State := (dev 3).putPortStat 0 Fld.portStatState n

/-- Port 0 in ACTIVE on both of its lanes. -/
def twoLanes : State := (portIn 7).putPortStat 0 Fld.portStatWidth 0

/-- A link that is up on port 0. -/
def linked : State := (portIn 7).setLstate 0 2

/-- A device without VSB. -/
def dark : State := { State.reset with powered := false }

/-- A host link that is up. -/
def hosted : State := (dev 3).put (Reg.hostStat 0) Fld.hostStatLinkUp 1

/-- A packet with its CRC. -/
def pkt (op : Nat) : Packet := { Packet.zero with op := op, crc := { Packet.zero with op := op }.crcOf }


/-! ## Terms that the well-formedness check refuses, one for each check -/

theorem refused_access_size : WellFormed (.registerWrite ⟨.sideband, .pf0, true, 8, 0, 0⟩) = false ∧
    WellFormed (.registerWrite ⟨.sideband, .pf0, true, 8, 4097, 0⟩) = false := by decide +kernel
theorem admitted_access_size : WellFormed (.registerWrite ⟨.sideband, .pf0, true, 8, 3, 0⟩) = true := by decide +kernel
theorem refused_access_end : WellFormed (.registerWrite ⟨.sideband, .pf0, true, 2 ^ 28 - 4, 8, 0⟩) = false := by decide +kernel
theorem refused_access_vf : WellFormed (.registerWrite ⟨.host 0, .vf 0, true, 0, 8, 0⟩) = false := by decide +kernel
theorem refused_staging_end : WellFormed (.stagingWrite 16777215 [0, 0]) = false := by decide +kernel
theorem refused_staging_empty : WellFormed (.stagingWrite 0 []) = false := by decide +kernel
theorem refused_group_table_end : WellFormed (.groupTableWrite 65536 [0]) = false := by decide +kernel
theorem refused_imem_end : WellFormed (.imemWrite 0 0 131072 [0]) = false := by decide +kernel
theorem refused_flash_page : WellFormed (.flashWrite 0 (List.replicate 257 0)) = false := by decide +kernel
theorem refused_echo : WellFormed (.detectTry 0 true true ⟨0, 64⟩ ⟨0, 0⟩) = false := by decide +kernel
theorem refused_codeword : WellFormed (.codeword 0 ⟨361, []⟩) = false := by decide +kernel
theorem refused_load_sample : WellFormed (.loadSample 0 101) = false := by decide +kernel
theorem refused_margins : WellFormed (.remeasureEnd 0 [1] 0) = false := by decide +kernel
theorem refused_flit : WellFormed (.seal 0 [⟨[0], 0⟩] [] 0 0) = false := by decide +kernel
theorem refused_seal_records : WellFormed (.seal 0 [] (List.replicate 4 ⟨0, 0, 0, 0, 0, false⟩) 0 0) = false := by decide +kernel
theorem refused_credit_vc : WellFormed (.credit 0 [⟨24, false, 0⟩] 0) = false := by decide +kernel
theorem refused_nak : WellFormed (.nak 0 (List.replicate 25 0) 0) = false := by decide +kernel
theorem refused_init : WellFormed (.init 0 0 [1] 0 0 0) = false := by decide +kernel
theorem refused_beacon : WellFormed (.beacon 0 ⟨0, 0, [], [], []⟩) = false := by decide +kernel
theorem refused_query : WellFormed (.discQ 0 ⟨0, 0, List.replicate 9 0, []⟩) = false := by decide +kernel
theorem refused_answer : WellFormed (.discA 0 ⟨List.replicate 9 0, 0, []⟩) = false := by decide +kernel
theorem refused_route_word : WellFormed (.put { Packet.zero with route := { RouteWord.zero with vc := 32 } }) = false := by decide +kernel
theorem refused_payload : WellFormed (.put { Packet.zero with plen := 1 }) = false := by decide +kernel
theorem refused_seq : WellFormed (.ack { Packet.zero with seq := 2 ^ 24 }) = false := by decide +kernel
theorem refused_target : WellFormed (.ack { Packet.zero with tInst := 4096 }) = false := by decide +kernel
theorem refused_limit : WellFormed (.ack { Packet.zero with limit := 2 ^ 24 }) = false := by decide +kernel
theorem refused_xfer : WellFormed (.xferIdle ⟨2 ^ 18, 0, 0⟩) = false := by decide +kernel
theorem refused_config : WellFormed (.configRequest 0 0 (.write 3 2 0)) = false := by decide +kernel
theorem refused_width : WellFormed (.linkTrained 0 1 3 false) = false ∧ WellFormed (.linkTrained 0 0 16 false) = false := by decide +kernel
theorem refused_near_ring : WellFormed (.nearRingWrite 0 0 0 (.read 4)) = false := by decide +kernel
theorem refused_bar2 : WellFormed (.pf0Bar2Access 0 ⟨0, .read 65⟩) = false := by decide +kernel
theorem refused_poison : WellFormed (.poisonedTlp 0 (.write 4097)) = false := by decide +kernel
theorem refused_tag : WellFormed (.readTimeout 0 16384) = false := by decide +kernel
theorem refused_vf : WellFormed (.flrVf 0 0) = false := by decide +kernel
theorem refused_entry : WellFormed (.entryRead 0 (2 ^ 21)) = false := by decide +kernel
theorem refused_line : WellFormed (.putm (.core 0) (2 ^ 30) (List.replicate 64 0)) = false := by decide +kernel
theorem refused_line_data : WellFormed (.putm (.core 0) 0 [0]) = false := by decide +kernel
theorem refused_atomicna : WellFormed (.atomicna 0 0 0 (2 ^ 128) 0) = false := by decide +kernel
theorem refused_page : WellFormed (.retireEnd 0 [64]) = false := by decide +kernel
theorem refused_monitor : WellFormed (.mmClr false 24) = false := by decide +kernel
theorem refused_poll : WellFormed (.smbPoll (List.replicate 9 0)) = false := by decide +kernel
theorem admitted_write : WellFormed (.registerWrite ⟨.sideband, .pf0, true, 2 ^ 28 - 8, 8, 0⟩) = true := by decide +kernel
/-! ## Witnesses: the machine -/

/-- A queue that is empty, with and without power and with a message on its way. -/
theorem witness_IdleStep : State.reset.pending = [] ∧ State.reset.powered = true ∧ State.reset.flt.net = [] ∧ dark.powered = false
    ∧ ({ State.reset with flt := { State.reset.flt with net := [⟨0, 0, 1, 0⟩] } }).flt.net = ⟨0, 0, 1, 0⟩ :: [] := by decide +kernel

/-- A device without VSB, and a command that is no reset at power-on. -/
theorem witness_UnpoweredDevice : dark.powered = false ∧ ∀ x, Instr.load ≠ .coldReset .powerOn x := by
  exact ⟨by decide, (fun x h => by cases h)⟩

/-- A step from a state whose outputs follow, and a command that is no reset in the safe state. -/
theorem witness_OutputsFollow : State.reset.pins = State.reset.levels ∧ (∃ t, step State.reset = .next t)
    ∧ Instr.load.mayReset = false ∧ (State.reset.latchSafe.drivePins).pins.safeOut = true
    ∧ (∃ t, exec .load State.reset.latchSafe.drivePins = .next t) := by
  exact ⟨by decide +kernel, ⟨_, rfl⟩, rfl, rfl, ⟨_, rfl⟩⟩

/-- A command that is no reset, in the safe state; a step; and a command that is neither the end of fuse programming nor a flash command. -/
theorem witness_OneWayStores : (Instr.load.mayReset = false ∧ State.reset.latchSafe.safe = true
      ∧ ∃ t, exec .load State.reset.latchSafe = .next t) ∧ (∃ t, step State.reset = .next t) ∧ (∀ b, Instr.load ≠ .fuseEnd b) ∧ Instr.load.writesFlash = false
    ∧ ∃ t, exec .load State.reset = .next t := ⟨⟨rfl, rfl, ⟨_, rfl⟩⟩, ⟨_, rfl⟩, (fun b h => by cases h), rfl, ⟨_, rfl⟩⟩

/-- The last register of an array, and two fields of one register. -/
theorem witness_RegisterMap : RegD.srcStat ∈ regTable ∧ 639 < RegD.srcStat.n1 ∧ 0 < RegD.srcStat.n2
    ∧ (∃ f ∈ RegD.srcStat.fields, ∃ g ∈ RegD.srcStat.fields, f ≠ g) := by decide +kernel

/-- Each kind of access, and a field of each access code. -/
theorem witness_RegisterWrites : (accessOk 5 4 = false ∧ accessOk 8 3 = false ∧ accessOk 12 4 = true)
    ∧ (inWindows 0x200000 = false ∧ gated 0x200000 = true ∧ State.reset.structured = false)
    ∧ (regAt 0x78 = none ∧ gated 0x78 = false) ∧ State.reset.linkUp 0 = false
    ∧ ((dev 2).regShut 0x400000 = false ∧ ({ dev 2 with islands := [] } : State).regShut 0x400000 = true ∧ regAt 0x200000 ≠ none)
    ∧ (∃ d ∈ regTable, ∃ f ∈ d.fields, f.acc = .rwx ∧ f.field.fits = true) ∧ (∃ d ∈ regTable, ∃ f ∈ d.fields, f.acc = .rwl ∧ f.field.fits = true)
    ∧ (∃ d ∈ regTable, ∃ f ∈ d.fields, f.acc = .w1c ∧ f.field.fits = true ∧ f.field.get (BitVec.allOnes 64) ≠ 0)
    ∧ (dev 2).structured = true ∧ gated (lockRegAt .exch) = true ∧ gated (expertAt .xlat) = true := by decide +kernel

/-- `busy` set and clear, and a write that ends at the end of the window. -/
theorem witness_StagingWindow : (State.reset.put Reg.imgStatus Fld.imgStatusBusy 1).imgBusy = true ∧ State.reset.imgBusy = false
    ∧ (2 ^ 24 - 1) + [(0x5A : Byte)].length ≤ 2 ^ 24 ∧ Memory.wf [] 0 = true ∧ (2 ^ 24 - 8) % 8 = 0 := by decide +kernel

/-- Each state of the image commands: busy, in test, and each operation that can be in progress. -/
theorem witness_ImageCommands : (State.reset.put Reg.imgStatus Fld.imgStatusBusy 1).imgBusy = true
    ∧ (State.reset.imgBusy = false ∧ (State.reset.put Reg.strap Fld.strapTestEn 1).testEn = true ∧ State.reset.testEn = false)
    ∧ (dev 2).imgState = 2 ∧ (dev 1).imgState = 1 ∧ State.reset.imgState = 0
    ∧ ({ dev 1 with img := { (dev 1).img with verifiedFull := some ⟨cfg, 1⟩ } }).img.verifiedFull = some ⟨cfg, 1⟩
    ∧ ({ dev 1 with img := { (dev 1).img with retained := some ⟨cfg, 1⟩ } }).img.retained = some ⟨cfg, 1⟩
    ∧ ((dev 2).tileTargetOk ⟨1, 0, 18, 0, [], [], []⟩ = true ∧ (dev 2).slotDrained 0 = false ∧ (((dev 2).put Reg.repair Fld.repairDrain 1).put Reg.repair Fld.repairDrained 1).slotDrained 0 = true)
    ∧ (∃ e k, State.reset.verify State.reset.img.staging [1, 2] State.reset.kindOk = .bad e k ∧ 0 < e ∧ e < 256)
    ∧ ({ dev 1 with img := { (dev 1).img with op := .applyFull ⟨cfg, 1⟩ false } }).img.op = .applyFull ⟨cfg, 1⟩ false
    ∧ ({ State.reset with img := { ImageSt.init with op := .fetch false true } }).img.op = .fetch false true
    ∧ ((State.reset.islandsReady.map (fun e => e.2.loaded)).all id = true ∧ (State.reset.island 3).inReset = true) := by
  refine ⟨by decide +kernel, by decide +kernel, by decide +kernel, by decide +kernel, by decide +kernel, rfl, rfl, by decide +kernel, ?_, rfl, rfl, by decide +kernel⟩
  exact ⟨_, _, rfl, by decide +kernel⟩

/-- A fuse command refused for each reason and one that starts, and programming in progress with and without a reset that waits. -/
theorem witness_FuseCommands : (State.reset.put Reg.imgStatus Fld.imgStatusBusy 1).imgBusy = true
    ∧ (State.reset.imgBusy = false ∧ State.reset.imgState = 0 ∧ bit State.reset.fuse.programmed 1 = false ∧ bit State.reset.fuse.programmed 0 = true
      ∧ bit State.reset.fuse.revoked 0 = false ∧ State.reset.fuse.requireCust = false)
    ∧ ({ State.reset with img := { ImageSt.init with op := .fuse 1 false false 0 } }).img.op = .fuse 1 false false 0
    ∧ ({ State.reset with img := { ImageSt.init with op := .fuse 1 false false 0, coldPending := some (.pin, ⟨0, 0, false, false⟩) } }).img.coldPending
        = some (.pin, ⟨0, 0, false, false⟩) := by decide +kernel

/-- Resets with no fuse programming in progress and during it, a register that a warm reset returns, and a wrong confirmation. -/
theorem witness_Resets : State.reset.powered = true ∧ State.reset.img.op = .idle ∧ State.reset.img.coldPending = none
    ∧ ({ State.reset with img := { ImageSt.init with op := .fuse 1 false false 0 } }).img.op = .fuse 1 false false 0
    ∧ warmKeeps 0x400000 = false ∧ 0x400000 ≠ Reg.faultCtrl ∧ 0x400000 ≠ Reg.exchCtrl ∧ 0x400000 ≠ Reg.collCtrl
    ∧ (0x1234 : BitVec 16) ≠ 0xA5C3 := by decide +kernel

/-! ## Witnesses: lanes, links, the exchange and routing -/

/-- A port in DETECT whose third try comes, one elsewhere, a lane at its third good marker, and one at its fourth bad codeword. -/
theorem witness_LaneBringUp : (portIn 7).portState 0 ≠ 1 ∧ (portIn 7).portState 0 ≠ 3 ∧ (portIn 3).portState 0 = 3
    ∧ ((portIn 1).setPort 0 { PortSt.init with triesA := 2, triesB := 2, firstDetect := false }).portState 0 = 1
    ∧ (((portIn 1).laneRec 0).width = 0) ∧ (portIn 4).lanePort 1 = some (0, 1) ∧ (portIn 4).amAuto 0 = true
    ∧ ((portIn 4).setLane 1 { LaneSt.init with goodRun := 2, lastCount := 65535 }).lane 1 = { LaneSt.init with goodRun := 2, lastCount := 65535 }
    ∧ (0 : BitVec 16).toNat = (65535 + 1) % 65536 ∧ ((portIn 7).setLane 1 { LaneSt.init with uncorrRun := 3 }).lane 1 = { LaneSt.init with uncorrRun := 3 }
    ∧ (portIn 7).lanePort 2 = none
    ∧ ((((portIn 4).setLane 1 { LaneSt.init with badRun := 1 }).put ((portIn 4).laneStat 1) Fld.laneStatAmLock 1).locked 0 1 = true)
    ∧ ((twoLanes.portInUse 0).contains 0 = true ∧ (twoLanes.portInUse 0).contains 1 = true
      ∧ (∀ x ∈ twoLanes.portInUse 0, twoLanes.flag (twoLanes.laneStat (twoLanes.portLane 0 x)) Fld.laneStatSig = false)
      ∧ (∃ x ∈ twoLanes.portInUse 0, (twoLanes.put (twoLanes.laneStat 1) Fld.laneStatSig 1).flag (twoLanes.laneStat (twoLanes.portLane 0 x))
          Fld.laneStatSig = true)) := by decide +kernel

/-- A port in EXCHANGE, in MEASURE with its 16 requests sent, and elsewhere. -/
theorem witness_CapabilityExchange : (portIn 4).portState 0 ≠ 5 ∧ (portIn 4).portState 0 ≠ 8 ∧ (portIn 5).portState 0 = 5
    ∧ ((portIn 5).port 0).lastCap = none ∧ (portIn 6).portState 0 = 6
    ∧ (((portIn 6).setPort 0 { PortSt.init with echoSent := 16 }).port 0).echoSent = 16 ∧ (15 : BitVec 16).toNat < 16
    ∧ (((portIn 6).setPort 0 { PortSt.init with echoSent := 16 }).port 0).echoAnswers.length < 8
    ∧ ((⟨0, 0, 0, 0x2053C, 3, true, true, false, 0, 0, 0, 0, 0⟩ : CapRec) ≠ ⟨0, 0, 0, 0, 3, true, true, false, 0, 0, 0, 0, 0⟩ ∧ 8 ≤ (List.replicate 8 ((0 : Nat), 7800)).length
      ∧ (portIn 6).get ((portIn 6).portMeas 0) Fld.portMeasVel ≠ 0) := by decide +kernel

/-- A port outside ADAPT and ACTIVE, one in ACTIVE with a lane of its own, and a macro that measures. -/
theorem witness_LaneAdaptDegrade : (portIn 4).portState 0 ≠ 7 ∧ (portIn 4).portState 0 ≠ 3 ∧ (portIn 7).portState 0 = 7
    ∧ ((portIn 7).portLanes 0).contains 1 = true ∧ (portIn 7).lanePort 0 = some (0, 0)
    ∧ (portIn 7).flag ((portIn 7).laneExp 0) Fld.laneExpAdaptFreeze = false ∧ ((portIn 7).macroSt 0).measuring = false
    ∧ ((portIn 7).putPortStat 0 Fld.portStatWidth 0).get ((portIn 7).portStat 0) Fld.portStatWidth = 0
    ∧ ((portIn 7).setMacro 0 { MacroSt.init with measuring := true }).macroSt 0 = { MacroSt.init with measuring := true }
    ∧ ((portIn 7).measured 0 = true ∧ MacroSt.init.setpoint < (portIn 7).macroLimit ∧ ([29] : List Nat).getD 0 0 < 30
      ∧ ({ PortSt.init with degradePos := some 1 }).degradePos = some 1
      ∧ ((portIn 7).putPortStat 0 Fld.portStatWidth 2).get ((portIn 7).portStat 0) Fld.portStatWidth = 2)
    ∧ (∀ i, i < 8 → 0 ≤ ([] : List Nat).getD i 0) := by
  refine ⟨by decide +kernel, by decide +kernel, by decide +kernel, by decide +kernel, by decide +kernel, by decide +kernel, by decide +kernel,
    by decide +kernel, by decide +kernel, by decide +kernel, fun i _ => Nat.zero_le _⟩

/-- A device that is not structured, and one that is, with `expert` set and clear; a slip of 1 and of 3,599. -/
theorem witness_LaneRegisters : State.reset.structured = false ∧ (dev 2).structured = true ∧ (dev 2).slotOf 0 = some 0
    ∧ ((dev 2).put (Reg.laneCtrl 0) Fld.laneCtrlExpert 1).flag (Reg.laneCtrl 0) Fld.laneCtrlExpert = true
    ∧ (((dev 2).put (Reg.laneCtrl 0) Fld.laneCtrlExpert 1).put (Reg.laneCtrl 0) Fld.laneCtrlAmAuto 0).flag (Reg.laneCtrl 0) Fld.laneCtrlAmAuto = false
    ∧ (dev 2).flag (Reg.laneCtrl 0) Fld.laneCtrlExpert = false ∧ 0 < (1 : BitVec 12).toNat ∧ (3599 : BitVec 12).toNat ≤ 3599
    ∧ (dev 2).slotOf 18 = none := by decide +kernel

/-- A waiting packet, as the link sends it. -/
def txp : TxPkt := ⟨⟨0, pkt 1, none, 0, false, 23, 0, some 0, 0, none, false, false, 0, false⟩, 0, [List.replicate 64 0], false, false, 0, false⟩

/-- A link that is up between flits: with nothing due, and with each item due alone. -/
theorem witness_BlockPositionOrder : State.reset.mission 0 = false ∧ linked.mission 0 = true ∧ (portIn 4).linkRuns 0 = false ∧ linked.linkRuns 0 = true ∧ linked.lstate 0 = 2 ∧ linked.link 0 = LinkSt.init
    ∧ (LinkSt.init.half = false ∧ LinkSt.init.sealDue = false ∧ LinkSt.init.nakDue = [] ∧ LinkSt.init.replayDue = none ∧ LinkSt.init.retxQ = []
      ∧ LinkSt.init.creditDue = false ∧ LinkSt.init.freedFlits < 64 ∧ LinkSt.init.txPkts = [] ∧ LinkSt.init.cur.flits = [] ∧ LinkSt.init.group = [])
    ∧ (linked.setLink 0 { LinkSt.init with retxQ := [Frame.empty] }).link 0 = { LinkSt.init with retxQ := [Frame.empty] }
    ∧ (nextTx (linked.flag Reg.exchCtrl Fld.exchCtrlPreempt) [txp] = some txp
      ∧ (linked.setLink 0 { LinkSt.init with txPkts := [txp] }).flitReady 0 = some txp ∧ linked.flitReady 0 = none)
    ∧ (linked.sealNow 0 = false ∧ (linked.setLink 0 { LinkSt.init with group := [Frame.empty] }).sealNow 0 = true
      ∧ 512 ≤ (List.replicate 512 Frame.empty).length ∧ (Frame.empty.flits = [])) := by decide +kernel

/-- Control blocks whose numbers fit, with records and without, and level indexes. -/
theorem witness_LineCode : Ctl.idle.fits ∧ (Ctl.credit [⟨23, true, 512⟩] 65535).fits ∧ (∀ g ∈ [0, 3, 2, 1], g < 4) := by
  refine ⟨trivial, ⟨by decide, by decide⟩, by decide⟩

/-- A flit of zeros with the frame record that its CRC makes good. -/
def goodRec : SealRec := ⟨0, BitVec.ofNat 32 (frameCrc [List.replicate 64 0] 0 0 0 false), 0, 0, 1, false⟩

/-- Lane 0 with its first codeword bad. -/
def badLine : State := ((twoLanes.setLstate 0 2).setLane 0 { LaneSt.init with badCws := [0] })

/-- A port whose link does not run; an acknowledgement never sent, one that is old; a frame that is bad; numbers at the ends of the circle. -/
theorem witness_LinkPairs : (portIn 4).linkRuns 0 = false ∧ linked.linkRuns 0 = true
    ∧ (linked.link 0).neverSent 0 = true ∧ (linked.link 0).neverSent 65535 = false ∧ laterMod 16 65535 (linked.link 0).lastAck = false
    ∧ (badLine.linkRuns 0 = true ∧ badLine.badBlock 0 0 = true ∧ linked.badBlock 0 0 = false ∧ badLine.badFlit 0 ⟨[], 0⟩ = true
      ∧ linked.badFlit 0 ⟨[], 0⟩ = false)
    ∧ (goodRec.nflits.toNat = 1 ∧ frameCrc [List.replicate 64 0] goodRec.seq.toNat goodRec.hmap.toNat goodRec.smap.toNat goodRec.abort == goodRec.crc.toNat)
    ∧ ({ LinkSt.init with nextSeq := 1 }).neverSent 0 = false ∧ laterMod 16 0 LinkSt.init.lastAck = true ∧ LinkSt.init.curRetx = []
    ∧ laterMod 16 0 LinkSt.init.nextExp = false ∧ laterMod 16 1 LinkSt.init.nextExp = true := by decide +kernel

/-- A link down and up, a missing frame, a replay that waits, a quiet moment, and a leak that is pending. -/
theorem witness_LinkTimers : (portIn 4).linkRuns 0 = false ∧ linked.linkRuns 0 = true ∧ linked.lstate 0 = 2
    ∧ ({ LinkSt.init with missing := [(65535, 4)] }).missing.find? (fun e => e.1 == (65535 : BitVec 16).toNat) = some (65535, 4)
    ∧ ({ LinkSt.init with replayWait := some 0 }).replayWait = some 0
    ∧ ((linked.setLink 0 { LinkSt.init with peerEmpty := true }).link 0).peerEmpty = true ∧ LinkSt.init.store = [] ∧ LinkSt.init.txPkts = []
    ∧ (linked.put (linked.linkStat 0) Fld.linkStatLeakPending 1).flag (linked.linkStat 0) Fld.linkStatLeakPending = true
    ∧ (linked.put (linked.linkCtrl 0) Fld.linkCtrlLeakEn 1).flag (linked.linkCtrl 0) Fld.linkCtrlLeakEn = true := by decide +kernel

/-- A packet of class 1 that waits for hub 0 at Basil tile 0, with every island open. -/
def waiting : WaitPkt := ⟨0, { pkt 1 with tc := 6 }, none, 0, false, 19, 0, some 148, 0, none, false, false, 0, false⟩

/-- The device with that packet, and `n` entries at the hub's output. -/
def exch (n : Nat) : State :=
  State.setOut { dev 3 with wait := [waiting] } 148
    { OutSt.init with queue := (List.range n).map (fun k => ⟨k, 3, 1, 0, 0, false, false, [6]⟩) }

/-- Contenders with 27 and with 28 entries before them; a refused request; turns that may start; a grant; a held packet. -/
theorem witness_ExchangeCommands : (exch 18).contenders 148 19 ((exch 18).newTcs 148 19 1) ≠ 0 ∧ (exch 18).epFenced 19 = false ∧ (exch 18).epFenced ((exch 18).outEp 148) = false
    ∧ ((exch 18).outp 148).queue.any (fun e => e.ep == 19 && e.cls == 1) = false ∧ ((exch 18).outp 148).queue ≠ []
    ∧ (({ exch 18 with fenced := [.basil 1] } : State).epFenced 20 = true) ∧ (exch 18).carries 148 = true ∧ (dev 3).carries 0 = false
    ∧ (((exch 27).outp 148).queue.filter (fun q => !q.kept)).length < 28 ∧ 28 ≤ (((exch 28).outp 148).queue.filter (fun q => !q.kept)).length
    ∧ (((exch 28).outp 148).queue.filter (fun q => q.kept)).length < 4
    ∧ 4 ≤ ((List.replicate 4 (⟨0, 0, 1, 0, 0, false, true, [6]⟩ : ReqEntry)).filter (fun q => q.kept)).length
    ∧ (({ OutSt.init with refusedReqs := [(19, 1)] }).refusedReqs.contains (19, 1) = true ∧ OutSt.init.refusedReqs.contains (19, 1) = false)
    ∧ (dev 3).contenders 148 19 [6] = 0 ∧ OutSt.init.paused = false ∧ ({ OutSt.init with paused := true }).paused = true
    ∧ (((exch 1).outp 148).order (((exch 1).outp 148).ageIn ((exch 1).get Reg.arbQuota Fld.arbQuotaAge))).filter (fun x => (exch 1).canStart 148 x)
        = [⟨0, 3, 1, 0, 0, false, false, [6]⟩]
    ∧ (exch 1).handTo 148 ⟨0, 3, 1, 0, 0, false, false, [6]⟩ = none ∧ ((exch 0).handTo 148 ⟨19, 1, 1, 0, 0, false, false, [6]⟩).isSome = true
    ∧ ({ OutSt.init with grants := [⟨waiting, 1, 0, [], none, false⟩] }).grants.find? (fun (g : Grant) => g.lane == 0 && !g.interrupted && !g.wp.part)
        = some ⟨waiting, 1, 0, [], none, false⟩
    ∧ ({ OutSt.init with grants := [⟨waiting, 1, 0, [], none, false⟩] }).grants.find? (fun (g : Grant) => g.wp.ep == 19 && !g.interrupted)
        = some ⟨waiting, 1, 0, [], none, false⟩
    ∧ [{ waiting with graceFrom := some 0, out := some 143 }].find? (fun w => w.id == 0 && w.held)
        = some { waiting with graceFrom := some 0, out := some 143 } := by decide +kernel

/-- A packet that waits to be routed; a port with a peer; a commit that a change refuses, and one that it does not. -/
theorem witness_RouteCommands : ([{ waiting with inPort := some 0, out := none }].find? (fun w => w.unrouted 0)).isSome = true
    ∧ State.reset.wait.find? (fun w => w.unrouted 0) = none ∧ State.reset.enabled = false ∧ (dev 3).enabled = true
    ∧ (portIn 7).peerIndex 0 = some 0 ∧ (portIn 7).portActive 0 = true ∧ (portIn 7).wait = []
    ∧ ((dev 2).put (Reg.portChg 143) Fld.portChgChanged 1).changedSince ((dev 2).get Reg.routeBank Fld.routeBankShadowEpoch) = true
    ∧ (dev 2).changedSince ((dev 2).get Reg.routeBank Fld.routeBankShadowEpoch) = false ∧ (dev 2).flag Reg.routeBank Fld.routeBankBusy = false
    ∧ ({ RouteSt.init with bankOp := .swap }).bankOp = .swap := by decide +kernel

/-- A query of 0, of 9 and of 1 more hops, its answer, and a command in progress. -/
theorem witness_DiscoveryCommands : (dev 2).wait = [] ∧ (dev 2).structured = true ∧ (dev 2).flag Reg.discCmd Fld.discCmdBusy = false
    ∧ 8 < ((dev 2).put Reg.discCmd Fld.discCmdPathLen 9).get Reg.discCmd Fld.discCmdPathLen ∧ (dev 2).get Reg.discCmd Fld.discCmdPathLen = 0
    ∧ ((portIn 7).raiseEpoch 5).portActive (0 : Byte).toNat = true ∧ (0 : Byte).toNat < 144
    ∧ ((dev 2).put Reg.discCmd Fld.discCmdBusy 1).flag Reg.discCmd Fld.discCmdBusy = true := by decide +kernel

/-- Packets and routes whose fields fit. -/
theorem witness_HeaderRoundTrip : (pkt 1).wf = true ∧ RouteWord.zero.wf = true := by decide +kernel

/-! ## Witnesses: the transport and the host links -/

/-- A packet of each type that the checks of arrival pass, one whose CRC is wrong, and an ATOMIC that finds no room. -/
theorem witness_TransportPackets :
    (∀ o ∈ [opPut, opGetReq, opGetRsp, opAtomic, opAtomicRsp, opSend, opSendRdv, opComp, opNcomp], ((dev 3).accept (pkt o)).1 = true)
    ∧ (∀ o ∈ [opAck, opSync], (({ dev 3 with xp := { XportSt.init with cache := [peerIdx 0 0] } } : State).accept (pkt o)).1 = true)
    ∧ ((dev 3).accept { pkt opPut with crc := (pkt opPut).crc + 1 }).1 = false := by decide +kernel

/-- The room for results that an ATOMIC needs: none is held at reset, and 1,024 results of each engine of the hub are the bound. -/
theorem witness_TransportPackets_full : (dev 3).rma.results = [] ∧ (dev 3).atomFull (pkt opAtomic) = false
    ∧ ∃ e, ({ dev 3 with rma := { RmaSt.init with results := List.replicate 1024 ⟨e, 0, 0⟩ } } : State).atomFull (pkt opAtomic) = true := by
  refine ⟨by decide +kernel, by simp [State.atomFull, dev, State.put, State.setWord, State.reset, RmaSt.init], ?_⟩
  refine ⟨(dev 3).servingEngine (pkt opAtomic), ?_⟩
  show decide (1024 ≤ ((List.replicate 1024 (⟨(dev 3).servingEngine (pkt opAtomic), 0, 0⟩ : AtomRes)).filter
    (fun a => a.engine == (dev 3).servingEngine (pkt opAtomic))).length) = true
  generalize (dev 3).servingEngine (pkt opAtomic) = e
  have h : ∀ n, ((List.replicate n (⟨e, 0, 0⟩ : AtomRes)).filter (fun a => a.engine == e)).length = n := by
    intro n; simp
  rw [h]; rfl

/-- A packet sent and negatively acknowledged. -/
def sentPkt : SentPkt := ⟨5, 16777215, pkt 1, 8, 0, 0, true⟩

/-- A timer of each kind with what it names, and without. -/
theorem witness_TransportTimers :
    (({ XportSt.init with cacheIn := [(1048575, 0, pkt 1)] }).cacheIn.any (fun e => e.1 == 1048575)) = true ∧ ((dev 3).bringIn 1048575).1 = true
    ∧ ((dev 3).peer 5).syncPending = false
    ∧ [sentPkt].find? (fun y => y.idx == 5 && y.seq == (16777215 : BitVec 24).toNat && y.nacked) = some sentPkt
    ∧ (dev 3).xp.sent.find? (fun y => y.idx == 5 && y.seq == 0 && y.nacked) = none
    ∧ (dev 3).xp.recs.find? (fun e => e.1 == (⟨0, 0, 0⟩ : XferKey)) = none
    ∧ [((⟨0, 0, 0⟩ : XferKey), (⟨1, 1, 0, none, false, 0, 0, false, false, pkt 1⟩ : XferRec))].find? (fun e => e.1 == (⟨0, 0, 0⟩ : XferKey))
        = some (⟨0, 0, 0⟩, ⟨1, 1, 0, none, false, 0, 0, false, false, pkt 1⟩)
    ∧ ([(⟨0, pkt 1, 0, 0, 0, [], []⟩ : Place)].find? (fun pl => pktKey pl.pkt == ⟨0, 0, 0⟩ && pl.pkt.pidx == (0 : BitVec 20).toNat && pl.pkt.op != opAtomic)).isSome
        = true := by decide +kernel

/-- A full cache of peer records of which one may go, with an arrival that waits. -/
theorem witness_TransportTimers_evict : ∃ c : List Nat, peerCacheSize ≤ c.length ∧ c.contains 1048575 = true
    ∧ ({ dev 3 with xp := { XportSt.init with cache := [], cacheIn := [(7, 0, pkt 1)] } } : State).evictable 1048575 = true := by
  exact ⟨1048575 :: List.range peerCacheSize, by simp, by simp, by decide +kernel⟩

/-- A SYNC that waits for its acknowledgement, and a transfer whose final packet is held. -/
theorem witness_TransportTimers_sync : (({ PeerRec.init with syncPending := true, syncSeq := 16777215 }).syncPending = true
      ∧ ({ PeerRec.init with syncPending := true, syncSeq := 16777215 }).syncSeq = (16777215 : BitVec 24).toNat)
    ∧ (dev 3).xp.sent.find? (fun y => y.idx == 5 && y.seq == 0) = none ∧ (dev 3).peerCached 5 = false
    ∧ (⟨1, 1, 0, some (pkt 1), false, 0, 0, false, false, pkt 1⟩ : XferRec).held ≠ none := by decide +kernel

/-- A link down and up; a VF that exists and is not in reset; D3hot; a function in reset. -/
theorem witness_HostLinks : State.reset.linkUp 3 = false ∧ hosted.linkUp 0 = true ∧ hosted.d3hot 0 = false
    ∧ (hosted.setCfg 0 0 0x44 3).d3hot 0 = true ∧ (hosted.host 0).flr.contains 0 = false
    ∧ ((hosted.setCfg 0 0 0x168 1).setCfg 0 0 0x170 1).vfEnable 0 = true
    ∧ 1 ≤ ((hosted.setCfg 0 0 0x168 1).setCfg 0 0 0x170 1).numVfs 0
    ∧ (bit State.reset.fuse.okHosts 0 = true ∧ bit ({ Fuses.part with okHosts := 7 }).okHosts 3 = false)
    ∧ ((hosted.setHost 0 { HostSt.init with flr := [0, 1] }).host 0).flr.contains 1 = true := by decide +kernel

/-- Link 0 with 16 VFs, enabled with their memory space. -/
def vfHost : State := (hosted.setCfg 0 0 0x168 9).setCfg 0 0 0x170 16

/-- A link down and up; a function that exists and one that does not; BAR2 off, on, and at its end. -/
theorem witness_HostRequests : State.reset.linkUp 0 = false ∧ hosted.linkUp 0 = true ∧ hosted.fnExists 0 1 = false ∧ hosted.fnExists 0 0 = true
    ∧ (hosted.setCfg 0 0 0x44 3).d3hot 0 = true ∧ hosted.mse 0 0 = false ∧ (hosted.setCfg 0 0 0x04 2).mse 0 0 = true
    ∧ hosted.structured = true ∧ hosted.safe = false ∧ hosted.isFenced (.basil 0) = false
    ∧ 8 ≤ 2 ^ (20 + bits (hosted.cfg 0 0 0x1A8) 13 8)
    ∧ (linesOf 0 8).find? (fun l => hosted.rma.armed.contains l) = none := by decide +kernel

/-- Memory whose section answers and whose section does not, a line that cannot be read, one beyond memory, and an armed line. -/
theorem witness_HostRequests_memory : hosted.spanShut 0 8 = false ∧ ({ hosted with islands := [] } : State).spanShut 0 8 = true
    ∧ ({ hosted with img := ImageSt.init } : State).touchesRsv 0 8 = false ∧ (hosted.devRead 0 8).1 = some [0, 0, 0, 0, 0, 0, 0, 0]
    ∧ (({ hosted with rma := { RmaSt.init with poisoned := [0] } } : State).devRead 0 8).1 = none ∧ hbmSize < hbmSize - 4 + 8
    ∧ (linesOf 60 8).find? (fun l => ({ RmaSt.init with armed := [1] }).armed.contains l) = some 1 := by decide +kernel

/-- A request of each kind under its tag, and none. -/
theorem witness_HostCompletions : hosted.dmaAt 0 0 = none
    ∧ (∀ w ∈ [ReadWhy.ringPoll 0 0, .walk 0, .dlogWord 0 0, .hostAtomic (pkt opAtomic), .mark 0],
        ({ hosted with dma := [⟨0, 8191, ⟨0, 0⟩, 0, 0, 8, w⟩] } : State).dmaAt 0 8191 = some ⟨0, 8191, ⟨0, 0⟩, 0, 0, 8, w⟩)
    ∧ CplStatus.ur ≠ .ok := by decide +kernel

/-- A function that checks ECRCs and one that does not; an AtomicOp whose function may not issue it. -/
theorem witness_HostCompletions_controls : (hosted.setCfg 0 0 0x118 0x100).cfgBit 0 0 0x118 8 = true
    ∧ (hosted.setCfg 0 0 0x118 0).cfgBit 0 0 0x118 8 = false
    ∧ (⟨0, 0, ⟨0, 0⟩, 0, 0, 8, .hostAtomic (pkt opAtomic)⟩ : DmaReq).atomic = true ∧ hosted.cfgBit 0 0 0x98 6 = false := by decide +kernel

/-! ## Witnesses: rings, jobs, instances and translation -/

/-- Instance 0, ACTIVE and bound to VF 1 of link 0, with one ring of each kind. -/
def tenant : State :=
  (({ hosted with
      insts := [(0, { InstSt.init with bound := true, vfLink := 0, vfNum := 1, sq := 1, cq := 1, vectors := 1, peerQuota := 16, nr64k := 1 })]
      sqs := [(0, { SqSt.init with engine := some 0 })] } : State).setInstState 0 1).put (Reg.cqCfg 0 0) Fld.cqCfgEnable 1

/-- A value of SQ_CFG for a near ring of 64 entries. -/
def sqVal : BitVec 64 := Fld.sqCfgEnable.put (Fld.sqCfgNear.put (Fld.sqCfgPoll.put (Fld.sqCfgLogSize.put 0 6) 125) 1) 1

/-- The tenant with its ring enabled. -/
def ringing : State := tenant.put (Reg.sqCfg 0 0) Fld.sqCfgEnable 1

/-- An entry of a chain, with the ring's phase. -/
def segDesc (w : Nat) : Desc := ⟨BitVec.ofNat 64 w, 0, 0, 0, 0, 0, 0, 0⟩

/-- A ring that starts and one that is refused, one enabled, near and far, polled and not, and the entries of a chain. -/
theorem witness_SubmissionRings : (tenant.sqEvent 0 0).structured = true ∧ (tenant.sqEvent 0 0).flag (Reg.sqCfg 0 0) Fld.sqCfgEnable = false
    ∧ (tenant.sqEvent 0 0).sqCheck 0 0 sqVal = 0 ∧ (tenant.sqEvent 0 63).sqCheck 0 63 sqVal = 1
    ∧ (ringing.sqEvent 0 0).flag (Reg.sqCfg 0 0) Fld.sqCfgEnable = true
    ∧ ringing.polls 0 0 = true ∧ tenant.polls 0 0 = false ∧ ringing.sqNear 0 0 = false ∧ (ringing.put (Reg.sqCfg 0 0) Fld.sqCfgNear 1).sqNear 0 0 = true
    ∧ (ringing.sq 0 0).polling = false ∧ State.reset.structured = false ∧ (segDesc 0).op ≠ opSeg := by decide +kernel

/-- Entries of a chain with each of their marks, on a ring of phase 1 that has room and on one that has none. -/
theorem witness_SubmissionRings_chain : (segDesc opSeg).op = opSeg ∧ (segDesc opSeg).first = false ∧ (segDesc opSeg).last = false
    ∧ (segDesc (opSeg + 2 ^ 62)).first = true ∧ (segDesc (opSeg + 2 ^ 61)).last = true ∧ (segDesc (opSeg + 2 ^ 63)).phase = true
    ∧ b2n (segDesc opSeg).phase ≠ ringing.get (Reg.sqStat 0 0) Fld.sqStatPhase
    ∧ b2n (segDesc (opSeg + 2 ^ 63)).phase = ringing.get (Reg.sqStat 0 0) Fld.sqStatPhase
    ∧ ringing.jobRoom 0 0 = true ∧ (ringing.setCq 0 0 { CqSt.init with written := 65536 }).jobRoom 0 0 = false ∧ (ringing.sq 0 0).chain = []
    ∧ ({ SqSt.init with chain := [segDesc opSeg] }).chain ≠ [] := by decide +kernel

/-- Completion rings in use and not, refused and started, read by a ring, and heads within and beyond; writes of VF BAR2. -/
theorem witness_CompletionRings : tenant.flag (Reg.cqCfg 0 0) Fld.cqCfgEnable = true ∧ tenant.flag (Reg.cqCfg 0 63) Fld.cqCfgEnable = false
    ∧ (tenant.inst 0).cq ≤ 63 ∧ ((tenant.put (Reg.cqCfg 0 0) Fld.cqCfgEnable 0).flag (Reg.cqCfg 0 0) Fld.cqCfgEnable = false ∧ 0 < (tenant.inst 0).cq
      ∧ Fld.cqCfgVector.get (BitVec.ofNat 64 ((Fld.cqCfgLogSize.put 0 6).toNat % 2 ^ 13)) < (tenant.inst 0).vectors
      ∧ 6 ≤ Fld.cqCfgLogSize.get (BitVec.ofNat 64 ((Fld.cqCfgLogSize.put 0 6).toNat % 2 ^ 13)) ∧ (tenant.word (Reg.cqBase 0 0)).toNat % 64 = 0)
    ∧ (ringing.flag (Reg.sqCfg 0 0) Fld.sqCfgEnable = true ∧ ringing.get (Reg.sqCfg 0 0) Fld.sqCfgCq = 0)
    ∧ (tenant.cqSize 0 0 ≤ (65535 : BitVec 16).toNat ∧ (0 : BitVec 16).toNat < tenant.cqSize 0 0)
    ∧ ((tenant.setSq 0 0 { SqSt.init with zeroing := true }).sq 0 0).zeroing = true
    ∧ (tenant.mse 0 1 = false ∧ ((tenant.setCfg 0 0 0x168 9).setCfg 0 0 0x170 1).mse 0 1 = true
      ∧ ((tenant.setCfg 0 0 0x168 9).setCfg 0 0 0x170 1).vfEnable 0 = true)
    ∧ tenant.boundInst 0 1 = some 0 ∧ tenant.boundInst 0 2 = none ∧ 65536 * (tenant.inst 0).nr64k < 65535 + 2
    ∧ 65535 + 1 ≤ 65536 * (tenant.inst 0).nr64k ∧ 65535 + 1 ≤ tenant.vfBar2 0 ∧ tenant.nearRingAt 0 65535 = none := by decide +kernel

/-- The tenant on a VF whose memory space is on, with a near ring at offset 0 of its near-ring pages. -/
def nearing : State :=
  (({ vfHost with insts := tenant.insts, sqs := tenant.sqs } : State).put (Reg.sqCfg 0 0) Fld.sqCfgEnable 1).put (Reg.sqCfg 0 0) Fld.sqCfgNear 1

/-- Accesses through VF BAR2: to a VF that is there and is not, bound and not, with the hub's island open and shut, on a near ring and beside
it; and vectors that are allocated and that are not. -/
theorem witness_CompletionRings_near : nearing.linkUp 0 = true ∧ nearing.d3hot 0 = false ∧ nearing.fnExists 0 1 = true
    ∧ nearing.fnExists 0 17 = false ∧ nearing.mse 0 1 = true ∧ nearing.safe = false ∧ nearing.isFenced (.basil 0) = false
    ∧ nearing.boundInst 0 1 = some 0 ∧ nearing.boundInst 0 2 = none ∧ 0 + 64 ≤ 65536 * (nearing.inst 0).nr64k
    ∧ 0 + 64 ≤ nearing.vfBar2 0 ∧ nearing.islandShut (hubIsland (nearing.instHub 0)) = false
    ∧ ({ nearing with islands := [] } : State).islandShut (hubIsland (nearing.instHub 0)) = true
    ∧ nearing.nearRingAt 0 0 = some 0 ∧ nearing.nearRingAt 0 65532 = none
    ∧ (Fld.cqCfgVector.get 0 < (tenant.inst 0).vectors ∧ (tenant.inst 0).vectors ≤ Fld.cqCfgVector.get (Fld.cqCfgVector.put 0 1))
    ∧ ((tenant.cq 0 0).written < (tenant.cq 0 0).consumed + 1 ∧ (tenant.cq 0 0).consumed + 0 ≤ (tenant.cq 0 0).written) := by decide +kernel

/-- A job of each kind to the device itself. -/
def jobOf (k : OpKind) : OpSt := { OpSt.init with kind := k }

/-- Jobs that start, that break a check, that have no route, and that wait. -/
theorem witness_JobStarts :
    (∀ k ∈ [OpKind.put, .get, .putInl, .atomic, .send, .lock, .nop, .recv], Table.find [(1, jobOf k)] 1 = some (jobOf k)
      ∧ (jobOf k).started = false ∧ (jobOf k).done = false ∧ tenant.fenceMet 1 (jobOf k) = true)
    ∧ (tenant.jobBad { jobOf .atomic with aop := 7 } = true ∧ tenant.jobBad (jobOf .put) = false ∧ tenant.quotaOk (jobOf .put) = true)
    ∧ tenant.routable (hubOf 0) { Packet.zero with route := { RouteWord.zero with dst := 0 } } = true
    ∧ tenant.routable (hubOf 0) { Packet.zero with route := { RouteWord.zero with dst := 2 ^ 17 } } = false
    ∧ (tenant.inst 0).ctx ≤ 65535 % 65536 ∧ ({ InstSt.init with ctx := 1 }).ctx = 1 ∧ ({ jobOf .put with done := true }).done = true := by decide +kernel

/-- Jobs that may start and that may not, behind an earlier send or receive of their ring and not, and contexts that reset and do not. -/
theorem witness_JobStarts_order : tenant.mayStart 1 (jobOf .put) = true
    ∧ (tenant.setSq 0 0 { SqSt.init with chain := [segDesc opSeg], chainOp := 1 }).mayStart 1 { jobOf .put with ring := some 0 } = false
    ∧ tenant.sendBefore 1 = false
    ∧ ({ tenant with rma := { RmaSt.init with ops := [(0, { jobOf .send with ring := some 0 }), (1, { jobOf .send with ring := some 0 })] } } :
        State).sendBefore 1 = true
    ∧ tenant.recvBefore 1 (jobOf .recv) = false
    ∧ ({ tenant with rma := { RmaSt.init with ops := [(0, { jobOf .recv with ring := some 0 })] } } : State).recvBefore 1
        { jobOf .recv with ring := some 0 } = true
    ∧ tenant.quotaOk (jobOf .atomic) = true ∧ (jobOf .put).bad = false ∧ (tenant.newXid 0 0).1 < 2 ^ 24
    ∧ (jobOf .send).length ≤ 256 * tenant.get (Reg.matchInst 0) Fld.matchInstEager
    ∧ 256 * tenant.get (Reg.matchInst 0) Fld.matchInstEager < ({ jobOf .send with length := 2 ^ 31 }).length := by decide +kernel

/-- Jobs that have ended with and without an error, and one in D3hot. -/
theorem witness_JobEnds : Table.find (tenant.rma.ops) 9 = none
    ∧ Table.find [(1, { jobOf .put with done := true })] 1 = some { jobOf .put with done := true }
    ∧ (jobOf .put).done = false ∧ tenant.d3hot (tenant.instLink 0) = false ∧ (jobOf .put).silent = false ∧ (jobOf .put).ring = none
    ∧ ({ jobOf .put with ring := some 0 }).ring = some 0 := by decide +kernel

/-- A collective whose result is still being placed, and one whose result is not. -/
theorem witness_JobEnds_placing : [(⟨0, pkt opColl, 0, 1, 0, [], []⟩ : Place)].any (fun pl => pl.op == 1 && pl.pkt.op == opColl) = true
    ∧ tenant.xp.placing.any (fun pl => pl.op == 1 && pl.pkt.op == opColl) = false
    ∧ ({ jobOf .put with done := true, status := 2 }).status ≠ 0 := by decide +kernel

/-- Instances in each state that a command asks for, a command in progress, and checks that fail each way. -/
theorem witness_InstanceCommands : State.reset.structured = false
    ∧ ((dev 2).put (Reg.instCmd 0) Fld.instCmdBusy 1).flag (Reg.instCmd 0) Fld.instCmdBusy = true
    ∧ (tenant.flag (Reg.instCmd 0) Fld.instCmdBusy = false ∧ (tenant.cmdTaken 0 2).instState 0 ∈ [1, 4, 5]
      ∧ ((tenant.setInstState 0 3).cmdTaken 0 3).instState 0 = 3 ∧ State.createCheck 0 (tenant.cmdTaken 0 1) = 2
      ∧ State.createCheck 4095 (tenant.cmdTaken 4095 1) ≠ 4 ∧ State.moveCheck 0 (tenant.cmdTaken 0 6) = 2)
    ∧ (tenant.instState 0 ≠ 2 ∧ (tenant.setInstState 0 2).instState 0 = 2 ∧ (tenant.setInstState 0 2).quiet 0 = true) := by decide +kernel

/-- Instance 5, FREE, that asks for one vector of VF 2 of link 0. -/
def asking : State :=
  ((vfHost.put (Reg.instCfg 5) Fld.instCfgVf 2).put (Reg.instAlloc0 5) Fld.instAlloc0Vectors 1)

/-- A CREATE that passes its checks, one that finds a pool short, and a MOVE that passes. -/
theorem witness_InstanceCommands_pass : State.createCheck 5 (asking.cmdTaken 5 1) = 0
    ∧ State.createCheck 5 (({ asking with insts := (List.range 5).map (fun i => (i, { InstSt.init with bound := true, vfNum := 3 + i, peerQuota := 3072 })) } :
        State).put (Reg.instAlloc0 5) Fld.instAlloc0PeerQuota 1 |>.cmdTaken 5 1) = 4
    ∧ State.moveCheck 5 (((asking.setInstState 5 3).put (Reg.instMove 5) Fld.instMoveMvVf 2).cmdTaken 5 6) = 0
    ∧ (tenant.inst 0).op ≠ .quiesce := by decide +kernel

/-- A device that is structured, with nothing that waits for a bitmap word, and one that is not. -/
theorem witness_MailboxAndDirtyLog : tenant.structured = true ∧ tenant.logWait = [] ∧ State.reset.structured = false
    ∧ tenant.flag (Reg.dlogCtrl 4095) Fld.dlogCtrlBusy = false
    ∧ (tenant.put (Reg.dlogCtrl 4095) Fld.dlogCtrlBusy 1).flag (Reg.dlogCtrl 4095) Fld.dlogCtrlBusy = true := by decide +kernel

/-- A request that stage 2 passes, one beyond 48 bits, one that the cache holds, and walks with and without a mark. -/
theorem witness_TranslationSteps : State.reset.structured = false ∧ (dev 2).structured = true
    ∧ (((dev 2).put (Reg.xlIcfg 0) Fld.xlIcfgS2Mode 2).s2Mode 0 = 2)
    ∧ ((dev 2).put (Reg.xlS1 0) Fld.xlS1S1On 1).s1On 0 = true ∧ 2 ^ 48 ≤ (BitVec.ofNat 64 (2 ^ 48)).toNat ∧ (dev 2).s2Mode 0 ≠ 2
    ∧ ({ dev 2 with xl := { XlatSt.init with tlb := [⟨0, true, 0, 0, 12, 0, 0, true, true, false, true⟩] } } : State).tlbHit 0 true 4095 .rd
        = some ⟨0, true, 0, 0, 12, 0, 0, true, true, false, true⟩
    ∧ (dev 2).xl.walks.find? (fun x => x.id == 0 && x.mark.isNone) = none ∧ (dev 2).xl.walks.find? (fun x => x.id == 0) = none := by decide +kernel

/-- A walk in progress that a read or a mark ends. -/
theorem witness_TranslationSteps_walk : ∃ x : WalkSt, ([x].find? (fun x => x.id == 0 && x.mark.isNone) = some x ∧ x.restart = false)
    ∧ ∃ m, [{ x with mark := some m }].find? (fun x => x.id == 0) = some { x with mark := some m } :=
  ⟨⟨0, 0, ⟨0, .rd, false, .probe⟩, 0, false, 1, 0, 0, 0, true, 0, 0, 0, 0, 0, 0, 0, 0, 0, 0, 0, 0, none, 0, [], false⟩, ⟨by rfl, rfl⟩,
    ⟨⟨0, 0, 0, 1⟩, by rfl⟩⟩

/-- A walk in progress that an invalidation has caught, and entries that lead on, that are a leaf of each stage, and that end the walk. -/
theorem witness_TranslationSteps_restart : ∃ x : WalkSt, ([x].find? (fun x => x.id == 0 && x.mark.isNone) = some x ∧ x.restart = true)
    ∧ x.inS2 = true ∧ { x with inS2 := false }.inS2 = false ∧ pteLeaf 1 = false ∧ pteLeaf 3 = true :=
  ⟨⟨0, 0, ⟨0, .rd, false, .probe⟩, 0, false, 1, 0, 0, 0, true, 0, 0, 0, 0, 0, 0, 0, 0, 0, 0, 0, 0, none, 0, [], true⟩, ⟨by rfl, rfl⟩, rfl, rfl,
    by decide +kernel, by decide +kernel⟩

/-- Invalidations of the first and the last scope, in progress and of no scope; heads at the count and beyond it; grants and windows. -/
theorem witness_TranslationControl : (dev 2).flag Reg.xlatInv Fld.xlatInvBusy = false ∧ (dev 2).get Reg.xlatInv Fld.xlatInvScope = 0
    ∧ ((dev 2).put Reg.xlatInv Fld.xlatInvScope 5).get Reg.xlatInv Fld.xlatInvScope = 5
    ∧ ((dev 2).put Reg.xlatInv Fld.xlatInvBusy 1).flag Reg.xlatInv Fld.xlatInvBusy = true
    ∧ ((dev 2).put (Reg.tXlInv 0) Fld.tXlInvScope 2).get (Reg.tXlInv 0) Fld.tXlInvScope = 2
    ∧ (subMod 6 (0 : BitVec 6).toNat ((dev 2).get Reg.faultq Fld.faultqHead) ≤ (dev 2).get Reg.faultq Fld.faultqCount
      ∧ (dev 2).get Reg.faultq Fld.faultqCount < subMod 6 (1 : BitVec 6).toNat ((dev 2).get Reg.faultq Fld.faultqHead))
    ∧ Fld.winCfgKind.get 0 = 0 ∧ ((dev 2).word (Reg.winBase 0 127)).toNat < 2 ^ 48
    ∧ 2 ^ 48 ≤ (((dev 2).setWord (Reg.winBase 0 127) (BitVec.ofNat 64 (2 ^ 48))).word (Reg.winBase 0 127)).toNat
    ∧ Fld.winCfgKind.get (Fld.winCfgKind.put 0 1) ≠ 0 ∧ (dev 2).get (Reg.dmGrant 0) Fld.dmGrantDmLen = 0
    ∧ ((dev 2).put (Reg.dmGrant 0) Fld.dmGrantDmLen 1).get (Reg.dmGrant 0) Fld.dmGrantDmLen ≠ 0 := by decide +kernel

/-- An access of the scope that still waits, and none; a grant in a reserved region, and one that is not. -/
theorem witness_TranslationControl_waits : (dev 2).invWaits ⟨true, 5, 0, 0, 0⟩ = false
    ∧ ({ dev 2 with logWait := [⟨0, 0, 0, 0, [], false, .none⟩] } : State).invWaits ⟨true, 5, 0, 0, 0⟩ = true
    ∧ ({ dev 2 with img := ImageSt.init } : State).touchesRsv 0 (2 ^ 21) = false
    ∧ (((dev 2).put Reg.instCtrl Fld.instCtrlNrGib 1).put Reg.instCtrl Fld.instCtrlNrBaseGib 0).touchesRsv 0 (2 ^ 21) = true :=
  ⟨by decide +kernel, by decide +kernel, by decide +kernel, List.any_eq_true.mpr ⟨4, by decide +kernel, by decide +kernel⟩⟩

/-! ## Witnesses: matching, collectives, handlers, coherence and locks -/

/-- Instance 0 with two contexts. -/
def matcher : State := tenant.setInst 0 { tenant.inst 0 with ctx := 2 }

/-- A message held for its order, in order and out of it, to a context that exists, resets, or does not exist; contexts in each state. -/
theorem witness_MatchingContexts :
    [((5 : Nat), (16777215 : Nat), pkt opSend)].find? (fun h => h.1 == 5 && h.2.1 == (16777215 : BitVec 24).toNat && h.2.2.tInst == 0) = some (5, 16777215, pkt opSend)
    ∧ (matcher.xp.held.find? (fun h => h.1 == 5 && h.2.1 == 0 && h.2.2.tInst == 0) = none)
    ∧ (laterMod 24 (matcher.peer 5).rxNext 16777215 = true ∧ laterMod 24 (matcher.peer 5).rxNext 0 = false)
    ∧ (matcher.inst 0).ctx ≤ ({ pkt opSend with aux := 65535 }).aux % 65536 ∧ (pkt opSend).aux % 65536 < (matcher.inst 0).ctx
    ∧ ((matcher.ctx ((matcher.inst 0).ctxBase + 0)).resetting = false ∧ ({ CtxSt.init with resetting := true }).resetting = true)
    ∧ ((matcher.ctx 65535).queue = [] ∧ (matcher.ctx 65535).idle = true ∧ (matcher.ctx 65535).walk = none)
    ∧ ({ CtxSt.init with queue := [.msg (pkt opSend)] }).queue = .msg (pkt opSend) :: []
    ∧ ({ CtxSt.init with queue := [.recv 1] }).queue = .recv 1 :: []
    ∧ ((matcher.setCtx 1 { CtxSt.init with queue := [.recv 1], migrateTo := some 31 }).ctx 1).walk.isNone = true
    ∧ (matcher.setCtx 1 { CtxSt.init with queue := [.recv 1], migrateTo := some 31 }).walkCause 1 = true
    ∧ (matcher.setCtx 1 { CtxSt.init with queue := [.recv 1] }).walkCause 1 = false
    ∧ ({ CtxSt.init with walk := some ⟨.recv 1, 0, 0, none⟩ }).walk = some ⟨.recv 1, 0, 0, none⟩
    ∧ State.reset.structured = false ∧ (matcher.put (Reg.ctxCfg 1) Fld.ctxCfgMigTo 31).dillUp 31 = true
    ∧ (({ matcher with fenced := [.dill 31] } : State).put (Reg.ctxCfg 1) Fld.ctxCfgMigTo 31).dillUp 31 = false := by decide +kernel

/-- An arrival and a receive in an idle context that engine 0 serves. -/
def served : State := (((matcher.setCtx 1 { CtxSt.init with queue := [.msg (pkt opSend)] }).put (Reg.ctxCfg 1) Fld.ctxCfgPinned 1).put (Reg.ctxCfg 1)
  Fld.ctxCfgEngine 0)

/-- Turns that have come and that have not; an engine that serves the context and one that does not; a walk that stops at its first entry, and
one that has no such restart point. -/
theorem witness_MatchingContexts_serve : matcher.turnOf 0 5 16777215 = true ∧ matcher.turnOf 0 5 1 = false
    ∧ ((served.ctx 1).idle && served.engineServes 1) = true ∧ ((matcher.ctx 1).idle && matcher.engineServes 1) = false
    ∧ served.serveNext 0 = some 1 ∧ (served.setCtx 1 { CtxSt.init with walk := some ⟨.recv 1, 0, 0, none⟩ }).engineServes 1 = true
    ∧ (served.setCtx 1 { CtxSt.init with walk := some ⟨.recv 1, 0, 0, none⟩ } |>.ctx 1).ready = true
    ∧ (served.stopAt 1 (.msg (pkt opSend)) (.entry 0)).isSome = true ∧ (served.stopAt 1 (.msg (pkt opSend)) (.entry 1)).isNone = true
    ∧ (served.stopAt 1 (.msg (pkt opSend)) .commit).isNone = true := by decide +kernel

/-- A context with two receives, of which a message takes the earlier, and one whose receive finds nothing. -/
def listed : CtxSt := { CtxSt.init with posted := [⟨0, 0, BitVec.allOnes 64, 0, BitVec.allOnes 32, 0, 1, 0⟩, ⟨1, 0, 0, 0, 0, 1, 2, 0⟩], nextPseq := 2 }

/-- The lists of that context are in order, and its picks are taken and not. -/
theorem witness_MatchingOrder : listed.ordered ∧ (listed.arrivePick (pkt opSend)).1 = listed.posted.head? ∧ listed.posted.head?.isSome = true
    ∧ (CtxSt.init.arrivePick (pkt opSend)).1 = none ∧ (listed.postPick ⟨0, 0, 0, 0, 0, 2, 3, 0⟩).1 = none
    ∧ ({ CtxSt.init with unexp := [⟨0, 0, 0, false, false, 0, 0, 0, 0, 0, [], pkt opSend⟩], nextAseq := 1 }.postPick ⟨0, 0, 0, 0, 0, 2, 3, 0⟩).1
        = some ⟨0, 0, 0, false, false, 0, 0, 0, 0, 0, [], pkt opSend⟩ := by
  refine ⟨⟨?_, ?_, ?_, ?_⟩, by decide +kernel, by decide +kernel, by decide +kernel, by decide +kernel, by decide +kernel⟩ <;> decide +kernel

/-- A list with an entry and one without, and pools that fit at their greatest, that do not, and that come too late. -/
theorem witness_MatchingWindow : State.reset.structured = false ∧ (dev 2).structured = true ∧ (dev 2).imgState = 2 ∧ (dev 3).imgState ≠ 2
    ∧ (((dev 2).put Reg.entSel Fld.entSelIndex 0).put Reg.entSel Fld.entSelList 0).entryWords false 0 = none
    ∧ (({ dev 2 with mt := { MatchSt.init with ctx := [(0, { CtxSt.init with posted := [⟨7, 0, 0, 0, 0, 0, 0, 0⟩] })] } } : State).entryWords false 7).isSome = true
    ∧ 72 * (min 16 (Fld.matchPoolPreM.get 0) + min 16 (Fld.matchPoolUxeM.get 0)) + Fld.matchPoolBounceMib.get 0 + Fld.matchPoolSegMib.get 0
        ≤ 512 * ((dev 2).put Reg.cohRegion Fld.cohRegionSizeGib 16).get Reg.cohRegion Fld.cohRegionSizeGib
    ∧ 512 * (dev 2).get Reg.cohRegion Fld.cohRegionSizeGib < Fld.matchPoolBounceMib.get (Fld.matchPoolBounceMib.put 0 1)
    ∧ (∀ e ∈ (dev 2).insts, e.2.ctx = 0) ∧ (∃ e ∈ matcher.insts, e.2.ctx ≠ 0) := by decide +kernel

/-- A member entry of this device alone, for an instance's communicator and for the management one. -/
def member (mgmt : Nat) : State :=
  (((tenant.setWord (Reg.commEnt 4095 0) (BitVec.ofNat 64 (mgmt + 2 <<< 32 + 1 <<< 48))).setWord (Reg.commEnt 4095 1)
    (BitVec.ofNat 64 (1 + 1 <<< 16))).setWord (Reg.commEnt 4095 6) 1)

/-- A reduction of one element on communicator 4095, as a job. -/
def collJob (kind : Nat) : OpSt :=
  { OpSt.init with kind := .coll, tc := 6, desc := ⟨0, 0, BitVec.ofNat 64 (4095 + kind <<< 12), if kind = 0 then 0 else 1, 0, 0, 0, 0⟩ }

/-- A communicator that passes its checks, one that fails, and one that is valid; jobs of each kind that start, fail and wait. -/
theorem witness_CollectiveJobs : State.reset.structured = false ∧ (member 0).structured = true
    ∧ ((member 0).commValid 4095 = false ∧ (member 0).commCheck 4095 = 0 ∧ tenant.commCheck 4095 ≠ 0)
    ∧ ((member 0).put (Reg.commCtl 4095) Fld.commCtlValid 1).commValid 4095 = true
    ∧ Table.find ([] : Table OpSt) 1 = none
    ∧ (∀ k ∈ [0, 1, 2, 3], bits (collJob k).desc.w2.toNat 14 12 = k ∧ (collJob k).kind = .coll ∧ (member 0).fenceMet 1 (collJob k) = true
        ∧ ((member 0).put (Reg.commCtl 4095) Fld.commCtlValid 1).collBad (collJob k) = false)
    ∧ (member 0).collBad (collJob 0) = true ∧ (collJob 0).started = false ∧ (collJob 0).done = false
    ∧ (member 0).get (Reg.commCtl 4095) Fld.commCtlPending < (member 0).get Reg.collCtrl Fld.collCtrlDepth
    ∧ ((member 0).put Reg.collCtrl Fld.collCtrlDepth 0).get Reg.collCtrl Fld.collCtrlDepth ≤ (member 0).get (Reg.commCtl 4095) Fld.commCtlPending := by
  decide +kernel

/-- A failure that its collective's job finds already known, and none. -/
theorem witness_CollectiveJobs_noticed : ({ member 0 with colls := { CollsSt.init with failed := [(4095, 0, 38)] } } : State).noticed 4095 0 = some 38
    ∧ (member 0).noticed 4095 0 = none ∧ (member 0).mayStart 1 (collJob 1) = true
    ∧ (tenant.setSq 0 0 { SqSt.init with chain := [segDesc opSeg], chainOp := 1 }).mayStart 1 { collJob 1 with ring := some 0 } = false := by
  decide +kernel

/-- Packets that pass and that do not, for communicators valid and not, a collective that has failed, and engines with and without work. -/
theorem witness_CollectivePackets : ((dev 3).accept (pkt opColl)).1 = true ∧ ((dev 3).accept { pkt opColl with crc := (pkt opColl).crc + 1 }).1 = false
    ∧ (dev 3).commValid 0 = false ∧ ((dev 3).put (Reg.commCtl 0) Fld.commCtlValid 1).commValid 0 = true
    ∧ (({ dev 3 with colls := { CollsSt.init with failed := [(0, 0, 2)] } } : State).noticed 0 0 = some 2 ∧ (dev 3).noticed 0 0 = none)
    ∧ ((dev 3).coll 0 0 = none ∧ (({ dev 3 with colls := { CollsSt.init with colls := [⟨0, 0, 1, 0, 0, 0, 0, 0, 0, []⟩] } } : State).coll 0 0).isSome = true)
    ∧ (dev 3).colls.colls = [] ∧ (dev 3).commEngine 0 ≠ 15 ∧ (dev 3).commEngine 0 = 0 := by decide +kernel

/-- The management communicator, with this device its leader at position 0. -/
def service : State := (member 1).put (Reg.commCtl 4095) Fld.commCtlValid 1

/-- A service that runs, one that may start, one that may not; packets of services, for a communicator that is there and one that is not. -/
theorem witness_GlobalServices : State.reset.structured = false ∧ service.structured = true ∧ service.colls.svcOp = 0
    ∧ ({ CollsSt.init with svcOp := 1 }).svcOp ≠ 0
    ∧ (service.svcValid 4095 && service.isLeader 4095 && service.tpos 4095 == 0) = true
    ∧ (service.svcValid 0 && service.isLeader 0 && service.tpos 0 == 0) = false
    ∧ (service.accept (pkt opColl)).1 = true ∧ (service.accept { pkt opColl with crc := (pkt opColl).crc + 1 }).1 = false
    ∧ service.svcValid ((pkt opColl).aux % 4096) = false ∧ service.colls.armed = none
    ∧ ({ CollsSt.init with armed := some (pkt opColl) }).armed ≠ none := by decide +kernel

/-- Instance 0 with handler slots and a partition, and trigger 0 of it. -/
def handled : State :=
  (((tenant.setInst 0 { tenant.inst 0 with hslots := 16 }).put (Reg.handInst 0) Fld.handInstLd4k 1).put (Reg.handCtrl) Fld.handCtrlBudgetUs 100)

/-- Triggers that may be enabled, that may not, and that are; timers; cores held, idle and at work; writes that end at the end of memory. -/
theorem witness_HandlerControl : State.reset.structured = false ∧ handled.structured = true ∧ handled.trigOn 4095 = false
    ∧ (handled.trigRefused 4095 = false ∧ tenant.trigRefused 4095 = true)
    ∧ (handled.put (Reg.trigCfg 4095) Fld.trigCfgEnable 1).trigOn 4095 = true
    ∧ ((handled.put (Reg.trigCfg 4095) Fld.trigCfgKind 3).get (Reg.trigCfg 4095) Fld.trigCfgKind = 3
      ∧ (handled.put (Reg.trigArg 4095) Fld.trigArgArg 1).get (Reg.trigArg 4095) Fld.trigArgArg ≠ 0)
    ∧ ((handled.put (Reg.handCore 66) Fld.handCoreHold 1).cstate 66 = 3 ∧ handled.cstate 66 = 0)
    ∧ (0xFFFF + [(0 : Byte)].length ≤ 0x10000 ∧ 0x1FFFF + [(0 : Byte)].length ≤ 0x20000)
    ∧ (handled.firstFired (handled.dispatchable 0) = none ∧ handled.enabled = true
      ∧ (({ handled with hand := { HandSt.init with trigs := [(0, { TrigSt.init with queued := true })] } } : State).put (Reg.trigCfg 0)
          Fld.trigCfgEnable 1).firstFired ((({ handled with hand := { HandSt.init with trigs := [(0, { TrigSt.init with queued := true })] } } :
            State).put (Reg.trigCfg 0) Fld.trigCfgEnable 1).dispatchable 0) = some 0)
    ∧ (handled.core 0).running = false ∧ ({ CoreSt.init with running := true }).running = true := by decide +kernel

/-- A core that runs a handler of the manager, with `v` in register 0. -/
def coreRun (v : BitVec 64) : CoreSt := { CoreSt.init.setReg 0 v with running := true, mgr := true }

/-- The device with that core, and a coherent region of 16 GiB at 0. -/
def running (v : BitVec 64) : State := handled.setCore 0 (coreRun v)

/-- A core at work, registers at the ends of the range, and each function of `alu`. -/
theorem witness_SorrelArithmetic : (running 5).powered = true ∧ ((running 5).core 0).running = true ∧ ((running 5).core 0).lockWait = none
    ∧ (24 : BitVec 5).toNat < 25 ∧ (0 : BitVec 5).toNat < 25 ∧ 16 ≤ (16 : BitVec 11).toNat := by decide +kernel

/-- The core at work with an instruction word next; a word of no instruction, and one of another. -/
theorem witness_SorrelDecode : coreWord (.addi 0 0 0 0xFFFF) = some (0, 0x0400FFFF)
    ∧ (((running 5).setCore 0 { coreRun 5 with imem := writeBytes [] 0 0 (leBytes 0x0400FFFF 4) }).core 0).nextWord = 0x0400FFFF
    ∧ decodeCore 0 (((running 5).setCore 0 { coreRun 5 with imem := writeBytes [] 0 0 (leBytes 0xFFFFFFFF 4) }).core 0).nextWord = none
    ∧ decodeCore 0 ((running 5).core 0).nextWord ≠ none ∧ ((running 5).core 0).nextWord ≠ 0x0400FFFF := by decide +kernel

/-- Addresses of local data at both ends, of device memory, misaligned and beyond what a handler may reach; a lock line; each atomic. -/
theorem witness_SorrelMemory : (running 0).haddr (coreRun 0) 0 8 = .loc 0 ∧ (running 0).haddr (coreRun 0) 1 8 = .bad ∧ 1 % 8 ≠ 0
    ∧ (running 0).haddr (coreRun 0) ((running 0).spillBase - 1) 1 = .loc ((running 0).spillBase - 1)
    ∧ (running 0).haddr (coreRun 0) (2 ^ 62) 8 = .bad ∧ (running 0).haddr (coreRun 0) (2 ^ 63) 8 = .dev 0
    ∧ (running 0).haddr (coreRun 0) (2 ^ 63 + hbmSize - 8) 8 = .dev (hbmSize - 8)
    ∧ (running 0).touchesLock 0 8 = false ∧ ({ running 0 with rma := { RmaSt.init with armed := [0] } } : State).touchesLock 0 8 = true
    ∧ ((running 0).coreLoad 0 0 8).1 = some [0, 0, 0, 0, 0, 0, 0, 0] ∧ 6 < (7 : BitVec 11).toNat % 16 ∧ (6 : BitVec 11).toNat % 16 ≤ 6 := by decide +kernel

/-- Jumps to an instruction and between two, calls and returns at each bound of windows and counts. -/
theorem witness_SorrelControl : (4 : BitVec 64).toNat % 4 = 0 ∧ (6 : BitVec 64).toNat % 4 ≠ 0 ∧ 8 < (9 : BitVec 4).toNat ∧ (8 : BitVec 4).toNat ≤ 8
    ∧ (coreRun 0).resident < 7 ∧ 7 ≤ ({ coreRun 0 with resident := 7 }).resident
    ∧ ((running 0).spillBytes < 136 * (1000 + 1) ∧ 136 * (0 + 1) ≤ ((running 0).put Reg.handCtrl Fld.handCtrlSpillKib 1).spillBytes)
    ∧ 4 < (5 : BitVec 4).toNat ∧ (4 : BitVec 4).toNat ≤ 4 ∧ (coreRun 0).resident ≤ 1 ∧ (coreRun 0).spilled = 0
    ∧ 1 < ({ coreRun 0 with resident := 2 }).resident ∧ 0 < ({ coreRun 0 with spilled := 1 }).spilled := by decide +kernel

/-- The device with an armed lock at line 0, free or held by `w`, in a region of 16 GiB at 0. -/
def lockDev (w : Nat) : State :=
  ({ running (BitVec.ofNat 64 (2 ^ 63)) with rma := { RmaSt.init with
      armed := [0], hbm := writeBytes [] 0 0 (leBytes w 8) } } : State).put Reg.cohRegion Fld.cohRegionSizeGib 16

/-- Cores that wait and do not, registers that exist and do not, each number of `csr`, and lock addresses of each kind. -/
theorem witness_SorrelSystem : ((handled.core 0).running = false ∧ ({ coreRun 0 with lockWait := some (0, 0) }).lockWait ≠ none)
    ∧ 25 ≤ (25 : BitVec 5).toNat ∧ (24 : BitVec 5).toNat < 25 ∧ (running 0).logicalCore 0 = some 0 ∧ 8 ≤ (8 : BitVec 11).toNat
    ∧ ((running 1).haddr (coreRun 1) 1 64 = .bad ∧ (running 0).haddr (coreRun 0) 0 64 = .loc 0)
    ∧ ((lockDev 0).lockAddr (coreRun 0) 0 = none ∧ (lockDev 0).lockAddr (coreRun 0) (2 ^ 63 + 2 ^ 36) = some none
      ∧ (lockDev 0).lockAddr (coreRun 0) (2 ^ 63) = some (some 0))
    ∧ ((lockDev 0).lockPasses 1 0 0 ((lockDev 0).lockCoreId 0) = true ∧ (lockDev 0).lockPasses 1 0 1 ((lockDev 0).lockCoreId 0) = false)
    ∧ ((lockDev 0).lockHeld 0 = false ∧ (lockDev (2 ^ 63 + 7)).lockHeld 0 = true)
    ∧ ((lockDev (2 ^ 63)).waitersFull = false ∧ ((lockDev (2 ^ 63)).put Reg.lockCtrl Fld.lockCtrlWaitersK 0).waitersFull = true)
    ∧ (lockDev (2 ^ 63 + (lockDev 0).lockCoreId 0)).lockPasses 2 0 0 ((lockDev 0).lockCoreId 0) = true := by decide +kernel

/-- A line in the region and one outside it, busy and not, a slice with and without room, and lines that hold a lock. -/
theorem witness_CoherenceRequests : State.reset.structured = false ∧ (lockDev 0).structured = true
    ∧ ((lockDev 0).inRegion (64 * 0) = true ∧ (lockDev 0).inRegion (64 * 2 ^ 30) = false)
    ∧ (lockDev 0).hand.busy.find? (fun b => b.line == 0) = none ∧ (lockDev 0).sliceBusy (lineSlice 0) < 256
    ∧ ([⟨0, .readNA, [], []⟩] : List BusyLine).find? (fun b => b.line == 0) = some ⟨0, .readNA, [], []⟩
    ∧ (∀ k ∈ linesOf 64 8, k ∉ (lockDev 0).rma.armed) ∧ (linesOf 0 8).find? (fun j => (lockDev 0).rma.armed.contains j) = some 0
    ∧ (lockDev 0).sliceQueued (lineSlice 0) < 1024 := by decide +kernel

/-- A busy line with its request, awaiting core 0 for core 1. -/
def busyDev (r : CohReq) : State :=
  { lockDev 0 with hand := { (lockDev 0).hand with busy := [⟨0, r, [.core 0], []⟩] } }

/-- Agents asked for each request and not asked, owners and sharers, and responses of the requester, of another, and of one not awaited. -/
theorem witness_CoherenceAnswers : (busyDev (.getM (.core 1))).asked (.core 2) 0 = none
    ∧ (busyDev (.getM (.core 1))).asked (.core 0) 0 = some (.getM (.core 1)) ∧ (busyDev (.getS (.core 1))).asked (.core 0) 0 = some (.getS (.core 1))
    ∧ (busyDev (.upgrade (.core 1))).asked (.core 0) 0 = some (.upgrade (.core 1)) ∧ (busyDev (.getM (.core 1))).owner 0 ≠ some (.core 0)
    ∧ (({ busyDev (.getM (.core 1)) with hand := { (busyDev (.getM (.core 1))).hand with
        dir := [(0, BitVec.ofNat 128 (2 ^ 127 + 1))] } } : State).owner 0 = some (.core 0))
    ∧ ((busyDev (.getM (.core 1))).hand.busy.find? (fun b => b.line == 0)).isSome = true ∧ (lockDev 0).hand.busy.find? (fun b => b.line == 0) = none
    ∧ CohReq.from_ (.getM (.core 1)) = some (.core 1) ∧ CohAgent.core 0 ≠ .core 1
    ∧ (busyDev (.getM (.core 1))).stillHolds (.getM (.core 1)) (.core 0) 0 = false
    ∧ State.reset.structured = false ∧ (lockDev 0).structured = true := by decide +kernel

/-- A LOCK packet of an operation for line 0 of instance 0. -/
def lockPkt (op : Nat) : Packet :=
  let p := { Packet.zero with op := opLock, aux := op, tInst := 0 }
  { p with crc := p.crcOf }

/-- The device with line 0 in the grant of instance 0. -/
def granted (w : Nat) : State := (lockDev w).put (Reg.dmGrant 0) Fld.dmGrantDmLen 1

/-- LOCK packets of each operation that pass and fail the checks of arrival and of the lock; forced hand-overs of each outcome. -/
theorem witness_Locks : (pkt 1).op ≠ opLock
    ∧ (∀ k ∈ [0, 1, 2, 3, 4], (lockPkt k).op = opLock ∧ (lockPkt k).aux % 8 = k ∧ ((granted 0).acceptIf (lockPkt k) (fun _ => false)).1 = true)
    ∧ ((granted 0).acceptIf { lockPkt 1 with crc := (lockPkt 1).crc + 1 } (fun s => s.lockPoolFull (lockPkt 1))).1 = false
    ∧ ((granted 0).acceptIf (lockPkt 1) (fun s => s.lockPoolFull (lockPkt 1))).1 = true
    ∧ (((granted 0).acceptIf (lockPkt 0) (fun _ => false)).2.mustHold 0 = false)
    ∧ ((granted 0).lockLine 0 0 = some 0 ∧ (granted 0).lockLine 0 (2 ^ 36) = none)
    ∧ ((granted 0).lockPasses 1 0 0 (lockSrc (lockPkt 1)) = true ∧ (granted 0).lockPasses 0 0 0 (lockSrc (lockPkt 0)) = false
      ∧ (granted (2 ^ 63 + lockSrc (lockPkt 2))).lockPasses 2 0 0 (lockSrc (lockPkt 2)) = true ∧ (granted 0).lockPasses 3 0 0 0 = true
      ∧ (handled.lockPasses 0 0 0 0 = true))
    ∧ ((granted 0).lockArmed 0 = true ∧ (granted 0).lockArmed 1 = false ∧ (granted 0).lockHeld 0 = false ∧ (granted (2 ^ 63)).lockHeld 0 = true)
    ∧ ((granted (2 ^ 63)).lockOwnerId 0 = (granted (2 ^ 63)).get Reg.lockForceOwn Fld.lockForceOwnExpect
      ∧ (granted (2 ^ 63 + 1)).lockOwnerId 0 ≠ (granted 0).get Reg.lockForceOwn Fld.lockForceOwnExpect)
    ∧ Fld.lockForceGo.get 0 = 0 ∧ Fld.lockForceGo.get (Fld.lockForceGo.put 0 1) ≠ 0 := by decide +kernel

/-! ## Witnesses: faults, monitoring, power, sideband and test -/

/-- Messages of class 0 and above, windows open and not, sources fenced and not, heads at the count and beyond. -/
theorem witness_FaultNetwork : ((⟨639, 63, 0, 0⟩ : CodedMsg).cls = 0 ∧ (⟨0, 63, 3, 0⟩ : CodedMsg).cls ≠ 0)
    ∧ (∃ k : Fin 640, State.reset.flag (Reg.srcCfg k) Fld.srcCfgCounting = true) ∧ (∃ k : Fin 640, State.reset.flag (Reg.srcCfg k) Fld.srcCfgCounting = false)
    ∧ 639 ∉ State.reset.flt.windowOpen ∧ 639 ∈ ({ FaultSt.init with windowOpen := [639] }).windowOpen
    ∧ State.reset.srcFenced 0 = false ∧ ({ State.reset with fenced := [.tile 0] } : State).srcFenced 0 = true
    ∧ State.reset.flt.ownActive.find? (fun m => m.src.val == 639) = none
    ∧ ([⟨639, 5, 3, 0⟩] : List CodedMsg).find? (fun m => m.src.val == 639) = some ⟨639, 5, 3, 0⟩
    ∧ (((1 : BitVec 8).toNat + 256 - State.reset.get Reg.infoHead Fld.infoHeadHead) % 256 = 1
      ∧ State.reset.get Reg.faultStat Fld.faultStatInfoCount < 1 ∧ 1 ≤ (State.reset.put Reg.faultStat Fld.faultStatInfoCount 1).get Reg.faultStat Fld.faultStatInfoCount)
    ∧ (0xA5C2 : BitVec 16) ≠ 0xA5C3 := by decide +kernel

/-- A pair with core 0 active and its standby in step. -/
def sage : State := State.reset.put Reg.sageStat Fld.sageStatStandbyOk 1

/-- The active core and the other, takeovers, commands in progress, standbys in step and not, and firmware that is no image. -/
theorem witness_Supervisor : (sage.sageActive = 0 ∧ sage.sageActive ≠ 1 ∧ sage.sageUp = true)
    ∧ (({ sage with fenced := [.sage 0, .sage 1] } : State).sageUp = false)
    ∧ (sage.flag Reg.sageStat Fld.sageStatTakeover = false ∧ (sage.put Reg.sageStat Fld.sageStatTakeover 1).flag Reg.sageStat Fld.sageStatTakeover = true)
    ∧ (sage.flag Reg.sageCmd Fld.sageCmdBusy = false ∧ (sage.put Reg.sageCmd Fld.sageCmdBusy 1).flag Reg.sageCmd Fld.sageCmdBusy = true)
    ∧ (sage.flag Reg.sageStat Fld.sageStatStandbyOk = true
      ∧ (sage.put Reg.sageStat Fld.sageStatStandbyOk 0).flag Reg.sageStat Fld.sageStatStandbyOk = false)
    ∧ sage.firmwareOk = false ∧ (sage.isFenced (.sage 1) = false ∧ ({ sage with fenced := [.sage 1] } : State).isFenced (.sage 1) = true)
    ∧ (sage.flt.sage.loading = false ∧ ({ SageSt.init with loading := true }).loading = true) := by decide +kernel

/-- A drain of the same slot and of another, its wait and its end; spares refused each way and started; pages to retire. -/
theorem witness_Repairs : State.reset.flag Reg.repair Fld.repairDrain = false
    ∧ (((dev 3).put Reg.repair Fld.repairDrain 1).flag Reg.repair Fld.repairDrain = true ∧ (dev 3).get Reg.repair Fld.repairSlot = 0 ∧ (dev 3).get Reg.repair Fld.repairSlot ≠ 17)
    ∧ ((dev 3).flt.drainWait = false ∧ ({ FaultSt.init with drainWait := true }).drainWait = true)
    ∧ ((dev 3).slotEmpty 0 = true ∧ ({ dev 3 with wait := [⟨0, pkt 1, some 0, 0, false, 0, 0, none, 0, none, false, true, 0, false⟩] } : State).slotEmpty 0 = false)
    ∧ ((dev 3).flag Reg.spare Fld.spareBusy = false ∧ ((dev 3).put Reg.spare Fld.spareBusy 1).flag Reg.spare Fld.spareBusy = true)
    ∧ (({ dev 3 with fenced := [.sage 0, .sage 1] } : State).sageUp = false ∧ (dev 3).sageUp = true ∧ (dev 3).structured = true ∧ State.reset.structured = false)
    ∧ (kindCount 1 ≤ 16 ∧ 15 < kindCount 1) ∧ ({ FaultSt.init with spareOp := some (4, 63, 66) }).spareOp = some (4, 63, 66) ∧ 63 < kindCount 4 ∧ unitOf 4 66 ≠ unitOf 1 0
    ∧ Table.getD (dev 3).flt.retiring [] 0 = []
    ∧ Table.getD ({ FaultSt.init with retiring := [(3, [5, 6])] }).retiring [] 3 = 5 :: [6] := by decide +kernel

/-- An enable that fails each kind of check and one that does not; an arm held and not; buffers that fit and that do not; indexes at the bound. -/
theorem witness_Telemetry : (let v := Fld.cntSelEvent.put (Fld.cntSelEnable.put 0 1) 4095
      Fld.cntSelEnable.get v = 1 ∧ (dev 3).cntCheck 1023 v ≠ 0 ∧ Fld.cntSelPriv.get v ≠ 3 ∧ (dev 3).cntCheck 1023 v < 8)
    ∧ ((dev 3).flag Reg.perfCtrl Fld.perfCtrlArmHeld = false ∧ ((dev 3).put Reg.perfCtrl Fld.perfCtrlArmHeld 1).flag Reg.perfCtrl Fld.perfCtrlArmHeld = true)
    ∧ (Fld.sampCtrlEnable.get 0 = 0 ∧ Fld.sampCtrlEnable.get (Fld.sampCtrlEnable.put 0 1) = 1)
    ∧ hbmSize < ((dev 3).put Reg.sampBuf Fld.sampBufBase (2 ^ 25 - 1)).get Reg.sampBuf Fld.sampBufBase * 4096
        + 64 * 2 ^ ((dev 3).put Reg.sampBuf Fld.sampBufBase (2 ^ 25 - 1)).get Reg.sampBuf Fld.sampBufLogN
    ∧ (((dev 3).get Reg.sampStat Fld.sampStatWr + 2 ^ 21 - (1 : BitVec 21).toNat) % 2 ^ 21 = 2 ^ 21 - 1 ∧ (dev 3).sampUnread < 2 ^ 21 - 1)
    ∧ (((dev 3).get Reg.sampStat Fld.sampStatWr + 2 ^ 21 - (0 : BitVec 21).toNat) % 2 ^ 21 ≤ (dev 3).sampUnread) := by decide +kernel

/-- Droops at the threshold and beyond it, references at their limit and beyond, regulators that answer and that do not. -/
theorem witness_SensorsAndPower : (State.reset.get (Reg.droop 73) Fld.droopThreshMv ≤ State.reset.get (Reg.droop 73) Fld.droopThreshMv
      ∧ State.reset.get (Reg.droop 73) Fld.droopThreshMv < State.reset.get (Reg.droop 73) Fld.droopThreshMv + 1)
    ∧ State.reset.flag Reg.strap Fld.strapHrefMode = false
    ∧ (State.reset.put Reg.strap Fld.strapHrefMode 1).flag Reg.strap Fld.strapHrefMode = true ∧ RefInput.xtal ≠ .href 0
    ∧ State.reset.side.avsBusy = false ∧ ({ SideSt.init with avsBusy := true }).avsBusy = true ∧ SideSt.init.avsTries < 2
    ∧ 2 ≤ ({ SideSt.init with avsTries := 2 }).avsTries := by decide +kernel

/-- Offsets at the end of the register space and beyond; indexes at their bounds; Sage up and down; the safe state held and not. -/
theorem witness_SidebandCommands : ((64 : Nat) ≤ (64 : BitVec 8).toNat ∧ (63 : BitVec 8).toNat < 64 ∧ (24 : Nat) ≤ (24 : BitVec 8).toNat ∧ (23 : BitVec 8).toNat < 24)
    ∧ ((0 : BitVec 16) ≠ 0xA5C3 ∧ (1 : BitVec 8).toNat ≤ 1 ∧ 1 < (2 : BitVec 8).toNat)
    ∧ (State.reset.safe = false ∧ State.reset.latchSafe.safe = true)
    ∧ (2 ^ 28 ≤ (0x10000000 : BitVec 32).toNat ∧ (0x0FFFFFF8 : BitVec 32).toNat < 2 ^ 28 ∧ byBay 0 = true ∧ byBay 0x0FFFFFF8 = false)
    ∧ (State.reset.sageUp = true ∧ ({ State.reset with fenced := [.sage 0, .sage 1] } : State).sageUp = false)
    ∧ (State.reset.imgBusy = false ∧ (State.reset.put Reg.imgStatus Fld.imgStatusBusy 1).imgBusy = true)
    ∧ ((dev 3).regShut 0x400000 = false ∧ ({ dev 3 with islands := [] } : State).regShut 0x400000 = true)
    ∧ ((48 : Nat) ≤ 48 ∧ (1 : BitVec 8) ≠ 0 ∧ (1 : BitVec 8) ≠ 255) := by decide +kernel

/-- A controller that polls address 0. -/
def polling : State := (State.reset.put Reg.smb Fld.smbCtrlEn 1).put (Reg.pollCfg 0) Fld.pollCfgEnable 1

/-- Losses at each side of the bound, a retry that waits and none, the controller off, its poll off, and both on. -/
theorem witness_SmbusAndTestPort : State.reset.powered = true ∧ polling.powered = true
    ∧ (Table.getD ({ SideSt.init with losses := [(0, 6)] }).losses 0 0 < 7 ∧ 7 ≤ Table.getD ({ SideSt.init with losses := [(0, 7)] }).losses 0 0)
    ∧ (State.reset.side.retryWait.contains 0 = false ∧ ({ SideSt.init with retryWait := [0] }).retryWait.contains 0 = true)
    ∧ (State.reset.put Reg.smb Fld.smbCtrlEn 0).flag Reg.smb Fld.smbCtrlEn = false
    ∧ ((State.reset.put Reg.smb Fld.smbCtrlEn 1).flag Reg.smb Fld.smbCtrlEn = true
      ∧ (State.reset.put Reg.smb Fld.smbCtrlEn 1).flag (Reg.pollCfg 0) Fld.pollCfgEnable = false)
    ∧ (polling.flag Reg.smb Fld.smbCtrlEn = true ∧ polling.flag (Reg.pollCfg 0) Fld.pollCfgEnable = true) := by decide +kernel

/-- A powered device without TEST_EN, and one with it. -/
theorem witness_SmbusAndTestPort_pins : State.reset.powered = true ∧ State.reset.flag Reg.strap Fld.strapTestEn = false
    ∧ (State.reset.put Reg.strap Fld.strapTestEn 1).powered = true
    ∧ (State.reset.put Reg.strap Fld.strapTestEn 1).flag Reg.strap Fld.strapTestEn = true := by decide +kernel

/-! ## Small tests, the expected values worked out in the spec -/

/-- What a command leaves, of a state. -/
def after (i : Instr) (s : State) : State :=
  match exec i s with
  | .next t => t
  | _ => s

/-- 00_scope: FID 517.3.12 is 0x2053C. -/
theorem test_fid : fidGroup 0x2053C = 517 ∧ fidRow 0x2053C = 3 ∧ fidCol 0x2053C = 12 := by decide +kernel

/-- 00_scope: express, stage 1, row-first is VC 2; bulk, stage 2, column-first is VC 11. -/
theorem test_vc : vcNum 0 1 0 = 2 ∧ vcNum 1 2 1 = 11 := by decide +kernel

/-- 02_structure_image: 24 VCs of 65 flits leave 3,560 shared; the flat machine of its example leaves 4,470. -/
theorem test_shared_pool :
    ({ dev 3 with img := { ImageSt.init with applied := some { cfg with classVc := 255 - 16, buffer := [[65, 65, 65, 65]] } } } : State).sharedPool 0 = 3560
    ∧ ({ dev 3 with img := { ImageSt.init with applied := some { cfg with classVc := 128 + 32 + 15, buffer := [[130, 65, 65, 65]] } } } : State).sharedPool 0
      = 4470 := by decide +kernel

/-- R572: the check value over "123456789". -/
theorem test_crc16 : crc16 [0x31, 0x32, 0x33, 0x34, 0x35, 0x36, 0x37, 0x38, 0x39] = 0x6F91 := by decide +kernel

/-- R75: 00, 01, 11 and 10 are sent as -3, -1, +1 and +3. -/
theorem test_gray : [(false, false), (false, true), (true, true), (true, false)].map (fun b => pamLevel (grayIndex b.1 b.2)) = [-3, -1, 1, 3] := by
  decide +kernel

/-- R76: p(n) = (g(n) - p(n-1)) mod 4. -/
theorem test_precode : precode 0 [3, 1, 0, 2] = [3, 2, 2, 0] := by decide +kernel

/-- R79: one bit set, after 58 zeros, is sent again 39, 58 and 78 bits later. -/
theorem test_scramble : (scramble 0 (true :: List.replicate 78 false)).1.zipIdx.filterMap (fun e => if e.1 then some e.2 else none)
    = [0, 39, 58, 78] := by decide +kernel

/-- R82: α^10 is α^3 + 1; a message with its parity has every root of the generator, and with one symbol wrong it has not. -/
theorem test_fec : gfAlpha 10 = 9 ∧ rsGenerator.length = 21 ∧ rsValid ([5, 0, 1023] ++ rsParity [5, 0, 1023]) = true
    ∧ rsValid ([5, 1, 1023] ++ rsParity [5, 0, 1023]) = false := by decide +kernel

/-- R118: a CREDIT of 512 shared flits on VC 23 with `ack` 0x1234. -/
theorem test_credit_bytes : (Ctl.credit [⟨23, true, 512⟩] 0x1234).bytes.take 5 = [0x11, 1, 0x97, 0x00, 0x02]
    ∧ ((Ctl.credit [⟨23, true, 512⟩] 0x1234).bytes.drop 23).take 2 = [0x34, 0x12] ∧ Ctl.parse (0x17 :: List.replicate 31 0) = none := by
  decide +kernel

/-- R190: `via` stands at bits [27:18], `stage` at [30:29] and `vc` at [56:52]. -/
theorem test_route_word : (RouteWord.ofWord { RouteWord.zero with dst := 0x2053C, via := 517, vc := 18 }.word)
    = { RouteWord.zero with dst := 0x2053C, via := 517, vc := 18 } ∧ { RouteWord.zero with via := 1, stage := 2, vc := 3 }.word = 2 ^ 18 + 2 ^ 30 + 3 * 2 ^ 52 := by decide +kernel

/-- 03_lanes: `rtt` 7,800 at 5,000 ps/m is 30 dm; 200,800 at 4,900 ps/m is 200 m. -/
theorem test_length : lengthDm 7800 5000 = 30 ∧ lengthDm 200800 4900 = 2000 := by decide +kernel

/-- 12_matching: instance 22 of device 12.4.7 is source 0x580C47. -/
theorem test_source : srcId { Packet.zero with src := 0xC47, sInst := 22 } = 0x580C47 := by decide +kernel

/-- 06_routing: the third candidate of the example, score 50, beats scores 66 and 51; 50 exceeds 14 by more than the bias 4. -/
theorem test_choice (g1 g2 g3 v : Choice) (h1 : g1.score = 66 ∧ g1.remote15 = false) (h2 : g2.score = 51 ∧ g2.remote15 = false)
    (h3 : g3.score = 50 ∧ g3.remote15 = false) (hv : v.score = 14) :
    g3.better g1 = true ∧ g3.better g2 = true ∧ g2.better g3 = false ∧ pickBias (some g3) (some v) 4 = some v := by
  simp [Choice.better, pickBias, h1, h2, h3, hv]

/-- 09_rings_instances: six near rings at `poll` 1 and forty far rings at 125 cost 790 × 10^6 polls a second. -/
theorem test_poll_cost : 6 * pollCost 1 + 40 * pollCost 125 = 790000000 := by norm_num [pollCost, Rat.mkRat_eq_div]

/-- R457: a sum wraps, a shift takes the count's low six bits, the arithmetic shift keeps the sign, products high and low, signed
comparison against unsigned. -/
theorem test_alu : aluOp 0 (BitVec.allOnes 64) 2 = some 1 ∧ aluOp 1 0 1 = some (BitVec.allOnes 64) ∧ aluOp 5 1 65 = some 2
    ∧ aluOp 7 (2 ^ 63) 63 = some (BitVec.allOnes 64) ∧ aluOp 9 (2 ^ 63) 2 = some 1 ∧ aluOp 8 (2 ^ 63) 2 = some 0
    ∧ aluOp 10 (BitVec.allOnes 64) 0 = some 1 ∧ aluOp 11 (BitVec.allOnes 64) 0 = some 0 := by decide +kernel

/-- The core at work with a word as its next instruction, and 5 in register 0. -/
def holding (w : Nat) : State := (running 5).setCore 0 { coreRun 5 with imem := writeBytes [] 0 0 (leBytes w 4) }

/-- R456, R457: instruction words written out by format A, I, B, J and C decode to what they stand for; op 0x3F is outside the table. -/
theorem test_decode_core : decodeCore 0 0b000000_00001_00010_00011_00000001001 = some (.alu 0 1 2 3 9)
    ∧ decodeCore 0 0b000001_00001_00010_1111111111111110 = some (.addi 0 1 2 0xFFFE)
    ∧ decodeCore 0 0b010100_00001_00010_1111111111111111 = some (.beq 0 1 2 0xFFFF)
    ∧ decodeCore 0 0b011100_11111111111111111111111110 = some (.j 0 0x3FFFFFE)
    ∧ decodeCore 0 0b011010_0011_0000000000000000000101 = some (.call 0 3 5)
    ∧ decodeCore 0 0xFFFFFFFF = none := by decide +kernel

/-- R457: ADDI extends the sign of its immediate, and the destination is also the source; an instruction that is not the next one has no
effect. -/
theorem test_addi : ((after (.addi 0 0 0 0xFFFF) (holding 0x0400FFFF)).core 0).reg 0 = 4
    ∧ ((after (.addi 0 0 0 0xFFFE) (holding 0x0400FFFF)).core 0).reg 0 = 5 := by decide +kernel

/-- R451: a write of register 24 is discarded, and it reads 0. -/
theorem test_z : ((after (.addi 0 24 0 7) (holding 0x07000007)).core 0).reg 24 = 0 ∧ ((after (.addi 0 24 0 7) (holding 0x07000007)).core 0).reg 0 = 5 := by
  decide +kernel

/-- R53: a byte written to the staging window reads back there, and the byte beside it stays. -/
theorem test_staging : readBytes (after (.stagingWrite 5 [0x5A]) State.reset).img.staging 0 4 3 = [0, 0x5A, 0] := by decide +kernel

/-- R562: the identification code. -/
theorem test_idcode : (after .idcode State.reset).out = [.jtagId 0x101449C3] := by decide +kernel

/-- R548: the thermal trip latches the safe state. -/
theorem test_thermal_trip : (after (.thermalTrip 3) State.reset).safe = true := by decide +kernel

end Sys2Proof.Tests
end

section
/-! Why `RegisterWrites` fails: a write of a plain register stores nothing. `State.bwRestart` takes the state before the write first and the
state after it second, and `State.writeReg` hands it the two in the other order, so that what it gives back is the state before the write.
LOCK_SET on FAULT.CTRL therefore leaves its lock bit clear, where R68 and R69 have a write of 1 set it. -/

namespace Sys2Proof.Machine

/-- Restarting the bandwidth window gives back the registers of its second state, whatever those of the first. -/
theorem State.bwRestart_word (old s : State) : (old.bwRestart s).word = s.word := by
  unfold State.bwRestart
  split <;> rfl

theorem regAt_faultCtrl : regAt Reg.faultCtrl = some (RegD.faultCtrl, 0, 0) := by
  decide +kernel

/-- No rule of its own governs a write of FAULT.CTRL, and no action follows it: what it does is what `bwRestart` makes of the stored write
and the state before it. -/
theorem State.writeReg_faultCtrl (s : State) (x : RegWr) (hd : x.d = RegD.faultCtrl) (ha : x.a = Reg.faultCtrl) :
    s.writeReg x = (s.storeWr x).bwRestart s := by
  obtain ⟨d, i, j, a, off, v, c⟩ := x
  dsimp only at hd ha
  subst hd ha
  rfl

theorem State.writeAt_faultCtrl (s : State) (v : Word) :
    s.writeAt Reg.faultCtrl 8 v = s.writeReg ⟨RegD.faultCtrl, 0, 0, Reg.faultCtrl, Reg.faultCtrl, v, BitVec.allOnes 64⟩ := by
  have hok : accessOk Reg.faultCtrl 8 = true := by decide
  have hw : inWindows Reg.faultCtrl = false := by decide
  have hg : gated Reg.faultCtrl = false := by decide
  have ha : Reg.faultCtrl / 8 * 8 = Reg.faultCtrl := by decide
  simp [State.writeAt, hok, hw, hg, ha, regAt_faultCtrl]

/-- LOCK_SET on FAULT.CTRL changes no register, in any state and with any value. -/
theorem doLockSet_fault_word (s : State) (v : Word) : (doLockSet .fault v s).word = s.word := by
  unfold doLockSet
  rw [show lockRegAt .fault = Reg.faultCtrl from rfl, State.writeAt_faultCtrl,
    State.writeReg_faultCtrl s _ rfl rfl, State.bwRestart_word]

/-- Refutes O9: LOCK_SET of FAULT.CTRL with the value 0, on the reset state, leaves the lock bit clear, as `writeReg` gives `bwRestart` its
two states in the wrong order and so drops what it has stored. -/
theorem not_registerWrites : ¬ Obligations.RegisterWrites := by
  unfold Obligations.RegisterWrites
  intro h
  have hpow : State.reset.powered = true := by decide
  have hungated : gated (lockRegAt .fault) = false := by decide
  have hclear : State.reset.flag Reg.faultCtrl Fld.faultCtrlLock = false := by decide +kernel
  obtain ⟨-, -, -, -, -, -, -, -, -, hlock, -⟩ := h State.reset 0 8 0 .pf0 hpow
  obtain ⟨t, hexec, hset⟩ := (hlock .fault).1 (fun hg => absurd hg (by rw [hungated]; decide))
  rw [exec_lockSet, execLockSet, act_powered _ _ hpow] at hexec
  obtain rfl : State.reset.finish (doLockSet .fault 0 State.reset) = t := Host.Outcome.next.inj hexec
  have hkept : (doLockSet .fault 0 State.reset).flag Reg.faultCtrl Fld.faultCtrlLock = false := by
    rw [← hclear, State.flag, State.get, doLockSet_fault_word]
    rfl
  exact absurd (hkept.symm.trans hset) (by decide)

end Sys2Proof.Machine
end

section
/-! The order of what is due at a block position (R119, R120): what `State.sendNext` sends in each case of R119, when a SEAL is due and a flit
ready, and that sending only adds to the outputs, after those that stand there. R119 ranks a NAK and a REPLAY together; the model puts the NAK
first. -/

namespace Sys2Proof.Machine

/-! ## Sending keeps the outputs that stand -/

theorem State.sendBits_out_prefix (s : State) (lane : Nat) (precoded : Bool) (l : List Bool) :
    s.out <+: (s.sendBits lane precoded l).out := by
  unfold State.sendBits
  dsimp only
  split
  · exact List.prefix_rfl
  · exact List.prefix_append _ _

/-- The same after the lane's own state is set, as it is for a marker and for a block. -/
theorem State.sendBits_setLane_out_prefix (s : State) (lane : Nat) (x : LaneSt) (precoded : Bool) (l : List Bool) :
    s.out <+: ((s.setLane lane x).sendBits lane precoded l).out :=
  (s.setLane lane x).sendBits_out_prefix lane precoded l

theorem State.sendMarker_out_prefix (s : State) (lane pos : Nat) (precoded : Bool) :
    s.out <+: (s.sendMarker lane pos precoded).out :=
  s.sendBits_setLane_out_prefix lane _ precoded _

theorem State.sendBlock_out_prefix (s : State) (lane pos : Nat) (precoded data : Bool) (b : List Byte) :
    s.out <+: (s.sendBlock lane pos precoded data b).out := by
  unfold State.sendBlock
  dsimp only
  split
  · exact (s.sendBits_setLane_out_prefix lane _ precoded _).trans (State.sendMarker_out_prefix _ lane pos precoded)
  · exact s.sendBits_setLane_out_prefix lane _ precoded _

/-- What is done for every element of a list keeps the outputs that stand, when it does so for each. -/
theorem State.forAll_out_prefix {α : Type} {f : State → α → State} (hf : ∀ s x, s.out <+: (f s x).out) (s : State) (l : List α) :
    s.out <+: (s.forAll l f).out := by
  induction l generalizing s with
  | nil => exact List.prefix_rfl
  | cons x l ih => exact (hf s x).trans (ih (f s x))

/-- A control is the next output; the symbols of the lanes that carry it follow. -/
theorem State.sendCtl_out_prefix (s : State) (p : Nat) (c : Ctl) : s.out ++ [.ctl p c] <+: (s.sendCtl p c).out := by
  unfold State.sendCtl
  dsimp only
  split
  · exact State.forAll_out_prefix (fun u pos => u.sendBlock_out_prefix _ pos _ false c.bytes) (s.emit (.ctl p c)) _
  · exact List.prefix_rfl

theorem State.take_out_sendCtl (s : State) (p : Nat) (c : Ctl) :
    (s.sendCtl p c).out.take (s.out.length + 1) = s.out ++ [.ctl p c] := by
  simpa using (List.prefix_iff_eq_take.mp (s.sendCtl_out_prefix p c)).symm

/-! ## When a flit is ready and a SEAL is due -/

section
variable {s : State} {p : Nat}

theorem State.flitReady_of_storeFull (hcur : (s.link p).cur.flits = []) (hfull : 512 ≤ (s.link p).store.length) :
    s.flitReady p = none := by
  simp [State.flitReady, hcur, hfull]

theorem State.flitReady_of_room (h : ¬ ((s.link p).cur.flits = [] ∧ 512 ≤ (s.link p).store.length)) :
    s.flitReady p = nextTx (s.flag Reg.exchCtrl Fld.exchCtrlPreempt) (s.link p).txPkts :=
  if_neg (by simpa using h)

theorem State.sealNow_iff : s.sealNow p = true ↔ (s.link p).sealDue = true ∨ (((s.link p).cur.flits ≠ [] ∨ (s.link p).group ≠ [])
    ∧ (s.flitReady p = none ∨ ((s.link p).curRetx = [] ∧ (s.link p).retxQ ≠ []))) := by
  simp [State.sealNow]

/-! ## What is sent, in the order of R119 -/

theorem State.sendNext_of_seal (hseal : s.sealNow p = true) : s.sendNext p = (s.setLink p (s.link p).close).sendSeal p :=
  if_pos hseal

theorem State.sendNext_of_nak (hseal : s.sealNow p = false) (hnak : (s.link p).nakDue ≠ []) : s.sendNext p = s.sendNak p := by
  simp [State.sendNext, hseal, hnak]

theorem State.sendNext_of_replay {n : Nat} (hseal : s.sealNow p = false) (hnak : (s.link p).nakDue = [])
    (hreplay : (s.link p).replayDue = some n) : s.sendNext p = s.sendReplay p n := by
  simp [State.sendNext, hseal, hnak, hreplay]

theorem State.sendNext_of_retx {f : Frame} {l : List Frame} (hseal : s.sealNow p = false) (hnak : (s.link p).nakDue = [])
    (hreplay : (s.link p).replayDue = none) (hretx : (s.link p).retxQ = f :: l) :
    s.sendNext p = (s.sendRetx p f).takePosition p := by
  simp [State.sendNext, hseal, hnak, hreplay, hretx]

theorem State.sendNext_of_credit (hseal : s.sealNow p = false) (hnak : (s.link p).nakDue = [])
    (hreplay : (s.link p).replayDue = none) (hretx : (s.link p).retxQ = [])
    (hcredit : (s.link p).creditDue = true ∨ 64 ≤ (s.link p).freedFlits) : s.sendNext p = s.sendCredit p := by
  simp [State.sendNext, hseal, hnak, hreplay, hretx, hcredit]

theorem State.sendNext_of_flit {x : TxPkt} (hseal : s.sealNow p = false) (hnak : (s.link p).nakDue = [])
    (hreplay : (s.link p).replayDue = none) (hretx : (s.link p).retxQ = []) (hcredit : (s.link p).creditDue = false)
    (hfreed : (s.link p).freedFlits < 64) (hflit : s.flitReady p = some x) : s.sendNext p = (s.sendFlit p x).takePosition p := by
  simp [State.sendNext, hseal, hnak, hreplay, hretx, hcredit, hfreed.not_ge, hflit]

theorem State.sendNext_of_noFlit (hseal : s.sealNow p = false) (hnak : (s.link p).nakDue = [])
    (hreplay : (s.link p).replayDue = none) (hretx : (s.link p).retxQ = []) (hcredit : (s.link p).creditDue = false)
    (hfreed : (s.link p).freedFlits < 64) (hflit : s.flitReady p = none) :
    s.sendNext p = if (s.link p).kaDue then s.sendKeepalive p else s.sendCtl p .idle := by
  simp [State.sendNext, hseal, hnak, hreplay, hretx, hcredit, hfreed.not_ge, hflit]

/-! ## Who has the block position -/

theorem doBlockPosition_of_noMission (hm : s.mission p = false) : doBlockPosition p s = s := by
  simp [doBlockPosition, hm]

theorem doBlockPosition_of_notUp (hm : s.mission p = true) (hup : s.linkRuns p = false ∨ s.lstate p ≠ 2) :
    doBlockPosition p s = s.sendCtl p .idle := by
  simp [doBlockPosition, hm, hup]

theorem doBlockPosition_of_half (hm : s.mission p = true) (hr : s.linkRuns p = true) (hl : s.lstate p = 2)
    (hh : (s.link p).half = true) : doBlockPosition p s = s.setLink p { (s.link p) with half := false } := by
  simp [doBlockPosition, hm, hr, hl, hh]

theorem doBlockPosition_of_free (hm : s.mission p = true) (hr : s.linkRuns p = true) (hl : s.lstate p = 2)
    (hh : (s.link p).half = false) : doBlockPosition p s = s.sendNext p := by
  simp [doBlockPosition, hm, hr, hl, hh]

end

/-- Settles O18: each case of R119 is the lemma of that case about `State.sendNext`. -/
theorem blockPositionOrder : Obligations.BlockPositionOrder := by
  unfold Obligations.BlockPositionOrder
  intro s p hpow
  have does {t : State} (h : doBlockPosition p s = t) : Does (.blockPosition p) s t := does_of hpow (exec_blockPosition p s) h
  refine ⟨fun hm => does (doBlockPosition_of_noMission hm), fun hm hup => does (doBlockPosition_of_notUp hm hup),
    fun hm hr hl hh => does (doBlockPosition_of_half hm hr hl hh), fun hm hr hl hh => ?_, State.sealNow_iff,
    State.flitReady_of_storeFull, State.flitReady_of_room, s.take_out_sendCtl p⟩
  have sends {t : State} (h : s.sendNext p = t) : Does (.blockPosition p) s t :=
    does ((doBlockPosition_of_free hm hr hl hh).trans h)
  refine ⟨fun hseal => sends (State.sendNext_of_seal hseal), fun hseal hnak => sends (State.sendNext_of_nak hseal hnak),
    fun hseal hnak n hrep => sends (State.sendNext_of_replay hseal hnak hrep), fun hseal hnak hrep =>
    ⟨fun f l hretx => sends (State.sendNext_of_retx hseal hnak hrep hretx),
      fun hretx hcredit => sends (State.sendNext_of_credit hseal hnak hrep hretx hcredit), fun hretx hcredit hfreed =>
      ⟨fun x hflit => sends (State.sendNext_of_flit hseal hnak hrep hretx hcredit hfreed hflit),
        fun hflit => sends (State.sendNext_of_noFlit hseal hnak hrep hretx hcredit hfreed hflit)⟩⟩⟩

end Sys2Proof.Machine
end

section
/-! Why `CoherenceAnswers` fails: the `line` of a write of COH.DIR_SEL is not stored. As for `RegisterWrites`, `State.writeReg` hands
`State.bwRestart` its two states in the wrong order and goes on from the registers before the write, so that `go` reads the entry of the line
that the register held before, where R488 has it show the entry of the line written. -/

namespace Sys2Proof.Machine

/-- What the device is (INERT to ENABLED) stands in its registers. -/
theorem State.bwRestart_structured (old s : State) : (old.bwRestart s).structured = s.structured := by
  have himg : (old.bwRestart s).imgState = s.imgState :=
    congrArg (fun w : Nat → Word => Fld.imgStatusState.get (w Reg.imgStatus)) (old.bwRestart_word s)
  rw [State.structured, State.structured, himg]

/-! ## A write of COH.DIR_SEL -/

theorem regAt_dirSel : regAt Reg.dirSel = some (RegD.dirSel, 0, 0) := by
  decide +kernel

/-- A 64-bit write of DIR_SEL. -/
def dirSelWrite (v : Word) : RegWr := ⟨RegD.dirSel, 0, 0, Reg.dirSel, Reg.dirSel, v, BitVec.allOnes 64⟩

theorem State.writeAt_dirSel (s : State) (v : Word) (hs : s.structured = true) :
    s.writeAt Reg.dirSel 8 v = s.writeReg (dirSelWrite v) := by
  have hok : accessOk Reg.dirSel 8 = true := by decide
  have hw : inWindows Reg.dirSel = false := by decide
  have ha : Reg.dirSel / 8 * 8 = Reg.dirSel := by decide
  simp [State.writeAt, hok, hw, hs, ha, regAt_dirSel, dirSelWrite]

/-- No rule of its own governs a write of DIR_SEL: its action finds what `bwRestart` makes of the stored write and the state before it. -/
theorem State.writeReg_dirSel (s : State) (v : Word) :
    s.writeReg (dirSelWrite v) = ((s.storeWr (dirSelWrite v)).bwRestart s).actHigh (dirSelWrite v) := by
  have hdiscards : s.discards (dirSelWrite v) = none := rfl
  have hlow : s.ownLow (dirSelWrite v) = none := rfl
  have hhigh : s.ownHigh (dirSelWrite v) = none := rfl
  have hkept : s.kept (dirSelWrite v) = dirSelWrite v := rfl
  have hmgr : s.keepMgr (dirSelWrite v) = (dirSelWrite v, s) := rfl
  have hshaped : ¬ ((dirSelWrite v).d.base = RegD.shaperCfg.base ∨ (dirSelWrite v).d.base = RegD.meterRate.base) := by
    change ¬ (RegD.dirSel.base = _ ∨ RegD.dirSel.base = _)
    decide
  have hblock : ¬ (dirSelWrite v).a < 0xA00000 := by
    change ¬ Reg.dirSel < _
    decide
  simp only [State.writeReg, hdiscards, hlow, hhigh, hkept, hmgr, if_neg hshaped, if_neg hblock]

theorem State.actHigh_dirSel (s : State) (v : Word) (hgo : Fld.dirSelGo.get v ≠ 0) :
    s.actHigh (dirSelWrite v) = doDirRead (s.get Reg.dirSel Fld.dirSelLine) s := by
  have hon : (dirSelWrite v).on Fld.dirSelGo = true := by
    rwa [RegWr.on, RegWr.hit, dirSelWrite, BitVec.and_allOnes, bne_iff_ne]
  exact if_pos hon

/-! ## What the window shows after it -/

/-- `go` for a line leaves that line in DIR_SEL. -/
theorem doDirRead_line (s : State) (line : Nat) (hs : s.structured = true) :
    (doDirRead line s).get Reg.dirSel Fld.dirSelLine = line % 2 ^ 31 := by
  have hfits : Fld.dirSelLine.fits := by decide
  have h0 : Reg.dirSel ≠ Reg.dirData 0 := by decide
  have h1 : Reg.dirSel ≠ Reg.dirData 1 := by decide
  rw [doDirRead, State.ifStructured, if_pos hs]
  simp only [State.get, State.word_setWord_other _ _ _ _ h1, State.word_setWord_other _ _ _ _ h0]
  exact State.get_put s Reg.dirSel Fld.dirSelLine line hfits

/-- A write of DIR_SEL with `go` leaves `line` as it was, whatever line is written. -/
theorem State.writeAt_dirSel_line (s : State) (v : Word) (hs : s.structured = true) (hgo : Fld.dirSelGo.get v ≠ 0) :
    (s.writeAt Reg.dirSel 8 v).get Reg.dirSel Fld.dirSelLine = s.get Reg.dirSel Fld.dirSelLine := by
  rw [State.writeAt_dirSel s v hs, State.writeReg_dirSel, State.actHigh_dirSel _ v hgo,
    doDirRead_line _ _ ((State.bwRestart_structured _ s).trans hs), State.get, State.bwRestart_word]
  exact Nat.mod_mod _ _

/-! ## The refutation -/

/-- Refutes O52: on the device in STRUCTURED, whose DIR_SEL names line 0, a write of DIR_SEL with `go` and line 1 leaves line 0 there. -/
theorem not_coherenceAnswers : ¬ Obligations.CoherenceAnswers := by
  unfold Obligations.CoherenceAnswers
  intro h
  let s := State.reset.put Reg.imgStatus Fld.imgStatusState 2
  have hpow : s.powered = true := by decide
  have hstr : s.structured = true := by decide +kernel
  have hline : s.get Reg.dirSel Fld.dirSelLine = 0 := by decide +kernel
  have hgo : Fld.dirSelGo.get (BitVec.ofNat 64 (1 % 2 ^ 31 + 2 ^ 31)) ≠ 0 := by decide
  obtain ⟨-, -, -, -, -, ⟨-, -, -, -, -, -, hwindow⟩, -⟩ := h s (.core 0) (.core 0) 1 hpow
  have hshown : (s.writeAt Reg.dirSel 8 (BitVec.ofNat 64 (1 % 2 ^ 31 + 2 ^ 31))).get Reg.dirSel Fld.dirSelLine = 1 % 2 ^ 31 :=
    (hwindow hstr _ rfl).1
  rw [State.writeAt_dirSel_line s _ hstr hgo, hline] at hshown
  exact absurd hshown (by decide)

end Sys2Proof.Machine
end

section
/-! How the outputs follow the state (R553). What `State.anySev` counts in the listed registers is what the SRC_STAT registers read, since one
that is not listed reads 0. Every command ends in one of the four forms of `Ops.lean`, each of which drives the outputs at its end, and every
form but those of a reset keeps the Bay latch. -/

namespace Sys2Proof.Machine

/-! ## The register at the address of a SRC_STAT -/

/-- An offset is what its index of a stride and its rest within it make up; a stride of 0 has the one index 0. -/
theorem stride_split (o n : Nat) : o = (if n = 0 then 0 else o / n) * n + (if n = 0 then o else o % n) := by
  split
  · rw [Nat.zero_mul, Nat.zero_add]
  · exact (Nat.div_add_mod' o n).symm

/-- A register of a family stands at the place of its indices. -/
theorem RegDesc.eq_of_at?_eq_some {d : RegDesc} {a i j : Nat} (h : d.at? a = some (i, j)) :
    a = d.base + i * d.s1 + j * d.s2 ∧ i < d.n1 ∧ j < d.n2 := by
  simp only [RegDesc.at?, Option.ite_none_left_eq_some, Option.ite_none_right_eq_some, Option.some.injEq, Prod.mk.injEq] at h
  obtain ⟨hbase, ⟨hrest, hi, hj⟩, rfl, rfl⟩ := h
  refine ⟨?_, hi, hj⟩
  have hfirst := stride_split (a - d.base) d.s1
  have hsecond := stride_split (if d.s1 = 0 then a - d.base else (a - d.base) % d.s1) d.s2
  rw [hrest, Nat.add_zero] at hsecond
  omega

/-- The register at an address is the first of the table that has a place there. -/
theorem regAt_of_split {a i j : Nat} {d : RegDesc} {l r : List RegDesc} (htable : regTable = l ++ d :: r)
    (hbefore : ∀ e ∈ l, e.at? a = none) (hd : d.at? a = some (i, j)) : regAt a = some (d, i, j) := by
  have hnone : l.findSome? (fun e => (e.at? a).map (fun ij => (e, ij.1, ij.2))) = none :=
    List.findSome?_eq_none_iff.mpr (fun e he => by rw [hbefore e he, Option.map_none])
  rw [regAt, htable, List.findSome?_append, hnone, Option.none_or, List.findSome?_cons, hd, Option.map_some]

/-- The family ends below the first SRC_STAT, or shares the sources' stride of 0x40 at another place in it. -/
def RegDesc.clearOfSrcStat (d : RegDesc) : Bool :=
  decide (d.base + (d.n1 - 1) * d.s1 + (d.n2 - 1) * d.s2 < Reg.srcStat 0) || decide (d.s1 = 0x40 ∧ d.n2 = 1 ∧ d.base % 0x40 ≠ 0x18)

theorem RegDesc.at?_srcStat_of_clear {d : RegDesc} (h : d.clearOfSrcStat = true) (k : Nat) : d.at? (Reg.srcStat k) = none := by
  rw [Option.eq_none_iff_forall_ne_some]
  rintro ⟨i, j⟩ hat
  obtain ⟨hplace, hi, hj⟩ := RegDesc.eq_of_at?_eq_some hat
  rw [RegDesc.clearOfSrcStat, Bool.or_eq_true, decide_eq_true_eq, decide_eq_true_eq] at h
  simp only [Reg.srcStat] at h hplace
  obtain hbelow | ⟨hstride, hone, hoff⟩ := h
  · have hi' : i * d.s1 ≤ (d.n1 - 1) * d.s1 := Nat.mul_le_mul_right _ (by omega)
    have hj' : j * d.s2 ≤ (d.n2 - 1) * d.s2 := Nat.mul_le_mul_right _ (by omega)
    omega
  · obtain rfl : j = 0 := by omega
    rw [hstride] at hplace
    omega

theorem regAt_srcStat (k : Fin 640) : regAt (Reg.srcStat k) = some (RegD.srcStat, k.val, 0) := by
  have hclear : ∀ d ∈ regTable.take 40, d.clearOfSrcStat = true := by decide +kernel
  refine regAt_of_split (l := regTable.take 40) (r := regTable.drop 41) rfl
    (fun d hd => RegDesc.at?_srcStat_of_clear (hclear d hd) k) ?_
  simp [RegDesc.at?, RegD.srcStat, Reg.srcStat]

/-! ## A source's `sev` -/

theorem resetWord_srcStat (k : Fin 640) : resetWord (Reg.srcStat k) = 0 := by
  rw [resetWord, regAt_srcStat]
  simp only [RegD.srcStat, List.foldl, FieldDesc.reset]
  decide

/-- A SRC_STAT that is not listed reads 0. -/
theorem State.word_srcStat (s : State) (k : Fin 640) : s.word (Reg.srcStat k) = Table.getD s.regs 0 (Reg.srcStat k) := by
  have hreset : s.resetOf (Reg.srcStat k) = 0 := by
    have hmeter : ¬ (0x1C00000 ≤ Reg.srcStat k ∧ Reg.srcStat k < 0x1D00000 ∧ Reg.srcStat k % 32 = 0) := by
      have hk := k.isLt
      simp only [Reg.srcStat]
      omega
    rw [State.resetOf]
    split
    · rw [if_neg hmeter, resetWord_srcStat]
    · exact resetWord_srcStat k
  rw [State.word, Table.getD, hreset]
  cases Table.find s.regs (Reg.srcStat k) <;> rfl

/-- The addresses that `State.anySev` looks at. -/
theorem srcStat_address_iff (a : Nat) :
    (0x81018 ≤ a ∧ a < 0x8B018 ∧ (a - 0x81018) % 0x40 = 0) ↔ ∃ k : Fin 640, a = Reg.srcStat k := by
  constructor
  · intro h
    exact ⟨⟨(a - 0x81018) / 0x40, by omega⟩, by simp only [Reg.srcStat]; omega⟩
  · rintro ⟨k, rfl⟩
    have hk := k.isLt
    simp only [Reg.srcStat]
    omega

/-- What a table finds, it lists. -/
theorem Table.mem_of_find {α : Type} {t : Table α} {k : Nat} {v : α} (h : Table.find t k = some v) : (k, v) ∈ t := by
  induction t with
  | nil => cases h
  | cons x t ih =>
    obtain ⟨i, w⟩ := x
    unfold Table.find at h
    split at h
    · next hk =>
      obtain rfl := Option.some.inj h
      exact hk ▸ List.mem_cons_self
    · exact List.mem_cons_of_mem _ (ih h)

theorem State.anySev_iff (s : State) : s.anySev = true ↔ ∃ k : Fin 640, s.get (Reg.srcStat k) Fld.srcStatSev ≠ 0 := by
  simp only [State.anySev, List.any_eq_true, Bool.and_eq_true, decide_eq_true_eq, bne_iff_ne, srcStat_address_iff, State.get,
    State.word_srcStat]
  constructor
  · rintro ⟨e, -, ⟨k, hk⟩, hsev⟩
    exact ⟨k, hk ▸ hsev⟩
  · rintro ⟨k, hsev⟩
    cases hfind : Table.find s.regs (Reg.srcStat k) with
    | none =>
      rw [Table.getD, hfind] at hsev
      exact absurd rfl hsev
    | some w => exact ⟨_, Table.mem_of_find hfind, ⟨k, rfl⟩, hsev⟩

/-! ## Every command ends with the outputs driven -/

section
variable {c : Instr} {s t : State}

theorem exec_form_of_writesFlash (s : State) (hf : c.writesFlash = true) : ∃ f, exec c s = actFlash s f := by
  unfold Instr.writesFlash at hf
  split at hf
  · exact ⟨_, exec_flashWrite _ _ s⟩
  · exact ⟨_, exec_flashErase _ s⟩
  · cases hf

/-- A command that is no reset keeps the Bay latch, and lets the outputs follow. -/
theorem exec_keeps_safe_of_noReset (hc : c.mayReset = false) (h : exec c s = .next t) :
    (s.safe = true → t.safe = true) ∧ (s.pinsFollow → t.pinsFollow) := by
  cases hf : c.writesFlash with
  | false =>
    obtain ⟨f, hform⟩ := exec_form s c hc hf
    obtain ⟨-, -, -, hsafe, hpins⟩ := act_keeps s t f (hform ▸ h)
    exact ⟨hsafe, hpins⟩
  | true =>
    obtain ⟨f, hform⟩ := exec_form_of_writesFlash s hf
    obtain ⟨-, -, hsafe, hpins⟩ := actFlash_keeps s t f (hform ▸ h)
    exact ⟨hsafe, hpins⟩

theorem actReset_pinsFollow {f : State → State} (hs : s.pinsFollow) (h : actReset s f = .next t) : t.pinsFollow := by
  obtain ⟨-, -, -, hpins⟩ := actReset_keeps s t f h
  exact hpins hs

/-- Power-on brings VSB back, so the outputs are driven whatever they were; any other cold reset ends as the other resets do. -/
theorem execColdReset_pinsFollow {cause : ColdCause} {x : Straps} (hs : s.pinsFollow) (h : execColdReset cause x s = .next t) :
    t.pinsFollow := by
  unfold execColdReset at h
  split at h
  · rw [actReset_powered _ _ rfl] at h
    obtain rfl := Host.Outcome.next.inj h
    rfl
  · exact actReset_pinsFollow hs h

theorem exec_pinsFollow_of_mayReset (hc : c.mayReset = true) (hs : s.pinsFollow) (h : exec c s = .next t) : t.pinsFollow := by
  unfold Instr.mayReset at hc
  split at hc
  case h_1 => exact execColdReset_pinsFollow hs (exec_coldReset .. ▸ h)
  case h_2 => exact actReset_pinsFollow hs (exec_warmReset .. ▸ h)
  case h_3 => exact actReset_pinsFollow hs (exec_bayResetWarm .. ▸ h)
  case h_4 => exact actReset_pinsFollow hs (exec_bayResetCold .. ▸ h)
  case h_5 => exact actReset_pinsFollow hs (exec_sidebandReset .. ▸ h)
  case h_6 => exact actReset_pinsFollow hs (exec_registerWrite .. ▸ h)
  case h_7 => exact actReset_pinsFollow hs (exec_writeReg .. ▸ h)
  case h_8 =>
    obtain ⟨-, -, hpins⟩ := actFuse_keeps s t _ (exec_fuseEnd .. ▸ h)
    exact hpins hs
  case h_9 => cases hc

theorem exec_pinsFollow (hs : s.pinsFollow) (h : exec c s = .next t) : t.pinsFollow := by
  cases hc : c.mayReset with
  | false => exact (exec_keeps_safe_of_noReset hc h).2 hs
  | true => exact exec_pinsFollow_of_mayReset hc hs h

/-- An idle step ends as a command does; taking a command off the queue leaves the outputs and what they follow. -/
theorem step_pinsFollow (hs : s.pinsFollow) (h : step s = .next t) : t.pinsFollow := by
  unfold step at h
  split at h
  · obtain ⟨-, -, -, -, hpins⟩ := act_keeps s t State.idle h
    exact hpins hs
  · next c rest _ => exact exec_pinsFollow (s := { s with pending := rest }) hs h

theorem State.safeOut_eq_of_pinsFollow (hs : s.pinsFollow) : s.pins.safeOut = (s.powered && s.safe) :=
  congrArg Pins.safeOut hs

/-- SAFE_OUT# stays asserted after a command that is no reset, as long as VSB is there. -/
theorem exec_keeps_safeOut (hc : c.mayReset = false) (hs : s.pinsFollow) (hout : s.pins.safeOut = true) (h : exec c s = .next t)
    (ht : t.powered = true) : t.pins.safeOut = true := by
  rw [State.safeOut_eq_of_pinsFollow hs, Bool.and_eq_true] at hout
  obtain ⟨-, hsafe⟩ := hout
  obtain ⟨hkeeps, hpins⟩ := exec_keeps_safe_of_noReset hc h
  rw [State.safeOut_eq_of_pinsFollow (hpins hs), ht, hkeeps hsafe, Bool.and_self]

end

/-- Settles O6: the registers that `State.anySev` reads are the SRC_STAT registers, every command ends by driving the outputs, and only the
forms of a reset clear the Bay latch. -/
theorem outputsFollow : Obligations.OutputsFollow := by
  unfold Obligations.OutputsFollow
  exact ⟨fun _ => Iff.rfl, State.anySev_iff, fun _ _ => step_pinsFollow, fun _ _ _ => exec_keeps_safeOut⟩

end Sys2Proof.Machine
end

section
/-! What every command does alike: it completes and leaves the queue, it does nothing without VSB, and it keeps the fuses, the flash and the
safe state unless it is of the form that may change them. -/

namespace Sys2Proof.Machine

/-! ## The forms of the commands that may reset the device -/

/-- A command of one of the three reset-like forms; a cold reset at power-on powers the device first. -/
theorem exec_form_of_mayReset {c : Instr} (s : State) (hc : c.mayReset = true) :
    (∃ f, exec c s = actReset s f) ∨ (∃ f, exec c s = actReset { s with powered := true } f) ∨ ∃ b, c = .fuseEnd b := by
  unfold Instr.mayReset at hc
  split at hc
  case h_1 cause x =>
    rw [exec_coldReset, execColdReset]
    split
    · exact .inr (.inl ⟨_, rfl⟩)
    · exact .inl ⟨_, rfl⟩
  case h_2 => exact .inl ⟨_, exec_warmReset ..⟩
  case h_3 => exact .inl ⟨_, exec_bayResetWarm ..⟩
  case h_4 => exact .inl ⟨_, exec_bayResetCold ..⟩
  case h_5 => exact .inl ⟨_, exec_sidebandReset ..⟩
  case h_6 => exact .inl ⟨_, exec_registerWrite ..⟩
  case h_7 => exact .inl ⟨_, exec_writeReg ..⟩
  case h_8 b => exact .inr (.inr ⟨b, rfl⟩)
  case h_9 => cases hc

/-- Every command but the end of fuse programming keeps the queue and the fuses. -/
theorem exec_keeps_fuse {c : Instr} {s t : State} (hc : ∀ b, c ≠ .fuseEnd b) (h : exec c s = .next t) :
    t.pending = s.pending ∧ t.fuse = s.fuse := by
  cases hr : c.mayReset with
  | true =>
    obtain ⟨f, hf⟩ | ⟨f, hf⟩ | ⟨b, hb⟩ := exec_form_of_mayReset s hr
    · obtain ⟨hp, hfuse, -⟩ := actReset_keeps s t f (hf ▸ h)
      exact ⟨hp, hfuse⟩
    · obtain ⟨hp, hfuse, -⟩ := actReset_keeps _ t f (hf ▸ h)
      exact ⟨hp, hfuse⟩
    · exact absurd hb (hc b)
  | false =>
    cases hw : c.writesFlash with
    | false =>
      obtain ⟨f, hf⟩ := exec_form s c hr hw
      obtain ⟨hp, hfuse, -⟩ := act_keeps s t f (hf ▸ h)
      exact ⟨hp, hfuse⟩
    | true =>
      obtain ⟨f, hf⟩ := exec_form_of_writesFlash s hw
      obtain ⟨hp, hfuse, -⟩ := actFlash_keeps s t f (hf ▸ h)
      exact ⟨hp, hfuse⟩

/-- Every command but a flash command keeps the flash. -/
theorem exec_keeps_flash {c : Instr} {s t : State} (hw : c.writesFlash = false) (h : exec c s = .next t) :
    t.img.flash = s.img.flash := by
  cases hr : c.mayReset with
  | false =>
    obtain ⟨f, hf⟩ := exec_form s c hr hw
    obtain ⟨-, -, hflash, -⟩ := act_keeps s t f (hf ▸ h)
    exact hflash
  | true =>
    obtain ⟨f, hf⟩ | ⟨f, hf⟩ | ⟨b, rfl⟩ := exec_form_of_mayReset s hr
    · obtain ⟨-, -, hflash, -⟩ := actReset_keeps s t f (hf ▸ h)
      exact hflash
    · obtain ⟨-, -, hflash, -⟩ := actReset_keeps _ t f (hf ▸ h)
      exact hflash
    · obtain ⟨-, hflash, -⟩ := actFuse_keeps s t _ (exec_fuseEnd .. ▸ h)
      exact hflash

/-! ## Completion -/

theorem exec_pending {c : Instr} {s t : State} (h : exec c s = .next t) : t.pending = s.pending := by
  by_cases hc : ∃ b, c = .fuseEnd b
  · obtain ⟨b, rfl⟩ := hc
    exact (actFuse_keeps s t _ (exec_fuseEnd .. ▸ h)).1
  · exact (exec_keeps_fuse (fun b hb => hc ⟨b, hb⟩) h).1

theorem exec_completes (c : Instr) (s : State) : ∃ t, exec c s = .next t := by
  cases hr : c.mayReset with
  | true =>
    obtain ⟨f, hf⟩ | ⟨f, hf⟩ | ⟨b, rfl⟩ := exec_form_of_mayReset s hr
    · exact ⟨_, hf⟩
    · exact ⟨_, hf⟩
    · exact ⟨_, exec_fuseEnd b s⟩
  | false =>
    cases hw : c.writesFlash with
    | false =>
      obtain ⟨f, hf⟩ := exec_form s c hr hw
      exact ⟨_, hf⟩
    | true =>
      obtain ⟨f, hf⟩ := exec_form_of_writesFlash s hw
      exact ⟨_, hf⟩

/-- Settles O1. -/
theorem stepTakesFront : Obligations.StepTakesFront := by
  unfold Obligations.StepTakesFront
  intro c s
  rfl

/-- Settles O3: each of the four forms in which a command ends answers a next state with the queue of the state before. -/
theorem everyCommandCompletes : Obligations.EveryCommandCompletes := by
  unfold Obligations.EveryCommandCompletes
  intro c s
  obtain ⟨t, h⟩ := exec_completes c s
  exact ⟨t, h, exec_pending h⟩

/-! ## An idle step -/

/-- Counting an event leaves what waits, what was sent and the time. -/
theorem State.count_queue_out_now (s : State) (e : Evt) :
    (s.count e).pending = s.pending ∧ (s.count e).out = s.out ∧ (s.count e).now = s.now :=
  State.count_keeps (fun t => t.pending = s.pending ∧ t.out = s.out ∧ t.now = s.now) e s ⟨rfl, rfl, rfl⟩
    (fun _ _ _ _ h => h)

/-- Counting an event leaves every register but those of the counters. -/
theorem State.count_word (s : State) (e : Evt) {a : Nat} (ha : a < 0x101000 ∨ 0x109000 ≤ a) : (s.count e).word a = s.word a := by
  refine State.count_keeps (fun t => t.word a = s.word a) e s rfl ?_
  intro t b w hb ht
  refine (State.word_setWord_other t b a w ?_).trans ht
  simp only [countReg] at hb
  omega

theorem step_of_empty {s : State} (hq : s.pending = []) : step s = act s State.idle := by
  rw [step, hq]

/-- Settles O2. -/
theorem idleStep : Obligations.IdleStep := by
  unfold Obligations.IdleStep
  intro s hq
  rw [step_of_empty hq]
  refine ⟨fun hoff => by simp [act, hoff], fun hpow m l hnet => ?_, fun hpow hnet => ?_⟩
  · rw [exec_codedMessage, execCodedMessage, act_powered _ _ hpow, act_powered _ _ hpow, State.idle, hnet]
  · have hidle : s.idle = ({ s with now := s.now + 5 } : State).count ⟨0x001, none, none, none, none, none, 5⟩ := by
      rw [State.idle, hnet]
    obtain ⟨-, hout, hnow⟩ := ({ s with now := s.now + 5 } : State).count_queue_out_now ⟨0x001, none, none, none, none, none, 5⟩
    refine ⟨_, act_powered _ _ hpow, ?_, ?_, hq, fun a ha => ?_⟩
    · rw [State.finish_now, hidle, hnow]
    · rw [State.finish_out, hidle, hout]
    · rw [State.finish_word, hidle, State.count_word _ _ ha]
      rfl

/-! ## A device without VSB -/

section
variable {s : State}

theorem act_unpowered (f : State → State) (h : s.powered = false) : act s f = .next s := by simp [act, h]
theorem actReset_unpowered (f : State → State) (h : s.powered = false) : actReset s f = .next s := by simp [actReset, h]
theorem actFuse_unpowered (f : State → State) (h : s.powered = false) : actFuse s f = .next s := by simp [actFuse, h]
theorem actFlash_unpowered (f : State → State) (h : s.powered = false) : actFlash s f = .next s := by simp [actFlash, h]

/-- The reset-like commands but power-on do not power the device. -/
theorem exec_mayReset_unpowered {c : Instr} (hc : c.mayReset = true) (hon : ∀ x, c ≠ .coldReset .powerOn x) (h : s.powered = false) :
    exec c s = .next s := by
  unfold Instr.mayReset at hc
  split at hc
  case h_1 cause x =>
    have hcause : cause ≠ .powerOn := fun e => hon x (by rw [e])
    rw [exec_coldReset, execColdReset, if_neg hcause, actReset_unpowered _ h]
  case h_2 => exact actReset_unpowered _ h
  case h_3 => exact actReset_unpowered _ h
  case h_4 => exact actReset_unpowered _ h
  case h_5 => exact actReset_unpowered _ h
  case h_6 => exact actReset_unpowered _ h
  case h_7 => exact actReset_unpowered _ h
  case h_8 => exact actFuse_unpowered _ h
  case h_9 => cases hc

theorem exec_unpowered {c : Instr} (hon : ∀ x, c ≠ .coldReset .powerOn x) (h : s.powered = false) : exec c s = .next s := by
  cases hr : c.mayReset with
  | true => exact exec_mayReset_unpowered hr hon h
  | false =>
    cases hw : c.writesFlash with
    | false =>
      obtain ⟨f, hf⟩ := exec_form s c hr hw
      exact hf.trans (act_unpowered f h)
    | true =>
      obtain ⟨f, hf⟩ := exec_form_of_writesFlash s hw
      exact hf.trans (actFlash_unpowered f h)

end
end Sys2Proof.Machine
end

section
/-! What the shared operations that a command ends in change (posting a message, raising a PF0 event, beginning and ending an image command),
and what the resets do (R551, R552). -/

namespace Sys2Proof.Machine

/-! ## The frames of shared operations -/

/-- Raising a PF0 event changes registers, the emulated interrupt line and the outbox alone. -/
theorem State.raiseEvent_frame (s : State) {v : Nat} (hv : v < 64) :
    ∃ r h o, s.raiseEvent v = { s with regs := r, hosts := h, out := o } := by
  refine State.raiseEvent_keeps (fun t => ∃ r h o, t = { s with regs := r, hosts := h, out := o }) v s hv ⟨_, _, _, rfl⟩ ?_ ?_ ?_
  · rintro _ a w - ⟨r, h, o, rfl⟩
    exact ⟨_, _, _, rfl⟩
  · rintro _ n x ⟨r, h, o, rfl⟩
    exact ⟨_, _, _, rfl⟩
  · rintro _ x ⟨r, h, o, rfl⟩
    exact ⟨_, _, _, rfl⟩

/-- The free value that a message carries, and the message on its way to Chervil, are all that posting it changes. -/
theorem State.postFree_frame (s : State) (src kind cls : Nat) :
    ∃ n, s.postFree src kind cls = { s with freeCtr := s.freeCtr + 1, flt := { s.flt with net := n } } := by
  unfold State.postFree State.post
  dsimp only [State.fresh]
  split
  · exact ⟨_, rfl⟩
  · exact ⟨_, rfl⟩

/-! ## The end of an image command -/

/-- What the end of an image command shows in IMAGE.STATUS, before it raises its event. -/
def State.imgShown (s : State) (n : Nat) : State :=
  let s := (s.put Reg.imgStatus Fld.imgStatusDone (b2n (n == 0))).put Reg.imgStatus Fld.imgStatusFail (b2n (n != 0))
  if n = 0 then s else s.put Reg.imgStatus Fld.imgStatusError n

section
variable (s : State) (n : Nat)

theorem State.imgEnd_eq : s.imgEnd n = (s.imgShown n).raiseEvent 0 := rfl

theorem State.imgShown_frame : ∃ r, s.imgShown n = { s with regs := r } := by
  unfold State.imgShown
  dsimp only
  split
  · exact ⟨_, rfl⟩
  · exact ⟨_, rfl⟩

/-- The end of an image command changes registers, the emulated interrupt line and the outbox alone. -/
theorem State.imgEnd_frame : ∃ r h o, s.imgEnd n = { s with regs := r, hosts := h, out := o } := by
  obtain ⟨r, hshown⟩ := s.imgShown_frame n
  obtain ⟨r, h, o, hraised⟩ := (s.imgShown n).raiseEvent_frame (v := 0) (by decide)
  exact ⟨r, h, o, by rw [State.imgEnd_eq, hraised, hshown]⟩

theorem State.imgShown_word {a : Nat} (ha : a ≠ Reg.imgStatus) : (s.imgShown n).word a = s.word a := by
  unfold State.imgShown
  dsimp only
  split <;> simp only [State.word_put_other _ _ _ _ _ ha]

/-- Of the registers below the counters an image command's end writes IMAGE.STATUS alone. -/
theorem State.imgEnd_word {a : Nat} (ha : a ≠ Reg.imgStatus) (hlow : a < 0x101000) : (s.imgEnd n).word a = s.word a := by
  rw [State.imgEnd_eq, State.raiseEvent_word _ _ _ (by decide) (.inl hlow), State.imgShown_word s n ha]

theorem State.imgEnd_get_imgStatus (f : Field) : (s.imgEnd n).get Reg.imgStatus f = (s.imgShown n).get Reg.imgStatus f := by
  rw [State.imgEnd_eq, State.get, State.raiseEvent_word _ _ _ (by decide) (.inl (by decide))]
  rfl

/-- The other fields of IMAGE.STATUS stay. -/
theorem State.imgEnd_get_apart {f : Field} (hd : f.apart Fld.imgStatusDone = true) (hf : f.apart Fld.imgStatusFail = true)
    (he : f.apart Fld.imgStatusError = true) : (s.imgEnd n).get Reg.imgStatus f = s.get Reg.imgStatus f := by
  have fits : Fld.imgStatusDone.fits = true ∧ Fld.imgStatusFail.fits = true ∧ Fld.imgStatusError.fits = true := by decide
  obtain ⟨fd, ff, fe⟩ := fits
  rw [State.imgEnd_get_imgStatus, State.imgShown]
  split <;> simp only [State.get_put_apart _ _ _ _ _ fd hd, State.get_put_apart _ _ _ _ _ ff hf, State.get_put_apart _ _ _ _ _ fe he]

theorem State.imgEnd_imgState : (s.imgEnd n).imgState = s.imgState := s.imgEnd_get_apart n (by decide) (by decide) (by decide)

theorem State.imgEnd_imgBusy : (s.imgEnd n).imgBusy = s.imgBusy :=
  congrArg (· != 0) (s.imgEnd_get_apart n (f := Fld.imgStatusBusy) (by decide) (by decide) (by decide))

theorem State.imgEnd_done : (s.imgEnd n).flag Reg.imgStatus Fld.imgStatusDone = (n == 0) := by
  rw [State.flag, State.imgEnd_get_imgStatus, State.imgShown]
  split
  · next h => subst h; simp (disch := decide) [State.get_put, State.get_put_apart, b2n, Fld.imgStatusDone]
  · next h => simp (disch := decide) [State.get_put, State.get_put_apart, b2n, h]

theorem State.imgEnd_fail : (s.imgEnd n).flag Reg.imgStatus Fld.imgStatusFail = (n != 0) := by
  rw [State.flag, State.imgEnd_get_imgStatus, State.imgShown]
  split
  · next h => subst h; simp (disch := decide) [State.get_put, b2n]
  · next h => simp (disch := decide) [State.get_put, State.get_put_apart, b2n, h, Fld.imgStatusFail]

theorem State.imgEnd_error (hn : n ≠ 0) :
    (s.imgEnd n).get Reg.imgStatus Fld.imgStatusError = n % 2 ^ Fld.imgStatusError.width := by
  rw [State.imgEnd_get_imgStatus, State.imgShown, if_neg hn, State.get_put _ _ _ _ (by decide)]

end

/-! ## The reset inputs -/

theorem State.forAll_emit_frame {α : Type} (s : State) (l : List α) (g : α → Out) :
    ∃ o, s.forAll l (fun t k => t.emit (g k)) = { s with out := o } := by
  refine foldl_keeps (fun t : State => ∃ o, t = { s with out := o }) l _ s ⟨s.out, rfl⟩ ?_
  rintro _ k - ⟨o, rfl⟩
  exact ⟨_, rfl⟩

/-- Every port's lanes idle and lose their terminations at a reset; only the outbox shows it. -/
theorem State.portsOff_frame (s : State) : ∃ o, s.portsOff = { s with out := o } := by
  refine foldl_keeps (fun t : State => ∃ o, t = { s with out := o }) _ _ s ⟨s.out, rfl⟩ ?_
  rintro _ p - ⟨o, rfl⟩
  split
  · obtain ⟨o₁, h₁⟩ := ({ s with out := o } : State).forAll_emit_frame (({ s with out := o } : State).portLanes p) Out.laneIdle
    rw [h₁]
    exact State.forAll_emit_frame _ _ _
  · exact ⟨_, rfl⟩

/-- A cold reset before the boot straps act: every field at its reset value, but for what R551 keeps, BAY.STRAP and BAY.RESET. -/
def State.coldBase (s : State) (y : ColdCause) (x : Straps) (o : List Out) : State :=
  (({ State.reset with
    pending := s.pending, out := o, freeCtr := s.freeCtr, fuse := s.fuse
    img := { ImageSt.init with flash := s.img.flash }, xp := { XportSt.init with prevInc := s.xp.prevInc } } : State).setWord
      Reg.strap (strapWord x)).put Reg.bayReset Fld.bayResetLast (coldLast y)

section
variable (s : State) (y : ColdCause) (x : Straps)

/-- A cold reset ends as the boot straps say: with a coded message, with the start of flash boot or its refusal, or at once. -/
theorem State.cold_eq : ∃ o, s.cold y x =
    (if x.boot.val = 3 then (s.coldBase y x o).postFree 634 4 2
      else if x.boot.val = 1 then (if x.testEn then (s.coldBase y x o).imgEnd 9 else (s.coldBase y x o).imgBegin (.fetch false true))
      else s.coldBase y x o) := by
  obtain ⟨o, ho⟩ := s.portsOff_frame
  refine ⟨o, ?_⟩
  unfold State.cold
  rw [ho]
  rfl

/-- What holds after a cold reset: what holds before the boot straps act, and is kept by what they do. -/
theorem State.cold_keeps (P : State → Prop) (base : ∀ o, P (s.coldBase y x o))
    (posted : x.boot.val = 3 → ∀ t n, P t → P { t with freeCtr := t.freeCtr + 1, flt := { t.flt with net := n } })
    (refused : x.boot.val = 1 → x.testEn = true → ∀ t, P t → P (t.imgEnd 9))
    (begun : x.boot.val = 1 → x.testEn = false → ∀ t, P t → P (t.imgBegin (.fetch false true))) : P (s.cold y x) := by
  obtain ⟨o, ho⟩ := s.cold_eq y x
  rw [ho]
  split
  · next h =>
    obtain ⟨n, hn⟩ := (s.coldBase y x o).postFree_frame 634 4 2
    rw [hn]
    exact posted h _ _ (base o)
  · split
    · next h =>
      split
      · next ht => exact refused h ht _ (base o)
      · next ht => exact begun h (by simpa using ht) _ (base o)
    · exact base o

/-- What R551 has a cold reset lose and keep, beside the registers. -/
theorem State.cold_frame : (s.cold y x).safe = false ∧ (s.cold y x).powered = true ∧ (s.cold y x).fuse = s.fuse
    ∧ (s.cold y x).rma = RmaSt.init ∧ (s.cold y x).insts = [] ∧ (s.cold y x).img.staging = [] ∧ (s.cold y x).img.retained = none
    ∧ (s.cold y x).img.verifiedFull = none := by
  refine State.cold_keeps s y x (fun t => t.safe = false ∧ t.powered = true ∧ t.fuse = s.fuse ∧ t.rma = RmaSt.init ∧ t.insts = []
    ∧ t.img.staging = [] ∧ t.img.retained = none ∧ t.img.verifiedFull = none) (fun o => ⟨rfl, rfl, rfl, rfl, rfl, rfl, rfl, rfl⟩)
    (fun _ _ _ h => h) (fun _ _ t h => ?_) (fun _ _ _ h => h)
  obtain ⟨r, k, o, e⟩ := t.imgEnd_frame 9
  rw [e]
  exact h

/-- The registers that no boot strap writes. -/
theorem State.cold_word {a : Nat} (ha : a ≠ Reg.imgStatus) (hlow : a < 0x101000) :
    ∃ o, (s.cold y x).word a = (s.coldBase y x o).word a := by
  refine State.cold_keeps s y x (fun t => ∃ o, t.word a = (s.coldBase y x o).word a) (fun o => ⟨o, rfl⟩)
    (fun _ _ _ h => h) (fun _ _ t h => ?_) (fun _ _ t h => ?_)
  · rwa [State.imgEnd_word t 9 ha hlow]
  · rwa [State.imgBegin, State.word_put_other _ _ _ _ _ ha]

theorem State.cold_strap : (s.cold y x).word Reg.strap = strapWord x := by
  obtain ⟨o, ho⟩ := s.cold_word y x (a := Reg.strap) (by decide) (by decide)
  rw [ho, State.coldBase, State.word_put_other _ _ _ _ _ (by decide), State.word_setWord_same]

theorem State.cold_bayReset : (s.cold y x).get Reg.bayReset Fld.bayResetLast = coldLast y := by
  obtain ⟨o, ho⟩ := s.cold_word y x (a := Reg.bayReset) (by decide) (by decide)
  rw [State.get, ho]
  refine (State.get_put _ _ _ _ (by decide)).trans ?_
  cases y <;> rfl

theorem State.coldBase_word (o : List Out) {a : Nat} (ha : a ≠ Reg.strap) (hb : a ≠ Reg.bayReset) :
    (s.coldBase y x o).word a = resetWord a := by
  rw [State.coldBase, State.word_put_other _ _ _ _ _ hb, State.word_setWord_other _ _ _ _ ha]
  rfl

theorem State.cold_imgState : (s.cold y x).imgState = 0 := by
  refine State.cold_keeps s y x (fun t => t.imgState = 0) (fun o => ?_) (fun _ _ _ h => h)
    (fun _ _ t h => (t.imgEnd_imgState 9).trans h) (fun _ _ t h => ?_)
  · rw [State.imgState, State.get, State.coldBase_word _ _ _ _ (by decide) (by decide)]
    decide +kernel
  · exact (State.get_put_apart _ _ _ _ _ (by decide) (by decide)).trans h

/-- Without flash boot every register but BAY.STRAP and BAY.RESET reads its reset value. -/
theorem State.cold_word_reset (hboot : x.boot.val ≠ 1) {a : Nat} (ha : a ≠ Reg.strap) (hb : a ≠ Reg.bayReset) :
    (s.cold y x).word a = resetWord a :=
  State.cold_keeps s y x (fun t => t.word a = resetWord a) (fun o => s.coldBase_word y x o ha hb) (fun _ _ _ h => h)
    (fun h => absurd h hboot) (fun h => absurd h hboot)

theorem State.cold_boots (hboot : x.boot.val = 1) (htest : x.testEn = false) :
    (s.cold y x).img.op = .fetch false true ∧ (s.cold y x).imgBusy = true := by
  obtain ⟨o, ho⟩ := s.cold_eq y x
  rw [ho, if_neg (by omega), if_pos hboot, if_neg (by simp [htest])]
  refine ⟨rfl, ?_⟩
  simp (disch := decide) [State.imgBusy, State.flag, State.imgBegin, State.get_put, Fld.imgStatusBusy]

end

end Sys2Proof.Machine
end

section
/-! What a warm reset keeps (R552), and the statements about resets, fuses and power. -/

namespace Sys2Proof.Machine

/-! ## Warm reset -/

theorem Table.find_filter_key {α : Type} (t : Table α) (p : Nat → Bool) (a : Nat) :
    Table.find (t.filter (fun e => p e.1)) a = if p a = true then Table.find t a else none := by
  induction t with
  | nil => simp
  | cons e t ih =>
    obtain ⟨k, v⟩ := e
    by_cases ha : a = k
    · subst ha
      cases hk : p a <;> simp [hk, ih, Table.find]
    · cases hk : p k <;> simp [hk, ih, ha, Table.find]

/-- A warm reset before the registers that it sets: every field at its reset value, but for what R552 keeps. -/
def State.warmBase (s : State) (o : List Out) : State :=
  { State.reset with
    pending := s.pending, out := o, freeCtr := s.freeCtr, now := s.now, fuse := s.fuse, fenced := s.fenced
    islands := [(37, s.island 37)], engMap := s.engMap, spareMap := s.spareMap, tileMap := s.tileMap, spareTile := s.spareTile
    regs := s.regs.filter (fun r => warmKeeps r.1), basicHeld := s.basicHeld.filter (fun r => s.heldOn r.1), img := s.warmImage,
    hosts := s.hosts, side := s.side
    xp := { XportSt.init with prevInc := s.xp.prevInc }, rma := { RmaSt.init with hbm := s.rma.hbm }
    flt := { FaultSt.init with
      ownActive := s.flt.ownActive.filter (fun m => decide (628 ≤ m.src.val)), forcedLanes := s.flt.forcedLanes } }

/-- The registers with a lock bit keep their locked fields at a warm reset. -/
def State.warmLocked (s t : State) : State := [0x80000, 0x200000, 0x1200000].foldl (fun t a => s.keepLocked a t) t

theorem State.warm_eq (s : State) (y : WarmCause) : ∃ o u, u = s.keepDegrades (s.warmLocked (s.warmBase o)) ∧ ∃ n,
    s.warm y = ((((((u.put Reg.imgStatus Fld.imgStatusState (min 1 s.imgState)).put Reg.imgStatus Fld.imgStatusSafe 0).put Reg.imgStatus
      Fld.imgStatusBusy n).noteIslMax).put Reg.bayReset Fld.bayResetLast (warmLast y)).bump Reg.bayReset Fld.bayResetWarmCount 1) := by
  obtain ⟨o, ho⟩ := s.portsOff_frame
  refine ⟨o, _, rfl, b2n (s.warmImage.op != .idle), ?_⟩
  unfold State.warm
  rw [ho]
  rfl

/-! ### What keeping fields through it writes -/

theorem State.keepLocked_frame (old t : State) (a : Nat) :
    (∃ r, old.keepLocked a t = { t with regs := r }) ∧ ∀ b, b ≠ a → (old.keepLocked a t).word b = t.word b := by
  unfold State.keepLocked
  split
  · refine foldl_keeps (fun u => (∃ r, u = { t with regs := r }) ∧ ∀ b, b ≠ a → u.word b = t.word b) _ _ t ⟨⟨t.regs, rfl⟩, fun _ _ => rfl⟩ ?_
    rintro u f - ⟨⟨r, rfl⟩, hword⟩
    exact ⟨⟨_, rfl⟩, fun b hb => (State.word_put_other _ _ _ _ _ hb).trans (hword b hb)⟩
  · exact ⟨⟨t.regs, rfl⟩, fun _ _ => rfl⟩

theorem State.warmLocked_frame (s t : State) : (∃ r, s.warmLocked t = { t with regs := r })
    ∧ ∀ b, b ≠ Reg.faultCtrl → b ≠ Reg.exchCtrl → b ≠ Reg.collCtrl → (s.warmLocked t).word b = t.word b := by
  obtain ⟨⟨r₁, h₁⟩, w₁⟩ := s.keepLocked_frame t 0x80000
  obtain ⟨⟨r₂, h₂⟩, w₂⟩ := s.keepLocked_frame (s.keepLocked 0x80000 t) 0x200000
  obtain ⟨⟨r₃, h₃⟩, w₃⟩ := s.keepLocked_frame (s.keepLocked 0x200000 (s.keepLocked 0x80000 t)) 0x1200000
  refine ⟨⟨r₃, ?_⟩, fun b hf he hc => ?_⟩
  · rw [State.warmLocked, List.foldl_cons, List.foldl_cons, List.foldl_cons, List.foldl_nil, h₃, h₂, h₁]
  · exact (w₃ b hc).trans ((w₂ b he).trans (w₁ b hf))

/-- Putting one field of many registers, each the value that its address has. -/
theorem State.foldl_put_frame (l : List (Nat × Word)) (f : Field) (g : Nat → Nat) (t : State) :
    (∃ r, l.foldl (fun u e => u.put e.1 f (g e.1)) t = { t with regs := r })
    ∧ (∀ a, a ∉ l.map (·.1) → (l.foldl (fun u e => u.put e.1 f (g e.1)) t).word a = t.word a) := by
  induction l generalizing t with
  | nil => exact ⟨⟨t.regs, rfl⟩, fun _ _ => rfl⟩
  | cons e l ih =>
    obtain ⟨⟨r, hr⟩, hw⟩ := ih (t.put e.1 f (g e.1))
    refine ⟨⟨r, hr⟩, fun a ha => ?_⟩
    simp only [List.map_cons, List.mem_cons, not_or] at ha
    exact (hw a ha.2).trans (State.word_put_other _ _ _ _ _ ha.1)

/-- The field put reads back, and those apart from it stay. -/
theorem State.foldl_put_get (l : List (Nat × Word)) (f : Field) (g : Nat → Nat) (t : State) (hfits : f.fits = true) (a : Nat) :
    (a ∈ l.map (·.1) → (l.foldl (fun u e => u.put e.1 f (g e.1)) t).get a f = g a % 2 ^ f.width)
    ∧ ∀ h : Field, h.apart f = true → (l.foldl (fun u e => u.put e.1 f (g e.1)) t).get a h = t.get a h := by
  induction l generalizing t with
  | nil => exact ⟨fun h => by simp at h, fun _ _ => rfl⟩
  | cons e l ih =>
    obtain ⟨hput, hapart⟩ := ih (t.put e.1 f (g e.1))
    refine ⟨fun ha => ?_, fun h hh => (hapart h hh).trans ?_⟩
    · by_cases hl : a ∈ l.map (·.1)
      · exact hput hl
      · have hae : a = e.1 := by simpa [hl] using ha
        obtain ⟨-, hw⟩ := State.foldl_put_frame l f g (t.put e.1 f (g e.1))
        rw [List.foldl_cons, State.get, hw a hl, hae]
        exact State.get_put _ _ _ _ hfits
    · by_cases hae : a = e.1
      · rw [hae]
        exact State.get_put_apart _ _ _ _ _ hfits hh
      · exact State.get_put_other _ _ _ _ _ _ hae

/-! ### PORT_STAT -/

theorem mem_regTable_of_regAt {a i j : Nat} {d : RegDesc} (h : regAt a = some (d, i, j)) : d ∈ regTable ∧ d.at? a = some (i, j) := by
  obtain ⟨l₁, e, l₂, htable, he, -⟩ := List.findSome?_eq_some_iff.mp h
  cases hat : e.at? a with
  | none => simp [hat] at he
  | some ij =>
    rw [hat] at he
    simp only [Option.map_some, Option.some.injEq, Prod.mk.injEq] at he
    obtain ⟨rfl, rfl, rfl⟩ := he
    exact ⟨htable ▸ List.mem_append_right _ List.mem_cons_self, hat⟩

theorem regAt_of_isPortStat {a : Nat} (h : isPortStat a = true) :
    ∃ i j, regAt a = some (RegD.portStat, i, j) ∧ a = 0x400200 + i * 0x10000 + j * 8 ∧ i < 19 ∧ j < 8 := by
  have honly : ∀ d ∈ regTable, d.base = RegD.portStat.base → d = RegD.portStat := by decide +kernel
  unfold isPortStat at h
  split at h
  · next d i j hat =>
    obtain ⟨hmem, hd⟩ := mem_regTable_of_regAt hat
    obtain rfl := honly d hmem (by simpa using h)
    exact ⟨i, j, hat, RegDesc.eq_of_at?_eq_some hd⟩
  · cases h

theorem resetWord_portStat {a : Nat} (h : isPortStat a = true) : Fld.portStatDegradeCount.get (resetWord a) = 0 := by
  obtain ⟨i, j, hat, -⟩ := regAt_of_isPortStat h
  rw [resetWord, hat]
  simp only [RegD.portStat, List.foldl, FieldDesc.reset]
  decide

theorem warmKeeps_of_isPortStat {a : Nat} (h : isPortStat a = true) : warmKeeps a = false := by
  obtain ⟨i, j, -, ha, hi, hj⟩ := regAt_of_isPortStat h
  simp only [warmKeeps, Bool.or_eq_false_iff, decide_eq_false_iff_not]
  omega

/-! ### The state after it -/

section
variable (s : State)

/-- What R552 has a warm reset lose and keep, beside the registers. -/
theorem State.warm_frame (y : WarmCause) : ∃ o r, s.warm y = { s.warmBase o with regs := r } := by
  obtain ⟨o, u, rfl, n, hwarm⟩ := s.warm_eq y
  obtain ⟨⟨r₁, h₁⟩, -⟩ := s.warmLocked_frame (s.warmBase o)
  obtain ⟨⟨r₂, h₂⟩, -⟩ := State.foldl_put_frame (s.regs.filter (fun r => s.get r.1 Fld.portStatDegradeCount != 0 && isPortStat r.1))
    Fld.portStatDegradeCount (fun a => s.get a Fld.portStatDegradeCount) (s.warmLocked (s.warmBase o))
  rw [hwarm, State.keepDegrades, h₂, h₁]
  exact ⟨o, _, rfl⟩

/-- The image block at a warm reset: the retained and the verified full image stay, and nothing is in force. -/
theorem State.warmImage_frame : s.warmImage.applied = none ∧ s.warmImage.retained = s.img.retained
    ∧ s.warmImage.verifiedFull = s.img.verifiedFull := by
  unfold State.warmImage
  dsimp only
  split <;> exact ⟨rfl, rfl, rfl⟩

theorem State.warmBase_word (o : List Out) (a : Nat) :
    (s.warmBase o).word a = if warmKeeps a = true then (Table.find s.regs a).getD (resetWord a) else resetWord a := by
  have hreset : (s.warmBase o).resetOf a = resetWord a := by
    have hnone : (s.warmBase o).img.applied = none := s.warmImage_frame.1
    rw [State.resetOf, hnone]
  have hregs : Table.find (s.warmBase o).regs a = if warmKeeps a = true then Table.find s.regs a else none :=
    Table.find_filter_key s.regs warmKeeps a
  rw [State.word, hreset, hregs]
  split
  · next w h =>
    split at h
    · next hk => rw [if_pos hk, h, Option.getD_some]
    · cases h
  · next h =>
    split at h
    · next hk => rw [if_pos hk, h, Option.getD_none]
    · next hk => rw [if_neg hk]

/-- The registers that a warm reset sets by itself. -/
theorem State.warm_word (y : WarmCause) {a : Nat} (hi : a ≠ Reg.imgStatus) (hb : a ≠ Reg.bayReset) (ha : a ≠ Reg.avs) :
    ∃ o, (s.warm y).word a = (s.keepDegrades (s.warmLocked (s.warmBase o))).word a := by
  obtain ⟨o, u, rfl, n, hwarm⟩ := s.warm_eq y
  refine ⟨o, ?_⟩
  rw [hwarm]
  simp only [State.bump, State.noteIslMax, State.word_put_other _ _ _ _ _ hi, State.word_put_other _ _ _ _ _ hb,
    State.word_put_other _ _ _ _ _ ha]

theorem State.keepDegrades_word (t : State) {a : Nat} (ha : isPortStat a = false) : (s.keepDegrades t).word a = t.word a := by
  obtain ⟨-, hw⟩ := State.foldl_put_frame (s.regs.filter (fun r => s.get r.1 Fld.portStatDegradeCount != 0 && isPortStat r.1))
    Fld.portStatDegradeCount (fun a => s.get a Fld.portStatDegradeCount) t
  refine hw a fun hmem => ?_
  obtain ⟨e, he, rfl⟩ := List.mem_map.mp hmem
  obtain ⟨-, hp⟩ := List.mem_filter.mp he
  simp [ha] at hp

/-- A register that is no PORT_STAT and has no lock bit is as R552 says. -/
theorem State.warm_word_plain (y : WarmCause) {a : Nat} (hi : a ≠ Reg.imgStatus) (hb : a ≠ Reg.bayReset) (ha : a ≠ Reg.avs)
    (hp : isPortStat a = false) (hf : a ≠ Reg.faultCtrl) (he : a ≠ Reg.exchCtrl) (hc : a ≠ Reg.collCtrl) :
    (s.warm y).word a = if warmKeeps a = true then (Table.find s.regs a).getD (resetWord a) else resetWord a := by
  obtain ⟨o, ho⟩ := s.warm_word y hi hb ha
  obtain ⟨-, hw⟩ := s.warmLocked_frame (s.warmBase o)
  rw [ho, State.keepDegrades_word s _ hp, hw a hf he hc, State.warmBase_word]

/-- Below the meters a register that is not listed reads its reset value. -/
theorem State.word_eq_getD {a : Nat} (ha : a < 0x1C00000) : s.word a = (Table.find s.regs a).getD (resetWord a) := by
  have hreset : s.resetOf a = resetWord a := by
    rw [State.resetOf]
    split
    · rw [if_neg (by omega)]
    · rfl
  rw [State.word, hreset]
  cases Table.find s.regs a <;> rfl

theorem isPortStat_of_lt {a : Nat} (ha : a < 0x400200) : isPortStat a = false := by
  cases h : isPortStat a with
  | false => rfl
  | true =>
    obtain ⟨i, j, -, hplace, -⟩ := regAt_of_isPortStat h
    omega

theorem State.warm_word_low (y : WarmCause) {a : Nat} (hlow : a < 0x40000) (hi : a ≠ Reg.imgStatus) (hb : a ≠ Reg.bayReset)
    (ha : a ≠ Reg.avs) : (s.warm y).word a = s.word a := by
  have hkept : warmKeeps a = true := by simp [warmKeeps, hlow]
  have hlock : a ≠ Reg.faultCtrl ∧ a ≠ Reg.exchCtrl ∧ a ≠ Reg.collCtrl := by
    simp only [Reg.faultCtrl, Reg.exchCtrl, Reg.collCtrl]
    omega
  obtain ⟨hf, he, hc⟩ := hlock
  rw [State.warm_word_plain s y hi hb ha (isPortStat_of_lt (by omega)) hf he hc, if_pos hkept, State.word_eq_getD s (by omega)]

theorem State.warm_word_reset (y : WarmCause) {a : Nat} (hk : warmKeeps a = false) (hp : isPortStat a = false)
    (hf : a ≠ Reg.faultCtrl) (he : a ≠ Reg.exchCtrl) (hc : a ≠ Reg.collCtrl) : (s.warm y).word a = resetWord a := by
  have hbay : a ≠ Reg.imgStatus ∧ a ≠ Reg.bayReset ∧ a ≠ Reg.avs := by
    refine ⟨?_, ?_, ?_⟩ <;> rintro rfl <;> exact absurd hk (by decide)
  obtain ⟨hi, hb, ha⟩ := hbay
  rw [State.warm_word_plain s y hi hb ha hp hf he hc, if_neg (by simp [hk])]

/-- A PORT_STAT keeps `degrade_count` alone. -/
theorem State.warm_portStat (y : WarmCause) {a : Nat} (hp : isPortStat a = true) :
    (s.warm y).get a Fld.portStatDegradeCount = s.get a Fld.portStatDegradeCount
      ∧ ∀ f : Field, f.apart Fld.portStatDegradeCount = true → (s.warm y).get a f = f.get (resetWord a) := by
  obtain ⟨i, j, hat, hplace, hi, hj⟩ := regAt_of_isPortStat hp
  have hother : a ≠ Reg.imgStatus ∧ a ≠ Reg.bayReset ∧ a ≠ Reg.avs ∧ a ≠ Reg.faultCtrl ∧ a ≠ Reg.exchCtrl ∧ a ≠ Reg.collCtrl := by
    simp only [Reg.imgStatus, Reg.bayReset, Reg.avs, Reg.faultCtrl, Reg.exchCtrl, Reg.collCtrl]
    omega
  obtain ⟨h₁, h₂, h₃, h₄, h₅, h₆⟩ := hother
  obtain ⟨o, ho⟩ := s.warm_word y h₁ h₂ h₃
  obtain ⟨-, hlocked⟩ := s.warmLocked_frame (s.warmBase o)
  have hbase : (s.warmLocked (s.warmBase o)).word a = resetWord a := by
    rw [hlocked a h₄ h₅ h₆, State.warmBase_word, if_neg (by simp [warmKeeps_of_isPortStat hp])]
  obtain ⟨hput, hapart⟩ := State.foldl_put_get (s.regs.filter (fun r => s.get r.1 Fld.portStatDegradeCount != 0 && isPortStat r.1))
    Fld.portStatDegradeCount (fun a => s.get a Fld.portStatDegradeCount) (s.warmLocked (s.warmBase o)) (by decide) a
  obtain ⟨-, hunlisted⟩ := State.foldl_put_frame (s.regs.filter (fun r => s.get r.1 Fld.portStatDegradeCount != 0 && isPortStat r.1))
    Fld.portStatDegradeCount (fun a => s.get a Fld.portStatDegradeCount) (s.warmLocked (s.warmBase o))
  have hget (f : Field) : (s.warm y).get a f = (s.keepDegrades (s.warmLocked (s.warmBase o))).get a f := congrArg f.get ho
  refine ⟨(hget _).trans ?_, fun f hf => ((hget f).trans (hapart f hf)).trans (congrArg f.get hbase)⟩
  by_cases hmem : a ∈ (s.regs.filter (fun r => s.get r.1 Fld.portStatDegradeCount != 0 && isPortStat r.1)).map (·.1)
  · exact (hput hmem).trans (Nat.mod_eq_of_lt (Nat.mod_lt _ (by decide)))
  · have hzero : s.get a Fld.portStatDegradeCount = 0 := by
      by_contra hne
      cases hfind : Table.find s.regs a with
      | none =>
        rw [State.get, State.word_eq_getD s (by omega), hfind, Option.getD_none, resetWord_portStat hp] at hne
        exact hne rfl
      | some w =>
        exact hmem (List.mem_map.mpr ⟨(a, w), List.mem_filter.mpr ⟨Table.mem_of_find hfind, by simp [hne, hp]⟩, rfl⟩)
    rw [hzero, State.keepDegrades, State.get, hunlisted a hmem, hbase, resetWord_portStat hp]

theorem State.warm_imgState (y : WarmCause) : (s.warm y).imgState = min 1 s.imgState := by
  obtain ⟨o, u, rfl, n, hwarm⟩ := s.warm_eq y
  rw [hwarm, State.imgState]
  simp (disch := decide) only [State.bump, State.noteIslMax, State.get_put_other, State.get_put_apart, State.get_put]
  exact Nat.mod_eq_of_lt (lt_of_le_of_lt (min_le_left _ _) (by decide))

theorem State.warm_bayReset (y : WarmCause) : (s.warm y).get Reg.bayReset Fld.bayResetLast = warmLast y := by
  obtain ⟨o, u, rfl, n, hwarm⟩ := s.warm_eq y
  rw [hwarm]
  simp (disch := decide) only [State.bump, State.get_put_apart, State.get_put]
  cases y <;> rfl

theorem State.warm_avsCoreSet (y : WarmCause) : (s.warm y).get Reg.avs Fld.avsCoreSet = s.get Reg.avs Fld.avsCoreSet := by
  obtain ⟨o, u, rfl, n, hwarm⟩ := s.warm_eq y
  obtain ⟨-, hlocked⟩ := s.warmLocked_frame (s.warmBase o)
  rw [hwarm]
  simp (disch := decide) only [State.bump, State.noteIslMax, State.get_put_other, State.get_put_apart]
  rw [State.get, State.keepDegrades_word s _ (isPortStat_of_lt (by decide)), hlocked _ (by decide) (by decide) (by decide),
    State.warmBase_word, if_pos (by decide), ← State.word_eq_getD s (by decide)]
  rfl

end

/-! ## The commands -/

section
variable {s : State}

theorem doColdReset_of_noFuse (y : ColdCause) (x : Straps) (h : ∀ a r q f, s.img.op ≠ .fuse a r q f) :
    doColdReset y x s = s.cold y x := by
  unfold doColdReset
  split
  · next hop => exact absurd hop (h _ _ _ _)
  · rfl

theorem doColdReset_of_fuse {y : ColdCause} (x : Straps) (hy : y ≠ .powerOn) (h : ∃ a r q f, s.img.op = .fuse a r q f)
    (hnone : s.img.coldPending = none) : doColdReset y x s = { s with img := { s.img with coldPending := some (y, x) } } := by
  obtain ⟨a, r, q, f, hop⟩ := h
  simp [doColdReset, hop, hy, hnone]

theorem doColdReset_powerOn (x : Straps) : doColdReset .powerOn x s = s.cold .powerOn x := by
  unfold doColdReset
  split
  · rw [if_pos rfl]
  · rfl

theorem exec_coldReset_powerOn (x : Straps) :
    exec (.coldReset .powerOn x) s = .next (s.keep (({ s with powered := true } : State).cold .powerOn x)).drivePins := by
  rw [exec_coldReset, execColdReset, if_pos rfl, actReset_powered _ _ rfl, doColdReset_powerOn]
  rfl

end

theorem doWarmReset_eq (y : WarmCause) (s : State) : doWarmReset y s = if s.img.coldPending.isSome then s else s.warm y := rfl

/-- Settles O4. -/
theorem unpoweredDevice : Obligations.UnpoweredDevice := by
  unfold Obligations.UnpoweredDevice
  intro c s hoff
  refine ⟨fun hon => exec_unpowered hon hoff, fun x => ⟨?_, _, exec_coldReset_powerOn x, ?_⟩⟩
  · rw [exec_coldReset_powerOn, exec_coldReset_powerOn]
    rfl
  · obtain ⟨-, hpow, -⟩ := ({ s with powered := true } : State).cold_frame .powerOn x
    exact hpow

/-- Settles O13. -/
theorem resets : Obligations.Resets := by
  unfold Obligations.Resets
  intro s x c k hpow
  refine ⟨fun p hp => ?_, ?_, ?_, fun p hp => ?_, ?_, fun hc => ?_, fun h1 h2 => ?_, fun hk hc => ?_⟩
  · have hcold : exec p.1 s = .next (s.keep (doColdReset p.2.2 x p.2.1)).drivePins ∧ p.2.2 ≠ .powerOn ∧ p.2.1.img = s.img := by
      simp only [List.mem_cons, List.not_mem_nil, or_false] at hp
      obtain rfl | rfl | rfl := hp
      · exact ⟨actReset_powered s _ hpow, nofun, rfl⟩
      · exact ⟨actReset_powered s _ hpow, nofun, rfl⟩
      · exact ⟨actReset_powered s _ hpow, nofun, rfl⟩
    obtain ⟨hexec, hcause, himg⟩ := hcold
    rw [hexec]
    refine ⟨fun h => ?_, fun a r q f hop hnone => ?_⟩
    · rw [doColdReset_of_noFuse _ _ (himg ▸ h)]
    · rw [doColdReset_of_fuse _ hcause ⟨a, r, q, f, himg ▸ hop⟩ (himg ▸ hnone)]
  · rw [exec_coldReset_powerOn, ← hpow]
  · rintro y t rfl
    obtain ⟨hsafe, -, -, hrma, hinsts, -, hret, hver⟩ := s.cold_frame y x
    exact ⟨hsafe, s.cold_imgState y x, by rw [hrma]; rfl, hret, hver, hinsts, s.cold_strap y x, s.cold_bayReset y x,
      fun hboot a ha hb => s.cold_word_reset y x hboot ha hb, fun hboot htest => s.cold_boots y x hboot htest⟩
  · have hwarm : exec p.1 s = .next (s.keep (doWarmReset p.2.2 p.2.1)).drivePins ∧ p.2.1.img = s.img := by
      simp only [List.mem_cons, List.not_mem_nil, or_false] at hp
      obtain rfl | rfl | rfl := hp
      · exact ⟨actReset_powered s _ hpow, rfl⟩
      · exact ⟨actReset_powered s _ hpow, rfl⟩
      · exact ⟨actReset_powered s _ hpow, rfl⟩
    obtain ⟨hexec, himg⟩ := hwarm
    rw [hexec, doWarmReset_eq, himg]
    exact ⟨fun h => by rw [h]; rfl, fun h => by rw [if_pos h]⟩
  · rintro y t rfl
    obtain ⟨o, r, hw⟩ := s.warm_frame y
    obtain ⟨happ, hret, hver⟩ := s.warmImage_frame
    refine ⟨by rw [hw]; rfl, s.warm_imgState y, by rw [hw]; exact happ, by rw [hw]; rfl, by rw [hw]; exact hret,
      by rw [hw]; exact hver, by rw [hw]; rfl, by rw [hw]; rfl, by rw [hw]; rfl, by rw [hw]; rfl, s.warm_bayReset y, by rw [hw]; rfl,
      by rw [hw]; rfl, by rw [hw]; rfl, fun a ha hi hb hv => s.warm_word_low y ha hi hb hv, s.warm_avsCoreSet y,
      fun a hk hp hf he hc => s.warm_word_reset y hk hp hf he hc, fun a hp => ?_⟩
    obtain ⟨hcount, hrest⟩ := s.warm_portStat y hp
    refine ⟨hcount, fun f hf => hrest f ?_⟩
    revert f
    decide
  · have hno : ¬ c.toNat = 0xA5C3 := fun e => hc (BitVec.eq_of_toNat_eq e)
    rw [exec_bayResetWarm, exec_bayResetCold, execBayResetWarm, execBayResetCold, actReset_powered _ _ hpow, actReset_powered _ _ hpow,
      doBayResetWarm, doBayResetCold, if_neg hno, if_neg hno]
    exact ⟨rfl, rfl⟩
  · have hcode : k.toNat ≠ 1 ∧ k.toNat ≠ 2 := ⟨fun e => h1 (BitVec.eq_of_toNat_eq e), fun e => h2 (BitVec.eq_of_toNat_eq e)⟩
    rw [exec_sidebandReset, execSidebandReset, actReset_powered _ _ hpow, doSidebandReset, if_pos hcode]
  · have hcode : ¬ (k.toNat ≠ 1 ∧ k.toNat ≠ 2) := by
      obtain rfl | rfl := hk <;> decide
    have hno : confirmed c = false := beq_false_of_ne hc
    rw [exec_sidebandReset, execSidebandReset, actReset_powered _ _ hpow, doSidebandReset, if_neg hcode, State.sbConfirmed, hno]
    rfl

end Sys2Proof.Machine
end

section
/-! One-way stores, the reset state, fuse commands, the staging window and image commands. -/

namespace Sys2Proof.Machine

/-! ## Fuses -/

theorem Fuses.blownIn_rfl (f : Fuses) : f.blownIn f := ⟨fun _ h => h, fun _ h => h, fun h => h⟩

/-- Setting more bits clears none. -/
theorem testBit_or_left {a b k : Nat} (h : a.testBit k = true) : (a ||| b).testBit k = true := by
  rw [Nat.testBit_or, h, Bool.true_or]

/-- Drawing free values changes the counter of them alone. -/
theorem State.foldl_fresh_frame (l : List Nat) (h : Nat) (s : State) :
    ∃ n, (l.foldl (fun (x : Nat × State) _ => (x.1 * 2 ^ 64 + x.2.fresh.1.toNat, x.2.fresh.2)) (h, s)).2 = { s with freeCtr := n } := by
  induction l generalizing h s with
  | nil => exact ⟨s.freeCtr, rfl⟩
  | cons x l ih => exact ih _ s.fresh.2

section
variable (s : State)

/-- Programming that did not read back changes the fuses and draws free values; it clears no fuse. -/
theorem State.freeFuse_frame (x : Nat) (r q : Bool) :
    ∃ n f, s.freeFuse x r q = { s with freeCtr := n, fuse := f } ∧ s.fuse.blownIn f := by
  unfold State.freeFuse
  dsimp only
  split
  · exact ⟨_, _, rfl, fun _ h => h, fun _ h => h, fun h => by simp [State.fresh, h]⟩
  · split
    · exact ⟨_, _, rfl, fun _ h => h, fun _ h => testBit_or_left h, fun h => h⟩
    · obtain ⟨n, hn⟩ := State.foldl_fresh_frame (List.range 6) 0 s.fresh.2
      rw [hn]
      exact ⟨n, _, rfl, fun _ h => testBit_or_left h, fun _ h => h, fun h => h⟩

/-- The fuses that programming which read back leaves: `require_cust`, a revoke bit, or a slot's hash is blown. -/
def Fuses.blow (f : Fuses) (x : Nat) (r q : Bool) (h : BitVec 384) : Fuses :=
  if q then { f with requireCust := true }
  else if r then { f with revoked := f.revoked ||| 1 <<< x }
  else { f with keyHash := f.keyHash.set x h, programmed := f.programmed ||| 1 <<< x }

theorem Fuses.blownIn_blow (f : Fuses) (x : Nat) (r q : Bool) (h : BitVec 384) : f.blownIn (f.blow x r q h) := by
  unfold Fuses.blow
  split
  · exact ⟨fun _ h => h, fun _ h => h, fun _ => rfl⟩
  · split
    · exact ⟨fun _ h => h, fun _ h => testBit_or_left h, fun h => h⟩
    · exact ⟨fun _ h => testBit_or_left h, fun _ h => h, fun h => h⟩

/-- The device after fuse programming has ended and before its event: idle, and not busy. -/
def State.fuseIdle : State := s.imgIdle.put Reg.imgStatus Fld.imgStatusFuseBusy 0

theorem State.fuseDone_other (b : Bool) (h : ∀ x r q f, s.img.op ≠ .fuse x r q f) : s.fuseDone b = s := by
  unfold State.fuseDone
  split
  · next hop => exact absurd hop (h _ _ _ _)
  · rfl

variable {s} {x : Nat} {r q : Bool} {h : BitVec 384}

theorem State.fuseDone_true (hop : s.img.op = .fuse x r q h) :
    s.fuseDone true = ({ s.fuseIdle with fuse := s.fuse.blow x r q h } : State).imgEnd 0 := by
  unfold State.fuseDone
  rw [hop]
  rfl

theorem State.fuseDone_false (hop : s.img.op = .fuse x r q h) : s.fuseDone false = (s.fuseIdle.freeFuse x r q).imgEnd 13 := by
  unfold State.fuseDone
  rw [hop]
  rfl

theorem State.fuseDone_blownIn (s : State) (b : Bool) : s.fuse.blownIn (s.fuseDone b).fuse := by
  by_cases hop : ∃ x r q h, s.img.op = .fuse x r q h
  · obtain ⟨x, r, q, h, hop⟩ := hop
    cases b with
    | true =>
      obtain ⟨_, _, _, hend⟩ := ({ s.fuseIdle with fuse := s.fuse.blow x r q h } : State).imgEnd_frame 0
      rw [State.fuseDone_true hop, hend]
      exact s.fuse.blownIn_blow x r q h
    | false =>
      obtain ⟨_, _, _, hend⟩ := (s.fuseIdle.freeFuse x r q).imgEnd_frame 13
      obtain ⟨n, f, hfree, hblown⟩ := s.fuseIdle.freeFuse_frame x r q
      rw [State.fuseDone_false hop, hend, hfree]
      exact hblown
  · rw [s.fuseDone_other b (by simpa using hop)]
    exact s.fuse.blownIn_rfl

end

/-- The end of fuse programming is the programming's, and a cold reset's that waited for it. -/
theorem doFuseEnd_cases (b : Bool) (s : State) : doFuseEnd b s = s.fuseDone b ∨ ∃ y x, doFuseEnd b s = (s.fuseDone b).cold y x := by
  unfold doFuseEnd
  dsimp only
  split
  · exact .inr ⟨_, _, rfl⟩
  · exact .inl rfl

theorem doFuseEnd_fuse (b : Bool) (s : State) : (doFuseEnd b s).fuse = (s.fuseDone b).fuse := by
  obtain h | ⟨y, x, h⟩ := doFuseEnd_cases b s
  · rw [h]
  · obtain ⟨-, -, hfuse, -⟩ := (s.fuseDone b).cold_frame y x
    rw [h, hfuse]

theorem exec_fuseEnd_blownIn {b : Bool} {s t : State} (h : exec (.fuseEnd b) s = .next t) : s.fuse.blownIn t.fuse := by
  cases hpow : s.powered with
  | false =>
    rw [exec_fuseEnd, execFuseEnd, actFuse_unpowered _ hpow] at h
    obtain rfl := Host.Outcome.next.inj h
    exact s.fuse.blownIn_rfl
  | true =>
    rw [exec_fuseEnd, execFuseEnd, actFuse_powered _ _ hpow] at h
    obtain rfl := Host.Outcome.next.inj h
    exact (doFuseEnd_fuse b s).symm ▸ s.fuseDone_blownIn b

theorem exec_blownIn {c : Instr} {s t : State} (h : exec c s = .next t) : s.fuse.blownIn t.fuse := by
  by_cases hc : ∃ b, c = .fuseEnd b
  · obtain ⟨b, rfl⟩ := hc
    exact exec_fuseEnd_blownIn h
  · obtain ⟨-, hfuse⟩ := exec_keeps_fuse (fun b hb => hc ⟨b, hb⟩) h
    exact hfuse ▸ s.fuse.blownIn_rfl

theorem step_blownIn {s t : State} (h : step s = .next t) : s.fuse.blownIn t.fuse := by
  unfold step at h
  split at h
  · obtain ⟨-, hfuse, -⟩ := act_keeps s t State.idle h
    exact hfuse ▸ s.fuse.blownIn_rfl
  · next c rest _ => exact exec_blownIn (s := { s with pending := rest }) h

/-- Settles O7: of the forms in which commands end, the resets' alone may clear the Bay latch, the fuse form alone may change the fuses, and
the flash form alone the flash; what the fuse form does clears no fuse. -/
theorem oneWayStores : Obligations.OneWayStores := by
  unfold Obligations.OneWayStores
  exact ⟨fun _ _ _ hc hsafe h => (exec_keeps_safe_of_noReset hc h).1 hsafe, fun _ _ h => step_blownIn h,
    fun _ _ _ hc h => (exec_keeps_fuse hc h).2, fun _ _ _ hw h => exec_keeps_flash hw h⟩

/-- Settles O5. -/
theorem resetState : Obligations.ResetState := by
  unfold Obligations.ResetState
  have hword (a : Nat) : State.reset.word a = resetWord a := rfl
  refine ⟨by decide +kernel, rfl, rfl, hword, fun i => ?_, ?_, rfl, rfl, rfl, rfl, by decide, rfl, ⟨rfl, rfl, rfl, rfl⟩, rfl⟩
  · rw [State.get, hword, resetWord_srcStat]
    decide
  · decide +kernel

end Sys2Proof.Machine
end

section
/-! Fuse commands, the staging window and image commands. -/

namespace Sys2Proof.Machine

section
variable (s : State)

/-! ## Beginning and idling -/

/-- `busy` alone changes in IMAGE.STATUS when a command begins or ends. -/
theorem State.imgBegin_get (op : ImgOp) {f : Field} (hf : f.apart Fld.imgStatusBusy = true) :
    (s.imgBegin op).get Reg.imgStatus f = s.get Reg.imgStatus f := State.get_put_apart _ _ _ _ _ (by decide) hf

theorem State.imgIdle_get {f : Field} (hf : f.apart Fld.imgStatusBusy = true) :
    s.imgIdle.get Reg.imgStatus f = s.get Reg.imgStatus f := State.get_put_apart _ _ _ _ _ (by decide) hf

theorem State.imgBegin_imgBusy (op : ImgOp) : (s.imgBegin op).imgBusy = true := by
  rw [State.imgBusy, State.flag, State.imgBegin, State.get_put _ _ _ _ (by decide)]
  decide

theorem State.imgIdle_imgBusy : s.imgIdle.imgBusy = false := by
  rw [State.imgBusy, State.flag, State.imgIdle, State.get_put _ _ _ _ (by decide)]
  decide

theorem State.imgBegin_imgState (op : ImgOp) : (s.imgBegin op).imgState = s.imgState := s.imgBegin_get op (by decide)

theorem State.imgIdle_imgState : s.imgIdle.imgState = s.imgState := s.imgIdle_get (by decide)

/-- The image block's own state at the end of a command is what it was before it. -/
theorem State.imgEnd_img (n : Nat) : (s.imgEnd n).img = s.img := by
  obtain ⟨_, _, _, h⟩ := s.imgEnd_frame n
  rw [h]

/-! ## Fuse commands -/

theorem State.putFuseCtrl_word (c x : Nat) (r q : Bool) {a : Nat} (ha : a ≠ Reg.fuseCtrl) :
    (s.putFuseCtrl c x r q).word a = s.word a := State.word_setWord_other _ _ _ _ ha

theorem State.putFuseCtrl_imgStatus (c x : Nat) (r q : Bool) (f : Field) :
    (s.putFuseCtrl c x r q).get Reg.imgStatus f = s.get Reg.imgStatus f :=
  congrArg f.get (s.putFuseCtrl_word c x r q (by decide))

/-- What fuses are programmed with stands in FUSE_DATA, which FUSE_CTRL is no part of. -/
theorem State.putFuseCtrl_fuseHash (c x : Nat) (r q : Bool) : (s.putFuseCtrl c x r q).fuseHash = s.fuseHash := by
  have hdata (w : Nat) (hw : w ∈ List.range 6) :
      leBytes ((s.putFuseCtrl c x r q).word (Reg.fuseData w)).toNat 8 = leBytes (s.word (Reg.fuseData w)).toNat 8 := by
    have hw := List.mem_range.mp hw
    rw [s.putFuseCtrl_word c x r q (by rw [Reg.fuseData, Reg.fuseCtrl]; omega)]
  rw [State.fuseHash, State.fuseHash, List.map_congr_left hdata]

section
variable {s}

theorem State.fuseCmd_of_busy (c : Nat) (may : Bool) (op : ImgOp) (h : s.imgBusy = true) : s.fuseCmd c may op = s.imgEnd 10 :=
  if_pos h

theorem State.fuseCmd_of_ignored {c : Nat} {may : Bool} (op : ImgOp) (hb : s.imgBusy = false)
    (h : s.imgState ≠ 0 ∨ c ≠ 0xF05E ∨ may = false) : s.fuseCmd c may op = s.notice 62 Reg.fuseCtrl := by
  rw [State.fuseCmd, if_neg (by simp [hb]), if_pos (by simpa using h)]
  rfl

theorem State.fuseCmd_of_may {c : Nat} {may : Bool} (op : ImgOp) (hb : s.imgBusy = false) (hs : s.imgState = 0) (hc : c = 0xF05E)
    (hm : may = true) : s.fuseCmd c may op = (s.imgBegin op).put Reg.imgStatus Fld.imgStatusFuseBusy 1 := by
  rw [State.fuseCmd, if_neg (by simp [hb]), if_neg (by simp [hs, hc, hm])]

end

/-- Fuse programming that has begun: `busy` and `fuse_busy` are set, and no more than the operation changes. -/
theorem State.fuseBegin_facts (op : ImgOp) {t : State} (ht : t = (s.imgBegin op).put Reg.imgStatus Fld.imgStatusFuseBusy 1) :
    t.imgBusy = true ∧ t.flag Reg.imgStatus Fld.imgStatusFuseBusy = true ∧ t.imgState = s.imgState ∧ t.img.op = op
      ∧ t.out = s.out := by
  subst ht
  refine ⟨?_, ?_, ?_, rfl, rfl⟩
  · rw [State.imgBusy, State.flag, State.get_put_apart _ _ _ _ _ (by decide) (by decide)]
    exact s.imgBegin_imgBusy op
  · rw [State.flag, State.get_put _ _ _ _ (by decide)]
    decide
  · rw [State.imgState, State.get_put_apart _ _ _ _ _ (by decide) (by decide)]
    exact s.imgBegin_imgState op

/-- Every fuse command writes FUSE_CTRL, and then is refused, ignored or begins. -/
theorem fuseCommand_settled {c : Instr} {s : State} {u : State} {n : Nat} {may : Bool} {op : ImgOp} {f : State → State}
    (hpow : s.powered = true) (hexec : exec c s = act s f) (hf : f s = u.fuseCmd n may op) (hu : ∀ g, u.get Reg.imgStatus g = s.get Reg.imgStatus g)
    (hout : u.out = s.out) :
    (s.imgBusy = true → Does c s (u.imgEnd 10))
    ∧ (s.imgBusy = false → (s.imgState ≠ 0 ∨ n ≠ 0xF05E ∨ may = false) → Does c s (u.notice 62 Reg.fuseCtrl))
    ∧ (s.imgBusy = false → s.imgState = 0 → n = 0xF05E → may = true → Yields c s (fun t =>
        t.imgBusy = true ∧ t.flag Reg.imgStatus Fld.imgStatusFuseBusy = true ∧ t.img.op = op ∧ t.fuse = s.fuse
        ∧ t.imgState = 0 ∧ t.out = s.out)) := by
  have hbusy : u.imgBusy = s.imgBusy := congrArg (· != 0) (hu Fld.imgStatusBusy)
  have hstate : u.imgState = s.imgState := hu Fld.imgStatusState
  refine ⟨fun hb => does_of hpow hexec ?_, fun hb hi => does_of hpow hexec ?_, fun hb hs hc hm => yields_of hpow hexec ?_⟩
  · rw [hf, State.fuseCmd_of_busy _ _ _ (hbusy.trans hb)]
  · rw [hf, State.fuseCmd_of_ignored _ (hbusy.trans hb) (hstate.symm ▸ hi)]
  · rw [hf, State.fuseCmd_of_may _ (hbusy.trans hb) (hstate.trans hs) hc hm]
    obtain ⟨h1, h2, h3, h4, h5⟩ := u.fuseBegin_facts op rfl
    exact ⟨h1, h2, h4, rfl, (h3.trans hstate).trans hs, h5.trans hout⟩

/-! ## The end of fuse programming -/

section
variable {s} {x : Nat} {r q : Bool} {h : BitVec 384}

theorem State.fuseIdle_facts (s : State) : s.fuseIdle.imgBusy = false ∧ s.fuseIdle.flag Reg.imgStatus Fld.imgStatusFuseBusy = false
    ∧ s.fuseIdle.img = { s.img with op := .idle } ∧ s.fuseIdle.fuse = s.fuse := by
  refine ⟨?_, ?_, rfl, rfl⟩
  · rw [State.imgBusy, State.flag, State.fuseIdle, State.get_put_apart _ _ _ _ _ (by decide) (by decide)]
    exact s.imgIdle_imgBusy
  · rw [State.flag, State.fuseIdle, State.get_put _ _ _ _ (by decide)]
    decide

theorem State.fuseDone_true_facts {t : State} (hop : s.img.op = .fuse x r q h) (ht : t = s.fuseDone true) :
    t.img = { s.img with op := .idle } ∧ t.imgBusy = false ∧ t.flag Reg.imgStatus Fld.imgStatusFuseBusy = false
      ∧ t.flag Reg.imgStatus Fld.imgStatusDone = true ∧ t.fuse = s.fuse.blow x r q h := by
  subst ht
  obtain ⟨hbusy, hfuse, himg, -⟩ := s.fuseIdle_facts
  rw [State.fuseDone_true hop]
  refine ⟨(State.imgEnd_img _ _).trans himg, (State.imgEnd_imgBusy _ _).trans hbusy, ?_, State.imgEnd_done _ _, ?_⟩
  · rw [State.flag, State.imgEnd_get_apart _ _ (by decide) (by decide) (by decide)]
    exact hfuse
  · obtain ⟨_, _, _, hend⟩ := ({ s.fuseIdle with fuse := s.fuse.blow x r q h } : State).imgEnd_frame 0
    rw [hend]

theorem State.fuseDone_false_facts {t : State} (hop : s.img.op = .fuse x r q h) (ht : t = s.fuseDone false) :
    t.img = { s.img with op := .idle } ∧ t.imgBusy = false ∧ t.get Reg.imgStatus Fld.imgStatusError = 13 := by
  subst ht
  obtain ⟨hbusy, -, himg, -⟩ := s.fuseIdle_facts
  obtain ⟨n, f, hfree, -⟩ := s.fuseIdle.freeFuse_frame x r q
  rw [State.fuseDone_false hop]
  refine ⟨(State.imgEnd_img _ _).trans ?_, (State.imgEnd_imgBusy _ _).trans ?_, (State.imgEnd_error _ _ (by decide)).trans (by decide)⟩
  · rw [hfree]
    exact himg
  · rw [hfree]
    exact hbusy

theorem doFuseEnd_of_done {b : Bool} (hnone : (s.fuseDone b).img.op ≠ .idle ∨ (s.fuseDone b).img.coldPending = none) :
    doFuseEnd b s = s.fuseDone b := by
  unfold doFuseEnd
  dsimp only
  split
  · next hop hpend => obtain h | h := hnone <;> simp_all
  · rfl

theorem doFuseEnd_of_pending {b : Bool} {y : ColdCause} {z : Straps} (hop : (s.fuseDone b).img.op = .idle)
    (hpend : (s.fuseDone b).img.coldPending = some (y, z)) : doFuseEnd b s = (s.fuseDone b).cold y z := by
  simp only [doFuseEnd, hop, hpend]

theorem yields_fuseEnd {b : Bool} {P : State → Prop} (hpow : s.powered = true)
    (hP : P { s.keep (doFuseEnd b s) with fuse := (doFuseEnd b s).fuse }.drivePins) : Yields (.fuseEnd b) s P :=
  ⟨_, actFuse_powered s (doFuseEnd b) hpow, hP⟩

theorem State.fuseDone_img {b : Bool} (hop : s.img.op = .fuse x r q h) : (s.fuseDone b).img = { s.img with op := .idle } := by
  cases b with
  | true => exact (State.fuseDone_true_facts hop rfl).1
  | false => exact (State.fuseDone_false_facts hop rfl).1

end
end

/-- Settles O12. -/
theorem fuseCommands : Obligations.FuseCommands := by
  unfold Obligations.FuseCommands
  intro s c k b hpow
  refine ⟨fun p hp => ?_, fun hno hidle => ?_, fun x r q h hop => ⟨fun hpend => ?_, fun hpend => ?_, fun y z hpend => ?_⟩⟩
  · have hc : c ≠ 0xF05E ↔ c.toNat ≠ 0xF05E := (BitVec.toNat_inj (y := 0xF05E#16)).symm.not
    have hc' : c = 0xF05E ↔ c.toNat = 0xF05E := (BitVec.toNat_inj (y := 0xF05E#16)).symm
    simp only [List.mem_cons, List.not_mem_nil, or_false] at hp
    obtain rfl | rfl | rfl := hp <;> rw [hc, hc']
    · exact fuseCommand_settled hpow (exec_fuseProgram c k s) (by rw [doFuseProgram, State.putFuseCtrl_fuseHash]; rfl)
        (s.putFuseCtrl_imgStatus _ _ _ _) rfl
    · exact fuseCommand_settled hpow (exec_fuseRevoke c k s) rfl (s.putFuseCtrl_imgStatus _ _ _ _) rfl
    · exact fuseCommand_settled hpow (exec_fuseReqCust c s) rfl (s.putFuseCtrl_imgStatus _ _ _ _) rfl
  · have hdone : s.fuseDone b = s := s.fuseDone_other b hno
    have hsame : doFuseEnd b s = s := (doFuseEnd_of_done (hdone.symm ▸ hidle)).trans hdone
    refine yields_fuseEnd hpow ?_
    rw [hsame]
    exact ⟨rfl, rfl, rfl⟩
  · have himg := State.fuseDone_img (b := true) hop
    refine yields_fuseEnd hpow ?_
    rw [doFuseEnd_of_done (.inr (himg ▸ hpend))]
    obtain ⟨-, hbusy, hfuseBusy, hdone, hfuse⟩ := State.fuseDone_true_facts hop rfl
    exact ⟨congrArg ImageSt.op himg, hbusy, hfuseBusy, hdone, hfuse⟩
  · have himg := State.fuseDone_img (b := false) hop
    refine yields_fuseEnd hpow ?_
    rw [doFuseEnd_of_done (.inr (himg ▸ hpend))]
    obtain ⟨-, hbusy, herror⟩ := State.fuseDone_false_facts hop rfl
    exact ⟨congrArg ImageSt.op himg, hbusy, herror, s.fuseDone_blownIn false⟩
  · have himg := State.fuseDone_img (b := b) hop
    have hcold : doFuseEnd b s = (s.fuseDone b).cold y z := doFuseEnd_of_pending (himg ▸ rfl) (himg ▸ hpend)
    obtain ⟨hsafe, -, hfuse, -⟩ := (s.fuseDone b).cold_frame y z
    refine yields_fuseEnd hpow ?_
    rw [hcold]
    exact ⟨hfuse, (s.fuseDone b).cold_bayReset y z, hsafe⟩

end Sys2Proof.Machine
end

section
/-! The staging window (R53). -/

namespace Sys2Proof.Machine

theorem doStagingWrite_of_busy {s : State} (n : Nat) (l : List Byte) (h : s.imgBusy = true) : doStagingWrite n l s = s := if_pos h

theorem doStagingWrite_of_fits {s : State} {n : Nat} {l : List Byte} (h : s.imgBusy = false) (hfit : n + l.length ≤ 2 ^ 24) :
    doStagingWrite n l s = { s with img := { s.img with
      staging := writeBytes s.img.staging 0 n l, verifiedFull := none, verifiedTile := none } } := by
  rw [doStagingWrite, if_neg (by simp [h]), List.take_of_length_le (by omega)]
  rfl

theorem getD_writeBytes_at {m : List Host.Cell} (hm : Memory.wf m 0) (n : Nat) (l : List Byte) {k : Nat} (h : k < l.length) :
    Table.getD (writeBytes m 0 n l) 0 (n + k) = l[k] := by
  rw [Memory.getD_writeBytes l m 0 n (n + k) hm, if_pos (by omega), Nat.add_sub_cancel_left, List.getD_eq_getElem _ _ h]

section
variable (s : State) {a : Nat}

/-- The staging window is an indirect window that no state gates. -/
theorem staging_window (ha : a < 2 ^ 24) : inWindows (0x2000000 + a) = true ∧ gated (0x2000000 + a) = false := by
  simp only [inWindows, gated, decide_eq_true_eq, decide_eq_false_iff_not]
  omega

theorem State.readAt_staging (ha : a < 2 ^ 24) (hal : a % 8 = 0) :
    (s.readAt (0x2000000 + a) 8).1 = BitVec.ofNat 64 (leNat (readBytes s.img.staging 0 a 8)) := by
  obtain ⟨hwin, hgated⟩ := staging_window ha
  have hok : accessOk (0x2000000 + a) 8 = true := by
    simp [accessOk]
    omega
  have hplace : (0x2000000 + a) / 8 * 8 = 0x2000000 + a := by omega
  rw [State.readAt, hok, hplace]
  simp only [Bool.not_true, Bool.false_eq_true, if_false, if_true, State.readWord, hwin, State.windowView, hgated, Bool.false_and]
  rw [if_pos (show 0x2000000 + a < 0x3000000 by omega), if_neg (show ¬ 0x2000000 + a < 0x2000000 by omega), wordOf,
    Nat.add_sub_cancel_left, List.take_of_length_le (readBytes_length _ _ _ _).le]

theorem State.writeAt_staging (ha : a < 2 ^ 24) (hal : a % 8 = 0) (v : BitVec 64) :
    s.writeAt (0x2000000 + a) 8 v = doStagingWrite a (leBytes v.toNat 8) s := by
  obtain ⟨hwin, hgated⟩ := staging_window ha
  have hok : accessOk (0x2000000 + a) 8 = true := by
    simp [accessOk]
    omega
  rw [State.writeAt, hok, hwin, State.writeWindow, hgated]
  simp only [Bool.not_true, Bool.false_eq_true, if_false, if_true, Bool.false_and]
  rw [if_pos (show 0x2000000 + a < 0x3000000 by omega), Nat.add_sub_cancel_left]

end

/-- Settles O10. -/
theorem stagingWindow : Obligations.StagingWindow := by
  unfold Obligations.StagingWindow
  intro s n l hpow
  refine ⟨fun hb => does_of hpow (exec_stagingWrite n l s) (doStagingWrite_of_busy n l hb), fun hb hfit => ?_,
    fun m hm k hk => getD_writeBytes_at hm n l hk, fun a ha hal => ⟨s.readAt_staging ha hal, s.writeAt_staging ha hal⟩, fun c x b => ?_⟩
  · refine yields_of hpow (exec_stagingWrite n l s) ?_
    rw [doStagingWrite_of_fits hb hfit]
    exact ⟨rfl, fun b hout => Memory.getD_writeBytes_frame l _ 0 n b hout, rfl, rfl, rfl, rfl, rfl, rfl⟩
  · obtain ⟨-, -, -, -, -, hstaging, -⟩ := s.cold_frame c x
    rw [hstaging]
    rfl

end Sys2Proof.Machine
end

section
/-! Image commands: what each is refused with, what it begins, and what its end does (R42 to R54). -/

namespace Sys2Proof.Machine

section
variable {s : State}

/-! ## Refusals and beginnings -/

theorem State.imgCmd_of_busy (f : State → State) (h : s.imgBusy = true) : s.imgCmd f = s.imgEnd 10 := if_pos h

theorem State.imgCmd_of_test (f : State → State) (hb : s.imgBusy = false) (ht : s.testEn = true) : s.imgCmd f = s.imgEnd 9 := by
  rw [State.imgCmd, if_neg (by simp [hb]), if_pos ht]

theorem State.imgCmd_of_free (f : State → State) (hb : s.imgBusy = false) (ht : s.testEn = false) : s.imgCmd f = f s := by
  rw [State.imgCmd, if_neg (by simp [hb]), if_neg (by simp [ht])]

/-- LOAD, APPLY, ENABLE and a flash fetch are the image commands that `busy` and test refuse. -/
theorem exec_imgCmd {c : Instr} {b : Bool} (hc : c ∈ [Instr.load, .apply, .enable, .flashLoad b]) :
    ∃ f : State → State, exec c s = act s (fun s => s.imgCmd f) := by
  simp only [List.mem_cons, List.not_mem_nil, or_false] at hc
  obtain rfl | rfl | rfl | rfl := hc
  · exact ⟨_, exec_load s⟩
  · exact ⟨_, exec_apply s⟩
  · exact ⟨_, exec_enable s⟩
  · exact ⟨_, exec_flashLoad b s⟩

theorem doFlashLoad_of_inUse {b : Bool} (hb : s.imgBusy = false) (ht : s.testEn = false)
    (huse : (s.side.flashing && Config.flashOpGoesOn s.freeCtr) = true) :
    doFlashLoad b s = ({ s with freeCtr := s.freeCtr + 1, side := { s.side with flashing := true } } : State).imgEnd 10 := by
  obtain ⟨hflashing, hon⟩ := Bool.and_eq_true_iff.mp huse
  simp only [doFlashLoad, State.imgCmd_of_free _ hb ht, State.flashInUse, hflashing, hon, Bool.not_true, Bool.false_eq_true, if_false]

/-- A fetch that begins: no flash operation runs, or the one that ran has ended. -/
theorem doFlashLoad_of_free {b : Bool} (hb : s.imgBusy = false) (ht : s.testEn = false)
    (huse : (s.side.flashing && Config.flashOpGoesOn s.freeCtr) = false) :
    ∃ n f, doFlashLoad b s = (({ s with freeCtr := n, side := { s.side with flashing := f } } : State).put Reg.imgCtrl
      Fld.imgCtrlFlashCopy (b2n b)).imgBegin (.fetch b false) := by
  cases hflashing : s.side.flashing with
  | false =>
    refine ⟨s.freeCtr, s.side.flashing, ?_⟩
    simp only [doFlashLoad, State.imgCmd_of_free _ hb ht, State.flashInUse, hflashing, Bool.not_false, if_true]
    rw [← hflashing]
  | true =>
    rw [hflashing, Bool.true_and] at huse
    refine ⟨s.freeCtr + 1, false, ?_⟩
    simp only [doFlashLoad, State.imgCmd_of_free _ hb ht, State.flashInUse, hflashing, huse, Bool.not_true, Bool.false_eq_true, if_false]

theorem doEnable_of_notStructured (hb : s.imgBusy = false) (ht : s.testEn = false) (h : s.imgState ≠ 2) : doEnable s = s.imgEnd 9 := by
  rw [doEnable, State.imgCmd_of_free _ hb ht, if_pos h]

theorem doEnable_of_structured (hb : s.imgBusy = false) (ht : s.testEn = false) (h : s.imgState = 2) :
    doEnable s = (allPorts.foldl (fun (t : State) p => t.tryBringUp p)
      ((match s.img.applied with | some c => c.locks | none => []).foldl (fun (t : State) a => t.put a (lockBitField a) 1)
        (s.put Reg.imgStatus Fld.imgStatusState 3))).imgEnd 0 := by
  rw [doEnable, State.imgCmd_of_free _ hb ht, if_neg (by simp [h])]
  rfl

/-- APPLY of a full image in LOADED: the verified one, or else the retained one. -/
theorem doApply_of_loaded (hb : s.imgBusy = false) (ht : s.testEn = false) (h : s.imgState = 1) :
    doApply s = match s.img.verifiedFull, s.img.retained with
      | some i, _ => s.imgBegin (.applyFull i false)
      | none, some i => s.imgBegin (.applyFull i true)
      | none, none => s.imgEnd 9 := by
  have hstr : ¬ s.structured = true := by simp [State.structured, h]
  rw [doApply, State.imgCmd_of_free _ hb ht, if_neg hstr, if_pos h] <;> rfl

theorem doApply_of_inert (hb : s.imgBusy = false) (ht : s.testEn = false) (h : s.imgState = 0) : doApply s = s.imgEnd 9 := by
  have hstr : ¬ s.structured = true := by simp [State.structured, h]
  rw [doApply, State.imgCmd_of_free _ hb ht, if_neg hstr, if_neg (by omega)]

/-- APPLY of a tile image in STRUCTURED and ENABLED. -/
theorem doApply_of_structured (hb : s.imgBusy = false) (ht : s.testEn = false) (h : 2 ≤ s.imgState) :
    doApply s = match s.img.verifiedTile with
      | some t => if s.slotDrained t.slot && s.tileTargetOk t then s.imgBegin (.applyTile t) else s.imgEnd 9
      | none => s.imgEnd 9 := by
  have hstr : s.structured = true := by simp [State.structured, h]
  rw [doApply, State.imgCmd_of_free _ hb ht, if_pos hstr] <;> rfl

/-! ## The end of a load -/

theorem doLoadEnd_of_other (b : Bool) (h : s.img.op ≠ .load) : doLoadEnd b s = s := if_pos h

theorem doLoadEnd_false (h : s.img.op = .load) : doLoadEnd false s = s.imgIdle.dropVerified.imgEnd 12 := by
  simp [doLoadEnd, h]

/-- Verification finds the same once the load has ended. -/
theorem State.verify_imgIdle (s : State) :
    s.imgIdle.verify s.imgIdle.img.staging [1, 2] s.imgIdle.kindOk = s.verify s.img.staging [1, 2] s.kindOk := by
  have hkind : s.imgIdle.kindOk = s.kindOk := by
    rw [State.kindOk, State.kindOk, State.structured, State.structured, s.imgIdle_imgState]
  rw [hkind]
  rfl

/-- A full image that verification holds; it takes an INERT device to LOADED. -/
def State.loaded (s : State) (f : FullImage) : State :=
  let t : State := { s.imgIdle with img := { s.imgIdle.img with verifiedFull := some f, verifiedTile := none } }
  if s.imgState = 0 then t.put Reg.imgStatus Fld.imgStatusState 1 else t

theorem doLoadEnd_full {c : ImgConfig} (h : s.img.op = .load) (hv : s.verify s.img.staging [1, 2] s.kindOk = .full c) :
    doLoadEnd true s = (s.loaded ⟨c, 1⟩).imgEnd 0 := by
  have hstate : ({ s.imgIdle with img := { s.imgIdle.img with verifiedFull := some ⟨c, 1⟩, verifiedTile := none } } : State).imgState
      = s.imgState := s.imgIdle_imgState
  simp only [doLoadEnd, State.takeVerdict, State.verify_imgIdle, hv, h, ne_eq, not_true_eq_false, if_false, Bool.not_true,
    Bool.false_eq_true, hstate, State.loaded]

theorem State.loaded_facts (s : State) (f : FullImage) :
    (s.loaded f).img = { s.imgIdle.img with verifiedFull := some f, verifiedTile := none }
    ∧ (s.loaded f).imgState = max 1 s.imgState ∧ (s.loaded f).imgBusy = false := by
  unfold State.loaded
  dsimp only
  split
  · next h0 =>
    refine ⟨rfl, ?_, ?_⟩
    · rw [h0, State.imgState, State.get_put _ _ _ _ (by decide)]
      decide
    · rw [State.imgBusy, State.flag, State.get_put_apart _ _ _ _ _ (by decide) (by decide)]
      exact s.imgIdle_imgBusy
  · next h0 => exact ⟨rfl, s.imgIdle_imgState.trans (by omega), s.imgIdle_imgBusy⟩

theorem doLoadEnd_tile {x : TileImage} (h : s.img.op = .load) (hv : s.verify s.img.staging [1, 2] s.kindOk = .tile x) :
    doLoadEnd true s = ({ s.imgIdle with img := { s.imgIdle.img with verifiedTile := some x } } : State).imgEnd 0 := by
  simp only [doLoadEnd, State.takeVerdict, State.verify_imgIdle, hv, h, ne_eq, not_true_eq_false, if_false, Bool.not_true,
    Bool.false_eq_true, if_true]

theorem doLoadEnd_bad {e k : Nat} (h : s.img.op = .load) (hv : s.verify s.img.staging [1, 2] s.kindOk = .bad e k) :
    doLoadEnd true s = s.imgIdle.dropVerified.imgBad e k := by
  simp only [doLoadEnd, State.takeVerdict, State.verify_imgIdle, hv, h, ne_eq, not_true_eq_false, if_false, Bool.not_true,
    Bool.false_eq_true]

/-- An image that is refused shows its code; a code 8 names the section besides, and nothing else is touched. -/
theorem State.imgBad_facts (s : State) {e : Nat} (k : Nat) (he : e ≠ 0) : (s.imgBad e k).img = s.img
    ∧ (s.imgBad e k).imgState = s.imgState ∧ (s.imgBad e k).imgBusy = s.imgBusy
    ∧ (s.imgBad e k).flag Reg.imgStatus Fld.imgStatusDone = false ∧ (s.imgBad e k).flag Reg.imgStatus Fld.imgStatusFail = true
    ∧ (s.imgBad e k).get Reg.imgStatus Fld.imgStatusError = e % 2 ^ Fld.imgStatusError.width := by
  have hshow : ∃ t : State, s.imgBad e k = t.imgEnd e ∧ t.img = s.img ∧ t.imgState = s.imgState ∧ t.imgBusy = s.imgBusy := by
    unfold State.imgBad
    split
    · refine ⟨_, rfl, rfl, State.get_put_apart _ _ _ _ _ (by decide) (by decide), ?_⟩
      exact congrArg (· != 0) (State.get_put_apart _ _ Fld.imgStatusBusy _ _ (by decide) (by decide))
    · exact ⟨s, rfl, rfl, rfl, rfl⟩
  obtain ⟨t, ht, himg, hstate, hbusy⟩ := hshow
  rw [ht]
  refine ⟨(t.imgEnd_img e).trans himg, (t.imgEnd_imgState e).trans hstate, (t.imgEnd_imgBusy e).trans hbusy, ?_, ?_, t.imgEnd_error e he⟩
  · rw [t.imgEnd_done e]
    exact beq_false_of_ne he
  · rw [t.imgEnd_fail e]
    exact bne_iff_ne.mpr he

/-! ## The end of an apply -/

theorem State.islandsReady_imgIdle (s : State) : s.imgIdle.islandsReady = s.islandsReady := rfl

theorem doApplyEnd_of_other (b : Bool) (hf : ∀ f r, s.img.op ≠ .applyFull f r) (ht : ∀ x, s.img.op ≠ .applyTile x) :
    doApplyEnd b s = s := by
  unfold doApplyEnd
  split
  · next h => exact absurd h (hf _ _)
  · next h => exact absurd h (ht _)
  · rfl

theorem doApplyEnd_full {f : FullImage} {r b : Bool} (h : s.img.op = .applyFull f r) :
    doApplyEnd b s = if b then (s.imgIdle.applyFull f r).imgEnd 0 else s.imgIdle.imgEnd 12 := by
  simp [doApplyEnd, h]

/-- Deriving the basic fields of the exchange anew writes the register of their quota alone. -/
theorem State.rederive_exch_keeps (P : State → Prop) (s : State) (h : P s) (set : ∀ t w, P t → P (t.setWord Reg.arbQuota w)) :
    P (s.rederive Reg.exchCtrl) := by
  unfold State.rederive
  split
  · exact h
  · refine foldl_keeps P _ _ s h fun t a ha ht => ?_
    obtain rfl : a = Reg.arbQuota := by simpa using ha
    unfold State.toDerived
    split
    · exact ht
    · exact foldl_keeps P _ _ t ht fun u f _ hu => set u _ hu

theorem State.get_setWord_other (s : State) {a b : Nat} (w : Word) (f : Field) (h : b ≠ a) : (s.setWord a w).get b f = s.get b f :=
  congrArg f.get (s.word_setWord_other a b w h)

/-- Below the meters what a register reads is a matter of the register table alone. -/
theorem State.get_of_regs_eq {s t : State} (h : t.regs = s.regs) {a : Nat} (f : Field) (ha : a < 0x1C00000) : t.get a f = s.get a f := by
  rw [State.get, State.get, t.word_eq_getD ha, s.word_eq_getD ha, h]

theorem State.fillPools_get (s : State) (v : Word) : (s.fillPools v).get = s.get := rfl

theorem State.drawInc_get (s : State) {a : Nat} (f : Field) (h : a ≠ Reg.xportInc) : s.drawInc.get a f = s.get a f :=
  State.get_setWord_other _ _ f h

/-- The end of a full image's apply: what is in force, and IMAGE.STATUS. -/
theorem State.applyFull_facts (s : State) (f : FullImage) (r : Bool) :
    (s.applyFull f r).imgState = 2 ∧ (s.applyFull f r).imgBusy = s.imgBusy ∧ (s.applyFull f r).img = { s.img with
      applied := some f.config, retained := some f, verifiedFull := none, verifiedTile := none }
    ∧ (s.applyFull f r).tileMap = f.config.tileMap ∧ (s.applyFull f r).spareTile = f.config.spareTile
    ∧ (s.applyFull f r).islands = s.islandsReady := by
  unfold State.applyFull
  dsimp only
  refine State.rederive_exch_keeps (fun t => t.imgState = 2 ∧ t.imgBusy = s.imgBusy ∧ t.img = { s.img with
    applied := some f.config, retained := some f, verifiedFull := none, verifiedTile := none }
    ∧ t.tileMap = f.config.tileMap ∧ t.spareTile = f.config.spareTile ∧ t.islands = s.islandsReady) _ ?_ ?_
  · refine ⟨?_, ?_, rfl, rfl, rfl, rfl⟩
    · simp (disch := decide) only [State.imgState, State.fillPools_get, State.get_setWord_other, State.get_put_other,
        State.get_put_apart, State.get_put]
      decide
    · simp (disch := decide) only [State.imgBusy, State.flag, State.fillPools_get, State.get_setWord_other, State.get_put_other,
        State.get_put_apart, State.drawInc_get]
      refine congrArg (· != 0) ?_
      refine State.get_of_regs_eq ?_ _ (by decide : Reg.imgStatus < 0x1C00000)
      rfl
  · rintro t w ⟨h1, h2, h3⟩
    exact ⟨(congrArg Fld.imgStatusState.get (t.word_setWord_other _ _ w (by decide))).trans h1,
      (congrArg (fun v => Fld.imgStatusBusy.get v != 0) (t.word_setWord_other _ _ w (by decide))).trans h2, h3⟩

/-! ## The end of a flash fetch, and an island's channels -/

theorem doFlashFetchEnd_of_other (b : Bool) (h : ∀ x y, s.img.op ≠ .fetch x y) : doFlashFetchEnd b s = s := by
  unfold doFlashFetchEnd
  split
  · next hop => exact absurd hop (h _ _)
  · rfl

theorem doFlashFetchEnd_unread {x y : Bool} (h : s.img.op = .fetch x y) :
    doFlashFetchEnd false s = s.dropVerified.fetchFailed x y 11 0 := by
  simp [doFlashFetchEnd, h]

/-- Boot from the primary copy that failed goes on with the secondary, and notes its first failure. -/
theorem State.fetchFailed_primary (s : State) (e k : Nat) : s.fetchFailed false true e k =
    ({ s with img := { s.img with bootError := e + 16 * k } } : State).imgBegin (.fetch true true) := rfl

theorem doIslandChannelsOpen_eq (i : Nat) (s : State) : doIslandChannelsOpen i s =
    if (s.island i).inReset = false ∧ (s.island i).clockLocked = true ∧ (s.island i).loaded = true then
      allPorts.foldl (fun (t : State) p => t.tryBringUp p) (s.setIsland i { s.island i with channelsOpen := true })
    else s := by
  simp only [doIslandChannelsOpen, Bool.and_eq_true, Bool.not_eq_true', and_assoc]

/-! ## The next states of the commands -/

theorem yields_flashLoad (b : Bool) (hpow : s.powered = true) (hb : s.imgBusy = false) (ht : s.testEn = false) :
    Yields (.flashLoad b) s (fun t => t.imgState = s.imgState
      ∧ (if s.side.flashing && Config.flashOpGoesOn s.freeCtr then t.imgBusy = false ∧ t.flag Reg.imgStatus Fld.imgStatusFail = true
          ∧ t.get Reg.imgStatus Fld.imgStatusError = 10 ∧ t.img = s.img ∧ t.side.flashing = true
        else t.imgBusy = true ∧ t.img.op = .fetch b false ∧ t.out = s.out)) := by
  refine yields_of hpow (exec_flashLoad b s) ?_
  cases huse : s.side.flashing && Config.flashOpGoesOn s.freeCtr with
  | true =>
    rw [doFlashLoad_of_inUse hb ht huse]
    have hframe := ({ s with freeCtr := s.freeCtr + 1, side := { s.side with flashing := true } } : State).imgEnd_frame 10
    refine ⟨State.imgEnd_imgState _ _, (State.imgEnd_imgBusy _ _).trans hb, State.imgEnd_fail _ _,
      (State.imgEnd_error _ _ (by decide)).trans (by decide), ?_, ?_⟩
    all_goals
      obtain ⟨_, _, _, hframe⟩ := hframe
      rw [hframe]
      rfl
  | false =>
    obtain ⟨n, f, hload⟩ := doFlashLoad_of_free (b := b) hb ht huse
    rw [hload]
    refine ⟨?_, State.imgBegin_imgBusy _ _, rfl, rfl⟩
    refine (State.imgBegin_imgState _ _).trans ?_
    exact State.get_put_other _ _ _ _ _ _ (by decide)

theorem yields_loadEnd_false (hpow : s.powered = true) (h : s.img.op = .load) : Yields (.loadEnd false) s (fun t => t.img.op = .idle
    ∧ t.imgBusy = false ∧ t.img.verifiedFull = none ∧ t.img.verifiedTile = none ∧ t.imgState = s.imgState
    ∧ t.get Reg.imgStatus Fld.imgStatusError = 12) := by
  refine yields_of hpow (exec_loadEnd false s) ?_
  rw [doLoadEnd_false h]
  have himg : (s.imgIdle.dropVerified.imgEnd 12).img = s.imgIdle.dropVerified.img := State.imgEnd_img _ _
  exact ⟨congrArg ImageSt.op himg, (State.imgEnd_imgBusy _ _).trans s.imgIdle_imgBusy, congrArg ImageSt.verifiedFull himg,
    congrArg ImageSt.verifiedTile himg, (State.imgEnd_imgState _ _).trans s.imgIdle_imgState,
    (State.imgEnd_error _ _ (by decide)).trans (by decide)⟩

theorem yields_loadEnd_full {c : ImgConfig} (hpow : s.powered = true) (h : s.img.op = .load)
    (hv : s.verify s.img.staging [1, 2] s.kindOk = .full c) : Yields (.loadEnd true) s (fun t => t.img.verifiedFull = some ⟨c, 1⟩
      ∧ t.img.verifiedTile = none ∧ t.imgState = max 1 s.imgState ∧ t.imgBusy = false ∧ t.flag Reg.imgStatus Fld.imgStatusDone = true
      ∧ t.flag Reg.imgStatus Fld.imgStatusFail = false) := by
  refine yields_of hpow (exec_loadEnd true s) ?_
  rw [doLoadEnd_full h hv]
  obtain ⟨himg, hstate, hbusy⟩ := s.loaded_facts ⟨c, 1⟩
  have himg := (State.imgEnd_img _ 0).trans himg
  exact ⟨(congrArg ImageSt.verifiedFull himg :), (congrArg ImageSt.verifiedTile himg :), (State.imgEnd_imgState _ _).trans hstate,
    (State.imgEnd_imgBusy _ _).trans hbusy, State.imgEnd_done _ _, State.imgEnd_fail _ _⟩

theorem yields_loadEnd_tile {x : TileImage} (hpow : s.powered = true) (h : s.img.op = .load)
    (hv : s.verify s.img.staging [1, 2] s.kindOk = .tile x) : Yields (.loadEnd true) s (fun t => t.img.verifiedTile = some x
      ∧ t.img.verifiedFull = s.img.verifiedFull ∧ t.imgState = s.imgState ∧ t.imgBusy = false
      ∧ t.flag Reg.imgStatus Fld.imgStatusDone = true) := by
  refine yields_of hpow (exec_loadEnd true s) ?_
  rw [doLoadEnd_tile h hv]
  have himg := ({ s.imgIdle with img := { s.imgIdle.img with verifiedTile := some x } } : State).imgEnd_img 0
  exact ⟨(congrArg ImageSt.verifiedTile himg :), (congrArg ImageSt.verifiedFull himg :),
    (State.imgEnd_imgState _ _).trans s.imgIdle_imgState, (State.imgEnd_imgBusy _ _).trans s.imgIdle_imgBusy, State.imgEnd_done _ _⟩

theorem yields_loadEnd_bad {e k : Nat} (hpow : s.powered = true) (h : s.img.op = .load)
    (hv : s.verify s.img.staging [1, 2] s.kindOk = .bad e k) (h0 : 0 < e) (h256 : e < 256) :
    Yields (.loadEnd true) s (fun t => t.img.verifiedFull = none ∧ t.img.verifiedTile = none
      ∧ t.imgState = s.imgState ∧ t.imgBusy = false ∧ t.flag Reg.imgStatus Fld.imgStatusDone = false
      ∧ t.flag Reg.imgStatus Fld.imgStatusFail = true ∧ t.get Reg.imgStatus Fld.imgStatusError = e) := by
  refine yields_of hpow (exec_loadEnd true s) ?_
  rw [doLoadEnd_bad h hv]
  obtain ⟨himg, hstate, hbusy, hdone, hfail, herr⟩ := s.imgIdle.dropVerified.imgBad_facts k (e := e) (by omega)
  exact ⟨congrArg ImageSt.verifiedFull himg, congrArg ImageSt.verifiedTile himg, hstate.trans s.imgIdle_imgState,
    hbusy.trans s.imgIdle_imgBusy, hdone, hfail, herr.trans (Nat.mod_eq_of_lt h256)⟩

theorem yields_applyEnd_true {f : FullImage} {r : Bool} (hpow : s.powered = true) (h : s.img.op = .applyFull f r) :
    Yields (.applyEnd true) s (fun t => t.imgState = 2 ∧ t.imgBusy = false
      ∧ t.img.applied = some f.config ∧ t.img.retained = some f ∧ t.img.verifiedFull = none ∧ t.tileMap = f.config.tileMap
      ∧ t.spareTile = f.config.spareTile ∧ t.islands = s.islandsReady) := by
  refine yields_of hpow (exec_applyEnd true s) ?_
  rw [doApplyEnd_full h, if_pos rfl]
  obtain ⟨hstate, hbusy, himg, htile, hspare, hisl⟩ := s.imgIdle.applyFull_facts f r
  generalize s.imgIdle.applyFull f r = u at hstate hbusy himg htile hspare hisl ⊢
  obtain ⟨_, _, _, hframe⟩ := u.imgEnd_frame 0
  refine ⟨(State.imgEnd_imgState _ _).trans hstate, (State.imgEnd_imgBusy _ _).trans (hbusy.trans s.imgIdle_imgBusy), ?_⟩
  rw [hframe]
  exact ⟨(congrArg ImageSt.applied himg :), (congrArg ImageSt.retained himg :), (congrArg ImageSt.verifiedFull himg :), htile, hspare,
    hisl.trans s.islandsReady_imgIdle⟩

theorem yields_applyEnd_false {f : FullImage} {r : Bool} (hpow : s.powered = true) (h : s.img.op = .applyFull f r) :
    Yields (.applyEnd false) s (fun t => t.imgState = s.imgState ∧ t.imgBusy = false ∧ t.img.applied = s.img.applied
      ∧ t.img.retained = s.img.retained ∧ t.img.verifiedFull = s.img.verifiedFull ∧ t.get Reg.imgStatus Fld.imgStatusError = 12) := by
  refine yields_of hpow (exec_applyEnd false s) ?_
  rw [doApplyEnd_full h, if_neg (by decide)]
  have himg := s.imgIdle.imgEnd_img 12
  exact ⟨(State.imgEnd_imgState _ _).trans s.imgIdle_imgState, (State.imgEnd_imgBusy _ _).trans s.imgIdle_imgBusy,
    (congrArg ImageSt.applied himg :), (congrArg ImageSt.retained himg :), (congrArg ImageSt.verifiedFull himg :),
    (State.imgEnd_error _ _ (by decide)).trans (by decide)⟩

theorem yields_flashFetchEnd_unread {x : Bool} (hpow : s.powered = true) (h : s.img.op = .fetch x false) :
    Yields (.flashFetchEnd false) s (fun t => t.imgBusy = false ∧ t.img.op = .idle
      ∧ t.imgState = s.imgState ∧ t.get Reg.imgStatus Fld.imgStatusError = 11) := by
  refine yields_of hpow (exec_flashFetchEnd false s) ?_
  rw [doFlashFetchEnd_unread h]
  obtain ⟨himg, hstate, hbusy, -, -, herr⟩ := s.dropVerified.imgIdle.imgBad_facts 0 (e := 11) (by decide)
  exact ⟨hbusy.trans s.dropVerified.imgIdle_imgBusy, congrArg ImageSt.op himg, hstate.trans s.dropVerified.imgIdle_imgState, herr⟩

theorem yields_flashFetchEnd_boot (hpow : s.powered = true) (h : s.img.op = .fetch false true) :
    Yields (.flashFetchEnd false) s (fun t => t.imgBusy = true ∧ t.img.op = .fetch true true
      ∧ t.img.bootError = 11 ∧ t.imgState = s.imgState ∧ t.out = s.out) := by
  refine yields_of hpow (exec_flashFetchEnd false s) ?_
  rw [doFlashFetchEnd_unread h, State.fetchFailed_primary]
  exact ⟨State.imgBegin_imgBusy _ _, rfl, rfl,
    (State.imgBegin_imgState _ _).trans (State.get_of_regs_eq rfl _ (by decide : Reg.imgStatus < 0x1C00000)), rfl⟩

end

/-- Settles O11. -/
theorem imageCommands : Obligations.ImageCommands := by
  unfold Obligations.ImageCommands
  intro s b i hpow
  refine ⟨fun c hc => ?_, ?_, fun hb ht => ?_, fun hb ht => ⟨?_, fun h => ?_, fun h => ?_, fun h f hf => ?_, fun h hf f hr => ?_,
    fun h hf hr => ?_, fun h => ?_, fun h hx => ?_, fun h x hx hd => ?_, fun h x hx hd ho => ?_⟩, fun h => ?_, fun h => ?_,
    fun h v hv => ⟨fun c hc => ?_, fun x hx => ?_, fun e k he h0 h256 => ?_⟩, fun hf hx => ?_, fun f r h => ⟨?_, ?_⟩, fun h => ?_,
    fun x h => ?_, fun h => ?_, fun x hx => ⟨fun h => ?_, fun h => ?_⟩⟩
  -- refusals
  · obtain ⟨f, hexec⟩ := exec_imgCmd (s := s) hc
    exact ⟨fun h => does_of hpow hexec (State.imgCmd_of_busy f h), fun hb ht => does_of hpow hexec (State.imgCmd_of_test f hb ht)⟩
  · rintro n hn t rfl
    refine ⟨s.imgEnd_error n hn, ?_, ?_, s.imgEnd_imgState n, s.imgEnd_img n⟩
    · rw [s.imgEnd_fail n]
      exact bne_iff_ne.mpr hn
    · rw [s.imgEnd_done n]
      exact beq_false_of_ne hn
  -- a flash fetch begins, or finds the flash in use
  · exact yields_flashLoad b hpow hb ht
  -- load, enable and apply
  · refine yields_of hpow (exec_load s) ?_
    rw [doLoad, State.imgCmd_of_free _ hb ht]
    exact ⟨s.imgBegin_imgBusy _, rfl, s.imgBegin_imgState _, rfl⟩
  · exact does_of hpow (exec_enable s) (doEnable_of_notStructured hb ht h)
  · exact does_of hpow (exec_enable s) (doEnable_of_structured hb ht h)
  · exact does_of hpow (exec_apply s) (by rw [doApply_of_loaded hb ht h, hf])
  · exact does_of hpow (exec_apply s) (by rw [doApply_of_loaded hb ht h, hf, hr])
  · exact does_of hpow (exec_apply s) (by rw [doApply_of_loaded hb ht h, hf, hr])
  · exact does_of hpow (exec_apply s) (doApply_of_inert hb ht h)
  · exact does_of hpow (exec_apply s) (by rw [doApply_of_structured hb ht h, hx])
  · exact does_of hpow (exec_apply s) (by simp [doApply_of_structured hb ht h, hx, hd])
  · exact does_of hpow (exec_apply s) (by simp [doApply_of_structured hb ht h, hx, hd, ho])
  -- the end of a load
  · exact does_of hpow (exec_loadEnd b s) (doLoadEnd_of_other b h)
  · exact yields_loadEnd_false hpow h
  · exact yields_loadEnd_full hpow h (hv ▸ hc)
  · exact yields_loadEnd_tile hpow h (hv ▸ hx)
  · exact yields_loadEnd_bad hpow h (hv ▸ he) h0 h256
  -- the end of an apply
  · exact does_of hpow (exec_applyEnd b s) (doApplyEnd_of_other b hf hx)
  · exact yields_applyEnd_true hpow h
  · exact yields_applyEnd_false hpow h
  -- the end of a flash fetch
  · exact does_of hpow (exec_flashFetchEnd b s) (doFlashFetchEnd_of_other b h)
  · exact yields_flashFetchEnd_unread hpow h
  · exact yields_flashFetchEnd_boot hpow h
  -- an island's channels
  · subst hx
    exact does_of hpow (exec_islandChannelsOpen i s) (by rw [doIslandChannelsOpen_eq, if_pos h])
  · subst hx
    exact does_of hpow (exec_islandChannelsOpen i s) (by rw [doIslandChannelsOpen_eq, if_neg h])

end Sys2Proof.Machine
end

section
/-! Little-endian bytes, bit fields of a number, and the header flit (R190, R222). -/

namespace Sys2Proof.Machine

/-! ## Little-endian bytes -/

@[simp] theorem leBytes_length (v n : Nat) : (leBytes v n).length = n := by
  induction n generalizing v with
  | zero => rfl
  | succ n ih => simp [leBytes, ih]

theorem leNat_leBytes (v n : Nat) : leNat (leBytes v n) = v % 256 ^ n := by
  induction n generalizing v with
  | zero => simp [leBytes, leNat, Nat.mod_one]
  | succ n ih => rw [leBytes, leNat, ih, BitVec.toNat_ofNat, pow_succ' 256 n, Nat.mod_mul]

/-- A field of a list of bytes that begins with another number is past that number. -/
theorem atBytes_skip (v : Nat) {k off : Nat} (n : Nat) (l : List Byte) (h : k ≤ off) :
    atBytes (leBytes v k ++ l) off n = atBytes l (off - k) n := by
  rw [atBytes, atBytes, List.drop_append, List.drop_eq_nil_of_le (by simpa using h), List.nil_append, leBytes_length]

theorem atBytes_first (v n : Nat) (l : List Byte) : atBytes (leBytes v n ++ l) 0 n = v % 256 ^ n := by
  rw [atBytes, List.drop_zero, List.take_append_of_le_length (leBytes_length v n).ge, List.take_of_length_le (leBytes_length v n).le,
    leNat_leBytes]

theorem atBytes_only (v n : Nat) : atBytes (leBytes v n) 0 n = v % 256 ^ n := by
  simpa using atBytes_first v n []

/-! ## Bit fields of a number -/

theorem bits_eq (n hi lo : Nat) : bits n hi lo = n / 2 ^ lo % 2 ^ (hi + 1 - lo) := by
  rw [bits, Nat.shiftRight_eq_div_pow]

theorem bit_eq (n i : Nat) : bit n i = decide (n / 2 ^ i % 2 = 1) := Nat.testBit_eq_decide_div_mod_eq

theorem b2n_lt (b : Bool) : b2n b < 2 := by cases b <;> decide

theorem bit_eq_of_field {n i : Nat} {b : Bool} (h : n / 2 ^ i % 2 = b2n b) : bit n i = b := by
  rw [bit_eq, h]
  cases b <;> rfl

/-- The number whose bit fields, from bit 0 on, have the widths and values of a list. -/
def pack : List (Nat × Nat) → Nat
  | [] => 0
  | x :: l => x.2 + 2 ^ x.1 * pack l

/-- The bit of a field's first place. -/
def packLo (l : List (Nat × Nat)) (i : Nat) : Nat := ((l.take i).map (·.1)).sum

/-- A field of a packed number is the value packed there. -/
theorem pack_div_mod {l : List (Nat × Nat)} (hl : ∀ x ∈ l, x.2 < 2 ^ x.1) {i w v : Nat} (hi : l[i]? = some (w, v)) :
    pack l / 2 ^ packLo l i % 2 ^ w = v := by
  induction l generalizing i with
  | nil => simp at hi
  | cons x l ih =>
    have hx : x.2 < 2 ^ x.1 := hl x List.mem_cons_self
    cases i with
    | zero =>
      obtain rfl : x = (w, v) := by simpa using hi
      simp only [packLo, List.take_zero, List.map_nil, List.sum_nil, pow_zero, Nat.div_one, pack, Nat.add_mul_mod_self_left,
        Nat.mod_eq_of_lt hx]
    | succ i =>
      have hlo : packLo (x :: l) (i + 1) = x.1 + packLo l i := by simp [packLo]
      have hskip : pack (x :: l) / 2 ^ x.1 = pack l := by
        rw [pack, Nat.add_mul_div_left _ _ (by positivity), Nat.div_eq_of_lt hx, Nat.zero_add]
      rw [hlo, pow_add, ← Nat.div_div_eq_div_mul, hskip]
      exact ih (fun y hy => hl y (List.mem_cons_of_mem x hy)) (by simpa using hi)

theorem bits_pack {l : List (Nat × Nat)} (hl : ∀ x ∈ l, x.2 < 2 ^ x.1) (i : Nat) {h lo v : Nat} (hi : l[i]? = some (h + 1 - lo, v))
    (hlo : packLo l i = lo) : bits (pack l) h lo = v := by
  rw [bits_eq, ← pack_div_mod hl hi, hlo]

theorem bit_pack {l : List (Nat × Nat)} (hl : ∀ x ∈ l, x.2 < 2 ^ x.1) (i : Nat) {lo : Nat} {b : Bool} (hi : l[i]? = some (1, b2n b))
    (hlo : packLo l i = lo) : bit (pack l) lo = b := by
  have hfield := pack_div_mod hl hi
  rw [hlo, pow_one] at hfield
  exact bit_eq_of_field hfield

/-! ## The route word -/

/-- The fields of the route word (R190), from bit 0 on. -/
def routeFields (r : RouteWord) : List (Nat × Nat) :=
  [(18, r.dst), (10, r.via), (1, b2n r.nonmin), (2, r.stage), (1, r.order), (8, r.segTgt), (8, r.segPort), (4, r.hops), (5, r.vc),
    (1, b2n r.mcast), (1, b2n r.mdim)]

section
variable {r : RouteWord} (h : r.wf = true)
include h

theorem routeFields_fit : ∀ x ∈ routeFields r, x.2 < 2 ^ x.1 := by
  simp only [RouteWord.wf, decide_eq_true_eq] at h
  have hn := b2n_lt r.nonmin
  have hc := b2n_lt r.mcast
  have hd := b2n_lt r.mdim
  simp only [routeFields, List.forall_mem_cons, List.not_mem_nil, false_imp_iff, implies_true, and_true]
  omega

theorem routeWord_eq_pack : r.word = pack (routeFields r) := by
  simp only [RouteWord.wf, decide_eq_true_eq] at h
  obtain ⟨h1, h2, h3, h4, h5, h6, h7, h8⟩ := h
  unfold RouteWord.word
  simp only [Nat.shiftLeft_eq, Nat.mod_eq_of_lt h1, Nat.mod_eq_of_lt h2, Nat.mod_eq_of_lt h3, Nat.mod_eq_of_lt h4, Nat.mod_eq_of_lt h5,
    Nat.mod_eq_of_lt h6, Nat.mod_eq_of_lt h7, Nat.mod_eq_of_lt h8]
  simp only [routeFields, pack]
  omega

theorem ofWord_word : RouteWord.ofWord r.word = r := by
  have hfit := routeFields_fit h
  rw [routeWord_eq_pack h]
  exact (RouteWord.mk.injEq ..).mpr ⟨bits_pack hfit 0 rfl rfl, bits_pack hfit 1 rfl rfl, bit_pack hfit 2 rfl rfl,
    bits_pack hfit 3 rfl rfl, bits_pack hfit 4 rfl rfl, bits_pack hfit 5 rfl rfl, bits_pack hfit 6 rfl rfl, bits_pack hfit 7 rfl rfl,
    bits_pack hfit 8 rfl rfl, bit_pack hfit 9 rfl rfl, bit_pack hfit 10 rfl rfl⟩

end

end Sys2Proof.Machine
end

section
/-! The header flit states every field of its packet (R190, R222). -/

namespace Sys2Proof.Machine

/-- The flags of a header, from bit 0 of byte 1 on. -/
def headerFlags (p : Packet) : List (Nat × Nat) :=
  [(3, p.tc), (1, b2n p.locked), (1, b2n p.de), (1, b2n p.final), (1, b2n p.ackv), (1, b2n p.seqd)]

/-- Whom the packet comes from, from bit 0 of byte 4 on. -/
def headerSource (p : Packet) : List (Nat × Nat) := [(18, p.src), (12, p.sInst)]

/-- The header flit as numbers of so many bytes, one after another. -/
theorem header_eq (p : Packet) : p.header =
    leBytes p.op 1 ++ (leBytes (p.tc % 8 + 8 * b2n p.locked + 16 * b2n p.de + 32 * b2n p.final + 64 * b2n p.ackv + 128 * b2n p.seqd) 1
    ++ (leBytes (p.plen % 2 ^ 13) 2 ++ (leBytes (p.src % 2 ^ 18 + (p.sInst % 4096) <<< 18) 4 ++ (leBytes p.route.word 8
    ++ (leBytes p.seq 3 ++ (leBytes p.attempt 1 ++ (leBytes p.inc 2 ++ (leBytes (p.tInst % 4096) 2 ++ (leBytes p.xid 4
    ++ (leBytes (p.pidx % 2 ^ 20) 3 ++ (leBytes 0 1 ++ (leBytes p.base 8 ++ (leBytes (p.xlen % 2 ^ 33) 5 ++ (leBytes p.ackNext 3
    ++ (leBytes p.limit 3 ++ (leBytes 0 1 ++ (leBytes p.key 4 ++ (leBytes p.aux 4 ++ leBytes p.crc 4)))))))))))))))))) := by
  have hzero : ([0] : List Byte) = leBytes 0 1 := rfl
  simp only [Packet.header, Packet.head, Packet.body, hzero, List.append_assoc]

section
variable {p : Packet} (h : p.wf = true)
include h

theorem headerFlags_fit : ∀ x ∈ headerFlags p, x.2 < 2 ^ x.1 := by
  simp only [Packet.wf, Bool.and_eq_true, decide_eq_true_eq] at h
  have hb := b2n_lt
  simp only [headerFlags, List.forall_mem_cons, List.not_mem_nil, false_imp_iff, implies_true, and_true, pow_one]
  exact ⟨by omega, hb _, hb _, hb _, hb _, hb _⟩

theorem headerSource_fit : ∀ x ∈ headerSource p, x.2 < 2 ^ x.1 := by
  simp only [Packet.wf, Bool.and_eq_true, decide_eq_true_eq] at h
  simp only [headerSource, List.forall_mem_cons, List.not_mem_nil, false_imp_iff, implies_true, and_true]
  omega

theorem flags_eq_pack : p.tc % 8 + 8 * b2n p.locked + 16 * b2n p.de + 32 * b2n p.final + 64 * b2n p.ackv + 128 * b2n p.seqd
    = pack (headerFlags p) := by
  simp only [Packet.wf, Bool.and_eq_true, decide_eq_true_eq] at h
  simp only [headerFlags, pack]
  omega

theorem source_eq_pack : p.src % 2 ^ 18 + (p.sInst % 4096) <<< 18 = pack (headerSource p) := by
  simp only [Packet.wf, Bool.and_eq_true, decide_eq_true_eq] at h
  simp only [headerSource, pack, Nat.shiftLeft_eq]
  omega

end

/-- What a packed number of less than its bytes' bits reads back as. -/
theorem pack_lt {l : List (Nat × Nat)} (hl : ∀ x ∈ l, x.2 < 2 ^ x.1) : pack l < 2 ^ (l.map (·.1)).sum := by
  induction l with
  | nil => simp [pack]
  | cons x l ih =>
    have hx : x.2 + 1 ≤ 2 ^ x.1 := hl x List.mem_cons_self
    have ih := ih fun y hy => hl y (List.mem_cons_of_mem x hy)
    rw [pack, List.map_cons, List.sum_cons, pow_add]
    calc x.2 + 2 ^ x.1 * pack l < 2 ^ x.1 + 2 ^ x.1 * pack l := by omega
      _ = 2 ^ x.1 * (pack l + 1) := by ring
      _ ≤ 2 ^ x.1 * 2 ^ (l.map (·.1)).sum := Nat.mul_le_mul_left _ ih

theorem header_length (p : Packet) : p.header.length = 64 := by
  rw [header_eq]
  simp only [List.length_append, leBytes_length]

/-- The bounds of a packet's fields that a header carries whole. -/
theorem packet_wf_bounds {p : Packet} (h : p.wf = true) : p.route.wf = true ∧ p.op < 2 ^ 8 ∧ p.plen < 2 ^ 13 ∧ p.seq < 2 ^ 24
    ∧ p.attempt < 2 ^ 8 ∧ p.inc < 2 ^ 16 ∧ p.tInst < 4096 ∧ p.xid < 2 ^ 32 ∧ p.pidx < 2 ^ 20 ∧ p.base < 2 ^ 64 ∧ p.xlen < 2 ^ 33
    ∧ p.ackNext < 2 ^ 24 ∧ p.limit < 2 ^ 24 ∧ p.key < 2 ^ 32 ∧ p.aux < 2 ^ 32 ∧ p.crc < 2 ^ 32 := by
  simp only [Packet.wf, Bool.and_eq_true, decide_eq_true_eq] at h
  obtain ⟨⟨⟨⟨hroute, h1⟩, h2⟩, h3⟩, h4⟩ := h
  exact ⟨hroute, by omega⟩

theorem routeWord_lt {r : RouteWord} (h : r.wf = true) : r.word < 2 ^ 64 := by
  rw [routeWord_eq_pack h]
  exact (pack_lt (routeFields_fit h)).trans_le (Nat.pow_le_pow_right (by decide) (by change 59 ≤ 64; decide))

/-- Every number that a header carries, read back where it stands. -/
theorem atBytes_header {p : Packet} (h : p.wf = true) :
    (atBytes p.header 0 1 = p.op ∧ atBytes p.header 1 1 = pack (headerFlags p) ∧ atBytes p.header 2 2 = p.plen
      ∧ atBytes p.header 4 4 = pack (headerSource p) ∧ atBytes p.header 8 8 = p.route.word ∧ atBytes p.header 16 3 = p.seq)
    ∧ (atBytes p.header 19 1 = p.attempt ∧ atBytes p.header 20 2 = p.inc ∧ atBytes p.header 22 2 = p.tInst
      ∧ atBytes p.header 24 4 = p.xid ∧ atBytes p.header 28 3 = p.pidx ∧ atBytes p.header 32 8 = p.base)
    ∧ (atBytes p.header 40 5 = p.xlen ∧ atBytes p.header 45 3 = p.ackNext ∧ atBytes p.header 48 3 = p.limit
      ∧ atBytes p.header 52 4 = p.key ∧ atBytes p.header 56 4 = p.aux ∧ atBytes p.header 60 4 = p.crc) := by
  obtain ⟨hroute, h1, h2, h3, h4, h5, h6, h7, h8, h9, h10, h11, h12, h13, h14, h15⟩ := packet_wf_bounds h
  have hr := routeWord_lt hroute
  have hf : pack (headerFlags p) < 2 ^ 8 := pack_lt (headerFlags_fit h)
  have hs : pack (headerSource p) < 2 ^ 32 := (pack_lt (headerSource_fit h)).trans_le (Nat.pow_le_pow_right (by decide) (by change 30 ≤ 32; decide))
  rw [header_eq, flags_eq_pack h, source_eq_pack h]
  generalize pack (headerFlags p) = fl at *
  generalize pack (headerSource p) = sr at *
  generalize p.route.word = rw at *
  simp (disch := decide) only [atBytes_skip, atBytes_first, atBytes_only, Nat.reduceSub]
  omega

theorem ofHeader_header {p : Packet} (h : p.wf = true) : Packet.ofHeader p.header = { p with payload := [] } := by
  obtain ⟨⟨h0, h1, h2, h4, h8, h16⟩, ⟨h19, h20, h22, h24, h28, h32⟩, h40, h45, h48, h52, h56, h60⟩ := atBytes_header h
  obtain ⟨hroute, -, hplen, -, -, -, hinst, -, hpidx, -, hxlen, -⟩ := packet_wf_bounds h
  have hflags := headerFlags_fit h
  have hsource := headerSource_fit h
  have htc : pack (headerFlags p) % 8 = p.tc := by
    have hfield := pack_div_mod hflags (i := 0) rfl
    simpa [packLo] using hfield
  have hlocked : bit (pack (headerFlags p)) 3 = p.locked := bit_pack hflags 1 rfl rfl
  have hde : bit (pack (headerFlags p)) 4 = p.de := bit_pack hflags 2 rfl rfl
  have hfinal : bit (pack (headerFlags p)) 5 = p.final := bit_pack hflags 3 rfl rfl
  have hackv : bit (pack (headerFlags p)) 6 = p.ackv := bit_pack hflags 4 rfl rfl
  have hseqd : bit (pack (headerFlags p)) 7 = p.seqd := bit_pack hflags 5 rfl rfl
  have hsrc : bits (pack (headerSource p)) 17 0 = p.src := bits_pack hsource 0 rfl rfl
  have hsInst : bits (pack (headerSource p)) 29 18 = p.sInst := bits_pack hsource 1 rfl rfl
  simp only [Packet.ofHeader, h0, h1, h2, h4, h8, h16, h19, h20, h22, h24, h28, h32, h40, h45, h48, h52, h56, h60, ofWord_word hroute,
    htc, Nat.mod_eq_of_lt hplen, Nat.mod_eq_of_lt hinst, Nat.mod_eq_of_lt hpidx, Nat.mod_eq_of_lt hxlen, hlocked, hde, hfinal, hackv,
    hseqd, hsrc, hsInst]

/-- Settles O25: the header is a list of little-endian numbers, and its flags, its source and the route word are packed fields; each reads
back. -/
theorem headerRoundTrip : Obligations.HeaderRoundTrip := by
  unfold Obligations.HeaderRoundTrip
  refine ⟨fun p h => ?_, fun r h => ofWord_word h⟩
  obtain ⟨⟨-, -, -, -, hroute, -⟩, -, -, -, -, -, -, hcrc⟩ := atBytes_header h
  exact ⟨header_length p, hroute, hcrc, ofHeader_header h⟩

end Sys2Proof.Machine
end

section
/-! The register map (R11): a register is found at its own address with its own indices. Two families of registers are apart when one ends
before the other begins, or when they have one stride and stand at places of it that do not meet; all families are apart, so that an address
has one register. -/

namespace Sys2Proof.Machine

/-- The address of the register of a family with indices i and j. -/
def regPlace (d : RegDesc) (i j : Nat) : Nat := d.base + i * d.s1 + j * d.s2

/-- What the second index adds at most. -/
def rowSpan (d : RegDesc) : Nat := (d.n2 - 1) * d.s2

/-- The indices of a family can be told from an address in it. -/
def regular (d : RegDesc) : Bool :=
  decide ((d.s1 = 0 → d.n1 = 1) ∧ (d.s2 = 0 → d.n2 = 1) ∧ (d.s1 ≠ 0 → rowSpan d < d.s1))

/-- `d` ends before `e` begins; or both have one stride, and the row of `d` ends before that of `e` begins, which ends within the stride; or
both have both strides, and `e` stands at a later place of the second. -/
def before (d e : RegDesc) : Bool :=
  decide (d.base + (d.n1 - 1) * d.s1 + rowSpan d < e.base)
  || decide (d.s1 = e.s1 ∧ d.base + rowSpan d < e.base ∧ e.base + rowSpan e < d.base + d.s1)
  || decide (d.s1 = e.s1 ∧ d.s2 = e.s2 ∧ d.base < e.base ∧ e.base < d.base + d.s2 ∧ rowSpan d < d.s1 ∧ e.base + rowSpan e < d.base + d.s1)

/-! ## Families that are apart -/

/-- Two numbers less than a stride apart never meet by whole strides. -/
theorem stride_ne {a b n : Nat} (hab : a < b) (hba : b < a + n) (i k : Nat) : a + i * n ≠ b + k * n := by
  intro h
  obtain hik | hik := Nat.lt_or_ge k i
  · have := Nat.mul_le_mul_right n (Nat.succ_le_of_lt hik)
    rw [Nat.succ_mul] at this
    omega
  · have := Nat.mul_le_mul_right n hik
    omega

theorem index_mul_le {i n s : Nat} (h : i < n) : i * s ≤ (n - 1) * s := Nat.mul_le_mul_right s (by omega)

theorem regPlace_ne_of_before {d e : RegDesc} (h : before d e = true) {i j k m : Nat} (hi : i < d.n1) (hj : j < d.n2) (hm : m < e.n2) :
    regPlace d i j ≠ regPlace e k m := by
  have hrow := index_mul_le (s := d.s2) hj
  have hrow' := index_mul_le (s := e.s2) hm
  simp only [before, Bool.or_eq_true, decide_eq_true_eq] at h
  simp only [rowSpan] at h
  obtain (h | ⟨hs, h1, h2⟩) | ⟨hs, hs2, h1, h2, h3, h4⟩ := h
  · have hcol := index_mul_le (s := d.s1) hi
    simp only [regPlace]
    omega
  · have hne := stride_ne (a := d.base + j * d.s2) (b := e.base + m * e.s2) (n := d.s1) (by omega) (by omega) i k
    simp only [regPlace, ← hs]
    omega
  · rw [← hs2] at hrow' h4
    simp only [regPlace, ← hs, ← hs2]
    intro heq
    obtain hik | rfl | hik := Nat.lt_trichotomy i k
    · have := Nat.mul_le_mul_right d.s1 (Nat.succ_le_of_lt hik)
      rw [Nat.succ_mul] at this
      omega
    · have hne := stride_ne h1 h2 j m
      omega
    · have := Nat.mul_le_mul_right d.s1 (Nat.succ_le_of_lt hik)
      rw [Nat.succ_mul] at this
      omega

/-! ## A register at its own address -/

theorem at?_regPlace {d : RegDesc} (h : regular d = true) {i j : Nat} (hi : i < d.n1) (hj : j < d.n2) :
    d.at? (regPlace d i j) = some (i, j) := by
  have hrow := index_mul_le (s := d.s2) hj
  simp only [regular, decide_eq_true_eq] at h
  simp only [rowSpan] at h
  obtain ⟨h1, h2, hspan⟩ := h
  have hoff : regPlace d i j - d.base = j * d.s2 + i * d.s1 := by
    simp only [regPlace]
    omega
  have hplace : ¬ regPlace d i j < d.base := by
    simp only [regPlace]
    omega
  have hfirst : (if d.s1 = 0 then 0 else (j * d.s2 + i * d.s1) / d.s1) = i
      ∧ (if d.s1 = 0 then j * d.s2 + i * d.s1 else (j * d.s2 + i * d.s1) % d.s1) = j * d.s2 := by
    split
    · next hz =>
      have := h1 hz
      rw [hz]
      omega
    · next hz =>
      have hlt : j * d.s2 < d.s1 := by
        have := hspan hz
        omega
      rw [Nat.add_mul_div_right _ _ (by omega), Nat.add_mul_mod_self_right, Nat.div_eq_of_lt hlt, Nat.mod_eq_of_lt hlt]
      omega
  have hsecond : (if d.s2 = 0 then 0 else j * d.s2 / d.s2) = j ∧ (if d.s2 = 0 then j * d.s2 else j * d.s2 % d.s2) = 0 := by
    split
    · next hz =>
      have := h2 hz
      rw [hz]
      omega
    · next hz => exact ⟨Nat.mul_div_cancel _ (by omega), Nat.mul_mod_left _ _⟩
  simp only [RegDesc.at?, if_neg hplace, hoff, hfirst.1, hfirst.2, hsecond.1, hsecond.2, hi, hj, and_self, if_true]

/-! ## The table -/

theorem regTable_regular : ∀ d ∈ regTable, regular d = true := by decide +kernel

theorem regTable_apart : regTable.Pairwise (fun d e => (before d e || before e d) = true) := by decide +kernel

theorem regTable_fields : ∀ d ∈ regTable, ∀ f ∈ d.fields, f.field.fits = true ∧ ∀ g ∈ d.fields, f = g ∨ f.field.apart g.field = true := by
  decide +kernel

theorem regAt_regPlace {d : RegDesc} (hd : d ∈ regTable) {i j : Nat} (hi : i < d.n1) (hj : j < d.n2) :
    regAt (regPlace d i j) = some (d, i, j) := by
  obtain ⟨l, r, htable⟩ := List.append_of_mem hd
  refine regAt_of_split htable (fun e he => ?_) (at?_regPlace (regTable_regular d hd) hi hj)
  have hapart : (before e d || before d e) = true := by
    have hpair := regTable_apart
    rw [htable, List.pairwise_append] at hpair
    obtain ⟨-, -, hcross⟩ := hpair
    exact hcross e he d List.mem_cons_self
  rw [Option.eq_none_iff_forall_ne_some]
  rintro ⟨k, m⟩ hat
  obtain ⟨hplace, hk, hm⟩ := RegDesc.eq_of_at?_eq_some hat
  obtain h | h := Bool.or_eq_true_iff.mp hapart
  · exact regPlace_ne_of_before h hk hm hj hplace.symm
  · exact regPlace_ne_of_before h hi hj hm hplace

/-- Settles O8. -/
theorem registerMap : Obligations.RegisterMap := by
  unfold Obligations.RegisterMap
  exact ⟨fun d hd i j hi hj => regAt_regPlace hd hi hj, regTable_fields⟩

end Sys2Proof.Machine
end

section
/-! The line code (R75 to R86, R118): control blocks as bytes and back, the scrambler, precoding and level indexes. -/

namespace Sys2Proof.Machine

/-! ## Records in a list of bytes -/

theorem padTo_eq {n : Nat} {l : List Byte} (h : l.length ≤ n) : padTo n l = l ++ List.replicate (n - l.length) 0 := by
  rw [padTo, List.take_append, List.take_of_length_le h, List.take_replicate, Nat.min_eq_left (Nat.sub_le _ _)]

theorem padTo_length (n : Nat) (l : List Byte) : (padTo n l).length = n := by
  simp [padTo]

/-- Records of one length, one after another. -/
theorem flatten_records_length {α : Type} {f : α → List Byte} {m : Nat} (hlen : ∀ x, (f x).length = m) (l : List α) :
    ((l.map f).flatten).length = m * l.length := by
  induction l with
  | nil => rfl
  | cons x l ih => rw [List.map_cons, List.flatten_cons, List.length_append, ih, hlen, List.length_cons]; ring

/-- Past i records of one length the next one begins. -/
theorem drop_records {α : Type} {f : α → List Byte} {m : Nat} (hlen : ∀ x, (f x).length = m) (l : List α) (rest : List Byte) {i : Nat}
    (hi : i < l.length) :
    ∃ tail, ((l.map f).flatten ++ rest).drop (m * i) = f l[i] ++ tail := by
  induction l generalizing i with
  | nil => simp at hi
  | cons x l ih =>
    cases i with
    | zero => exact ⟨_, List.append_assoc _ _ _⟩
    | succ i =>
      obtain ⟨tail, htail⟩ := ih (Nat.lt_of_succ_lt_succ hi)
      refine ⟨tail, ?_⟩
      rw [Nat.mul_succ, Nat.add_comm, ← List.drop_drop, List.map_cons, List.flatten_cons, List.append_assoc, List.drop_left' (hlen x)]
      exact htail

theorem atBytes_add (b : List Byte) (p o n : Nat) : atBytes b (p + o) n = atBytes (b.drop p) o n := by
  rw [atBytes, atBytes, List.drop_drop]

/-- Records of one length read back, one after another, where each reads back by itself. -/
theorem map_range_records {α : Type} {f : α → List Byte} {g : List Byte → Nat → α} {m : Nat} (hlen : ∀ x, (f x).length = m)
    (hg : ∀ b p, g b p = g (b.drop p) 0) (pre rest : List Byte) (l : List α) (hread : ∀ x ∈ l, ∀ tail, g (f x ++ tail) 0 = x) :
    (List.range l.length).map (fun i => g (pre ++ ((l.map f).flatten ++ rest)) (pre.length + m * i)) = l := by
  refine List.ext_getElem (by simp) fun i h₁ h₂ => ?_
  obtain ⟨tail, htail⟩ := drop_records hlen l rest h₂
  rw [List.getElem_map, List.getElem_range, hg, ← List.drop_drop, List.drop_left, htail]
  exact hread _ (List.getElem_mem h₂) tail

/-! ## The records of a SEAL and of a CREDIT -/

theorem sealRec_length (r : SealRec) : (SealRec.bytes r).length = 9 := by
  simp only [SealRec.bytes, List.length_append, leBytes_length]

theorem sealRec_ofBytes_drop (b : List Byte) (p : Nat) : SealRec.ofBytes b p = SealRec.ofBytes (b.drop p) 0 := by
  simp only [SealRec.ofBytes, atBytes_add, Nat.zero_add, ← atBytes_add b p 0, Nat.add_zero]

theorem sealRec_read (r : SealRec) (tail : List Byte) : SealRec.ofBytes (SealRec.bytes r ++ tail) 0 = r := by
  obtain ⟨seq, crc, hmap, smap, nflits, abort⟩ := r
  have habort := b2n_lt abort
  have hn := nflits.isLt
  have hbit : bit ((nflits.toNat + 16 * b2n abort) % 256) 4 = abort := bit_eq_of_field (by omega)
  simp (disch := decide) only [SealRec.ofBytes, SealRec.bytes, List.append_assoc, Nat.zero_add, atBytes_skip, atBytes_first,
    Nat.reduceSub, Nat.reducePow, hbit]
  simp only [SealRec.mk.injEq]
  refine ⟨?_, ?_, ?_, ?_, ?_, trivial⟩
  all_goals
    apply BitVec.eq_of_toNat_eq
    rw [BitVec.toNat_ofNat]
    omega

theorem creditRec_length (r : CreditRec) : (CreditRec.bytes r).length = 3 := by
  simp only [CreditRec.bytes, List.length_append, leBytes_length]

theorem creditRec_ofBytes_drop (b : List Byte) (p : Nat) : CreditRec.ofBytes b p = CreditRec.ofBytes (b.drop p) 0 := by
  simp only [CreditRec.ofBytes, atBytes_add, Nat.zero_add, ← atBytes_add b p 0, Nat.add_zero]

theorem creditRec_read (r : CreditRec) (tail : List Byte) : CreditRec.ofBytes (CreditRec.bytes r ++ tail) 0 = r := by
  obtain ⟨vc, shared, flits⟩ := r
  have hshared := b2n_lt shared
  have hvc := vc.isLt
  have hbit : bit ((vc.toNat + 128 * b2n shared) % 256) 7 = shared := bit_eq_of_field (by omega)
  simp (disch := decide) only [CreditRec.ofBytes, CreditRec.bytes, List.append_assoc, Nat.zero_add, atBytes_skip, atBytes_first,
    Nat.reduceSub, Nat.reducePow, hbit]
  simp only [CreditRec.mk.injEq]
  refine ⟨?_, trivial, ?_⟩
  all_goals
    apply BitVec.eq_of_toNat_eq
    rw [BitVec.toNat_ofNat]
    omega

end Sys2Proof.Machine
end

section
/-! Control blocks as bytes and back (R86, R92, R118). -/

namespace Sys2Proof.Machine

/-! ## A block begins with its type and ends with zeros -/

theorem Ctl.bytes_length (c : Ctl) : (Ctl.bytes c).length = 32 := padTo_length 32 _

theorem Ctl.bytes_eq {c : Ctl} (h : (Ctl.content c).length ≤ 31) :
    Ctl.bytes c = leBytes (Ctl.code c) 1 ++ (Ctl.content c ++ List.replicate (31 - (Ctl.content c).length) 0) := by
  have hlen : (leBytes (Ctl.code c) 1 ++ Ctl.content c).length ≤ 32 := by
    rw [List.length_append, leBytes_length]
    omega
  have hrest : 32 - (1 + (Ctl.content c).length) = 31 - (Ctl.content c).length := by omega
  rw [Ctl.bytes, padTo_eq hlen, List.append_assoc, List.length_append, leBytes_length, hrest]

/-! ## The capability record -/

theorem capBytes_length (c : CapRec) : (capBytes c).length = 24 := by
  simp only [capBytes, List.length_append, leBytes_length, List.length_cons, List.length_nil]

/-- The lane bits of a capability record. -/
def capLanes (c : CapRec) : List (Nat × Nat) := [(1, b2n c.laneA), (1, b2n c.laneB), (1, b2n c.precode)]

theorem capLanes_fit (c : CapRec) : ∀ x ∈ capLanes c, x.2 < 2 ^ x.1 := by
  simp only [capLanes, List.forall_mem_cons, List.not_mem_nil, false_imp_iff, implies_true, and_true, pow_one]
  exact ⟨b2n_lt _, b2n_lt _, b2n_lt _⟩

theorem ofNat_toNat_mod {w k : Nat} (v : BitVec w) (h : 2 ^ w ≤ k) : BitVec.ofNat w (v.toNat % k) = v := by
  rw [Nat.mod_eq_of_lt (lt_of_lt_of_le v.isLt h), BitVec.ofNat_toNat, BitVec.setWidth_eq]

theorem capOfBytes_capBytes (n : Nat) (c : CapRec) (rest : List Byte) :
    capOfBytes (leBytes n 1 ++ (capBytes c ++ rest)) = c := by
  have hlanes : b2n c.laneA + 2 * b2n c.laneB + 4 * b2n c.precode = pack (capLanes c) := by
    simp only [capLanes, pack]
    omega
  have hsmall : pack (capLanes c) % 256 ^ 1 = pack (capLanes c) :=
    Nat.mod_eq_of_lt ((pack_lt (capLanes_fit c)).trans_le (by change 2 ^ 3 ≤ 256 ^ 1; decide))
  have hA : bit (pack (capLanes c)) 0 = c.laneA := bit_pack (capLanes_fit c) 0 rfl rfl
  have hB : bit (pack (capLanes c)) 1 = c.laneB := bit_pack (capLanes_fit c) 1 rfl rfl
  have hP : bit (pack (capLanes c)) 2 = c.precode := bit_pack (capLanes_fit c) 2 rfl rfl
  rw [capBytes, hlanes]
  simp (disch := decide) only [capOfBytes, List.append_assoc, atBytes_skip, atBytes_first, Nat.reduceSub, hsmall, hA, hB, hP,
    ofNat_toNat_mod]

/-! ## Blocks of records -/

theorem atBytes_skip_padTo {k off : Nat} (x : List Byte) (n : Nat) (l : List Byte) (h : k ≤ off) :
    atBytes (padTo k x ++ l) off n = atBytes l (off - k) n := by
  rw [atBytes, atBytes, List.drop_append, List.drop_eq_nil_of_le ((padTo_length k x).trans_le h), List.nil_append, padTo_length]

/-- A block whose content is a count, records of one length up to a limit, and a number: the count, the records and the number read back. -/
theorem recordBlock_read {α : Type} {f : α → List Byte} {g : List Byte → Nat → α} {m k : Nat} (hlen : ∀ x, (f x).length = m)
    (hg : ∀ b p, g b p = g (b.drop p) 0) (code first ack : Nat) (l : List α) (rest : List Byte) (hk : m * l.length ≤ k)
    (hread : ∀ x ∈ l, ∀ tail, g (f x ++ tail) 0 = x) {b : List Byte}
    (hb : b = leBytes code 1 ++ ((leBytes first 1 ++ padTo k (l.map f).flatten ++ leBytes ack 2) ++ rest)) :
    atBytes b 1 1 = first % 256 ∧ (List.range l.length).map (fun i => g b (2 + m * i)) = l ∧ atBytes b (2 + k) 2 = ack % 65536 := by
  have hrecords : ((l.map f).flatten).length ≤ k := (flatten_records_length hlen l).trans_le hk
  subst hb
  refine ⟨?_, ?_, ?_⟩
  · simp (disch := decide) only [List.append_assoc, atBytes_skip, atBytes_first, Nat.reduceSub, Nat.reducePow]
  · rw [padTo_eq hrecords]
    have hwhole := map_range_records hlen hg (leBytes code 1 ++ leBytes first 1)
      (List.replicate (k - ((l.map f).flatten).length) 0 ++ (leBytes ack 2 ++ rest)) l hread
    simpa only [List.append_assoc, List.length_append, leBytes_length, Nat.reduceAdd] using hwhole
  · simp only [List.append_assoc]
    rw [atBytes_skip _ _ _ (by omega), atBytes_skip _ _ _ (by omega), atBytes_skip_padTo _ _ _ (by omega),
      show 2 + k - 1 - 1 - k = 0 by omega]
    exact atBytes_first ack 2 rest

/-! ## Every block -/

theorem parse_bytes {c : Ctl} (h : c.fits) : Ctl.parse c.bytes = some c := by
  match c, h with
  | .idle, _ => rfl
  | .retrain, _ => rfl
  | .cap c, _ =>
    rw [Ctl.bytes_eq (by rw [Ctl.content, capBytes_length]; decide), Ctl.content, Ctl.code]
    simp only [Ctl.parse, atBytes_first, Nat.reducePow, Nat.reduceMod, capOfBytes_capBytes]
  | .capAck crc, h =>
    rw [Ctl.bytes_eq (by rw [Ctl.content, leBytes_length]; decide), Ctl.content, Ctl.code]
    simp (disch := decide) only [Ctl.parse, atBytes_skip, atBytes_first, Nat.reducePow, Nat.reduceMod, Nat.reduceSub,
      Nat.mod_eq_of_lt (show crc < 65536 from h)]
  | .echoReq num stamp, h =>
    rw [Ctl.bytes_eq (by simp [Ctl.content]), Ctl.content, Ctl.code]
    simp (disch := decide) only [Ctl.parse, List.append_assoc, atBytes_skip, atBytes_first, Nat.reducePow, Nat.reduceMod, Nat.reduceSub,
      Nat.mod_eq_of_lt (show num < 65536 from h), ofNat_toNat_mod]
  | .echoRsp num stamp turn, h =>
    obtain ⟨hnum, hturn⟩ := h
    rw [Ctl.bytes_eq (by simp [Ctl.content]), Ctl.content, Ctl.code]
    simp (disch := decide) only [Ctl.parse, List.append_assoc, atBytes_skip, atBytes_first, Nat.reducePow, Nat.reduceMod, Nat.reduceSub,
      Nat.mod_eq_of_lt (show num < 65536 from hnum), Nat.mod_eq_of_lt (show turn < 4294967296 from hturn), ofNat_toNat_mod]
  | .adapt lane coeff, h =>
    obtain ⟨hlane, hcoeff⟩ := h
    rw [Ctl.bytes_eq (by simp [Ctl.content]), Ctl.content, Ctl.code]
    simp (disch := decide) only [Ctl.parse, List.append_assoc, atBytes_skip, atBytes_first, Nat.reducePow, Nat.reduceMod, Nat.reduceSub,
      Nat.mod_eq_of_lt (show lane < 65536 from hlane), Nat.mod_eq_of_lt (show coeff < 281474976710656 from hcoeff)]
  | .degrade pos, h =>
    rw [Ctl.bytes_eq (by rw [Ctl.content, leBytes_length]; decide), Ctl.content, Ctl.code]
    simp (disch := decide) only [Ctl.parse, atBytes_skip, atBytes_first, Nat.reducePow, Nat.reduceMod, Nat.reduceSub,
      Nat.mod_eq_of_lt (show pos < 256 from h)]
  | .degradeAck pos, h =>
    rw [Ctl.bytes_eq (by rw [Ctl.content, leBytes_length]; decide), Ctl.content, Ctl.code]
    simp (disch := decide) only [Ctl.parse, atBytes_skip, atBytes_first, Nat.reducePow, Nat.reduceMod, Nat.reduceSub,
      Nat.mod_eq_of_lt (show pos < 256 from h)]
  | .seal recs ack, h =>
    obtain ⟨hrecs, hack⟩ := h
    have hb := Ctl.bytes_eq (c := .seal recs ack) (by simp [Ctl.content, padTo_length])
    have hcode : atBytes (Ctl.seal recs ack).bytes 0 1 = 0x10 := by rw [hb, atBytes_first]; rfl
    obtain ⟨hcount, hread, hend⟩ := recordBlock_read sealRec_length sealRec_ofBytes_drop 0x10 recs.length ack recs _ (k := 27) (by omega)
      (fun r _ tail => sealRec_read r tail) hb
    have hmod : recs.length % 256 % 4 = recs.length := by omega
    simp only [Ctl.parse, hcode, hcount, hend, hmod, hread, Nat.mod_eq_of_lt (show ack < 65536 from hack)]
  | .credit recs ack, h =>
    obtain ⟨hrecs, hack⟩ := h
    have hb := Ctl.bytes_eq (c := .credit recs ack) (by simp [Ctl.content, padTo_length])
    have hcode : atBytes (Ctl.credit recs ack).bytes 0 1 = 0x11 := by rw [hb, atBytes_first]; rfl
    obtain ⟨hcount, hread, hend⟩ := recordBlock_read creditRec_length creditRec_ofBytes_drop 0x11 recs.length ack recs _ (k := 21)
      (by omega) (fun r _ tail => creditRec_read r tail) hb
    have hmod : recs.length % 256 = recs.length := by omega
    simp only [Ctl.parse, hcode, hcount, hend, hmod, hread, Nat.mod_eq_of_lt (show ack < 65536 from hack)]
  | .nak nums ack, h =>
    obtain ⟨hlen, hnums, hack⟩ := h
    have hb := Ctl.bytes_eq (c := .nak nums ack) (by simp [Ctl.content, padTo_length])
    have hcode : atBytes (Ctl.nak nums ack).bytes 0 1 = 0x12 := by rw [hb, atBytes_first]; rfl
    obtain ⟨hcount, hread, hend⟩ := recordBlock_read (fun n => leBytes_length n 2) (g := fun b p => atBytes b p 2)
      (fun b p => atBytes_add b p 0 2) 0x12 nums.length ack nums _ (k := 16) (by omega)
      (fun n hn tail => (atBytes_first n 2 tail).trans (Nat.mod_eq_of_lt (hnums n hn))) hb
    have hmod : nums.length % 256 = nums.length := by omega
    simp only [Ctl.parse, hcode, hcount, hend, hmod, hread, Nat.mod_eq_of_lt (show ack < 65536 from hack)]
  | .replay first ack, h =>
    obtain ⟨hfirst, hack⟩ := h
    rw [Ctl.bytes_eq (by simp [Ctl.content]), Ctl.content, Ctl.code]
    simp (disch := decide) only [Ctl.parse, List.append_assoc, atBytes_skip, atBytes_first, Nat.reducePow, Nat.reduceMod, Nat.reduceSub,
      Nat.mod_eq_of_lt (show first < 65536 from hfirst), Nat.mod_eq_of_lt (show ack < 65536 from hack)]
  | .keepalive next ack empty, h =>
    obtain ⟨hnext, hack⟩ := h
    have hempty : bit (b2n empty % 256) 0 = empty := bit_eq_of_field (by have := b2n_lt empty; omega)
    rw [Ctl.bytes_eq (by simp [Ctl.content]), Ctl.content, Ctl.code]
    simp (disch := decide) only [Ctl.parse, List.append_assoc, atBytes_skip, atBytes_first, Nat.reducePow, Nat.reduceMod, Nat.reduceSub,
      Nat.mod_eq_of_lt (show next < 65536 from hnext), Nat.mod_eq_of_lt (show ack < 65536 from hack), hempty]
  | .init part reserve shared cap next, h =>
    obtain ⟨hpart, hlen, hreserve, hshared, hcap, hnext⟩ := h
    have hb := Ctl.bytes_eq (c := .init part reserve shared cap next) (by simp [Ctl.content, padTo_length])
    have hcode : atBytes (Ctl.init part reserve shared cap next).bytes 0 1 = 0x15 := by rw [hb, atBytes_first]; rfl
    simp only [Ctl.content, List.append_assoc] at hb
    have hcap' : atBytes (Ctl.init part reserve shared cap next).bytes 28 2 = cap := by
      rw [hb]
      simp (disch := decide) only [atBytes_skip, atBytes_skip_padTo, atBytes_first, Nat.reducePow, Nat.reduceSub]
      exact Nat.mod_eq_of_lt hcap
    have hnext' : atBytes (Ctl.init part reserve shared cap next).bytes 30 2 = next := by
      rw [hb]
      simp (disch := decide) only [atBytes_skip, atBytes_skip_padTo, atBytes_first, Nat.reducePow, Nat.reduceSub]
      exact Nat.mod_eq_of_lt hnext
    obtain ⟨hcount, hread, hend⟩ := recordBlock_read (fun n => leBytes_length n 2) (g := fun b p => atBytes b p 2)
      (fun b p => atBytes_add b p 0 2) 0x15 part shared reserve _ (k := 24) (by omega)
      (fun n hn tail => (atBytes_first n 2 tail).trans (Nat.mod_eq_of_lt (hreserve n hn))) (hb.trans (by simp only [List.append_assoc]; rfl))
    rw [hlen] at hread
    simp only [Ctl.parse, hcode, hcount, hend, hread, hcap', hnext', Nat.mod_eq_of_lt (show part < 256 from hpart),
      Nat.mod_eq_of_lt (show shared < 65536 from hshared)]
  | .initAck parts, h =>
    have hparts : parts % 256 % 4 = parts := by
      have : parts < 4 := h
      omega
    rw [Ctl.bytes_eq (by rw [Ctl.content, leBytes_length]; decide), Ctl.content, Ctl.code]
    simp (disch := decide) only [Ctl.parse, atBytes_skip, atBytes_first, Nat.reducePow, Nat.reduceMod, Nat.reduceSub, hparts]

/-! ## The scrambler -/

/-- The descrambler's history is of the bits received, which are those that the scrambler sent. -/
theorem descramble_scramble (h : BitVec 58) (l : List Bool) : descramble h (scramble h l).1 = (l, (scramble h l).2) := by
  induction l generalizing h with
  | nil => rfl
  | cons b t ih =>
    simp only [scramble, descramble, ih]
    cases b <;> cases h.getLsbD 38 <;> cases h.getLsbD 57 <;> rfl

theorem scramble_length (h : BitVec 58) (l : List Bool) : (scramble h l).1.length = l.length := by
  induction l generalizing h with
  | nil => rfl
  | cons b t ih => simp [scramble, ih]

/-! ## Bytes as bits -/

theorem lsbBits_length (v n : Nat) : (lsbBits v n).length = n := by
  induction n generalizing v with
  | zero => rfl
  | succ n ih => simp [lsbBits, ih]

theorem byteBits_length (l : List Byte) : (byteBits l).length = 8 * l.length := by
  induction l with
  | nil => rfl
  | cons b l ih =>
    rw [byteBits, List.map_cons, List.flatten_cons, List.length_append, lsbBits_length, List.length_cons]
    rw [byteBits] at ih
    omega

theorem b2n_bit_zero (v : Nat) : b2n (bit v 0) = v % 2 := by
  rw [bit, Nat.testBit_zero, b2n]
  split <;> simp_all

theorem bitsNat_lsbBits_append (v n : Nat) (l : List Bool) : bitsNat (lsbBits v n ++ l) = v % 2 ^ n + 2 ^ n * bitsNat l := by
  induction n generalizing v with
  | zero => simp [lsbBits, Nat.mod_one]
  | succ n ih =>
    rw [lsbBits, List.cons_append, bitsNat, ih, b2n_bit_zero, pow_succ' 2 n, Nat.mod_mul]
    ring

theorem leBytes_bitsNat (l : List Byte) : leBytes (bitsNat (byteBits l)) l.length = l := by
  induction l with
  | nil => rfl
  | cons b l ih =>
    have hbits : bitsNat (byteBits (b :: l)) = b.toNat + 256 * bitsNat (byteBits l) := by
      rw [byteBits, List.map_cons, List.flatten_cons, bitsNat_lsbBits_append, Nat.mod_eq_of_lt b.isLt]
      rfl
    have hlow : BitVec.ofNat 8 (b.toNat + 256 * bitsNat (byteBits l)) = b := by
      apply BitVec.eq_of_toNat_eq
      have := b.isLt
      rw [BitVec.toNat_ofNat]
      omega
    have hhigh : (b.toNat + 256 * bitsNat (byteBits l)) / 256 = bitsNat (byteBits l) := by
      have := b.isLt
      omega
    rw [hbits, List.length_cons, leBytes, hlow, hhigh, ih]

theorem bitsBytes_byteBits (l : List Byte) : bitsBytes (byteBits l) = l := by
  rw [bitsBytes, byteBits_length, Nat.mul_div_cancel_left _ (by decide), leBytes_bitsNat]

theorem blockBits_length (h : BitVec 58) (d : Bool) (b : List Byte) : (blockBits h d b).1.length = 1 + 8 * b.length := by
  simp only [blockBits, List.length_cons, scramble_length, byteBits_length]
  omega

theorem readBlock_blockBits (h : BitVec 58) (d : Bool) (b : List Byte) :
    readBlock h (blockBits h d b).1 = (d, b, (blockBits h d b).2) := by
  simp only [readBlock, blockBits, List.drop_succ_cons, List.drop_zero, descramble_scramble, bitsBytes_byteBits, List.headD_cons]

/-! ## Precoding and level indexes -/

theorem precode_lt (k : Nat) (l : List Nat) : ∀ p ∈ precode k l, p < 4 := by
  induction l generalizing k with
  | nil => simp [precode]
  | cons g l ih =>
    simp only [precode, List.forall_mem_cons]
    exact ⟨Nat.mod_lt _ (by decide), ih _⟩

theorem unprecode_precode (k : Nat) {l : List Nat} (h : ∀ g ∈ l, g < 4) : unprecode k (precode k l) = l := by
  induction l generalizing k with
  | nil => rfl
  | cons g l ih =>
    obtain ⟨hg, hl⟩ := List.forall_mem_cons.mp h
    have hsum : ((g + 4 - k % 4) % 4 + k) % 4 = g := by omega
    simp only [precode, unprecode, hsum, ih _ hl]

theorem grayPair_grayIndex (a b : Bool) : grayPair (grayIndex a b) = (a, b) := by
  cases a <;> cases b <;> rfl

/-- Settles O19. -/
theorem lineCode : Obligations.LineCode := by
  unfold Obligations.LineCode
  exact ⟨fun c h => ⟨c.bytes_length, parse_bytes h⟩, descramble_scramble,
    fun h d b => ⟨blockBits_length h d b, readBlock_blockBits h d b⟩, fun k l h => ⟨unprecode_precode k h, precode_lt k l⟩,
    grayPair_grayIndex, fun f => List.take_append_drop 32 f⟩

end Sys2Proof.Machine
end


section
/-!
# The words of the Sorrel core's instructions (R456, R457)

Each format is a row of fields: reading a field of a word of a format gives the field back, and a word is the row of its own
fields. Every instruction of a core is one use of `State.insn`, on the word that spells it.
-/

namespace Sys2Proof.Machine

section Fields
variable (op : BitVec 6) (rd ra rb : BitVec 5) (fn : BitVec 11) (imm : BitVec 16) (n : BitVec 4) (off : BitVec 22) (far : BitVec 26)

theorem fmtA_fields :
    (fmtA op rd ra rb fn).extractLsb' 26 6 = op ∧ (fmtA op rd ra rb fn).extractLsb' 21 5 = rd
    ∧ (fmtA op rd ra rb fn).extractLsb' 16 5 = ra ∧ (fmtA op rd ra rb fn).extractLsb' 11 5 = rb
    ∧ (fmtA op rd ra rb fn).extractLsb' 0 11 = fn := by
  refine ⟨?_, ?_, ?_, ?_, ?_⟩ <;>
    · refine BitVec.eq_of_getLsbD_eq fun i hi => ?_
      simp only [fmtA, BitVec.getLsbD_extractLsb', BitVec.getLsbD_append]
      grind

theorem fmtI_fields :
    (fmtI op rd ra imm).extractLsb' 26 6 = op ∧ (fmtI op rd ra imm).extractLsb' 21 5 = rd
    ∧ (fmtI op rd ra imm).extractLsb' 16 5 = ra ∧ (fmtI op rd ra imm).extractLsb' 0 16 = imm := by
  refine ⟨?_, ?_, ?_, ?_⟩ <;>
    · refine BitVec.eq_of_getLsbD_eq fun i hi => ?_
      simp only [fmtI, BitVec.getLsbD_extractLsb', BitVec.getLsbD_append]
      grind

theorem fmtC_fields :
    (fmtC op n off).extractLsb' 26 6 = op ∧ (fmtC op n off).extractLsb' 22 4 = n
    ∧ (fmtC op n off).extractLsb' 0 22 = off := by
  refine ⟨?_, ?_, ?_⟩ <;>
    · refine BitVec.eq_of_getLsbD_eq fun i hi => ?_
      simp only [fmtC, BitVec.getLsbD_extractLsb', BitVec.getLsbD_append]
      grind

theorem fmtJ_fields : (fmtJ op far).extractLsb' 26 6 = op ∧ (fmtJ op far).extractLsb' 0 26 = far := by
  refine ⟨?_, ?_⟩ <;>
    · refine BitVec.eq_of_getLsbD_eq fun i hi => ?_
      simp only [fmtJ, BitVec.getLsbD_extractLsb', BitVec.getLsbD_append]
      grind

end Fields

section Rows
variable {op : BitVec 6} {w : BitVec 32} (h : (w.extractLsb' 26 6).toNat = op.toNat)
include h

theorem fmtA_of_fields :
    fmtA op (w.extractLsb' 21 5) (w.extractLsb' 16 5) (w.extractLsb' 11 5) (w.extractLsb' 0 11) = w := by
  rw [← BitVec.eq_of_toNat_eq h]
  refine BitVec.eq_of_getLsbD_eq fun i hi => ?_
  simp only [fmtA, BitVec.getLsbD_extractLsb', BitVec.getLsbD_append]
  grind

theorem fmtI_of_fields : fmtI op (w.extractLsb' 21 5) (w.extractLsb' 16 5) (w.extractLsb' 0 16) = w := by
  rw [← BitVec.eq_of_toNat_eq h]
  refine BitVec.eq_of_getLsbD_eq fun i hi => ?_
  simp only [fmtI, BitVec.getLsbD_extractLsb', BitVec.getLsbD_append]
  grind

theorem fmtC_of_fields : fmtC op (w.extractLsb' 22 4) (w.extractLsb' 0 22) = w := by
  rw [← BitVec.eq_of_toNat_eq h]
  refine BitVec.eq_of_getLsbD_eq fun i hi => ?_
  simp only [fmtC, BitVec.getLsbD_extractLsb', BitVec.getLsbD_append]
  grind

theorem fmtJ_of_fields : fmtJ op (w.extractLsb' 0 26) = w := by
  rw [← BitVec.eq_of_toNat_eq h]
  refine BitVec.eq_of_getLsbD_eq fun i hi => ?_
  simp only [fmtJ, BitVec.getLsbD_extractLsb', BitVec.getLsbD_append]
  grind

end Rows

/-- Format B has the fields of format I under other names. -/
theorem fmtB_eq (op : BitVec 6) (ra rb : BitVec 5) (off : BitVec 16) : fmtB op ra rb off = fmtI op ra rb off := rfl

theorem decode_of_coreWord {i : Instr} {c : Fin 68} {w : BitVec 32} (h : coreWord i = some (c, w)) : decodeCore c w = some i := by
  unfold coreWord at h
  split at h <;> cases h <;>
    simp only [decodeCore, fmtB_eq, fmtA_fields, fmtI_fields, fmtC_fields, fmtJ_fields] <;> rfl

theorem coreWord_of_decode {i : Instr} {c : Fin 68} {w : BitVec 32} (h : decodeCore c w = some i) : coreWord i = some (c, w) := by
  unfold decodeCore at h
  dsimp only at h
  split at h <;> cases h <;> rename_i hop <;> simp only [coreWord, fmtB_eq] <;>
    first
    | rw [fmtI_of_fields hop]
    | rw [fmtA_of_fields hop]
    | rw [fmtC_of_fields hop]
    | rw [fmtJ_of_fields hop]

/-- Every instruction of a core is a use of `State.insn` on the word that spells it. -/
theorem exec_eq_insn {i : Instr} {c : Fin 68} {w : BitVec 32} (h : coreWord i = some (c, w)) :
    ∃ regs f, ∀ s, exec i s = act s (fun s => s.insn c w regs f) := by
  unfold coreWord at h
  split at h <;> cases h <;> exact ⟨_, _, fun s => rfl⟩

section Insn
variable {s : State} {c : Fin 68} {w : BitVec 32} {regs : List (BitVec 5)} {f : State → CoreSt → State}

theorem State.insn_of_idle (h : (s.core c).running = false) : s.insn c w regs f = s := by
  simp [State.insn, h]

theorem State.insn_of_wait (h : (s.core c).lockWait ≠ none) : s.insn c w regs f = s := by
  simp [State.insn, Option.isSome_iff_ne_none.mpr h]

variable (hrun : (s.core c).running = true) (hwait : (s.core c).lockWait = none)
include hrun hwait

theorem State.insn_of_illegal (h : decodeCore c (s.core c).nextWord = none) : s.insn c w regs f = s.handlerEnd c 1 := by
  simp [State.insn, hrun, hwait, h]

theorem State.insn_of_other (h : decodeCore c (s.core c).nextWord ≠ none) (hw : (s.core c).nextWord ≠ w) :
    s.insn c w regs f = s := by
  simp [State.insn, hrun, hwait, h, hw]

/-- The word that is next is executed: it ends the handler where it names a reserved register, and else does what it means. -/
theorem State.insn_of_next {i : Instr} (hi : coreWord i = some (c, w)) (hw : (s.core c).nextWord = w) :
    s.insn c w regs f = if regs.any (fun r => decide (25 ≤ r.toNat)) then s.handlerEnd c 1 else f s (s.core c) := by
  simp [State.insn, hrun, hwait, hw, decode_of_coreWord hi]

end Insn

/-- Settles O46: the formats' fields both ways, and the one rule by which every instruction is executed. -/
theorem sorrelDecode : Obligations.SorrelDecode := by
  refine ⟨fun i c w => decode_of_coreWord, fun i c w => coreWord_of_decode, ?_⟩
  intro i c w s hpow hi hrun hwait
  obtain ⟨regs, f, hexec⟩ := exec_eq_insn hi
  exact ⟨fun h => does_of hpow (hexec s) (State.insn_of_illegal hrun hwait h),
    fun h hw => does_of hpow (hexec s) (State.insn_of_other hrun hwait h hw)⟩

end Sys2Proof.Machine
end


section
/-! # Sorrel instructions that a core executes next (R451 to R458) -/

namespace Sys2Proof.Machine

/-! ## Executing the next instruction -/

/-- The core `c` of a powered device runs a handler, in the state `x`, and waits for no lock. -/
structure Ready (s : State) (c : Fin 68) (x : CoreSt) : Prop where
  powered : s.powered = true
  core : x = s.core c
  running : x.running = true
  wait : x.lockWait = none

section Next
variable {i : Instr} {s t : State} {c : Fin 68} {x : CoreSt} {w : BitVec 32} {regs : List (BitVec 5)} {f : State → CoreSt → State}

/-- An instruction that is next and whose registers exist has its own meaning. -/
theorem Ready.runs (h : Ready s c x) (hi : coreWord i = some (c, w)) (he : exec i s = act s (fun s => s.insn c w regs f))
    (hr : regs.any (fun r => decide (25 ≤ r.toNat)) = false) (hf : f s x = t) : Runs i s t := by
  obtain ⟨hpow, rfl, hrun, hwait⟩ := h
  intro c' w' hi' hw
  obtain ⟨rfl, rfl⟩ : c = c' ∧ w = w' := by simpa [hi] using hi'
  refine does_of hpow he ?_
  rw [State.insn_of_next hrun hwait hi hw, hr]
  exact hf

/-- An instruction that is next and names a reserved register is illegal. -/
theorem Ready.traps (h : Ready s c x) (hi : coreWord i = some (c, w)) (he : exec i s = act s (fun s => s.insn c w regs f))
    (hr : regs.any (fun r => decide (25 ≤ r.toNat)) = true) : Runs i s (s.handlerEnd c 1) := by
  obtain ⟨hpow, rfl, hrun, hwait⟩ := h
  intro c' w' hi' hw
  obtain ⟨rfl, rfl⟩ : c = c' ∧ w = w' := by simpa [hi] using hi'
  refine does_of hpow he ?_
  rw [State.insn_of_next hrun hwait hi hw, hr]
  rfl

end Next

/-! ## The values of R457 -/

section Values
variable (a b : BitVec 64) (n : Nat) (imm : BitVec 16)

theorem shiftLeft_eq_ofNat : a <<< n = BitVec.ofNat 64 (a.toNat * 2 ^ n) :=
  BitVec.eq_of_toNat_eq (by simp [Nat.shiftLeft_eq])

theorem ushiftRight_eq_ofNat : a >>> n = BitVec.ofNat 64 (a.toNat / 2 ^ n) := by
  refine BitVec.eq_of_toNat_eq ?_
  have h : a.toNat / 2 ^ n < 2 ^ 64 := (Nat.div_le_self _ _).trans_lt a.isLt
  rw [BitVec.toNat_ushiftRight, Nat.shiftRight_eq_div_pow, BitVec.toNat_ofNat, Nat.mod_eq_of_lt h]

theorem sshiftRight_eq_ofInt : a.sshiftRight n = BitVec.ofInt 64 (a.toInt / 2 ^ n) := by
  rw [BitVec.sshiftRight, Int.shiftRight_eq_div_pow]
  norm_cast

theorem mul_eq_ofNat : a * b = BitVec.ofNat 64 (a.toNat * b.toNat) := BitVec.eq_of_toNat_eq (by simp)

theorem smin_eq_ofInt : (if a.toInt < b.toInt then a else b) = BitVec.ofInt 64 (min a.toInt b.toInt) := by
  split
  case isTrue h => rw [min_eq_left h.le, BitVec.ofInt_toInt]
  case isFalse h => rw [min_eq_right (not_lt.mp h), BitVec.ofInt_toInt]

theorem smax_eq_ofInt : (if a.toInt < b.toInt then b else a) = BitVec.ofInt 64 (max a.toInt b.toInt) := by
  split
  case isTrue h => rw [max_eq_right h.le, BitVec.ofInt_toInt]
  case isFalse h => rw [max_eq_left (not_lt.mp h), BitVec.ofInt_toInt]

theorem umin_eq_ofNat : (if a.toNat < b.toNat then a else b) = BitVec.ofNat 64 (min a.toNat b.toNat) := by
  split
  case isTrue h => rw [min_eq_left h.le, BitVec.ofNat_toNat, BitVec.setWidth_eq]
  case isFalse h => rw [min_eq_right (not_lt.mp h), BitVec.ofNat_toNat, BitVec.setWidth_eq]

theorem umax_eq_ofNat : (if a.toNat < b.toNat then b else a) = BitVec.ofNat 64 (max a.toNat b.toNat) := by
  split
  case isTrue h => rw [max_eq_right h.le, BitVec.ofNat_toNat, BitVec.setWidth_eq]
  case isFalse h => rw [max_eq_left (not_lt.mp h), BitVec.ofNat_toNat, BitVec.setWidth_eq]

/-- The upper immediate, sign-extended from bit 31. -/
theorem lui_eq_ofInt : (imm.setWidth 32 <<< 16).signExtend 64 = BitVec.ofInt 64 (imm.toInt * 2 ^ 16) := by
  have h : (imm.setWidth 32 <<< 16).toNat = imm.toNat * 2 ^ 16 := by
    have := imm.isLt
    simp only [BitVec.toNat_shiftLeft, BitVec.toNat_setWidth, Nat.shiftLeft_eq]
    omega
  have hint : (imm.setWidth 32 <<< 16).toInt = imm.toInt * 2 ^ 16 := by
    rw [BitVec.toInt_eq_toNat_cond, BitVec.toInt_eq_toNat_cond, h]
    split <;> split <;> omega
  rw [BitVec.signExtend, hint]

/-- The 16 bits below a value shifted left by 16 are free for the immediate. -/
theorem insh_eq_ofNat : a <<< 16 ||| imm.setWidth 64 = BitVec.ofNat 64 (a.toNat * 2 ^ 16 + imm.toNat) := by
  have h : a <<< 16 &&& imm.setWidth 64 = 0#64 := by
    refine BitVec.eq_of_getLsbD_eq fun i hi => ?_
    simp only [BitVec.getLsbD_and, BitVec.getLsbD_shiftLeft, BitVec.getLsbD_setWidth, BitVec.getLsbD_zero]
    grind
  rw [← BitVec.add_eq_or_of_and_eq_zero _ _ h, shiftLeft_eq_ofNat, BitVec.ofNat_add, BitVec.ofNat_toNat]

end Values

/-! ## Arithmetic -/

section Arith
variable {s : State} {c : Fin 68} {x : CoreSt} {rd ra rb : BitVec 5} (h : Ready s c x) (hrd : rd.toNat < 25)
include h hrd

/-- An `alu` instruction puts what its function gives in `rd`. -/
theorem Ready.alu (hra : ra.toNat < 25) (hrb : rb.toNat < 25) {fn : BitVec 11} {v : Word}
    (hv : aluOp fn.toNat (x.reg ra.toNat) (x.reg rb.toNat) = some v) : Runs (.alu c rd ra rb fn) s (s.result c x rd v) :=
  h.runs rfl rfl (by simp [hrd, hra, hrb]) (by simp only [CoreSt.val, hv])

/-- A function beyond 15 is illegal. -/
theorem Ready.alu_illegal (hra : ra.toNat < 25) (hrb : rb.toNat < 25) {fn : BitVec 11} (hfn : 16 ≤ fn.toNat) :
    Runs (.alu c rd ra rb fn) s (s.handlerEnd c 1) := by
  have hnone (p q : Word) : aluOp fn.toNat p q = none := by
    unfold aluOp
    split <;> first | omega | rfl
  exact h.runs rfl rfl (by simp [hrd, hra, hrb]) (by simp only [hnone])

/-- An instruction of format I that names `rd` and `ra` and puts `f` of the value of `ra` in `rd`. -/
theorem Ready.immOp (hra : ra.toNat < 25) {i : Instr} {op : BitVec 6} {imm : BitVec 16} {f : Word → Word} {v : Word}
    (hi : coreWord i = some (c, fmtI op rd ra imm)) (he : exec i s = act s (fun s => s.immOp c op rd ra imm f))
    (hv : f (x.reg ra.toNat) = v) : Runs i s (s.result c x rd v) :=
  h.runs hi he (by simp [hrd, hra]) (by simp only [CoreSt.val, hv])

end Arith

/-- Settles O47: each function of the model is the value that R457 names. -/
theorem sorrelArithmetic : Obligations.SorrelArithmetic := by
  intro s c x rd ra rb fn imm a b hpow hx hrun hwait hrd hra ha
  have h : Ready s c x := ⟨hpow, hx, hrun, hwait⟩
  subst ha
  rw [BitVec.ofNat_toNat]
  refine ⟨?_, h.immOp hrd hra rfl rfl rfl, h.immOp hrd hra rfl rfl rfl, h.immOp hrd hra rfl rfl rfl, h.immOp hrd hra rfl rfl rfl, ?_, ?_⟩
  · rintro hrb rfl
    have alu {v} hv := h.alu hrd hra hrb (fn := fn) (v := v) hv
    refine ⟨?_, ?_, ?_, ?_, ?_, ?_, ?_, ?_, ?_, ?_, ?_, ?_, ?_, ?_, ?_, ?_, h.alu_illegal hrd hra hrb⟩
    all_goals rintro rfl
    · exact alu rfl
    · exact alu rfl
    · exact alu rfl
    · exact alu rfl
    · exact alu rfl
    · exact alu (congrArg some (shiftLeft_eq_ofNat _ _))
    · exact alu (congrArg some (ushiftRight_eq_ofNat _ _))
    · exact alu (congrArg some (sshiftRight_eq_ofInt _ _))
    · exact alu (congrArg some (mul_eq_ofNat _ _))
    · exact alu rfl
    · exact alu rfl
    · exact alu rfl
    · exact alu (congrArg some (smin_eq_ofInt _ _))
    · exact alu (congrArg some (smax_eq_ofInt _ _))
    · exact alu (congrArg some (umin_eq_ofNat _ _))
    · exact alu (congrArg some (umax_eq_ofNat _ _))
  · exact h.runs rfl rfl (by simp [hrd]) (by simp only [lui_eq_ofInt])
  · exact h.runs rfl rfl (by simp [hrd]) (by simp only [CoreSt.val, insh_eq_ofNat])

end Sys2Proof.Machine
end


section
/-! # Sorrel loads, stores, branches, calls and special values (R452, R457, R458, R460, R474) -/

namespace Sys2Proof.Machine

/-! ## Memory -/

theorem State.haddr_of_misaligned {s : State} {x : CoreSt} {e n : Nat} (h : e % n ≠ 0) : s.haddr x e n = .bad := by
  simp [State.haddr, h]

/-- The load and the store of `n` bytes that name `rd`, `ra` and `imm`. -/
structure LoadStore (c : Fin 68) (rd ra : BitVec 5) (imm : BitVec 16) (n : Nat) (ld st : Instr) : Prop where
  load : ∃ op, coreWord ld = some (c, fmtI op rd ra imm) ∧ ∀ s, exec ld s = act s (fun s => s.load c op n rd ra imm)
  store : ∃ op, coreWord st = some (c, fmtI op rd ra imm) ∧ ∀ s, exec st s = act s (fun s => s.store c op n rd ra imm)

theorem loadStore_of_size {c : Fin 68} {rd ra : BitVec 5} {imm : BitVec 16} {n : Nat} {ld st : Instr}
    (h : (n = 1 ∧ ld = .ld1 c rd ra imm ∧ st = .st1 c rd ra imm) ∨ (n = 2 ∧ ld = .ld2 c rd ra imm ∧ st = .st2 c rd ra imm)
      ∨ (n = 4 ∧ ld = .ld4 c rd ra imm ∧ st = .st4 c rd ra imm) ∨ (n = 8 ∧ ld = .ld8 c rd ra imm ∧ st = .st8 c rd ra imm)) :
    LoadStore c rd ra imm n ld st := by
  obtain ⟨rfl, rfl, rfl⟩ | ⟨rfl, rfl, rfl⟩ | ⟨rfl, rfl, rfl⟩ | ⟨rfl, rfl, rfl⟩ := h <;>
    exact ⟨⟨_, rfl, fun _ => rfl⟩, ⟨_, rfl, fun _ => rfl⟩⟩

section Memory
variable {s t : State} {c : Fin 68} {x : CoreSt} {rd ra rb : BitVec 5} {imm : BitVec 16} {fn : BitVec 11} {n a : Nat} {ld st : Instr}
  (h : Ready s c x) (hrd : rd.toNat < 25) (hra : ra.toNat < 25)

section LoadsStores
variable (hls : LoadStore c rd ra imm n ld st)
include h hrd hra hls

theorem Ready.loadStore_bad (he : s.haddr x (effAddr x ra imm) n = .bad) :
    Runs ld s (s.handlerEnd c 2) ∧ Runs st s (s.handlerEnd c 2) := by
  obtain ⟨⟨_, hi, hl⟩, ⟨_, hj, hs⟩⟩ := hls
  exact ⟨h.runs hi (hl s) (by simp [hrd, hra]) (by simp only [he]), h.runs hj (hs s) (by simp [hrd, hra]) (by simp only [he])⟩

theorem Ready.loadStore_loc (he : s.haddr x (effAddr x ra imm) n = .loc a) :
    Runs ld s (s.result c x rd (BitVec.ofNat 64 (leNat (x.localRead a n))))
    ∧ Runs st s (s.retire c (x.localWrite a (leBytes (x.reg rd.toNat).toNat n))) := by
  obtain ⟨⟨_, hi, hl⟩, ⟨_, hj, hs⟩⟩ := hls
  exact ⟨h.runs hi (hl s) (by simp [hrd, hra]) (by simp only [he]),
    h.runs hj (hs s) (by simp [hrd, hra]) (by simp only [he, CoreSt.val])⟩

variable (he : s.haddr x (effAddr x ra imm) n = .dev a)
include he

theorem Ready.load_dev {l : List Byte} (hr : s.coreLoad c a n = (some l, t)) :
    Runs ld s (t.result c x rd (BitVec.ofNat 64 (leNat l))) := by
  obtain ⟨⟨_, hi, hl⟩, -⟩ := hls
  refine h.runs hi (hl s) (by simp [hrd, hra]) ?_
  obtain ⟨load, hload⟩ : ∃ load, load = State.coreLoad := ⟨_, rfl⟩
  rw [← hload] at hr ⊢
  simp only [he, hr]

theorem Ready.load_poisoned (hr : s.coreLoad c a n = (none, t)) : Runs ld s (t.handlerEnd c 6) := by
  obtain ⟨⟨_, hi, hl⟩, -⟩ := hls
  refine h.runs hi (hl s) (by simp [hrd, hra]) ?_
  obtain ⟨load, hload⟩ : ∃ load, load = State.coreLoad := ⟨_, rfl⟩
  rw [← hload] at hr ⊢
  simp only [he, hr]

theorem Ready.store_lock (hlock : s.touchesLock a n = true) : Runs st s (s.handlerEnd c 2) := by
  obtain ⟨-, ⟨_, hj, hs⟩⟩ := hls
  exact h.runs hj (hs s) (by simp [hrd, hra]) (by simp only [he, hlock, if_true])

theorem Ready.store_dev (hlock : s.touchesLock a n = false) :
    Runs st s ((s.coreStore c a (leBytes (x.reg rd.toNat).toNat n)).retire c x) := by
  obtain ⟨-, ⟨_, hj, hs⟩⟩ := hls
  exact h.runs hj (hs s) (by simp [hrd, hra]) (by simp [he, hlock, CoreSt.val])

end LoadsStores

section Atomics
variable (hrb : rb.toNat < 25)
include h hrd hra hrb

theorem Ready.amo_illegal (hk : 6 < fn.toNat % 16) : Runs (.amo c rd ra rb fn) s (s.handlerEnd c 1) :=
  h.runs rfl rfl (by simp [hrd, hra, hrb]) (by simp only [hk, if_true])

variable (hk : fn.toNat % 16 ≤ 6)
include hk

theorem Ready.amo_no_home (he : ∀ a, s.haddr x (x.reg ra.toNat).toNat 8 ≠ .dev a) :
    Runs (.amo c rd ra rb fn) s (s.handlerEnd c 2) := by
  refine h.runs rfl rfl (by simp [hrd, hra, hrb]) ?_
  simp only [not_lt.mpr hk, if_false, CoreSt.val]


variable (he : s.haddr x (x.reg ra.toNat).toNat 8 = .dev a)
include he

theorem Ready.amo_lock (hlock : s.touchesLock a 8 = true) : Runs (.amo c rd ra rb fn) s (s.handlerEnd c 2) :=
  h.runs rfl rfl (by simp [hrd, hra, hrb]) (by simp only [not_lt.mpr hk, if_false, CoreSt.val, he, hlock, if_true])

variable (hlock : s.touchesLock a 8 = false) {p q : Nat}
  (hcas : fn.toNat % 16 = 2 → p = (x.reg rd.toNat).toNat ∧ q = (x.reg rb.toNat).toNat)
  (hother : fn.toNat % 16 ≠ 2 → p = (x.reg rb.toNat).toNat ∧ q = 0)
include hlock hcas hother

theorem Ready.amo_dev {m : Nat} (hr : s.devAtomic a (fn.toNat % 16) 8 p q = (some m, t)) :
    Runs (.amo c rd ra rb fn) s (t.result c x rd (BitVec.ofNat 64 m)) := by
  refine h.runs rfl rfl (by simp [hrd, hra, hrb]) ?_
  by_cases h2 : fn.toNat % 16 = 2
  · obtain ⟨rfl, rfl⟩ := hcas h2
    simp [h2, CoreSt.val, he, hlock, h2 ▸ hr]
  · obtain ⟨rfl, rfl⟩ := hother h2
    simp [h2, not_lt.mpr hk, CoreSt.val, he, hlock, hr]

theorem Ready.amo_poisoned (hr : s.devAtomic a (fn.toNat % 16) 8 p q = (none, t)) :
    Runs (.amo c rd ra rb fn) s (t.handlerEnd c 6) := by
  refine h.runs rfl rfl (by simp [hrd, hra, hrb]) ?_
  by_cases h2 : fn.toNat % 16 = 2
  · obtain ⟨rfl, rfl⟩ := hcas h2
    simp [h2, CoreSt.val, he, hlock, h2 ▸ hr]
  · obtain ⟨rfl, rfl⟩ := hother h2
    simp [h2, not_lt.mpr hk, CoreSt.val, he, hlock, hr]

end Atomics
end Memory

/-- Settles O48. -/
theorem sorrelMemory : Obligations.SorrelMemory := by
  intro s c x rd ra rb imm fn n e hpow hx hrun hwait hrd hra he
  have h : Ready s c x := ⟨hpow, hx, hrun, hwait⟩
  obtain rfl : e = effAddr x ra imm := he
  refine ⟨fun ld st hsize => ?_, ?_⟩
  · have hls := loadStore_of_size hsize
    exact ⟨h.loadStore_bad hrd hra hls, fun hmis => h.loadStore_bad hrd hra hls (State.haddr_of_misaligned hmis),
      fun a ha => h.loadStore_loc hrd hra hls ha,
      fun a ha => ⟨fun l t => h.load_dev hrd hra hls ha, fun t => h.load_poisoned hrd hra hls ha,
        h.store_lock hrd hra hls ha, h.store_dev hrd hra hls ha⟩⟩
  · rintro hrb k rfl
    exact ⟨h.amo_illegal hrd hra hrb, h.amo_no_home hrd hra hrb,
      fun a hk ha => ⟨h.amo_lock hrd hra hrb hk ha, fun hlock p q hcas hother =>
        ⟨fun m t => h.amo_dev hrd hra hrb hk ha hlock hcas hother, fun t => h.amo_poisoned hrd hra hrb hk ha hlock hcas hother⟩⟩⟩

/-! ## Branches, jumps, calls and returns -/

section Control
variable {s : State} {c : Fin 68} {x : CoreSt} {ra rb : BitVec 5} {off : BitVec 16} (h : Ready s c x)
include h

section Branches
variable (hra : ra.toNat < 25) (hrb : rb.toNat < 25) {i : Instr} {op : BitVec 6} {f : Word → Word → Bool} {p : Prop} [Decidable p]
  {t u : State} (hi : coreWord i = some (c, fmtB op ra rb off)) (he : exec i s = act s (fun s => s.branch c op ra rb off f))
  (ht : t = s.retireAt c x (x.pc + 4 * off.toInt)) (hu : u = s.retireAt c x (x.pc + 4))
include hra hrb hi he ht hu

/-- A branch goes to its target where its condition holds, and else to the next instruction. -/
theorem Ready.branch (hf : f (x.reg ra.toNat) (x.reg rb.toNat) = decide p) : Runs i s (if p then t else u) := by
  rw [ht, hu]
  exact h.runs hi he (by simp [hra, hrb]) (by simp only [CoreSt.val, hf, decide_eq_true_eq]; rfl)

theorem Ready.branch_not (hf : f (x.reg ra.toNat) (x.reg rb.toNat) = decide (¬p)) : Runs i s (if p then u else t) := by
  rw [← ite_not]
  exact h.branch hra hrb hi he ht hu hf

end Branches

variable {n : BitVec 4} {o : BitVec 22}

theorem Ready.call_illegal (hn : 8 < n.toNat) : Runs (.call c n o) s (s.handlerEnd c 1) :=
  h.runs rfl rfl rfl (by simp only [hn, if_true])

theorem Ready.call_resident (hn : n.toNat ≤ 8) (hres : x.resident < 7) :
    Runs (.call c n o) s (s.retireAt c { x with
      windows := setIdx x.windows ((x.wix + 1) % 7)
        ⟨((x.window.regs.drop 8).take n.toNat ++ List.replicate 16 0).take 16, BitVec.ofNat 64 (x.pc + 4)⟩
      wix := (x.wix + 1) % 7, resident := x.resident + 1 } (x.pc + 4 * o.toInt)) :=
  h.runs rfl rfl rfl (by simp only [not_lt.mpr hn, not_le.mpr hres, if_false])

theorem Ready.call_overflow (hn : n.toNat ≤ 8) (hres : 7 ≤ x.resident) (hfull : s.spillBytes < 136 * (x.spilled + 1)) :
    Runs (.call c n o) s (s.handlerEnd c 4) :=
  h.runs rfl rfl rfl (by simp only [not_lt.mpr hn, if_false, hres, if_true, State.spill, hfull])

theorem Ready.call_spill (hn : n.toNat ≤ 8) (hres : 7 ≤ x.resident) (hroom : 136 * (x.spilled + 1) ≤ s.spillBytes) :
    Runs (.call c n o) s ((s.count ⟨0xA02, some c, some x.inst, none, none, some x.mgr, 1⟩).retireAt c
      { x.localWrite (s.spillBase + 136 * x.spilled) (x.windows.getD ((x.wix + 1) % 7) Window.init).bytes with
        windows := setIdx x.windows ((x.wix + 1) % 7)
          ⟨((x.window.regs.drop 8).take n.toNat ++ List.replicate 16 0).take 16, BitVec.ofNat 64 (x.pc + 4)⟩
        wix := (x.wix + 1) % 7, resident := 7, spilled := x.spilled + 1 } (x.pc + 4 * o.toInt)) :=
  h.runs rfl rfl rfl (by simp only [not_lt.mpr hn, if_false, hres, if_true, State.spill, not_lt.mpr hroom, CoreSt.localWrite])

theorem Ready.ret_illegal (hn : 4 < n.toNat) : Runs (.ret c n o) s (s.handlerEnd c 1) :=
  h.runs rfl rfl rfl (by simp only [hn, if_true])

theorem Ready.ret_outermost (hn : n.toNat ≤ 4) (hres : x.resident ≤ 1) (hsp : x.spilled = 0) :
    Runs (.ret c n o) s (s.handlerEnd c 0) :=
  h.runs rfl rfl rfl (by simp only [not_lt.mpr hn, if_false, hres, hsp, and_self, if_true])

theorem Ready.ret_resident (hn : n.toNat ≤ 4) (hres : 1 < x.resident) {w : Window}
    (hw : w = x.windows.getD ((x.wix + 6) % 7) Window.init) :
    Runs (.ret c n o) s (s.retireAt c { x with
      windows := setIdx x.windows ((x.wix + 6) % 7) ⟨w.regs.take 8 ++ x.window.regs.take n.toNat ++ w.regs.drop (8 + n.toNat), w.link⟩
      wix := (x.wix + 6) % 7, resident := x.resident - 1 } x.window.link.toNat) :=
  h.runs rfl rfl rfl (by simp only [not_lt.mpr hn, not_le.mpr hres, if_false, false_and, hw])

theorem Ready.ret_unspill (hn : n.toNat ≤ 4) (hres : x.resident ≤ 1) (hsp : 0 < x.spilled) {y : CoreSt} {t : State}
    (hu : s.unspill c x = (y, t)) {w : Window} (hw : w = y.windows.getD ((x.wix + 6) % 7) Window.init) :
    Runs (.ret c n o) s (t.retireAt c { y with
      windows := setIdx y.windows ((x.wix + 6) % 7) ⟨w.regs.take 8 ++ x.window.regs.take n.toNat ++ w.regs.drop (8 + n.toNat), w.link⟩
      wix := (x.wix + 6) % 7, resident := y.resident - 1 } x.window.link.toNat) :=
  h.runs rfl rfl rfl (by simp only [not_lt.mpr hn, if_false, hres, hsp.ne', and_false, if_true, hu, hw])

end Control

/-- Settles O49. -/
theorem sorrelControl : Obligations.SorrelControl := by
  intro s c x rd ra rb off fn a b hpow hx hrun hwait
  have h : Ready s c x := ⟨hpow, hx, hrun, hwait⟩
  refine ⟨?_, fun o => h.runs rfl rfl rfl rfl, h.runs rfl rfl rfl rfl, fun imm => h.runs rfl rfl rfl rfl, fun n o => ?_⟩
  · rintro hra rfl
    refine ⟨?_, ?_, ?_⟩
    · rintro hrb rfl t u ht hu
      refine ⟨h.branch hra hrb rfl rfl ht hu (beq_eq_decide _ _), h.branch_not hra hrb rfl rfl ht hu ?_,
        h.branch hra hrb rfl rfl ht hu rfl, h.branch_not hra hrb rfl rfl ht hu ?_,
        h.branch hra hrb rfl rfl ht hu rfl, h.branch_not hra hrb rfl rfl ht hu ?_⟩
      · rw [bne, beq_eq_decide, decide_not]
      · simp only [not_lt]
      · simp only [not_lt]
    · exact fun ha => h.runs rfl rfl (by simp [hra]) (by simp only [CoreSt.val, ha, if_true])
    · exact fun ha => h.runs rfl rfl (by simp [hra]) (by simp only [CoreSt.val, ha, if_false])
  · refine ⟨h.call_illegal, h.call_resident, h.call_overflow, ?_, h.ret_illegal, h.ret_outermost, fun w hn hres hw => h.ret_resident hn hres hw,
      fun y t w hn hres hsp hu hw => h.ret_unspill hn hres hsp hu hw⟩
    rintro y t hn hres hroom rfl rfl
    exact h.call_spill hn hres hroom

/-! ## Special values, descriptors and locks -/

section System
variable {s : State} {c : Fin 68} {x : CoreSt} {rd ra rb : BitVec 5} {fn : BitVec 11}

/-- An instruction on a core that runs no handler, or waits for a lock, has no effect. -/
theorem does_nothing_of_idle (hpow : s.powered = true) (h : (s.core c).running = false ∨ (s.core c).lockWait ≠ none) {i : Instr}
    {w : BitVec 32} {regs : List (BitVec 5)} {f : State → CoreSt → State} (he : exec i s = act s (fun s => s.insn c w regs f)) :
    Does i s s :=
  does_of hpow he (h.elim State.insn_of_idle State.insn_of_wait)

variable (h : Ready s c x) (hrd : rd.toNat < 25)
include h hrd

/-- A number of `csr` beyond 7 is illegal. -/
theorem Ready.csr_illegal (hfn : 8 ≤ fn.toNat) : Runs (.csr c rd ra rb fn) s (s.handlerEnd c 1) := by
  refine h.runs rfl rfl (by simp [hrd]) ?_
  dsimp only
  split <;> first | omega | rfl

section Csr
variable {k : Nat} (hk : fn.toNat = k)
include hk

/-- What `csr` gives for each number of R457. -/
theorem Ready.csr_values :
    (k = 0 → Runs (.csr c rd ra rb fn) s (State.result { s with freeCtr := s.freeCtr + 1 } c x rd (Config.freeValue s.freeCtr)))
    ∧ (k = 1 → Runs (.csr c rd ra rb fn) s (s.result c x rd (BitVec.ofNat 64 (s.now - s.applyNs))))
    ∧ (k = 2 → ∀ u, s.logicalCore c = some u → Runs (.csr c rd ra rb fn) s (s.result c x rd (BitVec.ofNat 64 u)))
    ∧ (k = 3 → Runs (.csr c rd ra rb fn) s (s.result c x rd (BitVec.ofNat 64 x.inst)))
    ∧ (k = 4 → Runs (.csr c rd ra rb fn) s (s.result c x rd (BitVec.ofNat 64 s.fid)))
    ∧ (k = 5 → Runs (.csr c rd ra rb fn) s (s.result c x rd (BitVec.ofNat 64 x.trig)))
    ∧ (k = 6 → Runs (.csr c rd ra rb fn) s (s.result c x rd (BitVec.ofNat 64
        (1000 * s.get Reg.handCtrl Fld.handCtrlBudgetUs - (s.now - x.startNs)))))
    ∧ (k = 7 → Runs (.csr c rd ra rb fn) s (s.result c x rd x.window.link)) := by
  have hr : [rd].any (fun r => decide (25 ≤ r.toNat)) = false := by simp [hrd]
  refine ⟨?_, ?_, ?_, ?_, ?_, ?_, ?_, ?_⟩
  all_goals rintro rfl
  case refine_1 => exact h.runs rfl rfl hr (by simp only [hk]; rfl)
  case refine_3 => exact fun u hu => h.runs rfl rfl hr (by simp only [hk, hu, Option.getD_some])
  case refine_7 => exact h.runs rfl rfl hr (by simp only [hk, State.budgetLeft])
  all_goals exact h.runs rfl rfl hr (by simp only [hk])

end Csr

variable (hra : ra.toNat < 25) (hrb : rb.toNat < 25)
include hra hrb

theorem Ready.desc_elsewhere (ha : ∀ k, s.haddr x (x.reg ra.toNat).toNat 64 ≠ .loc k) :
    Runs (.desc c rd ra rb fn) s (s.handlerEnd c 2) := by
  refine h.runs rfl rfl (by simp [hrd, hra, hrb]) ?_
  simp only [CoreSt.val]

theorem Ready.desc_local {k r : Nat} {t : State} (ha : s.haddr x (x.reg ra.toNat).toNat 64 = .loc k)
    (hj : s.descJob x (Desc.ofBytes (readBytes x.localMem 0 k 64)) (x.reg rb.toNat).toNat = (r, t)) :
    Runs (.desc c rd ra rb fn) s (t.result c x rd (BitVec.ofNat 64 r)) :=
  h.runs rfl rfl (by simp [hrd, hra, hrb]) (by simp only [CoreSt.val, ha, CoreSt.localRead, hj])

/-- An address that names no line ends the handler. -/
theorem Ready.lock_no_line (ha : s.lockAddr x (x.reg ra.toNat).toNat = none) :
    Runs (.lkacq c rd ra rb fn) s (s.handlerEnd c 2) ∧ Runs (.lkrel c rd ra rb fn) s (s.handlerEnd c 2) :=
  ⟨h.runs rfl rfl (by simp [hrd, hra, hrb]) (by simp only [CoreSt.val, ha]),
    h.runs rfl rfl (by simp [hrd, hra, hrb]) (by simp only [CoreSt.val, ha])⟩

/-- A line that the handler may not lock is rejected. -/
theorem Ready.lock_rejected (ha : s.lockAddr x (x.reg ra.toNat).toNat = some none) :
    Runs (.lkacq c rd ra rb fn) s (s.result c x rd 1) ∧ Runs (.lkrel c rd ra rb fn) s (s.result c x rd 1) :=
  ⟨h.runs rfl rfl (by simp [hrd, hra, hrb]) (by simp only [CoreSt.val, ha]),
    h.runs rfl rfl (by simp [hrd, hra, hrb]) (by simp only [CoreSt.val, ha])⟩

variable {l key : Nat} (ha : s.lockAddr x (x.reg ra.toNat).toNat = some (some l)) (hkey : key = (x.reg rb.toNat).toNat % 2 ^ 32)
include ha hkey

theorem Ready.lkrel_line :
    (s.lockPasses 2 l key (s.lockCoreId c) = false → Runs (.lkrel c rd ra rb fn) s (s.result c x rd 1))
    ∧ (s.lockPasses 2 l key (s.lockCoreId c) = true → Runs (.lkrel c rd ra rb fn) s ((s.lockPass l).result c x rd 0)) := by
  subst hkey
  exact ⟨fun hp => h.runs rfl rfl (by simp [hrd, hra, hrb]) (by simp only [CoreSt.val, ha, hp, Bool.false_eq_true, if_false]),
    fun hp => h.runs rfl rfl (by simp [hrd, hra, hrb]) (by simp only [CoreSt.val, ha, hp, if_true])⟩

theorem Ready.lkacq_fails (hp : s.lockPasses 1 l key (s.lockCoreId c) = false) :
    Runs (.lkacq c rd ra rb fn) s (s.result c x rd 1) := by
  subst hkey
  exact h.runs rfl rfl (by simp [hrd, hra, hrb]) (by simp only [CoreSt.val, ha, hp, Bool.not_false, if_true])

theorem Ready.lkacq_passes (hp : s.lockPasses 1 l key (s.lockCoreId c) = true) :
    (s.lockHeld l = false → Runs (.lkacq c rd ra rb fn) s ((s.lockTake l (s.lockCoreId c) 0).result c x rd 0))
    ∧ (s.lockHeld l = true → s.waitersFull = true → Runs (.lkacq c rd ra rb fn) s
        ((s.bump Reg.lockCnt Fld.lockCntPoolFull 1).result c x rd 2))
    ∧ (s.lockHeld l = true → s.waitersFull = false → Runs (.lkacq c rd ra rb fn) s
        ((s.setCore c { x with lockWait := some (rd.toNat, l) }).setWaiters l
          (s.hand.lockWait ++ [⟨l, s.lockCoreId c, 0, s.fid, x.inst, some c.val, none⟩]))) := by
  subst hkey
  exact ⟨fun hh => h.runs rfl rfl (by simp [hrd, hra, hrb]) (by simp only [CoreSt.val, ha, hp, hh, Bool.not_true, Bool.not_false, Bool.false_eq_true, if_true, if_false]),
    fun hh hf => h.runs rfl rfl (by simp [hrd, hra, hrb]) (by simp only [CoreSt.val, ha, hp, hh, hf, Bool.not_true, Bool.false_eq_true, if_true, if_false]),
    fun hh hf => h.runs rfl rfl (by simp [hrd, hra, hrb]) (by simp only [CoreSt.val, ha, hp, hh, hf, Bool.not_true, Bool.false_eq_true, if_false]; rfl)⟩

end System

/-- Settles O50. -/
theorem sorrelSystem : Obligations.SorrelSystem := by
  rintro s c x rd ra rb fn a hpow rfl
  refine ⟨fun hidle => ?_, fun hrun hwait hrd => ?_, fun hrun hwait hrd => ?_, fun hrun hwait hrd hra hrb ha => ?_⟩
  · exact ⟨does_nothing_of_idle hpow hidle rfl, does_nothing_of_idle hpow hidle rfl, does_nothing_of_idle hpow hidle rfl,
      does_nothing_of_idle hpow hidle rfl⟩
  all_goals have h : Ready s c (s.core c) := ⟨hpow, rfl, hrun, hwait⟩
  · have hr {regs : List (BitVec 5)} : (rd :: regs).any (fun r => decide (25 ≤ r.toNat)) = true := by simp [hrd]
    exact ⟨h.traps rfl rfl hr, h.traps rfl rfl hr, h.traps rfl rfl hr, h.traps rfl rfl hr, fun fn' => h.traps rfl rfl hr⟩
  · obtain ⟨h0, h1, h2, h3, h4, h5, h6, h7⟩ := h.csr_values hrd (ra := ra) (rb := rb) (fn := fn) rfl
    have num {k : BitVec 11} (e : fn = k) : fn.toNat = k.toNat := congrArg BitVec.toNat e
    exact ⟨fun e => h0 (num e), fun e => h1 (num e), fun e => h2 (num e), fun e => h3 (num e), fun e => h4 (num e),
      fun e => h5 (num e), fun e => h6 (num e), fun e => h7 (num e), h.csr_illegal hrd⟩
  · subst ha
    refine ⟨h.desc_elsewhere hrd hra hrb, fun k r t => h.desc_local hrd hra hrb, h.lock_no_line hrd hra hrb, h.lock_rejected hrd hra hrb,
      fun l key hl hkey => ?_⟩
    obtain ⟨hrej, hpass⟩ := h.lkrel_line hrd hra hrb (fn := fn) hl hkey
    exact ⟨h.lkacq_fails hrd hra hrb hl hkey, hrej, hpass, h.lkacq_passes hrd hra hrb hl hkey⟩

end Sys2Proof.Machine
end


section
/-! # Submission rings (R286 to R296): enable, disable, poll, kick and the entries taken -/

namespace Sys2Proof.Machine

/-! ## What needs a structure -/

theorem State.ifStructured_of {s : State} {a : Nat} {f : State → State} (h : s.structured = true) : s.ifStructured a f = f s := by
  simp [State.ifStructured, h]

theorem State.ifStructured_not {s : State} {a : Nat} {f : State → State} (h : s.structured = false) :
    s.ifStructured a f = s.notice 61 a := by
  simp [State.ifStructured, h]

/-! ## The state of a ring -/

theorem State.word_setSq_other (s : State) (i r : Nat) (q : SqSt) {a : Nat} (h : a ≠ Reg.sqStat i r) : (s.setSq i r q).word a = s.word a := by
  rw [State.setSq, State.word_put_other _ _ _ _ _ h, State.word_put_other _ _ _ _ _ h]
  rfl

theorem State.get_setSq (s : State) (i r : Nat) (q : SqSt) {f : Field} (hrun : f.apart Fld.sqStatRunning) (hopen : f.apart Fld.sqStatChainOpen) :
    (s.setSq i r q).get (Reg.sqStat i r) f = s.get (Reg.sqStat i r) f := by
  rw [State.setSq, State.get_put_apart _ _ _ _ _ (by decide) hopen, State.get_put_apart _ _ _ _ _ (by decide) hrun]
  rfl

theorem State.get_setSq_running (s : State) (i r : Nat) (q : SqSt) :
    (s.setSq i r q).get (Reg.sqStat i r) Fld.sqStatRunning = b2n (decide (0 < q.jobs)) := by
  rw [State.setSq, State.get_put_apart _ _ _ _ _ (by decide) (by decide), State.get_put _ _ _ _ (by decide)]
  cases decide (0 < q.jobs) <;> rfl

@[simp] theorem State.finish_sq (s t : State) : (s.finish t).sq = t.sq := rfl

/-! ## Enabling and disabling -/

section Enable
variable {s : State} {i r : Nat} {v : Word} (hs : s.structured = true)

/-- A ring that is enabled: at the start of lap 0, with nothing in the tail cache. -/
def State.sqStart (s : State) (i r : Nat) (v : Word) : State :=
  let t := ((s.setWord (Reg.sqCfg i r) (Fld.sqCfgEnable.put (s.sqFields i v) 1)).put (Reg.sqStat i r) Fld.sqStatHead 0).put
    (Reg.sqStat i r) Fld.sqStatPhase 1
  State.setSq { t with tailCache := Table.del t.tailCache (ringKey i r) } i r { SqSt.init with
    engine := some (s.pickEngine (s.instHub i) (ringKey i r)), ivl := Fld.sqCfgPoll.get v, zeroing := Fld.sqCfgNear.get v == 1 }

include hs

theorem doSqEnable_starts (hoff : (s.sqEvent i r).flag (Reg.sqCfg i r) Fld.sqCfgEnable = false)
    (hok : (s.sqEvent i r).sqCheck i r v = 0) : doSqEnable i r v s = (s.sqEvent i r).sqStart i r v := by
  simp only [doSqEnable, State.ifStructured_of hs, hoff, hok, Bool.false_eq_true, if_false, State.sqStart]

theorem doSqEnable_fails (hoff : (s.sqEvent i r).flag (Reg.sqCfg i r) Fld.sqCfgEnable = false)
    (hbad : (s.sqEvent i r).sqCheck i r v ≠ 0) :
    doSqEnable i r v s = ((s.sqEvent i r).setWord (Reg.sqCfg i r) (Fld.sqCfgEnable.put ((s.sqEvent i r).sqFields i v) 0)).put
      (Reg.sqStat i r) Fld.sqStatErr ((s.sqEvent i r).sqCheck i r v) := by
  simp only [doSqEnable, State.ifStructured_of hs, hoff, Bool.false_eq_true, if_false]

theorem doSqEnable_changes (hon : (s.sqEvent i r).flag (Reg.sqCfg i r) Fld.sqCfgEnable = true) :
    doSqEnable i r v s = (s.sqEvent i r).changePoll i r v := by
  simp only [doSqEnable, State.ifStructured_of hs, hon, if_true]

theorem doSqDisable_on (hon : (s.sqEvent i r).flag (Reg.sqCfg i r) Fld.sqCfgEnable = true) :
    doSqDisable i r s = ((s.sqEvent i r).stopRing i r).put (Reg.sqCfg i r) Fld.sqCfgEnable 0 := by
  simp only [doSqDisable, State.ifStructured_of hs, hon, if_true]

theorem doSqDisable_off (hoff : (s.sqEvent i r).flag (Reg.sqCfg i r) Fld.sqCfgEnable = false) :
    doSqDisable i r s = s.sqEvent i r := by
  simp only [doSqDisable, State.ifStructured_of hs, hoff, Bool.false_eq_true, if_false]

end Enable

/-- A ring that is enabled starts empty at index 0 on lap 0, and nothing but its two words changes. -/
theorem State.sqStart_facts (u : State) (i r : Nat) (v : Word) :
    (u.sqStart i r v).sq i r = { SqSt.init with
      engine := some (u.pickEngine (u.instHub i) (ringKey i r)), ivl := Fld.sqCfgPoll.get v, zeroing := Fld.sqCfgNear.get v == 1 }
    ∧ (u.sqStart i r v).get (Reg.sqStat i r) Fld.sqStatHead = 0 ∧ (u.sqStart i r v).get (Reg.sqStat i r) Fld.sqStatPhase = 1
    ∧ (u.sqStart i r v).get (Reg.sqStat i r) Fld.sqStatRunning = 0
    ∧ (∀ a, a ≠ Reg.sqCfg i r → a ≠ Reg.sqStat i r → (u.sqStart i r v).word a = u.word a)
    ∧ (u.sqStart i r v).rma = u.rma ∧ (u.sqStart i r v).out = u.out := by
  refine ⟨State.sq_setSq _ _ _ _, ?_, ?_, State.get_setSq_running _ _ _ _, fun a hc hst => ?_, rfl, rfl⟩
  · refine (State.get_setSq _ _ _ _ (by decide) (by decide)).trans ?_
    refine (State.get_put_apart _ _ _ _ _ (by decide) (by decide)).trans ?_
    exact State.get_put _ _ _ _ (by decide)
  · refine (State.get_setSq _ _ _ _ (by decide) (by decide)).trans ?_
    exact State.get_put _ _ _ _ (by decide)
  · refine (State.word_setSq_other _ _ _ _ hst).trans ?_
    refine (State.word_put_other _ _ _ _ _ hst).trans ?_
    rw [State.word_put_other _ _ _ _ _ hst, State.word_setWord_other _ _ _ _ hc]

/-! ## Polls and entries -/

section Poll
variable {s : State} {i r : Nat}

theorem State.pollRing_not (h : s.polls i r = false) : s.pollRing i r = s := by
  simp [State.pollRing, h]

variable (h : s.polls i r = true)
include h

theorem State.pollRing_near (hn : s.sqNear i r = true) : s.pollRing i r = s.pollNear i r 16 false := by
  simp [State.pollRing, h, hn]

theorem State.pollRing_far (hn : s.sqNear i r = false) (hp : (s.sq i r).polling = false) :
    s.pollRing i r = (s.setSq i r { s.sq i r with row := 0 }).pollFar i r := by
  simp [State.pollRing, h, hn, hp]

theorem State.pollRing_reading (hn : s.sqNear i r = false) (hp : (s.sq i r).polling = true) : s.pollRing i r = s := by
  simp [State.pollRing, h, hn, hp]

end Poll

section Entry
variable {s : State} {i r : Nat} {d : Desc}

theorem State.takeEntry_not_owned (h : b2n d.phase ≠ s.get (Reg.sqStat i r) Fld.sqStatPhase) :
    (s.takeEntry i r d).2 = s := by
  simp [State.takeEntry, h]

/-- The first entry of a job stays where there is no room for the job. -/
theorem State.takeEntry_no_room (hf : d.first = true ∨ (s.sq i r).chain = []) (h : s.jobRoom i r = false) :
    (s.takeEntry i r d).2 = s := by
  by_cases hp : b2n d.phase = s.get (Reg.sqStat i r) Fld.sqStatPhase
  · simp [State.takeEntry, hp, hf, h]
  · exact State.takeEntry_not_owned hp

section Owned
variable (hp : b2n d.phase = s.get (Reg.sqStat i r) Fld.sqStatPhase) (hf : d.first = false)
include hp hf

theorem State.takeEntry_stray (hc : (s.sq i r).chain = []) (h : s.jobRoom i r = true) :
    (s.takeEntry i r d).2 = s.takeFirst i r d true := by
  simp [State.takeEntry, hp, hf, hc, h]

theorem State.takeEntry_next (hc : (s.sq i r).chain ≠ []) (hl : d.last = false) :
    (s.takeEntry i r d).2 = (s.stepHead i r).setSq i r { s.sq i r with chain := (s.sq i r).chain ++ [d] } := by
  simp [State.takeEntry, hp, hf, hc, hl]

theorem State.takeEntry_last (hc : (s.sq i r).chain ≠ []) (hl : d.last = true) :
    (s.takeEntry i r d).2 = (s.stepHead i r).closeChain i r ((s.sq i r).chain ++ [d]) := by
  simp [State.takeEntry, hp, hf, hc, hl]

end Owned

theorem doSeg_other (h : d.op ≠ opSeg) : doSeg i r d s = s := by
  simp [doSeg, h]

theorem doSeg_not_polled (h : s.polls i r = false) : doSeg i r d s = s := by
  simp [doSeg, h]

theorem doSeg_polled (ho : d.op = opSeg) (h : s.polls i r = true) : doSeg i r d s = (s.takeEntry i r d).2 := by
  simp [doSeg, ho, h]

/-- A SEG entry that its ring would leave where it is changes nothing. -/
theorem doSeg_stays (h : (s.takeEntry i r d).2 = s) : doSeg i r d s = s := by
  rw [doSeg, h, ite_self]

end Entry

/-- Settles O31. -/
theorem submissionRings : Obligations.SubmissionRings := by
  rintro s u i r v hpow rfl
  have enable {t} : doSqEnable i r v s = t → Does (.sqEnable i r v) s t := does_of hpow (exec_sqEnable i r v s)
  have disable {t} : doSqDisable i r s = t → Does (.sqDisable i r) s t := does_of hpow (exec_sqDisable i r s)
  have poll {t} : s.pollRing i r = t → Does (.ringPoll i r) s t := does_of hpow (exec_ringPoll i r s)
  have kick {t} : doKick i r s = t → Does (.kick i r) s t := does_of hpow (exec_kick i r s)
  refine ⟨?_, ?_, ?_, ?_, ?_, ?_, ?_, ?_, ?_, ?_, ?_⟩
  · intro hs hoff hok
    refine yields_of hpow (exec_sqEnable i r v s) ?_
    rw [doSqEnable_starts hs hoff hok]
    have hstart := State.sqStart_facts (s.sqEvent i r) i r v
    generalize (s.sqEvent i r).sqStart i r v = t at hstart ⊢
    simpa only [State.finish_sq, State.finish_get, State.finish_word, State.finish_rma, State.finish_out] using hstart
  · exact fun hs hoff hbad => enable (doSqEnable_fails hs hoff hbad)
  · exact fun hs hon => ⟨enable (doSqEnable_changes hs hon), disable (doSqDisable_on hs hon)⟩
  · exact fun hs hoff => disable (doSqDisable_off hs hoff)
  · exact fun h => poll (State.pollRing_not h)
  · exact fun h hn => poll (State.pollRing_near h hn)
  · exact fun h hn hp => poll (State.pollRing_far h hn hp)
  · exact fun h hn hp => poll (State.pollRing_reading h hn hp)
  · exact fun hs => kick (State.ifStructured_of hs)
  · exact fun hs => ⟨enable (State.ifStructured_not hs), disable (State.ifStructured_not hs), kick (State.ifStructured_not hs)⟩
  · intro d
    have seg {t} : doSeg i r d s = t → Does (.seg i r d) s t := does_of hpow (exec_seg i r d s)
    refine ⟨?_, ?_, ?_, ?_, ?_, ?_, ?_⟩
    · exact fun ho => seg (doSeg_other ho)
    · exact fun h => seg (doSeg_not_polled h)
    · exact fun _ hf hroom => seg (doSeg_stays (State.takeEntry_no_room hf hroom))
    · exact fun ho h hp hf hc hroom => seg ((doSeg_polled ho h).trans (State.takeEntry_stray hp hf hc hroom))
    · exact fun _ _ hp => seg (doSeg_stays (State.takeEntry_not_owned hp))
    · exact fun ho h hp hf hc hl => seg ((doSeg_polled ho h).trans (State.takeEntry_next hp hf hc hl))
    · exact fun ho h hp hf hc hl => seg ((doSeg_polled ho h).trans (State.takeEntry_last hp hf hc hl))

end Sys2Proof.Machine
end


section
/-! # Completion rings and near-ring pages (R29, R297 to R300) -/

namespace Sys2Proof.Machine

/-! ## Completion rings -/

section Cq
variable {s : State} {i r : Nat} (hs : s.structured = true)
include hs

section Enable
variable {v w : Word} (hw : w = BitVec.ofNat 64 (v.toNat % 2 ^ 13))
include hw

theorem doCqEnable_vector (hon : s.flag (Reg.cqCfg i r) Fld.cqCfgEnable = true) (hvec : Fld.cqCfgVector.get w < (s.inst i).vectors) :
    doCqEnable i r v s = (s.put (Reg.cqCfg i r) Fld.cqCfgIrqErr (Fld.cqCfgIrqErr.get w)).put (Reg.cqCfg i r) Fld.cqCfgVector
      (Fld.cqCfgVector.get w) := by
  simp only [doCqEnable, State.ifStructured_of hs, hon, if_true, ← hw, not_le.mpr hvec, if_false]

theorem doCqEnable_no_vector (hon : s.flag (Reg.cqCfg i r) Fld.cqCfgEnable = true)
    (hvec : (s.inst i).vectors ≤ Fld.cqCfgVector.get w) :
    doCqEnable i r v s = (s.put (Reg.cqCfg i r) Fld.cqCfgIrqErr (Fld.cqCfgIrqErr.get w)).put (Reg.cqStat i r) Fld.cqStatErr 1 := by
  simp only [doCqEnable, State.ifStructured_of hs, hon, if_true, ← hw, hvec]

variable (hoff : s.flag (Reg.cqCfg i r) Fld.cqCfgEnable = false)
include hoff

theorem doCqEnable_absent (hr : (s.inst i).cq ≤ r) :
    doCqEnable i r v s = (s.setWord (Reg.cqCfg i r) (Fld.cqCfgEnable.put w 0)).put (Reg.cqStat i r) Fld.cqStatErr 1 := by
  simp only [doCqEnable, State.ifStructured_of hs, hoff, Bool.false_eq_true, if_false, ← hw, hr, true_or, if_true]

theorem doCqEnable_starts (hr : r < (s.inst i).cq) (hvec : Fld.cqCfgVector.get w < (s.inst i).vectors)
    (hmin : 6 ≤ Fld.cqCfgLogSize.get w) (hmax : Fld.cqCfgLogSize.get w ≤ 16) (hbase : (s.word (Reg.cqBase i r)).toNat % 64 = 0) :
    doCqEnable i r v s = ((s.setWord (Reg.cqCfg i r) w).setCq i r CqSt.init).setWord (Reg.cqHead i r) 0 := by
  simp only [doCqEnable, State.ifStructured_of hs, hoff, Bool.false_eq_true, if_false, ← hw, not_le.mpr hr, not_le.mpr hvec,
    not_lt.mpr hmin, not_lt.mpr hmax, hbase, ne_eq, not_true_eq_false, or_self]

end Enable

theorem doCqDisable_named
    (h : ∃ q : Fin 64, s.flag (Reg.sqCfg i q) Fld.sqCfgEnable = true ∧ s.get (Reg.sqCfg i q) Fld.sqCfgCq = r) :
    doCqDisable i r s = s.put (Reg.cqStat i r) Fld.cqStatErr 2 := by
  obtain ⟨q, hon, hcq⟩ := h
  have hany : (List.range 64).any (fun q => s.flag (Reg.sqCfg i q) Fld.sqCfgEnable && s.get (Reg.sqCfg i q) Fld.sqCfgCq == r) = true :=
    List.any_eq_true.mpr ⟨q, List.mem_range.mpr q.isLt, by simp [hon, hcq]⟩
  simp only [doCqDisable, State.ifStructured_of hs, hany, if_true]

theorem doCqDisable_free
    (h : ∀ q : Fin 64, s.flag (Reg.sqCfg i q) Fld.sqCfgEnable = true → s.get (Reg.sqCfg i q) Fld.sqCfgCq ≠ r) :
    doCqDisable i r s = s.put (Reg.cqCfg i r) Fld.cqCfgEnable 0 := by
  have hany : (List.range 64).any (fun q => s.flag (Reg.sqCfg i q) Fld.sqCfgEnable && s.get (Reg.sqCfg i q) Fld.sqCfgCq == r) = false :=
    List.any_eq_false.mpr fun q hq => by simpa using h ⟨q, List.mem_range.mp hq⟩
  simp only [doCqDisable, State.ifStructured_of hs, hany, Bool.false_eq_true, if_false]

theorem doCqHead_beyond {h : Nat} (hh : s.cqSize i r ≤ h) : doCqHead i r h s = s.put (Reg.cqStat i r) Fld.cqStatErr 3 := by
  simp only [doCqHead, State.ifStructured_of hs, hh, true_or, if_true]

omit hs in
/-- The slots from the ring's head up to the new one. -/
theorem head_step {n c k h : Nat} (hk : k < n) (hh : (c + k) % n = h) : (h + n - c % n) % n = k := by
  subst hh
  have hc : c % n < n := Nat.mod_lt _ (by omega)
  have hmod : (c + k) % n = (c % n + k) % n := by rw [Nat.mod_add_mod]
  rw [hmod]
  by_cases hlt : c % n + k < n
  · rw [Nat.mod_eq_of_lt hlt, show c % n + k + n - c % n = k + n by omega, Nat.add_mod_right, Nat.mod_eq_of_lt hk]
  · have hwrap : (c % n + k) % n = c % n + k - n := by rw [Nat.mod_eq_sub_mod (by omega), Nat.mod_eq_of_lt (by omega)]
    rw [hwrap, show c % n + k - n + n - c % n = k by omega, Nat.mod_eq_of_lt hk]

section Head
variable {h k : Nat} (hk : k < s.cqSize i r) (hstep : ((s.cq i r).consumed + k) % s.cqSize i r = h)
include hk hstep

theorem doCqHead_unwritten (hw : (s.cq i r).written < (s.cq i r).consumed + k) :
    doCqHead i r h s = s.put (Reg.cqStat i r) Fld.cqStatErr 3 := by
  simp only [doCqHead, State.ifStructured_of hs, head_step hk hstep, hw, or_true, if_true]

theorem doCqHead_frees (hh : h < s.cqSize i r) (hw : (s.cq i r).consumed + k ≤ (s.cq i r).written) :
    doCqHead i r h s = (s.setCq i r { s.cq i r with consumed := (s.cq i r).consumed + k }).put (Reg.cqHead i r) Fld.cqHeadHead h := by
  simp only [doCqHead, State.ifStructured_of hs, head_step hk hstep, not_lt.mpr hw, not_le.mpr hh, or_self, if_false]

end Head
end Cq

/-! ## Zeroing -/

section Zeroing
variable {s : State} {i r : Nat}

theorem doNearRingZeroed_not (h : (s.sq i r).zeroing = false) : doNearRingZeroed i r s = s := by
  simp [doNearRingZeroed, h]

variable (h : (s.sq i r).zeroing = true)
include h

theorem doNearRingZeroed_zeroing : ((doNearRingZeroed i r s).sq i r).zeroing = false := by
  simp [doNearRingZeroed, h]

theorem doNearRingZeroed_hbm : (doNearRingZeroed i r s).rma.hbm = s.rma.hbm.filter (fun c =>
    !(decide (s.nearBase i + s.sqBaseOf i r ≤ c.1 ∧ c.1 < s.nearBase i + s.sqBaseOf i r + 64 * s.sqSize i r))) := by
  rw [doNearRingZeroed]
  simp only [h, if_true]
  rfl

/-- The entries of the ring read zero, and every other byte of device memory is as it was. -/
theorem doNearRingZeroed_read (a : Nat) : (doNearRingZeroed i r s).hbmRead a 1 =
    if s.nearBase i + s.sqBaseOf i r ≤ a ∧ a < s.nearBase i + s.sqBaseOf i r + 64 * s.sqSize i r then [0] else s.hbmRead a 1 := by
  simp only [State.hbmRead, readBytes, Table.getD, doNearRingZeroed_hbm h]
  rw [Table.find_filter_key s.rma.hbm (fun k =>
    !(decide (s.nearBase i + s.sqBaseOf i r ≤ k ∧ k < s.nearBase i + s.sqBaseOf i r + 64 * s.sqSize i r)))]
  by_cases hin : s.nearBase i + s.sqBaseOf i r ≤ a ∧ a < s.nearBase i + s.sqBaseOf i r + 64 * s.sqSize i r
  · simp only [hin, and_self, decide_true, Bool.not_true, Bool.false_eq_true, if_false, if_true, Option.getD_none]
  · simp only [hin, decide_false, Bool.not_false, if_false, if_true]

end Zeroing

@[simp] theorem State.finish_hbmRead (s t : State) : (s.finish t).hbmRead = t.hbmRead := rfl

/-! ## Near-ring pages of a VF -/

section Near
variable {s u : State} {n vf off len : Nat} {acc : BarAccess} {rd : Bool} (hup : s.linkUp n = true)
  (hspan : barSpan acc = (off, len, rd)) (hu : s.count ⟨0x602, some n, s.boundInst n vf, none, none, some false, 1⟩ = u)
include hup hspan hu

theorem doNearRingWrite_d3 (hd3 : u.d3hot n = true) : doNearRingWrite n vf acc s = if rd then u.emit (.cpl n .ur []) else u := by
  simp only [doNearRingWrite, hspan, hup, hu, hd3, Bool.not_true, Bool.false_eq_true, if_false, if_true]

variable (hd3 : u.d3hot n = false)
include hd3

theorem doNearRingWrite_no_function (hfn : u.fnExists n vf = false) : doNearRingWrite n vf acc s = u.forbidden ⟨n, 0⟩ rd := by
  simp only [doNearRingWrite, hspan, hup, hu, hd3, hfn, Bool.not_true, Bool.not_false, Bool.false_eq_true, if_false, if_true]

variable (hfn : u.fnExists n vf = true)
include hfn

theorem doNearRingWrite_disabled (hmse : u.mse n vf = false) : doNearRingWrite n vf acc s = u.forbidden ⟨n, vf⟩ rd := by
  simp only [doNearRingWrite, hspan, hup, hu, hd3, hfn, hmse, Bool.not_true, Bool.not_false, Bool.false_eq_true, if_false, if_true]

variable (hmse : u.mse n vf = true)
include hmse

theorem doNearRingWrite_stopped (h : u.safe = true ∨ u.isFenced (.basil n) = true) :
    doNearRingWrite n vf acc s = if rd then u.readAborted ⟨n, vf⟩ else u := by
  have hstop : (u.safe || u.isFenced (.basil n)) = true := Bool.or_eq_true_iff.mpr h
  simp only [doNearRingWrite, hspan, hup, hu, hd3, hfn, hmse, hstop, Bool.not_true, Bool.false_eq_true, if_false, if_true]

variable (hsafe : u.safe = false) (hfence : u.isFenced (.basil n) = false)
include hsafe hfence

theorem doNearRingWrite_unbound (hb : u.boundInst n vf = none) : doNearRingWrite n vf acc s =
    if rd then ((u.bump (Reg.hostErr n) Fld.hostErrMmioBad 1).post (304 + 24 * n + 1) 59 0 (off % 2 ^ 48 + 3 <<< 48)).emit
      (.cpl n .ok (List.replicate len 0xFF))
    else (u.bump (Reg.hostErr n) Fld.hostErrMmioBad 1).post (304 + 24 * n + 1) 59 0 (off % 2 ^ 48 + 3 <<< 48) := by
  simp only [doNearRingWrite, hspan, hup, hu, hd3, hfn, hmse, hsafe, hfence, hb, Bool.not_true, Bool.false_eq_true, Bool.or_self, if_false]

variable {i : Nat} (hb : u.boundInst n vf = some i)
include hb

theorem doNearRingWrite_beyond (h : 65536 * (u.inst i).nr64k < off + len ∨ u.vfBar2 n < off + len) :
    doNearRingWrite n vf acc s = u.forbidden ⟨n, vf⟩ rd := by
  simp only [doNearRingWrite, hspan, hup, hu, hd3, hfn, hmse, hsafe, hfence, hb, h, Bool.not_true, Bool.false_eq_true, Bool.or_self,
    if_false, if_true]

variable (hpages : off + len ≤ 65536 * (u.inst i).nr64k) (hbar : off + len ≤ u.vfBar2 n)
include hpages hbar

theorem doNearRingWrite_shut (h : u.islandShut (hubIsland (u.instHub i)) = true) :
    doNearRingWrite n vf acc s = if rd then u.readAborted ⟨n, vf⟩ else u := by
  simp only [doNearRingWrite, hspan, hup, hu, hd3, hfn, hmse, hsafe, hfence, hb, not_lt.mpr hpages, not_lt.mpr hbar, h, or_self,
    Bool.not_true, Bool.false_eq_true, Bool.or_self, if_false, if_true]

variable (hopen : u.islandShut (hubIsland (u.instHub i)) = false)
include hopen

/-- What reaches the pages: a read, a write, or an AtomicOp, which the pages do not take. -/
theorem doNearRingWrite_reaches : doNearRingWrite n vf acc s =
    match acc.req with
    | .read _ => u.emit (.cpl n .ok (u.nearRead i off len))
    | .write data => u.nearWrite i off data
    | .atomic _ => u.forbidden ⟨n, vf⟩ true := by
  simp only [doNearRingWrite, hspan, hup, hu, hd3, hfn, hmse, hsafe, hfence, hb, not_lt.mpr hpages, not_lt.mpr hbar, hopen, or_self,
    Bool.not_true, Bool.false_eq_true, Bool.or_self, if_false] <;> rfl

end Near

theorem State.nearWrite_elsewhere {s : State} {i off : Nat} {l : List Byte} (h : s.nearRingAt i off = none) :
    s.nearWrite i off l = s.hbmWrite (s.nearBase i + off) l := by
  simp only [State.nearWrite, h]

theorem State.nearWrite_ring {s : State} {i off r : Nat} {l : List Byte} (h : s.nearRingAt i off = some r) :
    s.nearWrite i off l = (s.tailSpan i r off l).hbmWrite ((s.tailSpan i r off l).nearBase i + off) l := by
  simp only [State.nearWrite, h]

/-- Settles O32. -/
theorem completionRings : Obligations.CompletionRings := by
  intro s i r v h hpow
  have enable {t} : doCqEnable i r v s = t → Does (.cqEnable i r v) s t := does_of hpow (exec_cqEnable i r v s)
  have disable {t} : doCqDisable i r s = t → Does (.cqDisable i r) s t := does_of hpow (exec_cqDisable i r s)
  have head {t} : doCqHead i r h.toNat s = t → Does (.cqHeadWrite i r h) s t := does_of hpow (exec_cqHeadWrite i r h s)
  refine ⟨fun hs => ⟨?_, ?_, ?_, ?_, ?_, ?_, ?_⟩, ?_, ?_, ?_, ?_⟩
  · rintro w u hon hw rfl
    exact ⟨fun hvec => enable (doCqEnable_vector hs hw hon hvec), fun hvec => enable (doCqEnable_no_vector hs hw hon hvec)⟩
  · exact fun hoff hr => enable (doCqEnable_absent hs rfl hoff hr)
  · exact fun hoff hr hvec hmin hmax hbase => enable (doCqEnable_starts hs rfl hoff hr hvec hmin hmax hbase)
  · exact fun hq => disable (doCqDisable_named hs hq)
  · exact fun hq => disable (doCqDisable_free hs hq)
  · exact fun hh => head (doCqHead_beyond hs hh)
  · exact fun k hh hk hstep => ⟨fun hw => head (doCqHead_unwritten hs hk hstep hw), fun hw => head (doCqHead_frees hs hk hstep hh hw)⟩
  · exact fun hs => ⟨enable (State.ifStructured_not hs), disable (State.ifStructured_not hs), head (State.ifStructured_not hs)⟩
  · exact fun hz => does_of hpow (exec_nearRingZeroed i r s) (doNearRingZeroed_not hz)
  · refine fun hz => yields_of hpow (exec_nearRingZeroed i r s) ?_
    simp only [State.finish_sq, State.finish_hbmRead, doNearRingZeroed_read hz]
    refine ⟨doNearRingZeroed_zeroing hz, fun k hk => if_pos ?_, fun a ha => if_neg ?_⟩
    · omega
    · omega
  · rintro n vf off len acc rd u hup hspan hu
    have access {t} : doNearRingWrite n vf acc s = t → Does (.nearRingWrite n vf acc.off acc.req) s t :=
      does_of hpow (exec_nearRingWrite n vf acc.off acc.req s)
    have hu := hu.symm
    refine ⟨?_, ?_, ?_, ?_, fun hd3 hfn hmse hsafe hfence => ⟨?_, fun k hb => ⟨?_, fun hpages hbar => ⟨?_, fun hopen => ?_⟩⟩⟩⟩
    · exact fun hd3 => access (doNearRingWrite_d3 hup hspan hu hd3)
    · exact fun hd3 hfn => access (doNearRingWrite_no_function hup hspan hu hd3 hfn)
    · exact fun hd3 hfn hmse => access (doNearRingWrite_disabled hup hspan hu hd3 hfn hmse)
    · exact fun hd3 hfn hmse hstop => access (doNearRingWrite_stopped hup hspan hu hd3 hfn hmse hstop)
    · rintro w hb rfl
      exact access (doNearRingWrite_unbound hup hspan hu hd3 hfn hmse hsafe hfence hb)
    · exact fun hfar => access (doNearRingWrite_beyond hup hspan hu hd3 hfn hmse hsafe hfence hb hfar)
    · exact fun hshut => access (doNearRingWrite_shut hup hspan hu hd3 hfn hmse hsafe hfence hb hpages hbar hshut)
    · have hreach := doNearRingWrite_reaches hup hspan hu hd3 hfn hmse hsafe hfence hb hpages hbar hopen
      refine ⟨?_, ?_, ?_⟩
      · rintro rfl
        exact access hreach
      · rintro rfl
        exact access hreach
      · rintro l rfl
        exact ⟨fun hat => access (hreach.trans (State.nearWrite_elsewhere hat)),
          fun q hat => access (hreach.trans (State.nearWrite_ring hat))⟩

end Sys2Proof.Machine
end


section
/-! # The end of a job (R309 to R312) and the commands of instances (R280 to R285) -/

namespace Sys2Proof.Machine

/-! ## The end of a job -/

section Complete
variable {s : State} {o : Nat}

theorem doJobComplete_absent (h : Table.find s.rma.ops o = none) : doJobComplete o s = s := by
  simp [doJobComplete, State.completeJob, h]

theorem doJobComplete_placing (h : s.xp.placing.any (fun pl => pl.op == o && pl.pkt.op == opColl) = true) : doJobComplete o s = s := by
  rw [doJobComplete, if_pos h]

variable {x : OpSt} (hx : Table.find s.rma.ops o = some x)
  (hp : s.xp.placing.any (fun pl => pl.op == o && pl.pkt.op == opColl) = false)
include hx hp

theorem doJobComplete_waits (h : x.done = false ∨ (s.d3hot (s.instLink x.inst) = true ∧ x.silent = false)) : doJobComplete o s = s := by
  have hwait : (!x.done || (s.d3hot (s.instLink x.inst) && !x.silent)) = true := by simpa using h
  simp only [doJobComplete, State.completeJob, hp, hx, hwait, Bool.false_eq_true, if_false, if_true]

section Ended
variable {u : State} (hdone : x.done = true) (hlink : s.d3hot (s.instLink x.inst) = false ∨ x.silent = true)
  (hu : u = if x.status = 0 then s
    else s.count ⟨0x501, some (s.rae x.engine), some x.inst, some x.remote, some x.tc, some x.mgr, 1⟩)
include hdone hlink hu

theorem doJobComplete_no_ring (hr : x.ring = none) :
    doJobComplete o s = ((((u.slotDone o x).sampleEnd o x).dropOp o).fireCount x.inst x.cq).goOn := by
  have hgo : (!x.done || (s.d3hot (s.instLink x.inst) && !x.silent)) = false := by
    rcases hlink with h | h <;> simp [hdone, h]
  simp only [doJobComplete, State.completeJob, hp, hx, hgo, Bool.false_eq_true, if_false, ← hu, hr]

theorem doJobComplete_ring {r : Nat} {v : State} (hr : x.ring = some r) (hv : v = ((u.slotDone o x).sampleEnd o x).dropOp o) :
    doJobComplete o s = ((v.setSq x.inst r { v.sq x.inst r with jobs := (v.sq x.inst r).jobs - 1 }).fireCount x.inst x.cq).goOn := by
  have hgo : (!x.done || (s.d3hot (s.instLink x.inst) && !x.silent)) = false := by
    rcases hlink with h | h <;> simp [hdone, h]
  simp only [doJobComplete, State.completeJob, hp, hx, hgo, Bool.false_eq_true, if_false, ← hu, hr, ← hv]

end Ended
end Complete

/-- Settles O34. -/
theorem jobEnds : Obligations.JobEnds := by
  intro s o hpow
  have ends {t} : doJobComplete o s = t → Does (.jobComplete o) s t := does_of hpow (exec_jobComplete o s)
  refine ⟨?_, fun x hx hp => ⟨?_, fun u hdone hlink hu => ⟨?_, ?_⟩⟩⟩
  · rintro (h | h)
    · exact ends (doJobComplete_absent h)
    · exact ends (doJobComplete_placing h)
  · exact fun h => ends (doJobComplete_waits hx hp h)
  · exact fun hr => ends (doJobComplete_no_ring hx hp hdone hlink hu hr)
  · exact fun r v hr hv => ends (doJobComplete_ring hx hp hdone hlink hu hr hv)

/-! ## Commands of instances -/

section InstCmd
variable {s : State} {i code : Nat} {op : InstOp} {check : State → Nat} {f : State → State}

theorem State.instCmd_not_structured (h : s.structured = false) : s.instCmd i code op check f = s.notice 61 (Reg.instCmd i) := by
  rw [State.instCmd, State.ifStructured_not h]

variable (h : s.structured = true)
include h

theorem State.instCmd_busy (hb : s.flag (Reg.instCmd i) Fld.instCmdBusy = true) :
    s.instCmd i code op check f = s.put (Reg.instCmd i) Fld.instCmdErr 1 := by
  simp only [State.instCmd, State.ifStructured_of h, hb, if_true]

variable (hb : s.flag (Reg.instCmd i) Fld.instCmdBusy = false) {t : State} (ht : t = s.cmdTaken i code)
include hb ht

theorem State.instCmd_ok (hc : check t = 0) : s.instCmd i code op check f = f (t.setInst i { t.inst i with op := op }) := by
  rw [ht, State.cmdTaken] at hc ⊢
  simp only [State.instCmd, State.ifStructured_of h, hb, Bool.false_eq_true, if_false, hc]

theorem State.instCmd_pools (hc : check t = 4) : s.instCmd i code op check f =
    (t.put (Reg.instCmd i) Fld.instCmdErr 4).put (Reg.instCmd i) Fld.instCmdErrPool (t.poolShort (t.allocOf i)) := by
  rw [ht, State.cmdTaken] at hc ⊢
  simp only [State.instCmd, State.ifStructured_of h, hb, Bool.false_eq_true, if_false, hc]

theorem State.instCmd_refused (hc : check t ≠ 0) (hc' : check t ≠ 4) :
    s.instCmd i code op check f = t.put (Reg.instCmd i) Fld.instCmdErr (check t) := by
  rw [ht, State.cmdTaken] at hc hc' ⊢
  simp only [State.instCmd, State.ifStructured_of h, hb, Bool.false_eq_true, if_false]

/-- A command that is taken in the states `l` alone. -/
theorem State.instCmd_inStates {l : List Nat} : s.instCmd i code op (inStates i l) f =
    if t.instState i ∈ l then f (t.setInst i { t.inst i with op := op }) else t.put (Reg.instCmd i) Fld.instCmdErr 2 := by
  by_cases hl : t.instState i ∈ l
  · rw [if_pos hl, State.instCmd_ok h hb ht (by simp [inStates, hl])]
  · have herr : inStates i l t = 2 := by simp [inStates, hl]
    rw [if_neg hl, State.instCmd_refused h hb ht (by simp [herr]) (by simp [herr]), herr]

end InstCmd

theorem State.moveCheck_ne_pools (i : Nat) (s : State) : State.moveCheck i s ≠ 4 := by
  unfold State.moveCheck
  dsimp only
  split
  · decide
  · split <;> decide

section Ends
variable {s : State} {i : Nat}

theorem doQuiesceEnd_not (h : s.instState i ≠ 2) (d : Bool) : doQuiesceEnd i d s = s := by
  simp [doQuiesceEnd, h]

theorem doQuiesceEnd_of (h : s.instState i = 2) {d : Bool} (hd : d = false ∨ s.quiet i = true) : doQuiesceEnd i d s = s.quiesceDone i := by
  rw [doQuiesceEnd, if_pos ⟨h, by simpa using hd⟩]

theorem doQuiesceEnd_not_quiet (h : s.quiet i = false) : doQuiesceEnd i true s = s := by
  simp [doQuiesceEnd, h]

theorem doInstCmdEnd_none (h : s.flag (Reg.instCmd i) Fld.instCmdBusy = false ∨ ((s.inst i).op = .quiesce ∧ s.instState i = 2)) :
    doInstCmdEnd i s = s := by
  have hcond : (!s.flag (Reg.instCmd i) Fld.instCmdBusy || decide ((s.inst i).op = .quiesce ∧ s.instState i = 2)) = true := by
    simpa using h
  rw [doInstCmdEnd]
  exact if_pos hcond

theorem doInstCmdEnd_of (hb : s.flag (Reg.instCmd i) Fld.instCmdBusy = true) (h : (s.inst i).op ≠ .quiesce ∨ s.instState i ≠ 2) :
    doInstCmdEnd i s = (((s.setInst i { s.inst i with op := .none, prev := none }).put (Reg.instCmd i) Fld.instCmdBusy 0).put
      (Reg.instCmd i) Fld.instCmdDone 1).raiseEvent 1 := by
  have hcond : ¬ (!s.flag (Reg.instCmd i) Fld.instCmdBusy || decide ((s.inst i).op = .quiesce ∧ s.instState i = 2)) = true := by
    simpa [hb, imp_iff_not_or] using h
  rw [doInstCmdEnd]
  exact if_neg hcond

end Ends

/-- Settles O35. -/
theorem instanceCommands : Obligations.InstanceCommands := by
  intro s i hpow
  have create {t} : doCreate i s = t → Does (.create i) s t := does_of hpow (exec_create i s)
  have quiesce {t} : doQuiesce i s = t → Does (.quiesce i) s t := does_of hpow (exec_quiesce i s)
  have resume {t} : doResume i s = t → Does (.resume i) s t := does_of hpow (exec_resume i s)
  have reset {t} : doReset i s = t → Does (.reset i) s t := does_of hpow (exec_reset i s)
  have remove {t} : doRemove i s = t → Does (.remove i) s t := does_of hpow (exec_remove i s)
  have move {t} : doMove i s = t → Does (.move i) s t := does_of hpow (exec_move i s)
  have quiesceEnd {d t} : doQuiesceEnd i d s = t → Does (.quiesceEnd i d) s t := does_of hpow (exec_quiesceEnd i d s)
  have cmdEnd {t} : doInstCmdEnd i s = t → Does (.instCmdEnd i) s t := does_of hpow (exec_instCmdEnd i s)
  refine ⟨?_, ?_, ?_, ?_, ?_, ?_, ?_⟩
  · intro h
    have hno {code op check f} := State.instCmd_not_structured (i := i) (code := code) (op := op) (check := check) (f := f) h
    exact ⟨create hno, quiesce hno, resume hno, reset hno, remove hno, move hno⟩
  · rintro h hb t rfl
    have hbusy {code op check f} := State.instCmd_busy (i := i) (code := code) (op := op) (check := check) (f := f) h hb
    exact ⟨create hbusy, quiesce hbusy, resume hbusy, reset hbusy, remove hbusy, move hbusy⟩
  · intro h hb k hk
    have states {c op l f} := State.instCmd_inStates (op := op) (l := l) (f := f) h hb (hk c)
    refine ⟨?_, ?_, ?_, ?_, ?_, ?_, ?_, ?_, ?_, ?_, ?_, ?_, ?_⟩
    · exact fun hc => create (State.instCmd_ok h hb (hk 1) hc)
    · exact fun hc hc' => create (State.instCmd_refused h hb (hk 1) hc hc')
    · exact fun hc => create (State.instCmd_pools h hb (hk 1) hc)
    · exact fun hin => quiesce (states.trans (if_pos hin))
    · exact fun hin => quiesce (states.trans (if_neg hin))
    · exact fun hin => resume (states.trans (if_pos (List.mem_singleton.mpr hin)))
    · exact fun hin => resume (states.trans (if_neg (mt List.mem_singleton.mp hin)))
    · exact fun hin => reset (states.trans (if_pos (List.mem_singleton.mpr hin)))
    · exact fun hin => reset (states.trans (if_neg (mt List.mem_singleton.mp hin)))
    · exact fun hin => remove (states.trans (if_pos (List.mem_singleton.mpr hin)))
    · exact fun hin => remove (states.trans (if_neg (mt List.mem_singleton.mp hin)))
    · exact fun hc => move (State.instCmd_ok h hb (hk 6) hc)
    · exact fun hc => move (State.instCmd_refused h hb (hk 6) hc (State.moveCheck_ne_pools i _))
  · exact fun h d => quiesceEnd (doQuiesceEnd_not h d)
  · exact fun h => ⟨fun hq => quiesceEnd (doQuiesceEnd_not_quiet hq), quiesceEnd (doQuiesceEnd_of h (.inl rfl)),
      fun hq => quiesceEnd (doQuiesceEnd_of h (.inr hq))⟩
  · exact fun h => cmdEnd (doInstCmdEnd_none h)
  · exact fun hb h => cmdEnd (doInstCmdEnd_of hb h)

end Sys2Proof.Machine
end


section
/-! # Translation requests, walks and marks (R335 to R345) -/

namespace Sys2Proof.Machine

section Translate
variable {s : State} {i : Nat} {q : XlatReq}

theorem doTranslate_not_structured (h : s.structured = false) : doTranslate i q s = s := by
  simp [doTranslate, h]

section Results
variable (h : s.structured = true) {t : State}
include h

theorem doTranslate_hit {b g : Nat} (ht : s.translate i q = (.hit b g, t)) : doTranslate i q s = t.resumeAll [⟨i, q, some (b, g)⟩] := by
  simp only [doTranslate, h, Bool.not_true, Bool.false_eq_true, if_false, ht]

theorem doTranslate_fault (ht : s.translate i q = (.fault, t)) : doTranslate i q s = t.resumeAll [⟨i, q, none⟩] := by
  simp only [doTranslate, h, Bool.not_true, Bool.false_eq_true, if_false, ht]

end Results

/-- Both stages let the request past. -/
theorem State.translate_past (h1 : (q.stage1 && s.s1On i) = false) (h2 : s.s2Mode i = 2) :
    s.translate i q = (.hit (q.addr.toNat % 2 ^ 52) (q.addr.toNat % 2 ^ 52), s) := by
  simp only [State.translate, h1, h2, Bool.not_false, BEq.rfl, Bool.and_self, if_true]

theorem State.translate_too_high (h1 : (q.stage1 && s.s1On i) = true) (ha : 2 ^ 48 ≤ q.addr.toNat) :
    s.translate i q = (.fault, s.xlFault i q 7 0 0 q.addr.toNat) := by
  simp only [State.translate, h1, ha, Bool.not_true, Bool.false_and, Bool.false_eq_true, if_false, if_true]
  rfl

theorem State.translate_cached {t : TlbEnt} (h : (q.stage1 && s.s1On i) = true ∨ s.s2Mode i ≠ 2) (ha : q.addr.toNat < 2 ^ 48)
    (ht : s.tlbHit i q.stage1 q.addr.toNat q.acc = some t) :
    s.translate i q = (.hit (t.base + q.addr.toNat % 2 ^ t.size) (t.gpa + q.addr.toNat % 2 ^ t.size),
      s.count ⟨0x700, none, some i, some q.addr.toNat, none, some false, 1⟩) := by
  have hpast : (!(q.stage1 && s.s1On i) && s.s2Mode i == 2) = false := by
    rcases h with h | h <;> simp [h]
  simp only [State.translate, hpast, Bool.false_eq_true, if_false, not_le.mpr ha, ht]

end Translate

/-! ## The read of a walk -/

/-- A leaf of stage 2 that the walk goes on from, or ends with, is cached (R342). -/
def leafTaken (x : WalkSt) (e : Word) : WalkAct → Bool
  | .read _ | .done _ => x.inS2 && pteLeaf e
  | _ => false

theorem leafTaken_iff (x : WalkSt) (e : Word) (a : WalkAct) :
    leafTaken x e a = true ↔ ((∃ b, a = .read b) ∨ ∃ b, a = .done b) ∧ x.inS2 = true ∧ pteLeaf e = true := by
  cases a <;> simp [leafTaken]

section Walk
variable {s t u : State} {w : Nat} {l : List XDone}

theorem doWalkRead_of {r : ReadRes} (h : s.walkRead w r = (l, u)) : doWalkRead w r s = u.resumeAll l := by
  rw [doWalkRead, h]

theorem doMarkDone_of {old : Word} {ok : Bool} (h : s.markDone w old ok = (l, u)) : doMarkDone w old ok s = u.resumeAll l := by
  rw [doMarkDone, h]

theorem State.walkRead_absent {r : ReadRes} (h : (s.xl.walks.find? (fun x => x.id == w && x.mark.isNone)) = none) :
    s.walkRead w r = ([], { s with dma := s.dma.filter (fun e => e.why != ReadWhy.walk w) }) := by
  simp only [State.walkRead, h]

section Found
variable {x : WalkSt} (h : (s.xl.walks.find? (fun x => x.id == w && x.mark.isNone)) = some x)
include h

theorem State.walkRead_restart {r : ReadRes} (hr : x.restart = true) :
    s.walkRead w r = State.walkAgain { s with dma := s.dma.filter (fun e => e.why != ReadWhy.walk w) } x := by
  simp only [State.walkRead, h, hr, if_true]

variable (hr : x.restart = false) 
include hr

theorem State.walkRead_failed (ht : t = { s with dma := s.dma.filter (fun e => e.why != ReadWhy.walk w) }) :
    s.walkRead w .failed =
      t.walkStep x (if x.inS2 then .fault 5 1 x.s2Level x.s2In else .fault 5 0 x.s1Level x.req.addr.toNat) := by
  simp only [State.walkRead, h, hr, Bool.false_eq_true, if_false, ← ht]

theorem State.walkRead_entry {e : Word} {y : WalkSt} {a : WalkAct} {v : State}
    (ht : t = ({ s with dma := s.dma.filter (fun e => e.why != ReadWhy.walk w) } : State).cacheWalk x e)
    (ha : t.walkEntry x e = (y, a)) (hv : v = if leafTaken x e a = true then t.cacheS2 x e else t) :
    s.walkRead w (.entry e) = v.walkStep y a := by
  simp only [State.walkRead, h, hr, Bool.false_eq_true, if_false, ← ht, ha, hv]
  cases a <;> rfl

end Found
end Walk

/-! ## The mark of a walk -/

section Mark
variable {s t : State} {w : Nat} {old : Word}

theorem State.markDone_absent {ok : Bool} (h : (s.xl.walks.find? (fun x => x.id == w)) = none) :
    s.markDone w old ok = ([], { s with dma := s.dma.filter (fun e => e.why != ReadWhy.mark w) }) := by
  simp only [State.markDone, h]

theorem State.markDone_failed {x : WalkSt} {m : MarkSt} (h : (s.xl.walks.find? (fun x => x.id == w)) = some x) (hm : x.mark = some m)
    (hr : x.restart = false) (ht : t = { s with dma := s.dma.filter (fun e => e.why != ReadWhy.mark w) }) :
    s.markDone w old false = t.walkStep x (x.markFault m.which 5) := by
  simp only [State.markDone, h, hm, hr, Bool.not_false, Bool.false_eq_true, if_false, if_true, ← ht]

end Mark

/-- Settles O37. -/
theorem translationSteps : Obligations.TranslationSteps := by
  intro s i q hpow
  have translate {t} : doTranslate i q s = t → Does (.translate i q) s t := does_of hpow (exec_translate i q s)
  have read {w r t} : doWalkRead w r s = t → Does (.walkReadDone w r) s t := does_of hpow (exec_walkReadDone w r s)
  have mark {w old ok t} : doMarkDone w old ok s = t → Does (.markCasDone w old ok) s t := does_of hpow (exec_markCasDone w old ok s)
  refine ⟨?_, ?_, ?_, ?_, ?_, ?_, ?_, ?_, ?_, ?_⟩
  · exact fun h => translate (doTranslate_not_structured h)
  · exact fun h h1 h2 => translate (doTranslate_hit h (State.translate_past h1 h2))
  · exact fun h h1 ha => translate (doTranslate_fault h (State.translate_too_high h1 ha))
  · exact fun t h hst ha ht => translate (doTranslate_hit h (State.translate_cached hst ha ht))
  · exact fun w r h => read (doWalkRead_of (State.walkRead_absent h))
  · exact fun w x t u l h hr ht hstep => read (doWalkRead_of ((State.walkRead_failed h hr ht).trans hstep))
  · intro w x y e a t u v l h hr ht ha htaken hother hstep
    have hv : v = if leafTaken x e a = true then t.cacheS2 x e else t := by
      split
      case isTrue hyes =>
        obtain ⟨hact, hs2, hleaf⟩ := (leafTaken_iff x e a).mp hyes
        exact htaken hact hs2 hleaf
      case isFalse hno =>
        refine hother ?_
        rw [leafTaken_iff, not_and_or, not_and_or, Bool.not_eq_true, Bool.not_eq_true, not_or, not_exists, not_exists] at hno
        exact hno.imp_left forall_and.mpr
    exact read (doWalkRead_of ((State.walkRead_entry h hr ht ha hv).trans hstep))
  · exact fun w x r u l h hr hagain => read (doWalkRead_of ((State.walkRead_restart h hr).trans hagain))
  · exact fun w old ok h => mark (doMarkDone_of (State.markDone_absent h))
  · exact fun w old x m t u l h hm hr ht hstep => mark (doMarkDone_of ((State.markDone_failed h hm hr ht).trans hstep))

end Sys2Proof.Machine
end


section
/-! # Invalidation, the fault queue, grants and windows (R343 to R360) -/

namespace Sys2Proof.Machine

/-! ## Invalidation -/

@[simp] theorem State.invalidate_tlb (s : State) (k i root a len : Nat) :
    (s.invalidate k i root a len).xl.tlb = s.xl.tlb.filter (fun t => !t.inScope k i root a len) := rfl

@[simp] theorem State.invalidate_word (s : State) (k i root a len : Nat) : (s.invalidate k i root a len).word = s.word := rfl

@[simp] theorem State.invalidate_flag (s : State) (k i root a len : Nat) : (s.invalidate k i root a len).flag = s.flag := rfl

/-- No entry of the scope stays in the translation cache. -/
theorem State.inScope_of_mem_invalidate {s : State} {k i root a len : Nat} {e : TlbEnt} (h : e ∈ (s.invalidate k i root a len).xl.tlb) :
    e.inScope k i root a len = false := by
  rw [State.invalidate_tlb, List.mem_filter] at h
  simpa using h.2

theorem State.mem_of_mem_invalidate {s : State} {k i root a len : Nat} {e : TlbEnt} (h : e ∈ (s.invalidate k i root a len).xl.tlb) :
    e ∈ s.xl.tlb := by
  rw [State.invalidate_tlb, List.mem_filter] at h
  exact h.1

theorem State.flag_put_one (s : State) (a : Nat) {f : Field} (hf : f.fits) (hw : 1 < 2 ^ f.width) : (s.put a f 1).flag a f = true := by
  simp [State.flag, State.get_put _ _ _ _ hf, Nat.mod_eq_of_lt hw]

section Manager
variable {s : State} (h : s.structured = true)
include h

theorem doXlatInv_busy (hb : s.flag Reg.xlatInv Fld.xlatInvBusy = true) : doXlatInv s = s.put Reg.xlatInv Fld.xlatInvInvErr 1 := by
  simp only [doXlatInv, State.ifStructured_of h, hb, if_true]

variable (hb : s.flag Reg.xlatInv Fld.xlatInvBusy = false)
include hb

/-- The state in which the invalidation of the manager takes its scope. -/
def State.mgrInvNoted (s : State) : State :=
  { s.put Reg.xlatInv Fld.xlatInvBusy 1 with
    xl := { s.xl with mgrInv := ⟨true, s.get Reg.xlatInv Fld.xlatInvScope, s.get Reg.xlatInv Fld.xlatInvInst,
      (s.word Reg.invAddr).toNat, s.get Reg.invLen Fld.invLenLen⟩ } }

omit h hb in
theorem State.s2RootOf_mgrInvNoted (j : Nat) : s.mgrInvNoted.s2RootOf j = s.s2RootOf j := by
  have hj : Reg.s2Root j ≠ Reg.xlatInv := by
    simp only [Reg.s2Root, Reg.xlatInv]
    omega
  exact congrArg (· * 4096) (State.get_put_other s Reg.xlatInv (Reg.s2Root j) Fld.s2RootS2Root Fld.xlatInvBusy 1 hj)

theorem doXlatInv_of : doXlatInv s =
    if 1 ≤ s.get Reg.xlatInv Fld.xlatInvScope ∧ s.get Reg.xlatInv Fld.xlatInvScope ≤ 5 then
      s.mgrInvNoted.invalidate (s.get Reg.xlatInv Fld.xlatInvScope) (s.get Reg.xlatInv Fld.xlatInvInst)
        (s.s2RootOf (s.get Reg.xlatInv Fld.xlatInvInst)) (s.word Reg.invAddr).toNat (s.get Reg.invLen Fld.invLenLen)
    else s.mgrInvNoted := by
  rw [← State.s2RootOf_mgrInvNoted (s := s)]
  simp only [doXlatInv, State.ifStructured_of h, hb, Bool.false_eq_true, if_false, State.mgrInvNoted]
  rfl

end Manager

section Tenant
variable {s : State} {i : Nat} (h : s.structured = true)

/-- The state in which the invalidation of a tenant takes its scope. -/
def State.tenInvNoted (s : State) (i : Nat) : State :=
  let t := s.put (Reg.tXlInv i) Fld.tXlInvBusy 1
  { t with xl := { t.xl with tenInv := Table.put t.xl.tenInv i ⟨true, s.get (Reg.tXlInv i) Fld.tXlInvScope, i,
      (s.word (Reg.tInvAddr i)).toNat, s.get (Reg.tInvLen i) Fld.tInvLenLen⟩ } }

theorem State.s2RootOf_tenInvNoted (hi : i < 4096) : (s.tenInvNoted i).s2RootOf i = s.s2RootOf i := by
  have hne : Reg.s2Root i ≠ Reg.tXlInv i := by
    simp only [Reg.s2Root, Reg.tXlInv]
    omega
  exact congrArg (· * 4096) (State.get_put_other s (Reg.tXlInv i) (Reg.s2Root i) Fld.s2RootS2Root Fld.tXlInvBusy 1 hne)

include h

theorem doXlInv_busy (hb : s.flag (Reg.tXlInv i) Fld.tXlInvBusy = true) : doXlInv i s = s.put (Reg.tXlInv i) Fld.tXlInvErr 1 := by
  simp only [doXlInv, State.ifStructured_of h, hb, if_true]

theorem doXlInv_range (hi : i < 4096) (hb : s.flag (Reg.tXlInv i) Fld.tXlInvBusy = false)
    (hk : s.get (Reg.tXlInv i) Fld.tXlInvScope = 2) :
    doXlInv i s = (s.tenInvNoted i).invalidate 2 i (s.s2RootOf i) (s.word (Reg.tInvAddr i)).toNat (s.get (Reg.tInvLen i) Fld.tInvLenLen) := by
  rw [← State.s2RootOf_tenInvNoted (s := s) hi]
  simp only [doXlInv, State.ifStructured_of h, hb, Bool.false_eq_true, if_false, hk, if_true, State.tenInvNoted]

end Tenant

section InvDone
variable {s : State}

theorem doInvDone_mgr_waits (h : s.invWaits s.xl.mgrInv = true) : doInvDone none s = s := by
  simp only [doInvDone, h, if_true]

theorem doInvDone_mgr (h : s.invWaits s.xl.mgrInv = false) :
    doInvDone none s = { s.put Reg.xlatInv Fld.xlatInvBusy 0 with xl := { s.xl with mgrInv := InvSt.init } } := by
  simp only [doInvDone, h, Bool.false_eq_true, if_false]

variable {i : Fin 4096}

theorem doInvDone_tenant_waits (h : s.invWaits (Table.getD s.xl.tenInv InvSt.init i) = true) : doInvDone (some i) s = s := by
  simp only [doInvDone, h, if_true]

theorem doInvDone_tenant (h : s.invWaits (Table.getD s.xl.tenInv InvSt.init i) = false) : doInvDone (some i) s =
    { s.put (Reg.tXlInv i) Fld.tXlInvBusy 0 with xl := { s.xl with tenInv := Table.del s.xl.tenInv i } } := by
  simp only [doInvDone, h, Bool.false_eq_true, if_false]

end InvDone

/-! ## The fault queue, grants and windows -/

section Control
variable {s : State} (h : s.structured = true)
include h

theorem doFaultqHead_beyond {k : Nat} (hk : s.get Reg.faultq Fld.faultqCount < subMod 6 k (s.get Reg.faultq Fld.faultqHead)) :
    doFaultqHead k s = s := by
  simp only [doFaultqHead, State.ifStructured_of h, hk, if_true]

theorem doFaultqHead_consumes {k : Nat} (hk : subMod 6 k (s.get Reg.faultq Fld.faultqHead) ≤ s.get Reg.faultq Fld.faultqCount) :
    doFaultqHead k s = (s.put Reg.faultq Fld.faultqHead k).put Reg.faultq Fld.faultqCount
      (s.get Reg.faultq Fld.faultqCount - subMod 6 k (s.get Reg.faultq Fld.faultqHead)) := by
  simp only [doFaultqHead, State.ifStructured_of h, not_lt.mpr hk, if_false]

variable {i w : Nat} {v : Word}

theorem doDmGrant_reserved (hr : s.touchesRsv (Fld.dmGrantDmBase.get v * 2 ^ 21) (Fld.dmGrantDmLen.get v * 2 ^ 21) = true) :
    doDmGrant i v s = s.notice 59 (Reg.dmGrant i) := by
  simp only [doDmGrant, State.ifStructured_of h, hr, if_true]

theorem doDmGrant_free (hr : s.touchesRsv (Fld.dmGrantDmBase.get v * 2 ^ 21) (Fld.dmGrantDmLen.get v * 2 ^ 21) = false) :
    doDmGrant i v s = (s.put (Reg.dmGrant i) Fld.dmGrantDmBase (Fld.dmGrantDmBase.get v)).put (Reg.dmGrant i) Fld.dmGrantDmLen
      (Fld.dmGrantDmLen.get v) := by
  simp only [doDmGrant, State.ifStructured_of h, hr, Bool.false_eq_true, if_false]

theorem doWindowWrite_cfg : doWindowWrite i w 0 v s = s.setWord (Reg.winCfg i w)
    (if (if Fld.winCfgKind.get v = 0 then decide (2 ^ 48 ≤ (s.word (Reg.winBase i w)).toNat)
        else s.get (Reg.dmGrant i) Fld.dmGrantDmLen == 0) = true
      then Fld.winCfgEnable.put (BitVec.ofNat 64 (v.toNat % 2 ^ 49)) 0 else BitVec.ofNat 64 (v.toNat % 2 ^ 49)) := by
  simp only [doWindowWrite, State.ifStructured_of h]

end Control

/-- Settles O38. -/
theorem translationControl : Obligations.TranslationControl := by
  intro s i hpow
  have mgr {t} : doXlatInv s = t → Does .xlatInv s t := does_of hpow (exec_xlatInv s)
  have tenant {t} : doXlInv i s = t → Does (.xlInv i) s t := does_of hpow (exec_xlInv i s)
  have head {k : BitVec 6} {t} : doFaultqHead k.toNat s = t → Does (.faultqHeadWrite k) s t := does_of hpow (exec_faultqHeadWrite k s)
  have grant {v t} : doDmGrant i v s = t → Does (.dmGrantWrite i v) s t := does_of hpow (exec_dmGrantWrite i v s)
  have window {w r v t} : doWindowWrite i w.val r.val v s = t → Does (.windowWrite i w r v) s t := does_of hpow (exec_windowWrite i w r v s)
  have done {k t} : doInvDone k s = t → Does (.invDone k) s t := does_of hpow (exec_invDone k s)
  refine ⟨?_, fun h => ⟨?_, ?_, ?_, ?_, ?_, ?_, ?_, ?_⟩, ?_, ?_, ?_, ?_⟩
  · exact fun h => ⟨mgr (State.ifStructured_not h), tenant (State.ifStructured_not h), fun k => head (State.ifStructured_not h),
      fun v => grant (State.ifStructured_not h), fun w r v => window (State.ifStructured_not h)⟩
  · exact fun hb => mgr (doXlatInv_busy h hb)
  · rintro k j a len hb rfl rfl rfl rfl
    have heq := doXlatInv_of h hb
    refine ⟨fun hk => ?_, fun hk => ?_⟩
    · rw [if_pos hk] at heq
      refine yields_of hpow (exec_xlatInv s) ?_
      rw [heq, State.finish_xl, State.finish_flag, State.finish_word, State.finish_rma, State.invalidate_flag, State.invalidate_word]
      exact ⟨State.flag_put_one s Reg.xlatInv (by decide) (by decide), rfl, fun e => State.inScope_of_mem_invalidate,
        fun e he => State.mem_of_mem_invalidate he, fun b hb => State.word_put_other s Reg.xlatInv b _ 1 hb, rfl⟩
    · rw [if_neg hk] at heq
      refine yields_of hpow (exec_xlatInv s) ?_
      rw [heq]
      exact ⟨rfl, rfl⟩
  · exact fun hb => tenant (doXlInv_busy h hb)
  · rintro a len hb rfl rfl hk
    refine yields_of hpow (exec_xlInv i s) ?_
    rw [doXlInv_range h i.isLt hb hk, State.finish_xl, State.finish_flag, State.invalidate_flag]
    refine ⟨State.flag_put_one s (Reg.tXlInv i) (by decide) (by decide), fun e => State.inScope_of_mem_invalidate, fun e he hne => ?_⟩
    rw [State.invalidate_tlb, List.mem_filter]
    exact ⟨he, by simp [TlbEnt.inScope, hne]⟩
  · exact fun k hk => head (doFaultqHead_beyond h hk)
  · exact fun k hk => head (doFaultqHead_consumes h hk)
  · exact fun v => ⟨fun hr => grant (doDmGrant_reserved h hr), fun hr => grant (doDmGrant_free h hr)⟩
  · intro w v
    have cfg := doWindowWrite_cfg (i := i) (w := w) (v := v) h
    refine ⟨fun hk hb => window (cfg.trans ?_), fun hk hb => window (cfg.trans ?_), fun hk hg => window (cfg.trans ?_),
      fun hk hg => window (cfg.trans ?_), window (State.ifStructured_of h), window (State.ifStructured_of h), window (State.ifStructured_of h)⟩
    · simp only [hk, if_true, not_le.mpr hb, decide_false, Bool.false_eq_true, if_false]
    · simp only [hk, if_true, hb, decide_true]
    · simp only [hk, if_false, hg, BEq.rfl, if_true]
    · simp only [hk, if_false, beq_eq_false_iff_ne.mpr hg, Bool.false_eq_true]
  · exact fun hw => done (doInvDone_mgr_waits hw)
  · exact fun hw => done (doInvDone_tenant_waits hw)
  · exact fun hw => done (doInvDone_mgr hw)
  · exact fun hw => done (doInvDone_tenant hw)

end Sys2Proof.Machine
end


section
/-! # Matching contexts: hand-over, items, walks, moves and resets (R388 to R408) -/

namespace Sys2Proof.Machine

/-! ## Hand-over -/

section Handover
variable {s t : State} {i idx q : Nat} {h : Nat × Nat × Packet}

theorem doMatchHandover_absent (hf : s.xp.held.find? (fun h => h.1 == idx && h.2.1 == q && h.2.2.tInst == i) = none) :
    doMatchHandover i idx q s = s := by
  simp only [doMatchHandover, hf]

variable (hf : s.xp.held.find? (fun h => h.1 == idx && h.2.1 == q && h.2.2.tInst == i) = some h)
include hf

theorem doMatchHandover_early (ho : s.turnOf i idx q = false) : doMatchHandover i idx q s = s := by
  simp only [doMatchHandover, hf, ho, Bool.not_false, if_true]

variable (ht : t = { s with xp := { s.xp with held := s.xp.held.erase h } }) (ho : s.turnOf i idx q = true)
include ht ho

theorem doMatchHandover_no_ctx (hk : (s.inst i).ctx ≤ h.2.2.aux % 65536) : doMatchHandover i idx q s = t.refuseMsg h.2.2 24 := by
  subst ht
  simp only [doMatchHandover, hf, ho, Bool.not_true, Bool.false_eq_true, if_false]
  exact if_pos hk

variable (hk : h.2.2.aux % 65536 < (s.inst i).ctx)
include hk

theorem doMatchHandover_resetting (hr : (s.ctx ((s.inst i).ctxBase + h.2.2.aux % 65536)).resetting = true) :
    doMatchHandover i idx q s = t.refuseMsg h.2.2 26 := by
  subst ht
  simp only [doMatchHandover, hf, ho, Bool.not_true, Bool.false_eq_true, if_false]
  exact (if_neg (not_le.mpr hk)).trans (if_pos hr)

theorem doMatchHandover_enters (hr : (s.ctx ((s.inst i).ctxBase + h.2.2.aux % 65536)).resetting = false) :
    doMatchHandover i idx q s = t.enterCtx ((s.inst i).ctxBase + h.2.2.aux % 65536) i (.msg h.2.2) := by
  subst ht
  simp only [doMatchHandover, hf, ho, Bool.not_true, Bool.false_eq_true, if_false]
  exact (if_neg (not_le.mpr hk)).trans (if_neg (Bool.eq_false_iff.mp hr))

end Handover

/-! ## Items -/

section Items
variable {s u : State} {d : Nat}

theorem State.takeItem_waits {go : State → State} (hu : u = s.pin d (s.ctxInst d)) (h : ((u.ctx d).idle && u.engineServes d) = false) :
    s.takeItem d go = u := by
  simp only [State.takeItem, ← hu, h, Bool.false_eq_true, if_false]

theorem State.takeItem_served {go : State → State} (hu : u = s.pin d (s.ctxInst d)) (h : ((u.ctx d).idle && u.engineServes d) = true) :
    s.takeItem d go = go ((u.serveCtx d).setCtx d { u.ctx d with queue := (u.ctx d).queue.tail, waited := 0 }) := by
  simp only [State.takeItem, ← hu, h, if_true]

theorem doArrive_none (h : (s.ctx d).queue = []) : doArrive d s = s := by simp only [doArrive, h]

theorem doPost_none (h : (s.ctx d).queue = []) : doPost d s = s := by simp only [doPost, h]

theorem doWalkInterrupt_none (h : (s.ctx d).queue = []) (w : WalkStop) : doWalkInterrupt d w s = s := by simp only [doWalkInterrupt, h]

section Message
variable {m : Packet} {l : List CtxItem} (h : (s.ctx d).queue = .msg m :: l)
include h

theorem doPost_message : doPost d s = s := by simp only [doPost, h]

theorem doArrive_message : doArrive d s = s.takeItem d (fun s => s.runItem d (.msg m) 0) := by simp only [doArrive, h]

end Message

section Receive
variable {o : Nat} {l : List CtxItem} (h : (s.ctx d).queue = .recv o :: l)
include h

theorem doArrive_receive : doArrive d s = s := by simp only [doArrive, h]

theorem doPost_receive : doPost d s = s.takeItem d (fun s => s.runItem d (.recv o) 0) := by simp only [doPost, h]

end Receive

section Interrupt
variable {it : CtxItem} {l : List CtxItem} {stop : WalkStop} (h : (s.ctx d).queue = it :: l)
include h

theorem doWalkInterrupt_no_cause (hc : ((s.ctx d).walk.isNone && s.walkCause d) = false) : doWalkInterrupt d stop s = s := by
  simp only [doWalkInterrupt, h, hc, Bool.false_eq_true, if_false]

variable (hc : ((s.ctx d).walk.isNone && s.walkCause d) = true)
include hc

theorem doWalkInterrupt_no_point (hs : (s.setCtx d { s.ctx d with queue := l }).stopAt d it stop = none) : doWalkInterrupt d stop s = s := by
  simp only [doWalkInterrupt, h, hc, if_true, hs]

theorem doWalkInterrupt_stops {w : MatchWalk} (hs : (s.setCtx d { s.ctx d with queue := l }).stopAt d it stop = some (u, w)) :
    doWalkInterrupt d stop s = (u.setCtx d { u.ctx d with walk := some w }).bump Reg.matchStat2 Fld.matchStat2Interrupts 1 := by
  simp only [doWalkInterrupt, h, hc, if_true, hs]

end Interrupt

theorem doWalkResume_none (h : (s.ctx d).walk = none) : doWalkResume d s = s := by simp only [doWalkResume, h]

theorem doWalkResume_waits {w : MatchWalk} (h : (s.ctx d).walk = some w) (hr : ((s.ctx d).ready && s.engineServes d) = false) :
    doWalkResume d s = s := by
  simp only [doWalkResume, h, hr, Bool.false_eq_true, if_false]

theorem doWalkResume_served {w : MatchWalk} (h : (s.ctx d).walk = some w) (hr : ((s.ctx d).ready && s.engineServes d) = true) :
    doWalkResume d s = ((s.serveCtx d).setCtx d { s.ctx d with walk := none, waited := 0 }).resumeMatch d w := by
  simp only [doWalkResume, h, hr, if_true]

theorem doUnpin_idle (hq : (s.ctx d).queue = []) (hw : (s.ctx d).walk = none) : doUnpin d s = s.put (Reg.ctxCfg d) Fld.ctxCfgPinned 0 := by
  simp only [doUnpin, hq, hw, List.isEmpty_nil, Option.isNone_none, Bool.and_self, if_true]

theorem doUnpin_busy (h : (s.ctx d).queue ≠ [] ∨ (s.ctx d).walk ≠ none) : doUnpin d s = s := by
  have hb : ((s.ctx d).queue.isEmpty && (s.ctx d).walk.isNone) = false := by
    rcases h with h | h
    · simp [h]
    · simp [Option.isSome_iff_ne_none.mpr h]
  simp only [doUnpin, hb, Bool.false_eq_true, if_false]

end Items

/-! ## The context that an engine serves (R393) -/

theorem mem_of_nextRound {last : Option Nat} {l : List Nat} {d : Nat} (h : nextRound last l = some d) : d ∈ l := by
  cases last with
  | none => exact List.mem_of_head? h
  | some k =>
    rcases Option.or_eq_some_iff.mp h with h | ⟨-, h⟩
    · exact List.mem_of_find?_eq_some h
    · exact List.mem_of_head? h

theorem foldl_min_le (f : Nat → Nat) (l : List Nat) (b : Nat) :
    l.foldl (fun p d => min p (f d)) b ≤ b ∧ ∀ x ∈ l, l.foldl (fun p d => min p (f d)) b ≤ f x := by
  induction l generalizing b with
  | nil => simp
  | cons y l ih =>
    obtain ⟨hb, hl⟩ := ih (min b (f y))
    refine ⟨hb.trans (min_le_left _ _), fun x hx => ?_⟩
    rcases List.mem_cons.mp hx with rfl | hx
    · exact hb.trans (min_le_right _ _)
    · exact hl x hx

/-- A context served is ready, and either has waited `age` decisions or has the highest priority with work. -/
theorem State.serveNext_fair {s : State} {e d : Nat} (h : s.serveNext e = some d) :
    d ∈ s.readyAt e ∧ (s.get Reg.matchCtrl Fld.matchCtrlAge ≤ (s.ctx d).waited ∨ ∀ x ∈ s.readyAt e, s.prioOf d ≤ s.prioOf x) := by
  rw [State.serveNext] at h
  have hmem := mem_of_nextRound h
  obtain ⟨hin, hprio⟩ := List.mem_filter.mp hmem
  split at hin
  case isTrue hold =>
    refine ⟨hin, .inr fun x hx => ?_⟩
    rw [if_pos hold, beq_iff_eq] at hprio
    exact hprio ▸ (foldl_min_le s.prioOf (s.readyAt e) 3).2 x hx
  case isFalse hold =>
    obtain ⟨hin, hage⟩ := List.mem_filter.mp hin
    exact ⟨hin, .inl (of_decide_eq_true hage)⟩

/-! ## Moves and resets -/

section Moves
variable {s t : State} {d e : Nat}

theorem doMigrate_down (h : s.structured = true) (ht : t = s.put (Reg.ctxCfg d) Fld.ctxCfgMigTo e) (hu : t.dillUp e = false) :
    doMigrate d e s = t.post (400 + e) 59 0 (Reg.ctxCfg d) := by
  simp only [doMigrate, State.ifStructured_of h, ← ht, hu, Bool.not_false, if_true]

theorem doMigrate_up (h : s.structured = true) (ht : t = s.put (Reg.ctxCfg d) Fld.ctxCfgMigTo e) (hu : t.dillUp e = true) :
    doMigrate d e s = (t.setCtx d { t.ctx d with migrateTo := some e }).put (Reg.ctxCfg d) Fld.ctxCfgBusy 1 := by
  simp only [doMigrate, State.ifStructured_of h, ← ht, hu, Bool.not_true, Bool.false_eq_true, if_false]

theorem doMigrateEnd_none (h : (s.ctx d).migrateTo = none) : doMigrateEnd d s = s := by simp only [doMigrateEnd, h]

theorem doMigrateEnd_resetting (h : (s.ctx d).migrateTo = some e) (hr : (s.ctx d).resetting = true) : doMigrateEnd d s = s := by
  simp only [doMigrateEnd, h, hr, if_true]

theorem doMigrateEnd_moves (h : (s.ctx d).migrateTo = some e) (hr : (s.ctx d).resetting = false) :
    doMigrateEnd d s = (((s.setCtx d { s.ctx d with migrateTo := none }).put (Reg.ctxCfg d) Fld.ctxCfgPinned 1).put (Reg.ctxCfg d)
      Fld.ctxCfgEngine e).put (Reg.ctxCfg d) Fld.ctxCfgBusy 0 := by
  simp only [doMigrateEnd, h, hr, Bool.false_eq_true, if_false]

theorem doCtxResetEnd_none (h : (s.ctx d).resetting = false) : doCtxResetEnd d s = s := by
  simp only [doCtxResetEnd, h, Bool.false_eq_true, if_false]

theorem doCtxResetEnd_of (h : (s.ctx d).resetting = true) : doCtxResetEnd d s =
    ((s.setCtx d { s.ctx d with resetting := false }).put (Reg.ctxCfg d) Fld.ctxCfgBusy (b2n (s.ctx d).migrateTo.isSome)).raiseEvent 5 := by
  simp only [doCtxResetEnd, h, if_true]

end Moves

/-- Settles O39. -/
theorem matchingContexts : Obligations.MatchingContexts := by
  intro s d i hpow
  have handover {idx : Fin 1048576} {q : BitVec 24} {t} : doMatchHandover i idx q.toNat s = t → Does (.matchHandover i idx q) s t :=
    does_of hpow (exec_matchHandover i idx q s)
  have arrive {t} : doArrive d s = t → Does (.arrive d) s t := does_of hpow (exec_arrive d s)
  have post {t} : doPost d s = t → Does (.post d) s t := does_of hpow (exec_post d s)
  have interrupt {w t} : doWalkInterrupt d w s = t → Does (.walkInterrupt ⟨d, w⟩) s t := does_of hpow (exec_walkInterrupt ⟨d, w⟩ s)
  have resume {t} : doWalkResume d s = t → Does (.walkResume d) s t := does_of hpow (exec_walkResume d s)
  have unpin {t} : doUnpin d s = t → Does (.unpin d) s t := does_of hpow (exec_unpin d s)
  have migrate {e : Fin 32} {t} : doMigrate d e s = t → Does (.migrate d e) s t := does_of hpow (exec_migrate d e s)
  have migrateEnd {t} : doMigrateEnd d s = t → Does (.migrateEnd d) s t := does_of hpow (exec_migrateEnd d s)
  have reset {t} : doCtxReset d s = t → Does (.ctxReset d) s t := does_of hpow (exec_ctxReset d s)
  have resetEnd {t} : doCtxResetEnd d s = t → Does (.ctxResetEnd d) s t := does_of hpow (exec_ctxResetEnd d s)
  refine ⟨?_, ?_, ?_, ?_, ?_, ?_, ?_, ?_, ?_, ?_, ?_, ?_, ?_, ?_, ?_, ?_, ?_⟩
  · intro idx q h t hf ht
    exact ⟨fun ho => handover (doMatchHandover_early hf ho), fun ho => ⟨fun hk => handover (doMatchHandover_no_ctx hf ht ho hk),
      fun hk => ⟨fun hr => handover (doMatchHandover_resetting hf ht ho hk hr), fun hr => handover (doMatchHandover_enters hf ht ho hk hr)⟩⟩⟩
  · exact fun idx q hf => handover (doMatchHandover_absent hf)
  · exact fun h => ⟨arrive (doArrive_none h), post (doPost_none h), fun w => interrupt (doWalkInterrupt_none h w)⟩
  · exact fun u m l hu h => ⟨post (doPost_message h), fun hs => arrive ((doArrive_message h).trans (State.takeItem_waits hu hs)),
      fun hs => arrive ((doArrive_message h).trans (State.takeItem_served hu hs))⟩
  · exact fun u o l hu h => ⟨arrive (doArrive_receive h), fun hs => post ((doPost_receive h).trans (State.takeItem_waits hu hs)),
      fun hs => post ((doPost_receive h).trans (State.takeItem_served hu hs))⟩
  · exact fun it l stop h => ⟨fun hc => interrupt (doWalkInterrupt_no_cause h hc),
      fun hc => ⟨fun hs => interrupt (doWalkInterrupt_no_point h hc hs), fun u w hs => interrupt (doWalkInterrupt_stops h hc hs)⟩⟩
  · exact fun h => resume (doWalkResume_none h)
  · exact fun w h => ⟨fun hr => resume (doWalkResume_waits h hr), fun hr => resume (doWalkResume_served h hr)⟩
  · exact fun e => State.serveNext_fair
  · exact fun hq hw => unpin (doUnpin_idle hq hw)
  · exact fun h => unpin (doUnpin_busy h)
  · exact fun h => ⟨fun e => migrate (State.ifStructured_not h), reset (State.ifStructured_not h)⟩
  · refine fun h => ⟨fun e t ht => ⟨fun hu => migrate (doMigrate_down h ht hu), fun hu => migrate (doMigrate_up h ht hu)⟩, ?_⟩
    rintro t rfl
    exact reset (State.ifStructured_of h)
  · exact fun h => migrateEnd (doMigrateEnd_none h)
  · exact fun e h => ⟨fun hr => migrateEnd (doMigrateEnd_resetting h hr), fun hr => migrateEnd (doMigrateEnd_moves h hr)⟩
  · exact fun h => resetEnd (doCtxResetEnd_none h)
  · exact fun h => resetEnd (doCtxResetEnd_of h)

end Sys2Proof.Machine
end


section
/-! # The matching window (R397, R406) and collective packets (R425 to R440) -/

namespace Sys2Proof.Machine

/-! ## Entries and pools -/

section Window
variable {s t : State} (h : s.structured = true)
include h

section Entry
variable {b : Bool} {n : Nat} (ht : t = (s.put Reg.entSel Fld.entSelIndex n).put Reg.entSel Fld.entSelList (b2n b))
include ht

theorem doEntryRead_used {ws : List Word} (hw : t.entryWords b n = some ws) :
    doEntryRead b n s = (t.putEntry ws).put Reg.entSel Fld.entSelInUse 1 := by
  simp only [doEntryRead, State.ifStructured_of h, ← ht, hw]

theorem doEntryRead_free (hw : t.entryWords b n = none) : doEntryRead b n s = (t.putEntry []).put Reg.entSel Fld.entSelInUse 0 := by
  simp only [doEntryRead, State.ifStructured_of h, ← ht, hw]

end Entry

section Pools
variable {v w : Word} {p u : Nat} (hp : p = min 16 (Fld.matchPoolPreM.get v)) (hu : u = min 16 (Fld.matchPoolUxeM.get v))
include hp hu

/-- The pools are filled before the fabric is enabled and while no context is allocated, where they fit. -/
theorem doPoolWrite_fills (hw : w = Fld.matchPoolUxeM.put (Fld.matchPoolPreM.put (BitVec.ofNat 64 (v.toNat % 2 ^ 32)) p) u)
    (hi : s.imgState = 2)
    (hfits : 72 * (p + u) + Fld.matchPoolBounceMib.get v + Fld.matchPoolSegMib.get v ≤ 512 * s.get Reg.cohRegion Fld.cohRegionSizeGib)
    (hctx : ∀ e ∈ s.insts, e.2.ctx = 0) : doPoolWrite v s = (s.setWord Reg.matchPool w).fillPools w := by
  have hany : s.insts.any (fun e => decide (0 < e.2.ctx)) = false :=
    List.any_eq_false.mpr fun e he => by simp [hctx e he]
  simp only [doPoolWrite, State.ifStructured_of h, ← hp, ← hu, hi, hfits, hany, decide_true, Bool.not_false, and_self, if_true, hw]

theorem doPoolWrite_refused (hbad : s.imgState ≠ 2
    ∨ 512 * s.get Reg.cohRegion Fld.cohRegionSizeGib < 72 * (p + u) + Fld.matchPoolBounceMib.get v + Fld.matchPoolSegMib.get v
    ∨ ∃ e ∈ s.insts, e.2.ctx ≠ 0) : doPoolWrite v s = s.notice 59 Reg.matchPool := by
  rw [doPoolWrite, State.ifStructured_of h, ← hp, ← hu]
  refine if_neg ?_
  rintro ⟨hi, hfits, hany⟩
  rcases hbad with hbad | hbad | ⟨e, he, hctx⟩
  · exact hbad hi
  · exact absurd (of_decide_eq_true hfits) (not_le.mpr hbad)
  · rw [Bool.not_eq_true', List.any_eq_false] at hany
    exact hany e he (decide_eq_true (Nat.pos_of_ne_zero hctx))

end Pools
end Window

/-- Settles O41. -/
theorem matchingWindow : Obligations.MatchingWindow := by
  intro s hpow
  have entry {b n t} : doEntryRead b n s = t → Does (.entryRead b n) s t := does_of hpow (exec_entryRead b n s)
  have pools {v t} : doPoolWrite v s = t → Does (.poolWrite v) s t := does_of hpow (exec_poolWrite v s)
  refine ⟨?_, ?_, ?_⟩
  · exact fun h => ⟨fun b n => entry (State.ifStructured_not h), fun v => pools (State.ifStructured_not h)⟩
  · exact fun h b n t ht => ⟨fun ws hw => entry (doEntryRead_used h ht hw), fun hw => entry (doEntryRead_free h ht hw)⟩
  · refine fun h v w p u hp hu hw => ⟨fun hi hfits hctx => ?_, fun hbad => pools (doPoolWrite_refused h hp hu hbad)⟩
    refine yields_of hpow (exec_poolWrite v s) ?_
    rw [doPoolWrite_fills h hp hu hw hi hfits hctx, State.finish_word, State.finish_mt]
    exact ⟨State.word_setWord_same s Reg.matchPool w, rfl, rfl, rfl, rfl, fun a ha => State.word_setWord_other s Reg.matchPool a w ha⟩

/-! ## Collective packets -/

section Coll
variable {s t u : State} {p : Packet}

theorem doCollUp_other (h : p.op ≠ opColl ∨ collPhase p ≠ 0) : doCollUp p s = s := if_pos h

theorem doCollDown_other (h : p.op ≠ opColl ∨ collPhase p ≠ 1) : doCollDown p s = s := if_pos h

theorem doFailPacket_other (h : p.op ≠ opColl ∨ collPhase p ≠ 6) : doFailPacket p s = s := if_pos h

variable (ho : p.op = opColl)
include ho

/-- The type of a packet that is one. -/
theorem packet_is {k : Nat} (h : collPhase p = k) : ¬ (p.op ≠ opColl ∨ collPhase p ≠ k) := by simp [ho, h]

section Refused
variable (ha : s.accept p = (false, t))
include ha

theorem doCollUp_refused (h : collPhase p = 0) : doCollUp p s = t := by
  rw [doCollUp, if_neg (packet_is ho h), ha]

theorem doCollDown_refused (h : collPhase p = 1) : doCollDown p s = t := by
  rw [doCollDown, if_neg (packet_is ho h), ha]

theorem doFailPacket_refused (h : collPhase p = 6) : doFailPacket p s = t := by
  rw [doFailPacket, if_neg (packet_is ho h), ha]

end Refused

variable (ha : s.accept p = (true, t))
include ha

theorem doCollUp_accepted (h : collPhase p = 0) : doCollUp p s = t.collArrive p false := by
  rw [doCollUp, if_neg (packet_is ho h), ha]

theorem doCollDown_accepted (h : collPhase p = 1) : doCollDown p s = t.collArrive p true := by
  rw [doCollDown, if_neg (packet_is ho h), ha]

variable (h : collPhase p = 6) (hu : u = t.bump Reg.collStat1 Fld.collStat1FailRx 1) {c n : Nat} (hc : c = p.aux % 4096)
  (hn : n = p.base % 2 ^ 32)
include h hu hc hn

omit hn in
theorem doFailPacket_no_comm (hv : u.commValid c = false) : doFailPacket p s = u.sendNcomp p 6 := by
  simp only [doFailPacket, packet_is ho h, if_false, ha, ← hu, ← hc, hv, Bool.not_false, if_true]

variable (hv : u.commValid c = true)
include hv

theorem doFailPacket_noticed (hx : u.noticed c n ≠ none) : doFailPacket p s = u := by
  simp only [doFailPacket, packet_is ho h, if_false, ha, ← hu, ← hc, ← hn, hv, Bool.not_true, Bool.false_eq_true,
    Option.isSome_iff_ne_none.mpr hx, if_true]

variable (hx : u.noticed c n = none)
include hx

theorem doFailPacket_running {x : CollSt} (hf : u.coll c n = some x) : doFailPacket p s = u.failColl x (p.xlen % 256) p.src := by
  simp only [doFailPacket, packet_is ho h, if_false, ha, ← hu, ← hc, ← hn, hv, Bool.not_true, Bool.false_eq_true, hx,
    Option.isSome_none, hf]

theorem doFailPacket_unknown (hf : u.coll c n = none) :
    doFailPacket p s = u.failColl ⟨c, n, 0, 0, 0, 0, 0, 0, 0, []⟩ (p.xlen % 256) p.src := by
  simp only [doFailPacket, packet_is ho h, if_false, ha, ← hu, ← hc, ← hn, hv, Bool.not_true, Bool.false_eq_true, hx,
    Option.isSome_none, hf]

end Coll

/-- An engine touches no collective of another. -/
theorem doSegmentAdmit_none {s : State} {e : Nat} (h : ∀ x ∈ s.colls.colls, s.commEngine x.comm ≠ e) : doSegmentAdmit e s = s := by
  unfold doSegmentAdmit
  generalize s.colls.colls = l at h
  induction l with
  | nil => rfl
  | cons x l ih =>
    rw [List.foldl_cons, if_neg (h x List.mem_cons_self)]
    exact ih fun y hy => h y (List.mem_cons_of_mem x hy)

/-- Settles O43. -/
theorem collectivePackets : Obligations.CollectivePackets := by
  intro s t p hpow
  have up {t} : doCollUp p s = t → Does (.collUp p) s t := does_of hpow (exec_collUp p s)
  have down {t} : doCollDown p s = t → Does (.collDown p) s t := does_of hpow (exec_collDown p s)
  have fail {t} : doFailPacket p s = t → Does (.failPacket p) s t := does_of hpow (exec_failPacket p s)
  refine ⟨fun h => up (doCollUp_other h), fun h => down (doCollDown_other h), fun h => fail (doFailPacket_other h), ?_, ?_, ?_, ?_⟩
  · exact fun ho ha => ⟨fun h => up (doCollUp_refused ho ha h), fun h => down (doCollDown_refused ho ha h),
      fun h => fail (doFailPacket_refused ho ha h)⟩
  · refine fun ho ha => ⟨fun h => up (doCollUp_accepted ho ha h), fun h => down (doCollDown_accepted ho ha h),
      fun u c n h hu hc hn => ⟨?_, ?_, ?_, ?_⟩⟩
    · exact fun hv => fail (doFailPacket_no_comm ho ha h hu hc hv)
    · exact fun hv hx => fail (doFailPacket_noticed ho ha h hu hc hn hv hx)
    · exact fun x hv hx hf => fail (doFailPacket_running ho ha h hu hc hn hv hx hf)
    · exact fun hv hx hf => fail (doFailPacket_unknown ho ha h hu hc hn hv hx hf)
  · exact fun e h => does_of hpow (exec_segmentAdmit e s) (doSegmentAdmit_none h)
  · intro e x u hl he hu
    refine does_of hpow (exec_segmentAdmit e s) ?_
    rw [doSegmentAdmit, hl, List.foldl_cons, List.foldl_nil, if_pos he, ← hu]

end Sys2Proof.Machine
end


section
/-! # Global services (R441 to R449), and the control of triggers and handlers (R450 to R459) -/

namespace Sys2Proof.Machine

/-! ## Services started -/

section Start
variable {s t : State} {v : Word} {w : Bool} {f : Nat → State → State}

theorem State.startSvc_not_structured (h : s.structured = false) : s.startSvc v w f = s.notice 61 Reg.gsvc := State.ifStructured_not h

variable (h : s.structured = true)
include h

theorem State.startSvc_running (hr : s.colls.svcOp ≠ 0) : s.startSvc v w f = s.put Reg.gsvc Fld.gsvcStatus 1 := by
  rw [State.startSvc, State.ifStructured_of h]
  exact if_pos hr

variable (hr : s.colls.svcOp = 0) (ht : t = s.putGsvc v) {c : Nat} (hc : c = Fld.gsvcMcomm.get v)
include hr ht hc

theorem State.startSvc_not_leader (hl : (t.svcValid c && t.isLeader c && t.tpos c == 0) = false) :
    s.startSvc v w f = t.put Reg.gsvc Fld.gsvcStatus 2 := by
  simp only [State.startSvc, State.ifStructured_of h, hr, ne_eq, not_true_eq_false, if_false, ← ht, ← hc, hl, Bool.not_false, if_true]

theorem State.startSvc_runs (hl : (t.svcValid c && t.isLeader c && t.tpos c == 0) = true) {o : Nat} {u : State}
    (ho : t.addOp { OpSt.init with inst := 4096, engine := 16, mgr := true, started := true } = (o, u)) :
    s.startSvc v w f = f c (((({ u with colls := { u.colls with svcOp := o, svcComm := c, svcWave := w, snapSeen := [] } } : State).put
      Reg.gsvc Fld.gsvcBusy 1).put Reg.gsvc Fld.gsvcStatus 0).put Reg.gsvc Fld.gsvcCounted 0) := by
  simp only [State.startSvc, State.ifStructured_of h, hr, ne_eq, not_true_eq_false, if_false, ← ht, ← hc, hl, Bool.not_true,
    Bool.false_eq_true, ho]

end Start

/-! ## Service packets -/

section Arrival
variable {s t : State} {p : Packet} {ph : Nat} {f : Nat → State → State}

theorem State.svcArrival_other (h : p.op ≠ opColl ∨ collPhase p ≠ ph) : s.svcArrival p ph f = s := if_pos h

variable (ho : p.op = opColl) (h : collPhase p = ph)
include ho h

theorem State.svcArrival_refused (ha : s.accept p = (false, t)) : s.svcArrival p ph f = t.goOn := by
  rw [State.svcArrival, if_neg (packet_is ho h), ha]

theorem State.svcArrival_no_comm (ha : s.accept p = (true, t)) (hv : t.svcValid (p.aux % 4096) = false) :
    s.svcArrival p ph f = (t.sendNcomp p 6).goOn := by
  simp only [State.svcArrival, packet_is ho h, if_false, ha, hv, Bool.false_eq_true]

theorem State.svcArrival_of (ha : s.accept p = (true, t)) {k : Nat} (hk : k = p.aux % 4096) (hv : t.svcValid k = true) :
    s.svcArrival p ph f = (f k t).goOn := by
  subst hk
  simp only [State.svcArrival, packet_is ho h, if_false, ha, hv, if_true]

end Arrival

theorem doArmDiscard_none {s : State} (h : s.colls.armed = none) : doArmDiscard s = s := by
  simp only [doArmDiscard, h, Option.isSome_none, Bool.false_eq_true, if_false]

theorem doArmDiscard_of {s : State} (h : s.colls.armed ≠ none) : doArmDiscard s =
    ({ s with colls := { s.colls with armed := none, upFrom := [], upDone := false } } : State).put Reg.perfCtrl Fld.perfCtrlArmHeld 0 := by
  simp only [doArmDiscard, Option.isSome_iff_ne_none.mpr h, if_true]

/-- Settles O44. -/
theorem globalServices : Obligations.GlobalServices := by
  intro s v p c hpow hc
  have snapshot {t} : doSnapshotGo v s = t → Does (.snapshotGo v) s t := does_of hpow (exec_snapshotGo v s)
  have abort {t} : doWaveGo 1 v s = t → Does (.waveAbortGo v) s t := does_of hpow (exec_waveAbortGo v s)
  have clear {t} : doWaveGo 2 v s = t → Does (.waveClearGo v) s t := does_of hpow (exec_waveClearGo v s)
  have safe {t} : doWaveGo 3 v s = t → Does (.waveSafeGo v) s t := does_of hpow (exec_waveSafeGo v s)
  have arm {t} : doArmPacket p s = t → Does (.armPacket p) s t := does_of hpow (exec_armPacket p s)
  have up {t} : doSnapshotUp p s = t → Does (.snapshotUp p) s t := does_of hpow (exec_snapshotUp p s)
  have freeze {t} : doFreezePacket p s = t → Does (.freezePacket p) s t := does_of hpow (exec_freezePacket p s)
  have record {t} : doSnapshotRecord p s = t → Does (.snapshotRecord p) s t := does_of hpow (exec_snapshotRecord p s)
  have wave {t} : doWavePacket p s = t → Does (.wavePacket p) s t := does_of hpow (exec_wavePacket p s)
  refine ⟨?_, ?_, ?_, ?_, ?_, ?_, ?_⟩
  · rintro h t rfl
    exact ⟨snapshot (State.startSvc_not_structured h), abort (State.startSvc_not_structured h),
      clear (State.startSvc_not_structured h), safe (State.startSvc_not_structured h)⟩
  · rintro h hr t rfl
    exact ⟨snapshot (State.startSvc_running h hr), abort (State.startSvc_running h hr), clear (State.startSvc_running h hr),
      safe (State.startSvc_running h hr)⟩
  · refine fun t ht h hr => ⟨?_, ?_⟩
    · rintro hl u rfl
      exact ⟨snapshot (State.startSvc_not_leader h hr ht hc hl), abort (State.startSvc_not_leader h hr ht hc hl),
        clear (State.startSvc_not_leader h hr ht hc hl), safe (State.startSvc_not_leader h hr ht hc hl)⟩
    · intro hl o u run ho hrun
      refine ⟨?_, ?_⟩
      · rw [hrun]
        exact snapshot (State.startSvc_runs h hr ht hc hl ho)
      · rintro k w rfl
        rw [hrun]
        refine ⟨?_, ?_, ?_⟩
        · rintro rfl
          exact abort (State.startSvc_runs h hr ht hc hl ho)
        · rintro rfl
          exact clear (State.startSvc_runs h hr ht hc hl ho)
        · rintro rfl
          exact safe (State.startSvc_runs h hr ht hc hl ho)
  · intro i ph hi
    refine ⟨fun h => ?_, fun ho h => ⟨fun t ha => ?_, fun t ha hv => ?_⟩⟩
    · rcases hi with ⟨rfl, rfl⟩ | ⟨rfl, rfl⟩ | ⟨rfl, rfl⟩ | ⟨rfl, rfl⟩ | ⟨rfl, rfl⟩
      · exact arm (State.svcArrival_other h)
      · exact up (State.svcArrival_other h)
      · exact freeze (State.svcArrival_other h)
      · exact record (State.svcArrival_other h)
      · exact wave (State.svcArrival_other h)
    · rcases hi with ⟨rfl, rfl⟩ | ⟨rfl, rfl⟩ | ⟨rfl, rfl⟩ | ⟨rfl, rfl⟩ | ⟨rfl, rfl⟩
      · exact arm (State.svcArrival_refused ho h ha)
      · exact up (State.svcArrival_refused ho h ha)
      · exact freeze (State.svcArrival_refused ho h ha)
      · exact record (State.svcArrival_refused ho h ha)
      · exact wave (State.svcArrival_refused ho h ha)
    · rcases hi with ⟨rfl, rfl⟩ | ⟨rfl, rfl⟩ | ⟨rfl, rfl⟩ | ⟨rfl, rfl⟩ | ⟨rfl, rfl⟩
      · exact arm (State.svcArrival_no_comm ho h ha hv)
      · exact up (State.svcArrival_no_comm ho h ha hv)
      · exact freeze (State.svcArrival_no_comm ho h ha hv)
      · exact record (State.svcArrival_no_comm ho h ha hv)
      · exact wave (State.svcArrival_no_comm ho h ha hv)
  · exact fun t k ho ha hk hv => ⟨fun h => arm (State.svcArrival_of ho h ha hk hv), fun h => up (State.svcArrival_of ho h ha hk hv),
      fun h => freeze (State.svcArrival_of ho h ha hk hv), fun h => record (State.svcArrival_of ho h ha hk hv),
      fun h => wave (State.svcArrival_of ho h ha hk hv)⟩
  · exact fun h => does_of hpow (exec_armDiscard s) (doArmDiscard_none h)
  · exact fun h => does_of hpow (exec_armDiscard s) (doArmDiscard_of h)

/-! ## Triggers, dispatch and the control of cores -/

section Triggers
variable {s : State} {t : Nat}

theorem doTriggerTimer_fires (hon : s.trigOn t = true) (hk : s.get (Reg.trigCfg t) Fld.trigCfgKind = 3)
    (ha : s.get (Reg.trigArg t) Fld.trigArgArg ≠ 0) : doTriggerTimer t s = s.fire t (BitVec.ofNat 64 s.usSinceApply) 0 0 0 := by
  simp only [doTriggerTimer, hon, hk, BEq.rfl, bne_iff_ne.mpr ha, Bool.and_self, if_true]

theorem doTriggerTimer_none (h : s.trigOn t = false ∨ s.get (Reg.trigCfg t) Fld.trigCfgKind ≠ 3 ∨ s.get (Reg.trigArg t) Fld.trigArgArg = 0) :
    doTriggerTimer t s = s := by
  refine if_neg ?_
  rw [Bool.and_eq_true, Bool.and_eq_true, beq_iff_eq, bne_iff_ne]
  rintro ⟨⟨hon, hk⟩, ha⟩
  rcases h with h | h | h
  · simp [h] at hon
  · exact h hk
  · exact ha h

variable (h : s.structured = true)
include h

theorem doTrigEnable_on (hon : s.trigOn t = true) : doTrigEnable t s = s := by
  simp only [doTrigEnable, State.ifStructured_of h, hon, if_true]

theorem doTrigEnable_refused (hon : s.trigOn t = false) (hr : s.trigRefused t = true) : doTrigEnable t s = s.notice 59 (Reg.trigCfg t) := by
  simp only [doTrigEnable, State.ifStructured_of h, hon, hr, Bool.false_eq_true, if_false, if_true]

theorem doTrigEnable_of (hon : s.trigOn t = false) (hr : s.trigRefused t = false) :
    doTrigEnable t s = s.put (Reg.trigCfg t) Fld.trigCfgEnable 1 := by
  simp only [doTrigEnable, State.ifStructured_of h, hon, hr, Bool.false_eq_true, if_false]

theorem doTrigDisable_on (hon : s.trigOn t = true) :
    doTrigDisable t s = ((s.put (Reg.trigCfg t) Fld.trigCfgEnable 0).stopTrigger t).dropFirings t := by
  simp only [doTrigDisable, State.ifStructured_of h, hon, if_true]

theorem doTrigDisable_off (hon : s.trigOn t = false) : doTrigDisable t s = s := by
  simp only [doTrigDisable, State.ifStructured_of h, hon, Bool.false_eq_true, if_false]

end Triggers

section Cores
variable {s : State} {c : Nat}

theorem State.handlerEnd_of_idle {r : Nat} (h : (s.core c).running = false) : s.handlerEnd c r = s := by
  simp only [State.handlerEnd, h, Bool.not_false, if_true]

theorem doHandlerDispatch_none (h : s.enabled = false ∨ s.cstate c ≠ 0 ∨ s.firstFired (s.dispatchable (s.clusterOf c)) = none) :
    doHandlerDispatch c s = s := by
  rcases h with h | h | h
  · simp [doHandlerDispatch, h]
  · simp [doHandlerDispatch, h]
  · simp [doHandlerDispatch, h]

theorem doHandlerDispatch_of {u : Nat} (he : s.enabled = true) (hc : s.cstate c = 0)
    (hu : s.firstFired (s.dispatchable (s.clusterOf c)) = some u) : doHandlerDispatch c s = s.startHandler c u := by
  simp only [doHandlerDispatch, he, hc, hu, bne_self_eq_false, Bool.not_true, Bool.or_self, Bool.false_eq_true, if_false]

section Memories
variable {loc : Bool} {off : Nat} {l : List Byte}

theorem doImemWrite_not_structured (h : s.structured = false) : doImemWrite c loc off l s = s.notice 61 (coreWindow c loc off) := by
  rw [doImemWrite, State.ifStructured_not h]

variable (h : s.structured = true)
include h

theorem doImemWrite_refused (hr : s.cstate c ≠ 3 ∨ (if loc then 0x20000 else 0x10000) < off + l.length) :
    doImemWrite c loc off l s = s.post (456 + c) 59 0 (coreWindow c loc off) := by
  rw [doImemWrite, State.ifStructured_of h]
  exact if_pos hr

theorem doImemWrite_imem (hc : s.cstate c = 3) (hl : off + l.length ≤ 0x10000) :
    doImemWrite c false off l s = s.setCore c { s.core c with imem := writeBytes (s.core c).imem 0 off l } := by
  simp only [doImemWrite, State.ifStructured_of h, hc, ne_eq, not_true_eq_false, Bool.false_eq_true, if_false, not_lt.mpr hl, or_self]

theorem doImemWrite_local (hc : s.cstate c = 3) (hl : off + l.length ≤ 0x20000) :
    doImemWrite c true off l s = s.setCore c ((s.core c).localWrite off l) := by
  simp only [doImemWrite, State.ifStructured_of h, hc, ne_eq, not_true_eq_false, if_true, not_lt.mpr hl, or_self, if_false]

end Memories
end Cores

/-- Settles O45. -/
theorem handlerControl : Obligations.HandlerControl := by
  intro s t c hpow
  have enable {u} : doTrigEnable t s = u → Does (.trigEnable t) s u := does_of hpow (exec_trigEnable t s)
  have disable {u} : doTrigDisable t s = u → Does (.trigDisable t) s u := does_of hpow (exec_trigDisable t s)
  have hold {a b u} : doCoreHold c a b s = u → Does (.coreHold c a b) s u := does_of hpow (exec_coreHold c a b s)
  have memory {loc off l u} : doImemWrite c loc off l s = u → Does (.imemWrite c loc off l) s u :=
    does_of hpow (exec_imemWrite c loc off l s)
  have timer {u} : doTriggerTimer t s = u → Does (.triggerTimer t) s u := does_of hpow (exec_triggerTimer t s)
  have dispatch {u} : doHandlerDispatch c s = u → Does (.handlerDispatch c) s u := does_of hpow (exec_handlerDispatch c s)
  have budget {u} : s.handlerEnd c 3 = u → Does (.budgetTrap c) s u := does_of hpow (exec_budgetTrap c s)
  have stop {u} : s.handlerEnd c 5 = u → Does (.stopRequest c) s u := does_of hpow (exec_stopRequest c s)
  refine ⟨?_, fun h => ⟨?_, ?_, ?_, ?_⟩, ?_, ?_, ?_, ?_, ?_, ?_, budget rfl, stop rfl⟩
  · exact fun h => ⟨enable (State.ifStructured_not h), disable (State.ifStructured_not h), fun a b => hold (State.ifStructured_not h),
      fun loc off l => memory (doImemWrite_not_structured h)⟩
  · exact fun hon => ⟨enable (doTrigEnable_on h hon), disable (doTrigDisable_on h hon)⟩
  · exact fun hon => ⟨disable (doTrigDisable_off h hon), fun hr => enable (doTrigEnable_refused h hon hr),
      fun hr => enable (doTrigEnable_of h hon hr)⟩
  · rintro a b u rfl
    exact hold (State.ifStructured_of h)
  · exact fun loc off l => ⟨fun hr => memory (doImemWrite_refused h hr), fun hc hl => memory (doImemWrite_imem h hc hl),
      fun hc hl => memory (doImemWrite_local h hc hl)⟩
  · exact fun hon hk ha => timer (doTriggerTimer_fires hon hk ha)
  · exact fun h => timer (doTriggerTimer_none h)
  · exact fun h => dispatch (doHandlerDispatch_none h)
  · exact fun u he hc hu => dispatch (doHandlerDispatch_of he hc hu)
  · exact does_of hpow (exec_frameTick s) rfl
  · exact fun h => ⟨budget (State.handlerEnd_of_idle h), stop (State.handlerEnd_of_idle h)⟩

end Sys2Proof.Machine
end


section
/-! # Requests at the coherence home (R463 to R472) -/

namespace Sys2Proof.Machine

section Home
variable {s : State} {line : Nat} {r : CohReq} {g : CohAgent}

theorem State.cohRequest_not_structured (h : s.structured = false) : s.cohRequest line r = s := by
  simp [State.cohRequest, h]

theorem State.cohRequest_outside (hf : r.from_ = some g) (h : s.inRegion (64 * line) = false) : s.cohRequest line r = s := by
  simp [State.cohRequest, hf, h]

variable (h : s.structured = true)

section Free
variable (hb : s.hand.busy.find? (fun b => b.line == line) = none)
include h hb

theorem State.cohRequest_direct (hf : r.from_ = none) : s.cohRequest line r = s.cohNext line [r] := by
  simp [State.cohRequest, h, hb, hf]

variable (hf : r.from_ = some g) (hin : s.inRegion (64 * line) = true)
include hf hin

theorem State.cohRequest_caching (hk : s.sliceBusy (lineSlice line) < 256) : s.cohRequest line r = s.cohNext line [r] := by
  simp [State.cohRequest, h, hb, hf, hin, not_le.mpr hk]

theorem State.cohRequest_full (hk : 256 ≤ s.sliceBusy (lineSlice line)) : s.cohRequest line r = s := by
  simp [State.cohRequest, h, hb, hf, hin, hk]

end Free

section Busy
variable {b : BusyLine} (hb : s.hand.busy.find? (fun b => b.line == line) = some b) (hin : s.inRegion (64 * line) = true)
include h hb hin

theorem State.cohRequest_queue_full (hq : 1024 ≤ s.sliceQueued (lineSlice line)) : s.cohRequest line r = s := by
  simp [State.cohRequest, h, hb, hin, hq]

theorem State.cohRequest_queued (hq : s.sliceQueued (lineSlice line) < 1024) {t : State}
    (ht : t = s.bump (Reg.slCnt1 (lineSlice line)) Fld.slCnt1BusyWait 1) : s.cohRequest line r =
      { t with hand := { t.hand with
        busy := s.hand.busy.map (fun z => if z.line = line then { b with waiting := b.waiting ++ [r] } else z) } } := by
  subst ht
  simp [State.cohRequest, h, hb, hin, not_le.mpr hq]

end Busy

/-! ## What a request that is served does -/

/-- No line of a span is an armed lock line. -/
theorem find_armed_none {s : State} {l : List Nat} (h : ∀ k ∈ l, k ∉ s.rma.armed) : l.find? (fun j => s.rma.armed.contains j) = none :=
  List.find?_eq_none.mpr fun k hk => by simpa using h k hk

theorem State.homeWrite_free {a : Nat} {l : List Byte} (h : ∀ k ∈ linesOf a l.length, k ∉ s.rma.armed) : s.homeWrite a l = s.devWrite a l := by
  simp only [State.homeWrite, find_armed_none h]

theorem State.homeWrite_armed {a k : Nat} {l : List Byte} (h : (linesOf a l.length).find? (fun j => s.rma.armed.contains j) = some k) :
    s.homeWrite a l = s.post (525 + 2 * lineSlice k) 59 0 (64 * k) := by
  simp only [State.homeWrite, h]

section Atomic
variable {a n op x y : Nat} {w : Bool} (hn : n = if w then 16 else 8)
include hn

theorem State.homeAtomic_free (h : ∀ k ∈ linesOf a n, k ∉ s.rma.armed) : s.homeAtomic a op w x y = (s.devAtomic a op n x y).2 := by
  simp only [State.homeAtomic, ← hn, find_armed_none h]

theorem State.homeAtomic_armed {k : Nat} (h : (linesOf a n).find? (fun j => s.rma.armed.contains j) = some k) :
    s.homeAtomic a op w x y = s.post (525 + 2 * lineSlice k) 59 0 (64 * k) := by
  simp only [State.homeAtomic, ← hn, h]

end Atomic
end Home

/-- A command that is a request `r` for the line `line`. -/
structure Requests (c : Instr) (s : State) (line : Nat) (r : CohReq) : Prop where
  exec : exec c s = act s (fun s => s.cohRequest line r)

section Requests
variable (s : State) (line a : Nat) (g : CohAgent) (l : List Byte) (op : Fin 8) (w : Bool) (x y : Nat)

theorem requests_gets : Requests (.gets g line) s line (.getS g) := ⟨exec_gets g line s⟩

theorem requests_getm : Requests (.getm g line) s line (.getM g) := ⟨exec_getm g line s⟩

theorem requests_upgrade : Requests (.upgrade g line) s line (.upgrade g) := ⟨exec_upgrade g line s⟩

theorem requests_readna : Requests (.readna line) s line .readNA := ⟨exec_readna line s⟩

theorem requests_writena : Requests (.writena a l) s (a / 64) (.writeNA a l) := ⟨exec_writena a l s⟩

theorem requests_atomicna : Requests (.atomicna a op w x y) s (a / 64) (.atomicNA a op w x y) := ⟨exec_atomicna a op w x y s⟩

variable {s line} in
theorem Requests.does {c : Instr} {r : CohReq} {t : State} (h : Requests c s line r) (hpow : s.powered = true)
    (ht : s.cohRequest line r = t) : Does c s t := does_of hpow h.exec ht

end Requests

/-- Settles O51. -/
theorem coherenceRequests : Obligations.CoherenceRequests := by
  intro s line a g l op w x y hpow
  have gets {t} ht : Does (.gets g line) s t := (requests_gets s line g).does hpow ht
  have getm {t} ht : Does (.getm g line) s t := (requests_getm s line g).does hpow ht
  have upgrade {t} ht : Does (.upgrade g line) s t := (requests_upgrade s line g).does hpow ht
  have read {t} ht : Does (.readna line) s t := (requests_readna s line).does hpow ht
  have write {t} ht : Does (.writena a l) s t := (requests_writena s a l).does hpow ht
  have atomic {t} ht : Does (.atomicna a op w x y) s t := (requests_atomicna s a op w x y).does hpow ht
  refine ⟨?_, ?_, ?_, ?_, ?_, ?_, ?_⟩
  · intro h
    have nothing {line r} := State.cohRequest_not_structured (line := line) (r := r) h
    exact ⟨gets nothing, getm nothing, upgrade nothing, read nothing, write nothing, atomic nothing,
      does_of hpow (exec_putm g line l s) (if_neg (Bool.eq_false_iff.mp h)), does_of hpow (exec_pute g line s) (if_neg (Bool.eq_false_iff.mp h))⟩
  · exact fun h => ⟨gets (State.cohRequest_outside rfl h), getm (State.cohRequest_outside rfl h), upgrade (State.cohRequest_outside rfl h)⟩
  · exact fun h => ⟨does_of hpow (exec_putm g line l s) (if_pos h), does_of hpow (exec_pute g line s) (if_pos h)⟩
  · refine fun h hin hb => ⟨fun hk => ?_, fun hk => ?_⟩
    · exact ⟨gets (State.cohRequest_caching h hb rfl hin hk), getm (State.cohRequest_caching h hb rfl hin hk),
        upgrade (State.cohRequest_caching h hb rfl hin hk)⟩
    · exact ⟨gets (State.cohRequest_full h hb rfl hin hk), getm (State.cohRequest_full h hb rfl hin hk),
        upgrade (State.cohRequest_full h hb rfl hin hk)⟩
  · exact fun h hb => read ((State.cohRequest_direct h hb rfl).trans (by simp only [State.cohNext]))
  · intro h hb
    have hw : s.cohRequest (a / 64) (.writeNA a l) = s.homeWrite a l :=
      (State.cohRequest_direct h hb rfl).trans (by simp only [State.cohNext])
    have ha : s.cohRequest (a / 64) (.atomicNA a op w x y) = s.homeAtomic a op w x y :=
      (State.cohRequest_direct h hb rfl).trans (by simp only [State.cohNext])
    exact ⟨fun hfree => write (hw.trans (State.homeWrite_free hfree)), fun k hk => write (hw.trans (State.homeWrite_armed hk)),
      fun n hn hfree => atomic (ha.trans (State.homeAtomic_free hn hfree)), fun n k hn hk => atomic (ha.trans (State.homeAtomic_armed hn hk))⟩
  · intro b c r t h hb hin hc
    have hreq : Requests c s line r := by
      rcases hc with ⟨rfl, rfl⟩ | ⟨rfl, rfl⟩ | ⟨rfl, rfl⟩ | ⟨rfl, rfl⟩ | ⟨rfl, rfl, rfl⟩ | ⟨rfl, rfl, rfl⟩
      · exact requests_gets s line g
      · exact requests_getm s line g
      · exact requests_upgrade s line g
      · exact requests_readna s line
      · exact requests_writena s a l
      · exact requests_atomicna s a op w x y
    exact ⟨fun hq => hreq.does hpow (State.cohRequest_queue_full h hb hin hq), fun hq ht => hreq.does hpow (State.cohRequest_queued h hb hin hq ht)⟩

end Sys2Proof.Machine
end


section
/-! # Queued locks (R472 to R482) and the fault network (R491 to R504) -/

namespace Sys2Proof.Machine

/-! ## LOCK packets -/

section Lock
variable {s t : State} {p : Packet} {k : Nat}

theorem State.onLock_other (h : p.op ≠ opLock ∨ p.aux % 8 ≠ k) : s.onLock p k = s := if_pos h

section Serve
variable {l : Nat}

theorem State.lockServe_held (h : t.mustHold p.tInst = true) : t.lockServe p k = t.hold p := if_pos h

variable (h : t.mustHold p.tInst = false)
include h

theorem State.lockServe_no_line (hl : t.lockLine p.tInst p.base = none) : t.lockServe p k = t.sendNcomp p 7 := by
  simp only [State.lockServe, h, Bool.false_eq_true, if_false, hl]

variable (hl : t.lockLine p.tInst p.base = some l)
include hl

theorem State.lockServe_fails (hp : t.lockPasses k l p.key (lockSrc p) = false) : t.lockServe p k = t.sendNcomp p 7 := by
  simp only [State.lockServe, h, Bool.false_eq_true, if_false, hl, hp]

theorem State.lockServe_passes (hp : t.lockPasses k l p.key (lockSrc p) = true) : t.lockServe p k = t.lockAct p k l := by
  simp only [State.lockServe, h, Bool.false_eq_true, if_false, hl, hp, if_true]

end Serve

variable (ho : p.op = opLock) (hk : p.aux % 8 = k)
include ho hk

/-- The operation of a packet that is one. -/
theorem lock_is : ¬ (p.op ≠ opLock ∨ p.aux % 8 ≠ k) := by simp [ho, hk]

section Other
variable (h1 : k ≠ 1)
include h1

omit ho hk in
theorem no_pool_check : (fun s : State => k == 1 && s.lockPoolFull p) = fun _ => false := by
  funext s
  simp [h1]

theorem State.onLock_refused (ha : s.acceptIf p (fun _ => false) = (false, t)) : s.onLock p k = t := by
  simp only [State.onLock, lock_is ho hk, if_false, no_pool_check h1, ha, h1, false_and]

theorem State.onLock_accepted (ha : s.acceptIf p (fun _ => false) = (true, t)) : s.onLock p k = t.lockServe p k := by
  simp only [State.onLock, lock_is ho hk, if_false, no_pool_check h1, ha]

end Other
end Lock

section Acquire
variable {s t : State} {p : Packet} (ho : p.op = opLock) (hk : p.aux % 8 = 1)
include ho hk

theorem State.onLock_acquire_refused (ha : s.acceptIf p (fun s => s.lockPoolFull p) = (false, t)) :
    s.onLock p 1 = if t.lockPoolFull p then t.bump Reg.lockCnt Fld.lockCntPoolFull 1 else t := by
  simp only [State.onLock, lock_is ho hk, if_false, BEq.rfl, Bool.true_and, ha, true_and]

theorem State.onLock_acquire_accepted (ha : s.acceptIf p (fun s => s.lockPoolFull p) = (true, t)) : s.onLock p 1 = t.lockServe p 1 := by
  simp only [State.onLock, lock_is ho hk, if_false, BEq.rfl, Bool.true_and, ha]

end Acquire

/-- A LOCK command of the operation `k`, which is not `acquire`. -/
structure LockCommand (c : Instr) (p : Packet) (s : State) (k : Nat) : Prop where
  exec : exec c s = act s (fun s => s.onLock p k)
  own : p.aux % 8 = k
  other : k ≠ 1

section Forced
variable {s t : State} {v : Word} {l : Nat} (h : s.structured = true)
  (ht : t = s.put Reg.lockForce Fld.lockForceFline (Fld.lockForceFline.get v)) 
include h ht

theorem doForcedHandover_no_go (hg : Fld.lockForceGo.get v = 0) : doForcedHandover v s = t := by
  simp only [doForcedHandover, State.ifStructured_of h, hg, if_true, ht]

variable (hl : l = t.get Reg.lockForce Fld.lockForceFline) (hg : Fld.lockForceGo.get v ≠ 0)
include hl hg

theorem doForcedHandover_not_armed (ha : t.lockArmed l = false) : doForcedHandover v s = t.put Reg.lockForce Fld.lockForceFerr 1 := by
  simp only [doForcedHandover, State.ifStructured_of h, hg, if_false, ← ht, ← hl, ha, Bool.not_false, if_true]

variable (ha : t.lockArmed l = true)
include ha

theorem doForcedHandover_not_held (hh : t.lockHeld l = false) : doForcedHandover v s = t.put Reg.lockForce Fld.lockForceFerr 2 := by
  simp only [doForcedHandover, State.ifStructured_of h, hg, if_false, ← ht, ← hl, ha, hh, Bool.not_true, Bool.not_false,
    Bool.false_eq_true, if_true]

variable (hh : t.lockHeld l = true)
include hh

theorem doForcedHandover_other_owner (hown : t.lockOwnerId l ≠ t.get Reg.lockForceOwn Fld.lockForceOwnExpect) :
    doForcedHandover v s = t.put Reg.lockForce Fld.lockForceFerr 3 := by
  rw [doForcedHandover, State.ifStructured_of h]
  simp only [hg, if_false, ← ht, ← hl, ha, hh, Bool.not_true, Bool.false_eq_true]
  exact if_pos hown

theorem doForcedHandover_passes (hown : t.lockOwnerId l = t.get Reg.lockForceOwn Fld.lockForceOwnExpect) {u : State}
    (hu : u = (t.lockPass l).put Reg.lockForce Fld.lockForceFerr 0) : doForcedHandover v s =
      ((u.lockLog l (t.lockOwner l) (u.lockOwner l)).bump Reg.lockCnt Fld.lockCntForced 1).post (525 + 2 * sliceOf (64 * l)) 59 0
        Reg.lockForce := by
  rw [doForcedHandover, State.ifStructured_of h]
  simp only [hg, if_false, ← ht, ← hl, ha, hh, Bool.not_true, Bool.false_eq_true, ← hu]
  exact if_neg (not_not.mpr hown)

end Forced

/-- Settles O53. -/
theorem locks : Obligations.Locks := by
  intro s p hpow
  refine ⟨fun k h => ⟨?_, ?_, ?_, ?_, ?_⟩, ?_, ?_, ?_⟩
  · rintro rfl
    exact does_of hpow (exec_lockArm p s) (State.onLock_other h)
  · rintro rfl
    exact does_of hpow (exec_lockAcquire p s) (State.onLock_other h)
  · rintro rfl
    exact does_of hpow (exec_lockRelease p s) (State.onLock_other h)
  · rintro rfl
    exact does_of hpow (exec_lockDisarm p s) (State.onLock_other h)
  · rintro rfl
    exact does_of hpow (exec_lockCancel p s) (State.onLock_other h)
  · intro c t ho hc
    obtain ⟨k, hk⟩ : ∃ k, LockCommand c p s k := by
      rcases hc with ⟨rfl, hk⟩ | ⟨rfl, hk⟩ | ⟨rfl, hk⟩ | ⟨rfl, hk⟩
      · exact ⟨0, exec_lockArm p s, hk, by decide⟩
      · exact ⟨2, exec_lockRelease p s, hk, by decide⟩
      · exact ⟨3, exec_lockDisarm p s, hk, by decide⟩
      · exact ⟨4, exec_lockCancel p s, hk, by decide⟩
    refine ⟨fun ha => does_of hpow hk.exec (State.onLock_refused ho hk.own hk.other ha), fun ha => ?_⟩
    have serve {u} (hu : t.lockServe p k = u) : Does c s u :=
      does_of hpow hk.exec ((State.onLock_accepted ho hk.own hk.other ha).trans hu)
    refine ⟨fun hh => serve (State.lockServe_held hh), fun hh => ⟨fun hl => serve (State.lockServe_no_line hh hl), fun l hl => ?_⟩⟩
    rw [hk.own]
    refine ⟨fun hp => serve (State.lockServe_fails hh hl hp), fun hp => ?_⟩
    have passes {u} (hu : t.lockAct p k l = u) : Does c s u := serve ((State.lockServe_passes hh hl hp).trans hu)
    rcases hc with ⟨rfl, hop⟩ | ⟨rfl, hop⟩ | ⟨rfl, hop⟩ | ⟨rfl, hop⟩ <;> obtain rfl := hk.own.symm.trans hop
    · exact ⟨fun _ => passes rfl, nofun, nofun, nofun⟩
    · exact ⟨nofun, fun _ => passes rfl, nofun, nofun⟩
    · exact ⟨nofun, nofun, fun _ => passes rfl, nofun⟩
    · exact ⟨nofun, nofun, nofun, fun _ => passes rfl⟩
  · intro t ho hk
    have acquire {u} : s.onLock p 1 = u → Does (.lockAcquire p) s u := does_of hpow (exec_lockAcquire p s)
    refine ⟨fun ha => acquire (State.onLock_acquire_refused ho hk ha), fun ha hh l hl hp => ?_⟩
    have hact := (State.onLock_acquire_accepted ho hk ha).trans (State.lockServe_passes hh hl hp)
    exact ⟨fun hheld => acquire (hact.trans (if_neg (Bool.eq_false_iff.mp hheld))), fun hheld => acquire (hact.trans (if_pos hheld))⟩
  · intro v
    have forced {u} : doForcedHandover v s = u → Does (.forcedHandover v) s u := does_of hpow (exec_forcedHandover v s)
    refine ⟨fun h => forced (State.ifStructured_not h), fun t l h ht hl => ⟨fun hg => forced (doForcedHandover_no_go h ht hg),
      fun hg => ⟨?_, ?_, ?_, ?_⟩⟩⟩
    · exact fun ha => forced (doForcedHandover_not_armed h ht hl hg ha)
    · exact fun ha hh => forced (doForcedHandover_not_held h ht hl hg ha hh)
    · exact fun ha hh hown => forced (doForcedHandover_other_owner h ht hl hg ha hh hown)
    · exact fun u ha hh hown hu => forced (doForcedHandover_passes h ht hl hg ha hh hown hu)

/-! ## Coded messages -/

section Messages
variable {s t u : State} {m : CodedMsg}

theorem doCodedMessage_info (ht : t = { s with flt := { s.flt with net := s.flt.net.erase m } }) (hm : m.cls = 0) :
    doCodedMessage m s = t.infoAdd m := by
  subst ht
  exact if_pos hm

variable (ht : t = { s with flt := { s.flt with net := s.flt.net.erase m } }) (hm : m.cls ≠ 0) (hu : u = (t.record m).holdActive m)
include ht hm hu

theorem doCodedMessage_counts (hc : u.flag (Reg.srcCfg m.src) Fld.srcCfgCounting = true) :
    doCodedMessage m s = (u.classifyCount m).hbmError m := by
  simp only [doCodedMessage, ← ht, State.receive, hm, if_false, ← hu, hc, if_true]

theorem doCodedMessage_compares (hc : u.flag (Reg.srcCfg m.src) Fld.srcCfgCounting = false) :
    doCodedMessage m s = (u.classifySev m).hbmError m := by
  simp only [doCodedMessage, ← ht, State.receive, hm, if_false, ← hu, hc, Bool.false_eq_true]

end Messages

section Sources
variable {s t u : State} {k : Nat}

theorem doCountWindowEnd_closed (h : k ∉ s.flt.windowOpen) : doCountWindowEnd k s = s := by
  simp [doCountWindowEnd, h]

theorem doCountWindowEnd_of (h : k ∈ s.flt.windowOpen)
    (ht : t = { s with flt := { s.flt with windowOpen := s.flt.windowOpen.filter (fun x => x != k) } }) :
    doCountWindowEnd k s = if s.get (Reg.srcStat k) Fld.srcStatSev = 0 then t.put (Reg.srcStat k) Fld.srcStatCount 0 else t := by
  subst ht
  exact if_pos (List.contains_iff_mem.mpr h)

section Clear
variable (ht : t = (s.put (Reg.srcStat k) Fld.srcStatSev 0).put (Reg.srcStat k) Fld.srcStatCount 0)
  (hu : u = { t with flt := { t.flt with windowOpen := t.flt.windowOpen.filter (fun x => x != k) } })
include ht hu

/-- What is left once the severity is cleared: a cause that persists is posted again. -/
theorem doSevClr_eq : doSevClr k s = if u.srcFenced k then u else
    (u.flt.ownActive.find? (fun m => m.src.val == k)).elim u (fun a => { u with flt := { u.flt with net := u.flt.net ++ [a] } }) := by
  subst hu ht
  unfold doSevClr
  refine if_congr Iff.rfl rfl ?_
  dsimp only
  split <;> rename_i h <;> rw [h] <;> rfl

theorem doSevClr_fenced (hf : u.srcFenced k = true) : doSevClr k s = u := by
  rw [doSevClr_eq ht hu, if_pos hf]

theorem doSevClr_clear (hf : u.srcFenced k = false) (ha : u.flt.ownActive.find? (fun m => m.src.val == k) = none) : doSevClr k s = u := by
  rw [doSevClr_eq ht hu, if_neg (Bool.eq_false_iff.mp hf), ha]
  rfl

theorem doSevClr_persists {a : CodedMsg} (hf : u.srcFenced k = false) (ha : u.flt.ownActive.find? (fun m => m.src.val == k) = some a) :
    doSevClr k s = { u with flt := { u.flt with net := u.flt.net ++ [a] } } := by
  rw [doSevClr_eq ht hu, if_neg (Bool.eq_false_iff.mp hf), ha]
  rfl

end Clear

section Head
variable {h n : Nat} (hn : n = (h + 256 - s.get Reg.infoHead Fld.infoHeadHead) % 256)
include hn

theorem doInfoHead_beyond (hc : s.get Reg.faultStat Fld.faultStatInfoCount < n) : doInfoHead h s = s := by
  simp only [doInfoHead, ← hn, hc, if_true]

theorem doInfoHead_consumes (hc : n ≤ s.get Reg.faultStat Fld.faultStatInfoCount) : doInfoHead h s =
    (s.put Reg.infoHead Fld.infoHeadHead h).put Reg.faultStat Fld.faultStatInfoCount (s.get Reg.faultStat Fld.faultStatInfoCount - n) := by
  simp only [doInfoHead, ← hn, not_lt.mpr hc, if_false]

end Head
end Sources

/-! ## The safe state -/

theorem State.latchSafe_safe (s : State) : s.latchSafe.safe = true := rfl

theorem State.sameCycle_safe (s : State) (cause src : Nat) : (s.sameCycle cause src).safe = s.safe := by
  unfold State.sameCycle
  split <;> rfl

theorem State.enterSafe_safe (s : State) (cause src : Nat) : (s.enterSafe cause src).safe = true := by
  unfold State.enterSafe
  split
  case isTrue h => rw [State.sameCycle_safe, h]
  case isFalse => exact State.latchSafe_safe _

theorem State.enterSafeBy_safe (s : State) (cause src addr : Nat) (h : src < 640) : (s.enterSafeBy cause src addr h).safe = true := by
  unfold State.enterSafeBy
  split
  case isTrue h => exact h
  case isFalse => exact State.enterSafe_safe _ _ _

theorem State.post_safe (s : State) (src kind cls addr : Nat) : (s.post src kind cls addr).safe = s.safe := by
  unfold State.post
  split <;> rfl

theorem State.finish_safe_of (s : State) {t : State} (h : t.safe = true) : (s.finish t).safe = true := by
  rw [State.safe, State.finish_safe, Bool.or_eq_true]
  exact .inr h

/-- Settles O54. -/
theorem faultNetwork : Obligations.FaultNetwork := by
  intro s m k h c hpow
  have message {u} : doCodedMessage m s = u → Does (.codedMessage m) s u := does_of hpow (exec_codedMessage m s)
  have window {u} : doCountWindowEnd k s = u → Does (.countWindowEnd k) s u := does_of hpow (exec_countWindowEnd k s)
  have clear {u} : doSevClr k s = u → Does (.sevClr k) s u := does_of hpow (exec_sevClr k s)
  have head {u} : doInfoHead h.toNat s = u → Does (.infoHeadWrite h) s u := does_of hpow (exec_infoHeadWrite h s)
  refine ⟨fun t ht => ⟨?_, fun u hm hu => ⟨?_, ?_⟩⟩, ?_, ?_, ?_, fun t u ht hu => ⟨?_, ?_, ?_⟩, ?_, fun n hn => ⟨?_, ?_⟩, ?_, ?_, ?_, ?_⟩
  · exact fun hm => message (doCodedMessage_info ht hm)
  · exact fun hc => message (doCodedMessage_counts ht hm hu hc)
  · exact fun hc => message (doCodedMessage_compares ht hm hu hc)
  · exact fun hk => window (doCountWindowEnd_closed hk)
  · exact fun t hk ht => window (doCountWindowEnd_of hk ht)
  · exact does_of hpow (exec_force k s) rfl
  · exact fun hf => clear (doSevClr_fenced ht hu hf)
  · exact fun hf ha => clear (doSevClr_clear ht hu hf ha)
  · exact fun a hf ha => clear (doSevClr_persists ht hu hf ha)
  · exact does_of hpow (exec_recordRelease k s) rfl
  · exact fun hc => head (doInfoHead_beyond hn hc)
  · exact fun hc => head (doInfoHead_consumes hn hc)
  · intro hc
    have hno : ¬ confirmed c = true := by simpa [confirmed] using hc
    exact ⟨does_of hpow (exec_forceSafe c s) (if_neg hno), fun b => does_of hpow (exec_forceLanes c b s) (if_neg hno)⟩
  · exact yields_of hpow (exec_forceSafe 0xA5C3 s) (State.finish_safe_of s (State.enterSafeBy_safe _ _ _ _ _))
  · exact fun b => does_of hpow (exec_forceLanes 0xA5C3 b s) rfl
  · refine fun n => ⟨does_of hpow (exec_thermalTrip n s) rfl, yields_of hpow (exec_thermalTrip n s) (State.finish_safe_of s ?_)⟩
    exact (State.post_safe _ _ _ _ _).trans (State.enterSafe_safe _ _ _)

end Sys2Proof.Machine
end


section
/-! # The capability exchange, adaptation, the load rule and the lane registers (R87 to R111) -/

namespace Sys2Proof.Machine

/-! ## The capability exchange and the measurement -/

section Exchange
variable {s u v : State} {p : Nat}

theorem doCap_elsewhere {c : CapRec} (h5 : s.portState p ≠ 5) (h8 : s.portState p ≠ 8) : doCap p c s = s.ctlBad p :=
  if_pos ⟨h5, h8⟩

theorem doCap_exchange {c : CapRec} (h : s.portState p = 5 ∨ s.portState p = 8)
    (hu : u = if ∃ c', (s.port p).lastCap = some c' ∧ c' ≠ c then s.enterExchange p else s)
    (hv : v = ((u.put (s.portPartner p) Fld.portPartnerFid c.fid.toNat).put (s.portPartner p) Fld.portPartnerPort c.port.toNat).put
      (s.portPartner p) Fld.portPartnerValid 1) :
    doCap p c s = ((v.setPort p { (v.port p) with lastCap := some c, capAcked := true }).sendCtl p (.capAck (capCrc c))).tryAgree p := by
  have hst : ¬ (s.portState p ≠ 5 ∧ s.portState p ≠ 8) := by
    rw [not_and_or, not_not, not_not]
    exact h
  have hin : u = if (match (s.port p).lastCap with | some c' => decide (c' ≠ c) | none => false) = true then s.enterExchange p else s := by
    rw [hu]
    refine if_congr ?_ rfl rfl
    cases (s.port p).lastCap <;> simp
  have hreg : u.portPartner p = s.portPartner p := by
    rw [hu]
    split <;> rfl
  rw [hv, ← hreg, hin]
  exact if_neg hst

theorem doEchoRsp_last {n e turn : Nat} (h : s.portState p = 6) (hsent : (s.port p).echoSent = 16) (hn : n < 16)
    (hnew : (s.port p).echoAnswers.any (fun x => x.1 == n) = false) : doEchoRsp p n e turn s =
      s.setPort p { (s.port p) with echoAnswers := (s.port p).echoAnswers ++ [(n, e - turn)] } := by
  simp only [doEchoRsp, h, ne_eq, not_true_eq_false, if_false, hsent, hn, hnew, Bool.not_false, and_self, if_true, lt_irrefl, and_false]

section Measure
variable (h : s.portState p = 6) (hsent : (s.port p).echoSent = 16)
include h hsent

theorem doMeasureEnd_few (hl : (s.port p).echoAnswers.length < 8) : doMeasureEnd p s = s.failToDetect p := by
  simp only [doMeasureEnd, h, hsent, ne_eq, not_true_eq_false, lt_irrefl, or_self, if_false, hl, if_true]

theorem doMeasureEnd_of {r w : Nat} (hl : 8 ≤ (s.port p).echoAnswers.length)
    (hr : r = min (median ((s.port p).echoAnswers.map (fun e => e.2))) (2 ^ 24 - 1)) (hw : w = s.get (s.portMeas p) Fld.portMeasVel)
    (hw0 : w ≠ 0) (hu : u = ((s.put (s.portMeas p) Fld.portMeasRtt r).put (s.portMeas p) Fld.portMeasLengthDm (lengthDm r w)).put
      (s.portMeas p) Fld.portMeasValid 1) :
    doMeasureEnd p s = if 2000000 < r then (u.enterHeld p 6).releaseHeld p (u.partnerFid p) else u.enterActive p := by
  simp only [doMeasureEnd, h, hsent, ne_eq, not_true_eq_false, lt_irrefl, or_self, if_false, not_lt.mpr hl, ← hr, ← hw, hw0, ← hu]

end Measure
end Exchange

/-- Settles O15. -/
theorem capabilityExchange : Obligations.CapabilityExchange := by
  intro s p hpow
  have cap {c t} : doCap p c s = t → Does (.cap p c) s t := does_of hpow (exec_cap p c s)
  have measure {t} : doMeasureEnd p s = t → Does (.measureEnd p) s t := does_of hpow (exec_measureEnd p s)
  refine ⟨?_, ?_, ?_, ?_, ?_, ?_, ?_, ?_, ?_⟩
  · exact does_of hpow (exec_capTimer p s) rfl
  · exact fun c h5 h8 => cap (doCap_elsewhere h5 h8)
  · exact fun c u v h hu hv => cap (doCap_exchange h hu hv)
  · exact fun crc => does_of hpow (exec_capAck p crc s) rfl
  · exact fun n w turn => does_of hpow (exec_echoReq p n w turn s) rfl
  · exact fun n e turn h hsent hn hnew => does_of hpow (exec_echoRsp p n e turn s) (doEchoRsp_last h hsent hn hnew)
  · exact does_of hpow (exec_echoTimeout p s) rfl
  · exact fun h hsent hl => measure (doMeasureEnd_few h hsent hl)
  · exact fun r v u h hsent hl hr hv hv0 hu => measure (doMeasureEnd_of h hsent hl hr hv hv0 hu)

/-! ## Adaptation and degrade -/

section Adapt
variable {s : State} {p k : Nat}

theorem doAdapt_elsewhere (h7 : s.portState p ≠ 7) (h3 : s.portState p ≠ 3) : doAdapt p k s = s.ctlBad p :=
  if_neg (not_or.mpr ⟨h7, h3⟩)

theorem doAdapt_not_own (h : s.portState p = 7 ∨ s.portState p = 3) (hk : (s.portLanes p).contains k = false) : doAdapt p k s = s := by
  rw [doAdapt, if_pos h, if_neg (Bool.eq_false_iff.mp hk)]

theorem doAdapt_own (h : s.portState p = 7 ∨ s.portState p = 3) (hk : (s.portLanes p).contains k = true) :
    doAdapt p k s = s.fresh.2.setCoeff k (s.fresh.1.toNat % 2 ^ 18) := by
  rw [doAdapt, if_pos h, if_pos hk]

theorem doAdaptRefine_of {c q pos : Nat} (hk : s.lanePort k = some (q, pos)) (h : s.portState q = 7)
    (hf : s.flag (s.laneExp k) Fld.laneExpAdaptFreeze = false) :
    doAdaptRefine k c s = (s.setCoeff k c).sendCtl q (.adapt k c) := by
  simp only [doAdaptRefine, hk, h, hf, Bool.not_false, and_self, if_true]

section Degrade
variable {pos : Nat}

theorem doDegrade_elsewhere (h : s.portState p ≠ 7) : doDegrade p pos s = s.ctlBad p := if_pos h

variable (h : s.portState p = 7)
include h

theorem doDegrade_both (hw : s.get (s.portStat p) Fld.portStatWidth = 0) :
    doDegrade p pos s = ((s.retireLane p pos).idleRetired p pos).sendCtl p (.degradeAck pos) := by
  simp only [doDegrade, h, ne_eq, not_true_eq_false, if_false, hw]

variable (hw : s.get (s.portStat p) Fld.portStatWidth ≠ 0)
include hw

theorem doDegrade_asked {q : Nat} (hd : (s.port p).degradePos = some q) :
    doDegrade p pos s = if q = pos then s.idleRetired p pos else s.toDetect p := by
  rw [doDegrade, if_neg (not_not.mpr h), hd]
  split
  case h_1 => rename_i h0; exact absurd h0 hw
  case h_2 => rename_i hq _; cases hq; rfl
  case h_3 => rename_i hq _; cases hq

theorem doDegrade_single (hd : (s.port p).degradePos = none) : doDegrade p pos s =
    if s.get (s.portStat p) Fld.portStatWidth = pos + 1 then s.toDetect p else s.sendCtl p (.degradeAck pos) := by
  rw [doDegrade, if_neg (not_not.mpr h), hd]
  split
  case h_1 => rename_i h0; exact absurd h0 hw
  case h_2 => rename_i hq _; cases hq
  case h_3 => rfl

end Degrade
end Adapt

/-! ## Re-measures -/

/-- A state that differs from `s` in margins alone. -/
structure MarginsOf (s t : State) : Prop where
  macros : t.macros = s.macros
  img : t.img = s.img
  tileMap : t.tileMap = s.tileMap
  retired : ∀ a, t.flag a Fld.laneStatRetired = s.flag a Fld.laneStatRetired
  rail : t.macroLimit = s.macroLimit

theorem State.get_put_apart_any (s : State) (a b : Nat) (f g : Field) (v : Nat) (hg : g.fits) (h : f.apart g) :
    (s.put a g v).get b f = s.get b f := by
  by_cases hb : b = a
  · rw [hb, State.get_put_apart s a f g v hg h]
  · exact State.get_put_other s a b f g v hb

theorem MarginsOf.put {s t : State} (h : MarginsOf s t) (i j v : Nat) : MarginsOf s (t.put (Reg.laneStat i j) Fld.laneStatMargin v) where
  macros := h.macros
  img := h.img
  tileMap := h.tileMap
  retired a := by
    rw [State.flag, State.get_put_apart_any _ _ _ _ _ _ (by decide) (by decide)]
    exact h.retired a
  rail := by
    have hne : Reg.avs ≠ Reg.laneStat i j := by
      simp only [Reg.avs, Reg.laneStat]
      omega
    rw [State.macroLimit, State.flag, State.get_put_other _ _ _ _ _ _ hne, State.get_put_other _ _ _ _ _ _ hne]
    exact h.rail

theorem MarginsOf.lanePort {s t : State} (h : MarginsOf s t) (k : Nat) : t.lanePort k = s.lanePort k := by
  have hrec : t.laneRec = s.laneRec := by
    funext p
    rw [State.laneRec, State.laneRec, h.img]
  simp only [State.lanePort, hrec]

theorem MarginsOf.measured {s t : State} (h : MarginsOf s t) (k : Nat) : t.measured k = s.measured k := by
  simp only [State.measured, State.laneStat, State.tileOf, h.tileMap, h.retired, h.lanePort]

theorem MarginsOf.macroSt {s t : State} (h : MarginsOf s t) (m : Nat) : t.macroSt m = s.macroSt m := by
  simp only [State.macroSt, h.macros]

/-- The state in which the margins of a re-measure step stand. -/
def State.withMargins (s : State) (m : Nat) (l : List Nat) : State :=
  s.forAll ((List.range 8).filter (fun i => s.measured (8 * m + i))) (fun s i =>
    s.put (s.laneStat (8 * m + i)) Fld.laneStatMargin (min (l.getD i 0) 4095))

theorem State.marginsOf_withMargins (s : State) (m : Nat) (l : List Nat) : MarginsOf s (s.withMargins m l) :=
  foldl_keeps (MarginsOf s) _ _ s ⟨rfl, rfl, rfl, fun _ => rfl, rfl⟩ fun _ _ _ h => h.put _ _ _

/-- The lanes that are short of the target. -/
def State.shortLanes (s : State) (m : Nat) (l : List Nat) (n : Nat) : List Nat :=
  (List.range 8).filter (fun i => s.measured (8 * m + i) && decide (l.getD i 0 < n))

theorem MarginsOf.shortLanes {s t : State} (h : MarginsOf s t) (m : Nat) (l : List Nat) (n : Nat) :
    t.shortLanes m l n = s.shortLanes m l n := by
  simp only [State.shortLanes, h.measured]

section Remeasure
variable {s : State} {m n : Nat} {l : List Nat}

theorem doRemeasureEnd_none (h : (s.macroSt m).measuring = false) : doRemeasureEnd m l n s = s := by
  rw [doRemeasureEnd, h]
  rfl

variable (h : (s.macroSt m).measuring = true)
include h

/-- With no lane short and no leave to fall, the re-measure stops. -/
theorem doRemeasureEnd_stops (hs : ∀ i, i < 8 → n ≤ l.getD i 0) (hf : (s.macroSt m).mayFall = false) (hp : (s.macroSt m).pendingRise = false) :
    doRemeasureEnd m l n s = State.snapshot ((s.withMargins m l).setMacro m
      { (s.withMargins m l).macroSt m with measuring := false, mayFall := false, pendingRise := false }) m := by
  have hempty : (s.withMargins m l).shortLanes m l n = [] := by
    refine List.filter_eq_nil_iff.mpr fun i hi => ?_
    rw [decide_eq_false (not_lt.mpr (hs i (List.mem_range.mp hi))), Bool.and_false]
    exact Bool.false_ne_true
  rw [State.shortLanes, State.withMargins] at hempty
  simp only [doRemeasureEnd, h, hf, hp, Bool.not_true, Bool.false_eq_true, if_false, false_and, hempty, List.isEmpty_nil, if_true,
    State.withMargins]

/-- With a lane short and room below the limit, the setpoint rises a step. -/
theorem doRemeasureEnd_rises (hs : ∃ i, i < 8 ∧ s.measured (8 * m + i) = true ∧ l.getD i 0 < n) (hl : (s.macroSt m).setpoint < s.macroLimit) :
    doRemeasureEnd m l n s = (s.withMargins m l).setMacro m { (s.macroSt m) with setpoint := (s.macroSt m).setpoint + 1, mayFall := false } := by
  have hm := State.marginsOf_withMargins s m l
  obtain ⟨i, hi, hmeas, hshort⟩ := hs
  have hsome : ((s.withMargins m l).shortLanes m l n).isEmpty = false := by
    rw [hm.shortLanes, List.isEmpty_eq_false_iff_exists_mem]
    exact ⟨i, List.mem_filter.mpr ⟨List.mem_range.mpr hi, by rw [hmeas, decide_eq_true hshort, Bool.and_true]⟩⟩
  rw [State.shortLanes, State.withMargins] at hsome
  have hlim := hl
  rw [← hm.rail, State.withMargins] at hlim
  simp only [doRemeasureEnd, h, Bool.not_true, Bool.false_eq_true, if_false, hsome, hlim, if_true, State.withMargins]

end Remeasure

/-- A snapshot leaves what runs of a re-measure. -/
theorem State.macroSt_snapshot (s : State) (m : Nat) : ((s.snapshot m).macroSt m) = { s.macroSt m with snapLoad := s.macroLoad m } := by
  rw [State.snapshot, State.forAll]
  refine foldl_keeps (fun t : State => t.macroSt m = { s.macroSt m with snapLoad := s.macroLoad m }) _ _ _ (State.macroSt_setMacro _ _ _)
    fun t k _ ht => ?_
  exact ht

@[simp] theorem State.finish_macroSt (s t : State) : (s.finish t).macroSt = t.macroSt := rfl

/-- Settles O16. -/
theorem laneAdaptDegrade : Obligations.LaneAdaptDegrade := by
  intro s p k m hpow
  have adapt {c t} : doAdapt p k s = t → Does (.adapt p k c) s t := does_of hpow (exec_adapt p k c s)
  have degrade {pos t} : doDegrade p pos.val s = t → Does (.degrade p pos) s t := does_of hpow (exec_degrade p pos s)
  refine ⟨?_, ?_, ?_, ?_, ?_, ?_, ?_, ?_, ?_, ?_, ?_, ?_, ?_⟩
  · exact fun c h7 h3 => adapt (doAdapt_elsewhere h7 h3)
  · exact fun c h hk => adapt (doAdapt_not_own h hk)
  · exact fun c h hk => adapt (doAdapt_own h hk)
  · exact fun c q pos hk h hf => does_of hpow (exec_adaptRefine k c s) (doAdaptRefine_of hk h hf)
  · exact fun n => does_of hpow (exec_loadSample m n s) rfl
  · exact fun l n h => does_of hpow (exec_remeasureEnd m l n s) (doRemeasureEnd_none h)
  · exact fun pos h => degrade (doDegrade_elsewhere h)
  · exact fun pos h hw => degrade (doDegrade_both h hw)
  · exact fun pos q h hw hd => degrade (doDegrade_asked h hw hd)
  · exact fun pos h hw hd => degrade (doDegrade_single h hw hd)
  · exact fun pos => does_of hpow (exec_degradeAck p pos s) rfl
  · intro l n h hs hf hp
    refine yields_of hpow (exec_remeasureEnd m l n s) ?_
    rw [doRemeasureEnd_stops h hs hf hp, State.finish_macroSt, State.macroSt_snapshot, State.macroSt_setMacro]
    have hm := (State.marginsOf_withMargins s m l).macroSt m
    generalize (s.withMargins m l).macroSt m = x at hm
    rw [hm]
    exact ⟨rfl, rfl⟩
  · intro l n h hs hl
    refine yields_of hpow (exec_remeasureEnd m l n s) ?_
    rw [doRemeasureEnd_rises h hs hl, State.finish_macroSt, State.macroSt_setMacro]
    exact ⟨h, rfl, rfl⟩

/-! ## The lane registers -/

section Registers
variable {s : State} (h : s.structured = true)
include h

theorem doLaneRecal_none {n : Nat} (hj : s.slotOf n = none) : doLaneRecal n s = s := by
  simp only [doLaneRecal, State.ifStructured_of h, hj]

theorem doLaneRecal_of {n j : Nat} (hj : s.slotOf n = some j) : doLaneRecal n s =
    (s.setMacro (2 * j) { (s.macroSt (2 * j)) with measuring := true, mayFall := true }).setMacro (2 * j + 1)
      { (s.macroSt (2 * j + 1)) with measuring := true, mayFall := true } := by
  have hother := State.macroSt_setMacro_other s (2 * j) { (s.macroSt (2 * j)) with measuring := true, mayFall := true } (2 * j + 1) (by omega)
  simp only [doLaneRecal, State.ifStructured_of h, hj, State.forAll, List.foldl_cons, List.foldl_nil, State.mayFall, hother]

theorem doSlip_plain {n k b : Nat} (he : s.flag (Reg.laneCtrl n) Fld.laneCtrlExpert = false) : doSlip n k b s = s.notice 61 (Reg.laneExp n k) := by
  simp only [doSlip, State.ifStructured_of h, he, Bool.not_false, if_true]

theorem doSlip_of {n k b j : Nat} (hj : s.slotOf n = some j) (he : s.flag (Reg.laneCtrl n) Fld.laneCtrlExpert = true)
    (ha : s.flag (Reg.laneCtrl n) Fld.laneCtrlAmAuto = false) (hpos : 0 < b) (hmax : b ≤ 3599) :
    doSlip n k b s = s.setLane (16 * j + k) { (s.lane (16 * j + k)) with grid := ((s.lane (16 * j + k)).grid + b) % 3600 } := by
  simp only [doSlip, State.ifStructured_of h, he, ha, hpos.ne', not_lt.mpr hmax, Bool.not_true, Bool.false_eq_true, or_self, if_false, hj]

end Registers

/-- Settles O17. -/
theorem laneRegisters : Obligations.LaneRegisters := by
  intro s p n k hpow
  have restart {t} : doLaneRestart p s = t → Does (.laneRestart p) s t := does_of hpow (exec_laneRestart p s)
  have retrain {t} : doLaneRetrain p s = t → Does (.laneRetrain p) s t := does_of hpow (exec_laneRetrain p s)
  have hold {b t} : doLaneHold p b s = t → Does (.laneHold p b) s t := does_of hpow (exec_laneHold p b s)
  have relane {t} : doLaneRelane p s = t → Does (.laneRelane p) s t := does_of hpow (exec_laneRelane p s)
  have recal {t} : doLaneRecal n s = t → Does (.laneRecal n) s t := does_of hpow (exec_laneRecal n s)
  have slip {b : BitVec 12} {t} : doSlip n k b.toNat s = t → Does (.slip n k b) s t := does_of hpow (exec_slip n k b s)
  refine ⟨does_of hpow (exec_retrain p s) rfl, ?_, fun h => ⟨?_, ?_, ?_, ?_, ?_, ?_, ?_, ?_⟩⟩
  · exact fun h => ⟨restart (State.ifStructured_not h), retrain (State.ifStructured_not h), fun b => hold (State.ifStructured_not h),
      relane (State.ifStructured_not h), recal (State.ifStructured_not h), fun b => slip (State.ifStructured_not h)⟩
  · exact restart (State.ifStructured_of h)
  · exact retrain (State.ifStructured_of h)
  · exact relane (State.ifStructured_of h)
  · exact fun b => hold (State.ifStructured_of h)
  · exact fun j hj he ha b hpos hmax => slip (doSlip_of h hj he ha hpos hmax)
  · exact fun b he => slip (doSlip_plain h he)
  · exact fun hj => recal (doLaneRecal_none h hj)
  · exact fun j hj => recal (doLaneRecal_of h hj)

end Sys2Proof.Machine
end


section
/-! # The mailbox, the dirty log, the supervisor pair and the host links (R339, R343, R355, R503 to R507, R259 to R275) -/

namespace Sys2Proof.Machine

/-! ## The mailbox and the dirty log -/

section DirtyLog
variable {s : State} {i : Nat}

theorem State.inst_of_insts {s t : State} (h : t.insts = s.insts) (i : Nat) : t.inst i = s.inst i := by
  unfold State.inst
  rw [h]

@[simp] theorem State.finish_inst (s t : State) (i : Nat) : (s.finish t).inst i = t.inst i :=
  State.inst_of_insts rfl i

/-- With no entry waiting, nothing is asked for. -/
theorem foldl_logged_nil {α β σ : Type} [DecidableEq β] {l : List α} (h : l = []) {p : α → Bool} {f : α → β} {g : σ → β → σ} {u : σ} :
    ((l.filter p).map f).dedup.foldl g u = u := by
  rw [h]
  rfl

/-- The state after a flip, but for the reads of the entries that wait. -/
def State.dlogFlipped (s : State) (i : Nat) : State :=
  let t := (s.put (Reg.dlogCtrl i) Fld.dlogCtrlActive (1 - s.get (Reg.dlogCtrl i) Fld.dlogCtrlActive)).put (Reg.dlogCtrl i) Fld.dlogCtrlBusy 1
  let old (r : ReadWhy) : Bool := match r with | .dlogWord j _ => j == i | _ => false
  { t.setInst i { t.inst i with dlogWords := [] } with
    dma := t.dma.filter (fun r => !old r.why), dmaQ := t.dmaQ.filter (fun r => !old r.why) }

theorem doDlogFlip_quiet (hs : s.structured = true) (hw : s.logWait = []) : doDlogFlip i s = s.dlogFlipped i := by
  unfold doDlogFlip
  exact (State.ifStructured_of hs).trans (foldl_logged_nil (u := s.dlogFlipped i) hw)

/-- What a flip does to the register and to the word cache, when no log entry waits. -/
theorem doDlogFlip_facts (hs : s.structured = true) (hw : s.logWait = []) :
    (doDlogFlip i s).get (Reg.dlogCtrl i) Fld.dlogCtrlActive = 1 - s.get (Reg.dlogCtrl i) Fld.dlogCtrlActive
      ∧ (doDlogFlip i s).flag (Reg.dlogCtrl i) Fld.dlogCtrlBusy = true ∧ ((doDlogFlip i s).inst i).dlogWords = []
      ∧ ∀ a, a ≠ Reg.dlogCtrl i → (doDlogFlip i s).word a = s.word a := by
  have hactive : ((s.put (Reg.dlogCtrl i) Fld.dlogCtrlActive (1 - s.get (Reg.dlogCtrl i) Fld.dlogCtrlActive)).put
      (Reg.dlogCtrl i) Fld.dlogCtrlBusy 1).get (Reg.dlogCtrl i) Fld.dlogCtrlActive = 1 - s.get (Reg.dlogCtrl i) Fld.dlogCtrlActive := by
    rw [State.get_put_apart _ _ _ _ _ (by decide) (by decide), State.get_put _ _ _ _ (by decide)]
    exact Nat.mod_eq_of_lt (Nat.lt_of_le_of_lt (Nat.sub_le 1 _) (by decide))
  rw [doDlogFlip_quiet hs hw]
  refine ⟨hactive, State.flag_put_one _ _ (by decide) (by decide), ?_, fun a ha => ?_⟩
  · exact congrArg InstSt.dlogWords (State.inst_setInst _ _ _)
  · exact (State.word_put_other _ _ _ _ _ ha).trans (State.word_put_other _ _ _ _ _ ha)

theorem doDlogFlip_discarded (hs : s.structured = false) : doDlogFlip i s = s.notice 61 (Reg.dlogCtrl i) := by
  unfold doDlogFlip
  exact State.ifStructured_not hs

end DirtyLog

/-- Settles O36, from what each write of the mailbox and of the dirty log does. -/
theorem mailboxAndDirtyLog : Obligations.MailboxAndDirtyLog := by
  intro s i hpow
  have toMgr {t} : doToMgrSet i s = t → Does (.toMgrSet i) s t := does_of hpow (exec_toMgrSet i s)
  have mgrClear {t} : doToMgrClear i s = t → Does (.toMgrClear i) s t := does_of hpow (exec_toMgrClear i s)
  have toTenant {t} : doToTenantSet i s = t → Does (.toTenantSet i) s t := does_of hpow (exec_toTenantSet i s)
  have tenantClear {t} : doToTenantClear i s = t → Does (.toTenantClear i) s t := does_of hpow (exec_toTenantClear i s)
  refine ⟨fun hs => ⟨?_, ?_, ?_, ?_, fun hw => ?_⟩, fun hs => ⟨?_, ?_, ?_, ?_, ?_⟩, fun h => ?_, fun h => ?_⟩
  · exact toMgr (State.ifStructured_of hs)
  · exact mgrClear (State.ifStructured_of hs)
  · exact toTenant (State.ifStructured_of hs)
  · exact tenantClear (State.ifStructured_of hs)
  · refine yields_of hpow (exec_dlogFlip i s) ?_
    have hflip := doDlogFlip_facts (i := i) hs hw
    generalize doDlogFlip i s = t at hflip ⊢
    simpa only [State.finish_get, State.finish_flag, State.finish_inst, State.finish_word] using hflip
  · exact toMgr (State.ifStructured_not hs)
  · exact mgrClear (State.ifStructured_not hs)
  · exact toTenant (State.ifStructured_not hs)
  · exact tenantClear (State.ifStructured_not hs)
  · exact does_of hpow (exec_dlogFlip i s) (doDlogFlip_discarded hs)
  · exact does_of hpow (exec_dlogFlipEnd i s) (if_pos h)
  · exact does_of hpow (exec_dlogFlipEnd i s) (if_neg (by rw [h]; decide))

/-! ## The supervisor pair -/

section SupervisorPair
variable {s : State}

theorem doHeartbeat_not {k : Nat} (h : s.sageActive ≠ k ∨ s.sageUp = false) : doHeartbeat k s = s :=
  if_pos (h.imp_right (by rw [·]; rfl))

theorem doHeartbeat_active {k : Nat} (h : s.sageActive = k) (hup : s.sageUp = true) {t : State}
    (ht : t = ({ s with flt := { s.flt with sage := { s.flt.sage with beatAt := s.now } } } : State).journalWritten) :
    doHeartbeat k s = if t.isFenced (.sage (1 - k)) || t.flt.sage.loading then t else t.put Reg.sageStat Fld.sageStatStandbyOk 1 := by
  rw [ht]
  exact if_neg (by rw [h, hup]; simp only [ne_eq, not_true_eq_false, Bool.not_true, Bool.false_eq_true, or_self, not_false_eq_true])

theorem State.sageCmd_takeover {f : State → State} (h : s.flag Reg.sageStat Fld.sageStatTakeover = true) :
    s.sageCmd f = s.put Reg.sageCmd Fld.sageCmdSerr 1 := if_pos h

section NoTakeover
variable (h : s.flag Reg.sageStat Fld.sageStatTakeover = false)
include h

theorem State.sageCmd_down {f : State → State} (hup : s.sageUp = false) : s.sageCmd f = s.put Reg.sageCmd Fld.sageCmdSerr 2 := by
  simp only [State.sageCmd, h, hup, Bool.false_eq_true, if_false, Bool.not_false, if_true]

theorem State.sageCmd_busy {f : State → State} (hup : s.sageUp = true) (hb : s.flag Reg.sageCmd Fld.sageCmdBusy = true) : s.sageCmd f = s := by
  simp only [State.sageCmd, h, hup, hb, Bool.false_eq_true, if_false, Bool.not_true, if_true]

theorem State.sageCmd_taken {f : State → State} (hup : s.sageUp = true) (hb : s.flag Reg.sageCmd Fld.sageCmdBusy = false) : s.sageCmd f = f s := by
  simp only [State.sageCmd, h, hup, hb, Bool.false_eq_true, if_false, Bool.not_true]

end NoTakeover

section Taken
variable (h : s.flag Reg.sageStat Fld.sageStatTakeover = false) (hup : s.sageUp = true) (hb : s.flag Reg.sageCmd Fld.sageCmdBusy = false)
include h hup hb

theorem doFwLoad_noStandby (hst : s.flag Reg.sageStat Fld.sageStatStandbyOk = false) : doFwLoad s = s.put Reg.sageCmd Fld.sageCmdSerr 3 :=
  (State.sageCmd_taken h hup hb).trans (if_pos (by rw [hst]; rfl))

theorem doFwLoad_badImage (hst : s.flag Reg.sageStat Fld.sageStatStandbyOk = true) (hfw : s.firmwareOk = false) :
    doFwLoad s = s.put Reg.sageCmd Fld.sageCmdSerr 5 :=
  (State.sageCmd_taken h hup hb).trans ((if_neg (by rw [hst]; decide)).trans (if_pos (by rw [hfw]; rfl)))

theorem doFwLoad_loads (hst : s.flag Reg.sageStat Fld.sageStatStandbyOk = true) (hfw : s.firmwareOk = true) :
    doFwLoad s = ((({ s with flt := { s.flt with sage := { s.flt.sage with loading := true } } } : State).put
      Reg.sageCmd Fld.sageCmdSerr 0).put Reg.sageCmd Fld.sageCmdBusy 1).put Reg.sageStat Fld.sageStatStandbyOk 0 :=
  (State.sageCmd_taken h hup hb).trans ((if_neg (by rw [hst]; decide)).trans (if_neg (by rw [hfw]; decide)))

theorem doSwap_noStandby (hst : s.flag Reg.sageStat Fld.sageStatStandbyOk = false) : doSwap s = s.put Reg.sageCmd Fld.sageCmdSerr 3 :=
  (State.sageCmd_taken h hup hb).trans (if_pos (by rw [hst]; rfl))

theorem doSwap_swaps (hst : s.flag Reg.sageStat Fld.sageStatStandbyOk = true) : doSwap s =
    ((s.put Reg.sageCmd Fld.sageCmdSerr 0).put Reg.sageStat Fld.sageStatActive (1 - s.sageActive)).put Reg.sageStat
      Fld.sageStatEpoch (s.get Reg.sageStat Fld.sageStatEpoch + 1) :=
  (State.sageCmd_taken h hup hb).trans (if_neg (by rw [hst]; decide))

end Taken

theorem doFwLoadEnd_loading {t : State} (h : s.flt.sage.loading = true) (ht : t = ({ s with flt := { s.flt with
    sage := { s.flt.sage with loading := false } } } : State).put Reg.sageCmd Fld.sageCmdBusy 0) (b : Bool) :
    doFwLoadEnd b s = (if b then t else t.put Reg.sageCmd Fld.sageCmdSerr 4).put Reg.sageStat Fld.sageStatStandbyOk 1 := by
  rw [ht]
  exact if_neg (by rw [h]; decide)

end SupervisorPair

/-- Settles O55, from what each event and each command of the supervisor pair does. -/
theorem supervisor : Obligations.Supervisor := by
  intro s hpow
  have beat {k t} : doHeartbeat k.val s = t → Does (.heartbeat k) s t := does_of hpow (exec_heartbeat k s)
  have takeoverEnd {t} : doTakeoverEnd s = t → Does .takeoverEnd s t := does_of hpow (exec_takeoverEnd s)
  have load {t} : doFwLoad s = t → Does .fwLoad s t := does_of hpow (exec_fwLoad s)
  have swap {t} : doSwap s = t → Does .swap s t := does_of hpow (exec_swap s)
  have restart {t} : doRestart s = t → Does .restart s t := does_of hpow (exec_restart s)
  have loadEnd {b t} : doFwLoadEnd b s = t → Does (.fwLoadEnd b) s t := does_of hpow (exec_fwLoadEnd b s)
  refine ⟨fun k => ⟨?_, ?_⟩, ?_, ?_, ?_, ?_, ?_, ?_, ?_, ?_, ?_⟩
  · exact fun h => beat (doHeartbeat_not h)
  · exact fun t h hup ht => beat (doHeartbeat_active h hup ht)
  · exact does_of hpow (exec_heartbeatMiss s) rfl
  · exact fun h => takeoverEnd (if_neg (by rw [h]; decide))
  · exact fun h => takeoverEnd (if_pos h)
  · rintro h t rfl
    exact ⟨load (State.sageCmd_takeover h), swap (State.sageCmd_takeover h), restart (State.sageCmd_takeover h)⟩
  · rintro h hup t rfl
    exact ⟨load (State.sageCmd_down h hup), swap (State.sageCmd_down h hup), restart (State.sageCmd_down h hup)⟩
  · exact fun h hup hb => ⟨load (State.sageCmd_busy h hup hb), swap (State.sageCmd_busy h hup hb), restart (State.sageCmd_busy h hup hb)⟩
  · refine fun h hup hb => ⟨fun hst => ⟨?_, ?_⟩, fun hst => ⟨fun hfw => ?_, fun hfw => ?_, ?_⟩, ?_⟩
    · exact load (doFwLoad_noStandby h hup hb hst)
    · exact swap (doSwap_noStandby h hup hb hst)
    · exact load (doFwLoad_badImage h hup hb hst hfw)
    · exact load (doFwLoad_loads h hup hb hst hfw)
    · refine yields_of hpow (exec_swap s) ?_
      rw [doSwap_swaps h hup hb hst]
      refine ⟨?_, ?_, fun a ha hc => ?_⟩
      · rw [State.finish_get, State.get_put_apart _ _ _ _ _ (by decide) (by decide), State.get_put _ _ _ _ (by decide)]
        rfl
      · rw [State.finish_get, State.get_put_other _ _ _ _ _ _ (by decide), State.get_put_other _ _ _ _ _ _ (by decide),
          State.get_put _ _ _ _ (by decide)]
        rfl
      · rw [State.finish_word, State.word_put_other _ _ _ _ _ ha, State.word_put_other _ _ _ _ _ ha, State.word_put_other _ _ _ _ _ hc]
    · rintro t rfl
      exact ⟨fun hf => restart ((State.sageCmd_taken h hup hb).trans (if_neg (by rw [hf]; decide))),
        fun hf => restart ((State.sageCmd_taken h hup hb).trans (if_pos hf))⟩
  · exact fun h b => loadEnd (if_pos (by rw [h]; rfl))
  · exact fun t h ht => ⟨loadEnd (doFwLoadEnd_loading h ht true), loadEnd (doFwLoadEnd_loading h ht false)⟩

/-! ## The host links -/

section HostLink
variable {s : State} {n fn : Nat}

theorem State.linkGone_down (h : s.linkUp n = false) (j : Nat) : s.linkGone n j = s := if_pos (by rw [h]; rfl)

theorem doFlrVf_begins (h : s.linkUp n = true) (he : s.vfEnable n = true) (hlo : 1 ≤ fn) (hhi : fn ≤ s.numVfs n)
    (hf : (s.host n).flr.contains fn = false) : doFlrVf n fn s = (s.flrBegin n fn).resetVf n fn := by
  refine if_neg ?_
  rw [h, he, hf]
  simp [Nat.ne_of_gt hlo, hhi]

theorem doFlrPf0_begins (h : s.linkUp n = true) (hf : (s.host n).flr.contains 0 = false) {u v : State}
    (hu : u = (s.flrBegin n 0).resetVfs n)
    (hv : v = u.setHost n { u.host n with cfg := [], flr := (u.host n).flr ++ (if s.vfEnable n then
      ((List.range (s.numVfs n)).map (· + 1)).filter (fun k => (u.host n).flr.contains k = false) else []) }) :
    doFlrPf0 n s = if s.d3hot n then ((v.clearPfMsix n).updateIntx n).wake n else (v.clearPfMsix n).updateIntx n := by
  have hnew : ((if s.vfEnable n then (List.range (s.numVfs n)).map (· + 1) else []).filter (fun k => !(u.host n).flr.contains k)) =
      if s.vfEnable n then ((List.range (s.numVfs n)).map (· + 1)).filter (fun k => (u.host n).flr.contains k = false) else [] := by
    cases s.vfEnable n
    · rfl
    · exact List.filter_congr fun k _ => by cases (u.host n).flr.contains k <;> rfl
  rw [hv, ← hnew, hu]
  exact if_neg (by rw [h, hf]; decide)

theorem doLinkTrained_not {sp w : Nat} {fl : Bool} (h : bit s.fuse.okHosts n = false ∨ w ∉ [1, 2, 4, 8, 16] ∨ sp = 0) :
    doLinkTrained n sp w fl s = s := by
  refine if_pos ?_
  rcases h with h | h | h
  · simp only [h, Bool.not_false, Bool.true_or]
  · rw [List.contains_eq_mem, decide_eq_false h, Bool.not_false, Bool.or_true, Bool.true_or]
  · simp only [h, beq_self_eq_true, Bool.or_true]

theorem doLinkTrained_trains {sp w : Nat} {fl : Bool} (h : bit s.fuse.okHosts n = true) (hw : w ∈ [1, 2, 4, 8, 16]) (hsp : sp ≠ 0)
    {a : State} (ha : a = if s.linkUp n then s else (s.resetFns n).postZero (hostSrc n 13)) :
    doLinkTrained n sp w fl s = ((((a.put (Reg.hostStat n) Fld.hostStatLinkUp 1).put (Reg.hostStat n) Fld.hostStatSpeed sp).put
      (Reg.hostStat n) Fld.hostStatWidth w).put (Reg.hostStat n) Fld.hostStatFlit (b2n (fl || decide (6 ≤ sp)))).updateIntx n := by
  rw [ha]
  refine if_neg ?_
  rw [h, List.contains_eq_mem, decide_eq_true hw, beq_false_of_ne hsp]
  decide

theorem doFlrEnd_none (h : (s.host n).flr.contains fn = false) : doFlrEnd n fn s = s := if_pos (by rw [h]; rfl)

theorem doFlrEnd_reset (h : (s.host n).flr.contains fn = true) : doFlrEnd n fn s =
    if fn = 0 then s.setHost n { s.host n with flr := (s.host n).flr.filter (fun x => x != fn) }
    else (s.setHost n { s.host n with flr := (s.host n).flr.filter (fun x => x != fn) }).raiseEvent 3 :=
  if_neg (by rw [h]; decide)

end HostLink

/-- Settles O28, from what each event of a host link does. -/
theorem hostLinks : Obligations.HostLinks := by
  intro s n hpow
  have down {t} : s.linkGone n 0 = t → Does (.dlDown n) s t := does_of hpow (exec_dlDown n s)
  have perst {t} : s.linkGone n 12 = t → Does (.perst n) s t := does_of hpow (exec_perst n s)
  have hot {t} : s.linkGone n 12 = t → Does (.hotReset n) s t := does_of hpow (exec_hotReset n s)
  have pf {t} : doFlrPf0 n s = t → Does (.flrPf0 n) s t := does_of hpow (exec_flrPf0 n s)
  have vf {fn t} : doFlrVf n fn s = t → Does (.flrVf n fn) s t := does_of hpow (exec_flrVf n fn s)
  have d3 {t} : doD3hot n s = t → Does (.d3hotEntry n) s t := does_of hpow (exec_d3hotEntry n s)
  have d0 {t} : doD0 n s = t → Does (.d0Return n) s t := does_of hpow (exec_d0Return n s)
  have trained {sp : Fin 8} {w : Fin 17} {fl t} : doLinkTrained n sp w fl s = t → Does (.linkTrained n sp w fl) s t :=
    does_of hpow (exec_linkTrained n sp w fl s)
  have flrEnd {fn t} : doFlrEnd n fn s = t → Does (.flrEnd n fn) s t := does_of hpow (exec_flrEnd n fn s)
  refine ⟨fun h => ⟨?_, ?_, ?_, ?_, ?_, ?_, fun fn => ?_⟩, fun h => ⟨?_, ?_, ?_, ?_, ?_, ?_, ?_, ?_⟩,
    fun sp w fl => ⟨?_, ?_⟩, ?_, ?_, ?_, ?_⟩
  · exact down (State.linkGone_down h 0)
  · exact perst (State.linkGone_down h 12)
  · exact hot (State.linkGone_down h 12)
  · exact pf (if_pos (by rw [h]; rfl))
  · exact d3 (if_neg (by rw [h]; decide))
  · exact d0 (if_neg (by rw [h, Bool.false_and]; decide))
  · exact vf (if_pos (by rw [h]; rfl))
  · exact down rfl
  · exact perst rfl
  · exact hot rfl
  · exact d3 (if_pos h)
  · exact fun hd => d0 (if_pos (by rw [h, hd]; rfl))
  · exact fun hd => d0 (if_neg (by rw [h, hd]; decide))
  · exact fun fn he hlo hhi hf => vf (doFlrVf_begins h he hlo hhi hf)
  · exact fun u v hf hu hv => pf (doFlrPf0_begins h hf hu hv)
  · refine fun hbad => trained (doLinkTrained_not (hbad.imp_right (Or.imp_right fun h0 => ?_)))
    rw [h0]
    rfl
  · exact fun a hok hw hsp ha => trained (doLinkTrained_trains hok hw (Fin.val_ne_of_ne hsp) ha)
  · exact fun fn hf => flrEnd (doFlrEnd_none hf)
  · exact fun hf => flrEnd (doFlrEnd_reset hf)
  · exact fun fn h0 hf => flrEnd ((doFlrEnd_reset hf).trans (if_neg h0))
  · exact fun id => does_of hpow (exec_hgraceExpiry id s) rfl

end Sys2Proof.Machine

end


section
/-! # The device's own requests on a host link, and the repairs (R275 to R283, R508 to R520) -/

namespace Sys2Proof.Machine

/-! ## The device's own requests -/

section Completions
variable {s : State} {n tag : Nat}

section NoRequest
variable (h : s.dmaAt n tag = none)
include h

theorem doDmaRead_none (d : List Byte) : doDmaRead n tag d s = s := by simp only [doDmaRead, h]

theorem doCompletionTimeout_none : doCompletionTimeout n tag s = s := by simp only [doCompletionTimeout, h]

theorem doPoisonedTlp_none : doPoisonedTlp n (.completion tag) s = s := by simp only [doPoisonedTlp, h]

theorem doAtomicopCompletion_none (st : CplStatus) (d : List Byte) : doAtomicopCompletion n tag st d s = s := by
  simp only [doAtomicopCompletion, h]

end NoRequest

section Request
variable {r : DmaReq} (h : s.dmaAt n tag = some r)
include h

theorem doCompletionTimeout_request :
    doCompletionTimeout n tag s = ((s.aer r.func aerTimeout).postZero (hostSrc n 2)).dmaFailed r := by
  simp only [doCompletionTimeout, h]

theorem doPoisonedTlp_request :
    doPoisonedTlp n (.completion tag) s = ((s.aer r.func aerPoisoned).postZero (hostSrc n 3)).dmaFailed r := by
  simp only [doPoisonedTlp, h]

theorem doDmaRead_ringPoll {i q : Nat} {d : List Byte} (hw : r.why = .ringPoll i q) (hd : d.length = r.len) :
    doDmaRead n tag d s = ((s.dmaOver r).ringData i q d).goOn := by
  simp only [doDmaRead, h, hw, hd, if_true, State.dmaData]

theorem doDmaRead_walk {w : Nat} {d : List Byte} (hw : r.why = .walk w) (hd : d.length = r.len) :
    doDmaRead n tag d s = doWalkRead w (.entry (BitVec.ofNat 64 (leNat d))) (s.dmaOver r) := by
  simp only [doDmaRead, h, hw, hd, if_true, State.dmaData]

theorem doDmaRead_dlogWord {i w : Nat} {d : List Byte} (hw : r.why = .dlogWord i w) (hd : d.length = r.len) :
    doDmaRead n tag d s = ((s.dmaOver r).dlogArrive i w (leNat d)).refuseAtomics r.link := by
  simp only [doDmaRead, h, hw, hd, if_true, State.dmaData]

theorem doAtomicopCompletion_hostAtomic {p : Packet} (hw : r.why = .hostAtomic p) (d : List Byte) :
    doAtomicopCompletion n tag .ok d s = (((s.dmaOver r).atomCount p).atomRsp p 0 (d.take (atomSize p))).goOn := by
  simp only [doAtomicopCompletion, h, hw, if_true]

theorem doAtomicopCompletion_hostRefused {p : Packet} {st : CplStatus} (hw : r.why = .hostAtomic p) (hst : st ≠ .ok) (d : List Byte) :
    doAtomicopCompletion n tag st d s = ((((((s.put (Reg.hostCtrl n) Fld.hostCtrlAtomicAvail 0).bump (Reg.hostErr n)
      Fld.hostErrAtomicUr 1).postZero (hostSrc n 8)).dmaOver r).sendNcomp p 8).refuseAtomics n).goOn := by
  simp only [doAtomicopCompletion, h, hw, hst, if_false]

theorem doAtomicopCompletion_mark {w : Nat} (hw : r.why = .mark w) (d : List Byte) :
    doAtomicopCompletion n tag .ok d s = doMarkDone w (BitVec.ofNat 64 (leNat (d.take 8))) true (s.dmaOver r) := by
  simp only [doAtomicopCompletion, h, hw, if_true]

theorem doAtomicopCompletion_markRefused {w : Nat} {st : CplStatus} (hw : r.why = .mark w) (hst : st ≠ .ok) (d : List Byte) :
    doAtomicopCompletion n tag st d s = (doMarkDone w 0 false ((((s.put (Reg.hostCtrl n) Fld.hostCtrlAtomicAvail 0).bump
      (Reg.hostErr n) Fld.hostErrAtomicUr 1).postZero (hostSrc n 8)).dmaOver r)).refuseAtomics n := by
  simp only [doAtomicopCompletion, h, hw, hst, if_false]

end Request

theorem State.mayIssue_atomicsOff {r : DmaReq} (ha : r.atomic = true) (h : s.atomicsOk r.func = false) : s.mayIssue r = false := by
  simp only [State.mayIssue, ha, h, Bool.not_true, Bool.or_self, Bool.and_false, Bool.false_and]

end Completions

/-- Settles O30, from what each completion does with the request that its tag names. -/
theorem hostCompletions : Obligations.HostCompletions := by
  intro s n tag hpow
  have read {d t} : doDmaRead n tag d s = t → Does (.dmaReadCompletion n tag d) s t := does_of hpow (exec_dmaReadCompletion n tag d s)
  have timeout {t} : doCompletionTimeout n tag s = t → Does (.completionTimeout n tag) s t := does_of hpow (exec_completionTimeout n tag s)
  have poisoned {b t} : doPoisonedTlp n b s = t → Does (.poisonedTlp n b) s t := does_of hpow (exec_poisonedTlp n b s)
  have atomic {st d t} : doAtomicopCompletion n tag st d s = t → Does (.atomicopCompletion n tag st d) s t :=
    does_of hpow (exec_atomicopCompletion n tag st d s)
  have ecrc {fn t} : doEcrcError ⟨n, fn⟩ s = t → Does (.ecrcError n fn) s t := does_of hpow (exec_ecrcError n fn s)
  refine ⟨fun h => ⟨?_, ?_, ?_, ?_⟩, fun r h => ⟨?_, ?_, ?_, ?_, ?_, ?_, ?_, ?_, ?_⟩, ?_, fun fn => ⟨?_, ?_⟩, ?_, ?_⟩
  · exact fun d => read (doDmaRead_none h d)
  · exact timeout (doCompletionTimeout_none h)
  · exact poisoned (doPoisonedTlp_none h)
  · exact fun st d => atomic (doAtomicopCompletion_none h st d)
  · exact timeout (doCompletionTimeout_request h)
  · exact poisoned (doPoisonedTlp_request h)
  · exact fun i q d hw hd => read (doDmaRead_ringPoll h hw hd)
  · exact fun w d hw hd => read (doDmaRead_walk h hw hd)
  · exact fun i w d hw hd => read (doDmaRead_dlogWord h hw hd)
  · exact fun p d hw => atomic (doAtomicopCompletion_hostAtomic h hw d)
  · exact fun p d st hw hst => atomic (doAtomicopCompletion_hostRefused h hw hst d)
  · exact fun w d st hw hst => atomic (doAtomicopCompletion_markRefused h hw hst d)
  · exact fun w d hw => atomic (doAtomicopCompletion_mark h hw d)
  · exact fun fn => poisoned rfl
  · exact fun h => ecrc (if_pos h)
  · exact fun h => ecrc (if_neg (by rw [h]; decide))
  · intro r ha hoff hlink
    refine State.mayIssue_atomicsOff ha ?_
    rw [State.atomicsOk, hlink, Bool.and_eq_false_iff]
    exact hoff
  · exact does_of hpow (exec_atomicRetry n s) rfl

/-! ## Drains -/

section Drains
variable {s : State} {k : Nat}

theorem doDrain_eq {t u : State} (ht : t = ((s.put Reg.repair Fld.repairSlot k).put Reg.repair Fld.repairDrain 1).put Reg.repair Fld.repairDrained 0)
    (hu : u = ({ t with flt := { t.flt with drainWait := !t.isFenced (.tile (t.tileOf k)) } } : State).put Reg.repair Fld.repairDrained
      (b2n (t.isFenced (.tile (t.tileOf k))))) :
    doDrain k s = if s.flag Reg.repair Fld.repairDrain && s.get Reg.repair Fld.repairSlot != k then
      u.bringUpSlot (s.get Reg.repair Fld.repairSlot) else u := by
  rw [hu, ht]
  rfl

section NoDrain
variable (h : s.flag Reg.repair Fld.repairDrain = false)
include h

theorem doDrainWaitEnd_noDrain : doDrainWaitEnd s = s := if_neg (by rw [h, Bool.false_and]; decide)

theorem doDrained_noDrain : doDrained s = s := if_neg (by rw [h, Bool.false_and, Bool.false_and]; decide)

theorem doDrainClear_noDrain : doDrainClear s = s := if_neg (by rw [h]; decide)

end NoDrain

section Drain
variable (h : s.flag Reg.repair Fld.repairDrain = true)
include h

theorem doDrainWaitEnd_waiting (hw : s.flt.drainWait = true) : doDrainWaitEnd s =
    (slotPorts (s.get Reg.repair Fld.repairSlot)).foldl (fun s p => s.tryOff p) { s with flt := { s.flt with drainWait := false } } :=
  if_pos (by rw [h, hw]; rfl)

theorem doDrainWaitEnd_over (hw : s.flt.drainWait = false) : doDrainWaitEnd s = s := if_neg (by rw [h, hw]; decide)

theorem doDrained_waiting (hw : s.flt.drainWait = true) : doDrained s = s := if_neg (by rw [h, hw, Bool.not_true, Bool.and_false, Bool.false_and]; decide)

theorem doDrained_empty (hw : s.flt.drainWait = false) (he : s.slotEmpty (s.get Reg.repair Fld.repairSlot) = true) :
    doDrained s = s.put Reg.repair Fld.repairDrained 1 := if_pos (by rw [h, hw, he]; rfl)

theorem doDrained_full (hw : s.flt.drainWait = false) (he : s.slotEmpty (s.get Reg.repair Fld.repairSlot) = false) : doDrained s = s :=
  if_neg (by rw [h, hw, he]; decide)

theorem doDrainClear_draining {t : State} (ht : t = (s.put Reg.repair Fld.repairDrain 0).put Reg.repair Fld.repairDrained 0) :
    doDrainClear s = ({ t with flt := { t.flt with drainWait := false } } : State).bringUpSlot (t.get Reg.repair Fld.repairSlot) := by
  rw [ht]
  exact if_pos h

end Drain

end Drains

/-! ## Spares -/

section Spares
variable {s : State}

section Go
variable {v : Word} {t : State} (hb : s.flag Reg.spare Fld.spareBusy = false)
  (ht : t = (s.put Reg.spare Fld.spareKind (Fld.spareKind.get v)).put Reg.spare Fld.spareUnit (Fld.spareUnit.get v))
include hb ht

theorem doSpareGo_noCore (hup : t.sageUp = false) : doSpareGo v s = t.put Reg.spare Fld.spareSerr 4 := by
  subst ht
  exact (if_neg (by rw [hb]; decide)).trans (if_pos (by rw [hup]; rfl))

theorem doSpareGo_noUnit (hup : t.sageUp = true) (h : t.structured = false ∨ kindCount (Fld.spareKind.get v) ≤ Fld.spareUnit.get v) :
    doSpareGo v s = t.put Reg.spare Fld.spareSerr 2 := by
  subst ht
  refine (if_neg (by rw [hb]; decide)).trans ((if_neg (by rw [hup]; decide)).trans (if_pos ?_))
  rw [Bool.or_eq_true, Bool.not_eq_true', decide_eq_true_eq]
  exact h

theorem doSpareGo_starts (hup : t.sageUp = true) (hs : t.structured = true) (hk : Fld.spareUnit.get v < kindCount (Fld.spareKind.get v)) :
    doSpareGo v s = t.startSpare (Fld.spareKind.get v) (Fld.spareUnit.get v) := by
  subst ht
  refine (if_neg (by rw [hb]; decide)).trans ((if_neg (by rw [hup]; decide)).trans (if_neg ?_))
  rw [hs, decide_eq_false (Nat.not_le.mpr hk)]
  decide

end Go

/-- A pin changes registers alone. -/
theorem State.pin_frame (s : State) (d i : Nat) : ∃ r, s.pin d i = { s with regs := r } := by
  unfold State.pin
  split
  · exact ⟨s.regs, rfl⟩
  · dsimp only
    split
    · exact ⟨s.regs, rfl⟩
    · exact ⟨_, rfl⟩

/-- Spreading a lost unit's work changes registers and the rings' engines alone. -/
theorem State.spreadWork_frame (s : State) (kind u : Nat) : ∃ r q, s.spreadWork kind u = { s with regs := r, sqs := q } := by
  unfold State.spreadWork
  split
  · dsimp only
    split
    · exact ⟨s.regs, _, rfl⟩
    · exact ⟨s.regs, s.sqs, rfl⟩
  · split
    · refine foldl_keeps (fun t : State => ∃ r q, t = { s with regs := r, sqs := q }) _ _ _ ⟨s.regs, s.sqs, rfl⟩ ?_
      rintro _ d - ⟨r, q, rfl⟩
      obtain ⟨r', h⟩ := State.pin_frame (({ s with regs := r, sqs := q } : State).put (Reg.ctxCfg d) Fld.ctxCfgPinned 0) d
        (({ s with regs := r, sqs := q } : State).ctxInst d)
      exact ⟨r', q, h⟩
    · exact ⟨s.regs, s.sqs, rfl⟩

/-- What the end of a replacement may change: the map at the replaced unit, the replaced unit's fence, the spares, the rings' engines,
and registers. -/
theorem State.finishSpare_frame {kind u old : Nat} (h : s.flt.spareOp = some (kind, u, old)) :
    ∃ r q fl m e f, s.finishSpare = { s with regs := r, sqs := q, flt := fl, spareMap := m, engMap := e, fenced := f }
      ∧ (e = s.engMap ∨ ∃ new, e = s.engMap.set (kindBase kind + u) new)
      ∧ (f = s.fenced ∨ f = s.fenced.filter (fun g => g != unitOf kind old)) := by
  obtain ⟨t, hend⟩ : ∃ t, t = ({ s with flt := { s.flt with spareOp := none } } : State).put Reg.spare Fld.spareBusy 0 := ⟨_, rfl⟩
  have hfin : s.finishSpare = match t.spareFor kind u with
      | some k => { t with
          engMap := setIdx t.engMap (kindBase kind + u) (t.spares.getD k 0xFF)
          spareMap := some (setIdx t.spares k 0xFF)
          fenced := t.fenced.filter (fun f => f != unitOf kind old) }.put Reg.spare Fld.spareSerr 0
      | none => (t.spreadWork kind u).put Reg.spare Fld.spareSerr 1 := by
    simp only [State.finishSpare, h, ← hend] <;> rfl
  rw [hfin]
  split
  · subst hend
    exact ⟨_, _, _, _, _, _, rfl, .inr ⟨_, rfl⟩, .inr rfl⟩
  · obtain ⟨r, q, hspread⟩ := t.spreadWork_frame kind u
    rw [hspread, hend]
    exact ⟨_, _, _, _, _, _, rfl, .inl rfl, .inl rfl⟩

/-- Where the units of a kind stand in the map. -/
theorem State.physUnit_eq (s : State) {k v : Nat} (hlo : 1 ≤ k) (hhi : k ≤ 4) : s.physUnit k v = s.engMap.getD (kindBase k + v) 0 := by
  obtain rfl | rfl | rfl | rfl : k = 1 ∨ k = 2 ∨ k = 3 ∨ k = 4 := by omega
  all_goals rfl

/-- No two units share a place of the map. -/
theorem kindBase_apart {kind u k v : Nat} (hlo : 1 ≤ kind) (hhi : kind ≤ 4) (hu : u < kindCount kind) (klo : 1 ≤ k) (khi : k ≤ 4)
    (hv : v < kindCount k) (h : k ≠ kind ∨ v ≠ u) : kindBase kind + u ≠ kindBase k + v := by
  obtain rfl | rfl | rfl | rfl : kind = 1 ∨ kind = 2 ∨ kind = 3 ∨ kind = 4 := by omega
  all_goals
    obtain rfl | rfl | rfl | rfl : k = 1 ∨ k = 2 ∨ k = 3 ∨ k = 4 := by omega
    all_goals
      simp only [kindBase, kindCount, Nat.reduceEqDiff, if_true, if_false] at hu hv ⊢
      omega

theorem State.finishSpare_keeps {kind u old : Nat} (h : s.flt.spareOp = some (kind, u, old)) (hlo : 1 ≤ kind) (hhi : kind ≤ 4)
    (hu : u < kindCount kind) :
    (∀ k v : Nat, 1 ≤ k → k ≤ 4 → v < kindCount k → k ≠ kind ∨ v ≠ u → s.finishSpare.physUnit k v = s.physUnit k v)
    ∧ (∀ f : FUnit, f ≠ unitOf kind old → (f ∈ s.finishSpare.fenced ↔ f ∈ s.fenced))
    ∧ s.finishSpare.tileMap = s.tileMap ∧ s.finishSpare.ports = s.ports ∧ s.finishSpare.links = s.links
    ∧ s.finishSpare.insts = s.insts := by
  obtain ⟨r, q, fl, m, e, f, heq, he, hf⟩ := State.finishSpare_frame h
  rw [heq]
  refine ⟨fun k v klo khi hv hne => ?_, fun g hg => ?_, rfl, rfl, rfl, rfl⟩
  · rw [State.physUnit_eq _ klo khi, State.physUnit_eq _ klo khi]
    rcases he with rfl | ⟨new, rfl⟩
    · rfl
    · simp only [List.getD_eq_getElem?_getD, List.getElem?_set_ne (kindBase_apart hlo hhi hu klo khi hv hne)]
  · rcases hf with rfl | rfl
    · rfl
    · simp only [List.mem_filter, bne_iff_ne, ne_eq, hg, not_false_eq_true, and_true]

end Spares

/-! ## Retired pages -/

section Pages
variable {s : State} {n p : Nat}

/-- A retirement begins on its own stack alone. -/
theorem State.retirePage_keeps {m : Nat} (h : m ≠ n) :
    Table.getD (s.retirePage n p).flt.retired [] m = Table.getD s.flt.retired [] m
      ∧ Table.getD (s.retirePage n p).flt.retiring [] m = Table.getD s.flt.retiring [] m
      ∧ (s.retirePage n p).engMap = s.engMap ∧ (s.retirePage n p).insts = s.insts := by
  unfold State.retirePage
  dsimp only
  split
  · exact ⟨rfl, rfl, rfl, rfl⟩
  · split
    · obtain ⟨net, hpost⟩ := s.postFree_frame (572 + 8 * n + 6) 0 2
      rw [hpost]
      exact ⟨rfl, rfl, rfl, rfl⟩
    · exact ⟨rfl, Table.getD_put_other _ _ _ _ _ h, rfl, rfl⟩

theorem doRetireEnd_none {l : List Nat} (h : Table.getD s.flt.retiring [] n = []) : doRetireEnd n l s = s := by
  simp only [doRetireEnd, h]

theorem doRetireEnd_retired {l rest done : List Nat} {t : State} (h : Table.getD s.flt.retiring [] n = p :: rest)
    (ht : t = l.foldl (fun s b => s.poison (64 * p + b % 64)) s) (hd : done = Table.getD t.flt.retired [] n ++ [p]) :
    doRetireEnd n l s = (({ t with flt := { t.flt with retired := Table.put t.flt.retired n done
                                                       retiring := Table.put t.flt.retiring n rest } } : State).put (Reg.hbmRetire n)
      Fld.hbmRetireBusy (b2n (!rest.isEmpty))).put (Reg.hbmRetire n) Fld.hbmRetireUsed done.length := by
  simp only [doRetireEnd, h, ← ht, ← hd]

end Pages

/-- Settles O56, from what each repair does, and what a replacement and a retirement leave. -/
theorem repairs : Obligations.Repairs := by
  intro s hpow
  have drain {k : Fin 18} {t} : doDrain k s = t → Does (.drain k) s t := does_of hpow (exec_drain k s)
  have waitEnd {t} : doDrainWaitEnd s = t → Does .drainWaitEnd s t := does_of hpow (exec_drainWaitEnd s)
  have drained {t} : doDrained s = t → Does .drained s t := does_of hpow (exec_drained s)
  have clear {t} : doDrainClear s = t → Does .drainClear s t := does_of hpow (exec_drainClear s)
  have spare {v t} : doSpareGo v s = t → Does (.spareGo v) s t := does_of hpow (exec_spareGo v s)
  have retire {n : Fin 4} {p : BitVec 25} {t} : doRetire n p.toNat s = t → Does (.retire n p) s t := does_of hpow (exec_retire n p s)
  have retireEnd {n : Fin 4} {l t} : doRetireEnd n l s = t → Does (.retireEnd n l) s t := does_of hpow (exec_retireEnd n l s)
  refine ⟨fun k t u ht hu => ⟨fun h => ?_, fun h hk => ?_⟩, fun h => ⟨?_, ?_, ?_⟩,
    fun h => ⟨fun hw => ⟨?_, ?_⟩, fun hw => ⟨?_, ?_, ?_⟩, ?_⟩, fun v => ⟨?_, fun t hb ht => ⟨?_, ?_, ?_⟩⟩, ?_, ?_, ?_,
    fun n p => ⟨?_, ?_⟩, fun n l => ⟨?_, ?_⟩⟩
  · refine drain ((doDrain_eq ht hu).trans (if_neg ?_))
    rcases h with h | h
    · rw [h, Bool.false_and]
      decide
    · rw [h, bne_self_eq_false, Bool.and_false]
      decide
  · refine drain ((doDrain_eq ht hu).trans (if_pos ?_))
    rw [h, Bool.true_and, bne_iff_ne]
    exact hk
  · exact waitEnd (doDrainWaitEnd_noDrain h)
  · exact drained (doDrained_noDrain h)
  · exact clear (doDrainClear_noDrain h)
  · exact drained (doDrained_waiting h hw)
  · exact waitEnd (doDrainWaitEnd_waiting h hw)
  · exact waitEnd (doDrainWaitEnd_over h hw)
  · exact fun he => drained (doDrained_empty h hw he)
  · exact fun he => drained (doDrained_full h hw he)
  · exact fun t ht => clear (doDrainClear_draining h ht)
  · exact fun h => spare (if_pos h)
  · exact fun hup => spare (doSpareGo_noCore hb ht hup)
  · exact fun hup h => spare (doSpareGo_noUnit hb ht hup h)
  · exact fun hup hs hk => spare (doSpareGo_starts hb ht hup hs hk)
  · exact does_of hpow (exec_spareEnd s) rfl
  · exact fun kind u old h hlo hhi hu => State.finishSpare_keeps h hlo hhi hu
  · exact fun n m p h => State.retirePage_keeps (Fin.val_ne_of_ne h)
  · exact fun hs => retire (State.ifStructured_not hs)
  · exact fun hs => retire (State.ifStructured_of hs)
  · exact fun h => retireEnd (doRetireEnd_none h)
  · exact fun p rest done t h ht hd => retireEnd (doRetireEnd_retired h ht hd)

end Sys2Proof.Machine

end


section
/-! # Control pairs received on a link, INIT and the timers of a link (R119 to R140) -/

namespace Sys2Proof.Machine

/-! ## The link that a write names -/

theorem Table.put_put {α : Type} (t : Table α) (k : Nat) (v w : α) : Table.put (Table.put t k v) k w = Table.put t k w := by
  induction t with
  | nil => simp only [Table.put, lt_irrefl, if_false, if_true]
  | cons e t ih =>
    obtain ⟨j, x⟩ := e
    simp only [Table.put]
    split
    · simp only [Table.put, lt_irrefl, if_false, if_true]
    · split
      · simp only [Table.put, lt_irrefl, if_false, if_true]
      · rename_i hlt hne
        simp only [Table.put, if_neg hlt, if_neg hne, ih]

theorem State.setLink_setLink (s : State) (p : Nat) (x y : LinkSt) : (s.setLink p x).setLink p y = s.setLink p y := by
  simp only [State.setLink, Table.put_put]

@[simp] theorem State.finish_link (s t : State) (p : Nat) : (s.finish t).link p = t.link p := rfl

/-- The sum of what the records of a SEAL count. -/
theorem foldl_add_eq_sum {α : Type} (f : α → Nat) (l : List α) : l.foldl (fun n x => n + f x) 0 = (l.map f).sum := by
  rw [List.sum_eq_foldl, List.foldl_map]

/-! ## The acknowledgement that a pair carries -/

section Acks
variable {s u : State} {p a : Nat}

theorem State.onLink_stopped (h : s.linkRuns p = false) (f : State → State) : s.onLink p f = s.ctlBad p := by
  simp only [State.onLink, h, Bool.false_eq_true, if_false]

theorem State.onLink_runs (h : s.linkRuns p = true) (f : State → State) : s.onLink p f = f s := if_pos h

theorem State.withAck_neverSent (h : (s.link p).neverSent a = true) (f : State → State) : s.withAck p a f = s.protocolError p := by
  have hnone : s.takeAck p a = none := by
    unfold State.takeAck
    exact if_pos h
  unfold State.withAck
  rw [hnone]

/-- The acknowledgement has moved the replay store of a port on, and left everything else. -/
theorem State.withAck_taken (h : (s.link p).neverSent a = false)
    (hu : u = if laterMod 16 a (s.link p).lastAck = true then s.setLink p ((s.link p).retain a) else s) (f : State → State) :
    s.withAck p a f = f u := by
  have htake : s.takeAck p a = some u := by
    unfold State.takeAck
    refine (if_neg (by rw [h]; decide)).trans ?_
    rw [hu, apply_ite some]
  unfold State.withAck
  rw [htake]

theorem acked_linkErr (hu : u = if laterMod 16 a (s.link p).lastAck = true then s.setLink p ((s.link p).retain a) else s) (q : Nat) :
    u.linkErr q = s.linkErr q := by
  rw [hu]
  split <;> rfl

theorem acked_badFlit (hu : u = if laterMod 16 a (s.link p).lastAck = true then s.setLink p ((s.link p).retain a) else s) (q : Nat) :
    u.badFlit q = s.badFlit q := by
  rw [hu]
  split <;> rfl

end Acks

/-! ## SEAL -/

section Seals
variable {s u v : State} {p a k : Nat}

theorem doSeal_badBlock (h : s.linkRuns p = true) (hb : s.badBlock p k = true) (fl : List RxFlit) (rc : List SealRec) :
    doSeal p fl rc a k s = (s.setLink p { (s.link p) with sealLost := true }).bump (s.linkErr p) Fld.linkErrFrameBad rc.length :=
  (State.onLink_runs h _).trans (if_pos hb)

theorem doSeal_neverSent (h : s.linkRuns p = true) (hb : s.badBlock p k = false) (ha : (s.link p).neverSent a = true) (fl : List RxFlit)
    (rc : List SealRec) : doSeal p fl rc a k s = s.protocolError p :=
  (State.onLink_runs h _).trans ((if_neg (by rw [hb]; decide)).trans (State.withAck_neverSent ha _))

/-- The counts of a SEAL's records fit the frames that it closes. -/
def sealCounts (fl : List RxFlit) (rc : List SealRec) : Bool :=
  rc.foldl (fun n r => n + r.nflits.toNat) 0 == fl.length && rc.all (fun r => decide (1 ≤ r.nflits.toNat ∧ r.nflits.toNat ≤ 8))
    && decide (1 ≤ rc.length ∧ rc.length ≤ 3)

theorem sealCounts_bad {fl : List RxFlit} {rc : List SealRec} (h : rc = [] ∨ 3 < rc.length ∨ (∃ r ∈ rc, r.nflits.toNat = 0 ∨ 8 < r.nflits.toNat)
    ∨ (rc.map (fun r => r.nflits.toNat)).sum ≠ fl.length) : sealCounts fl rc = false := by
  rw [sealCounts, foldl_add_eq_sum]
  rcases h with rfl | h | ⟨r, hr, hn⟩ | h
  · simp
  · simp [Nat.not_le.mpr h]
  · have hall : rc.all (fun r => decide (1 ≤ r.nflits.toNat ∧ r.nflits.toNat ≤ 8)) = false := by
      rw [List.all_eq_false]
      refine ⟨r, hr, ?_⟩
      rw [decide_eq_true_eq]
      omega
    rw [hall, Bool.and_false, Bool.false_and]
  · rw [beq_false_of_ne h, Bool.false_and, Bool.false_and]

theorem sealCounts_single {fl : List RxFlit} {r : SealRec} (h : r.nflits.toNat = fl.length) (hlo : 1 ≤ fl.length) (hhi : fl.length ≤ 8) :
    sealCounts fl [r] = true := by
  simp [sealCounts, h, hlo, hhi]

section Acked
variable (h : s.linkRuns p = true) (hb : s.badBlock p k = false) (ha : (s.link p).neverSent a = false)
  (hu : u = if laterMod 16 a (s.link p).lastAck = true then s.setLink p ((s.link p).retain a) else s)
include h hb ha hu

theorem doSeal_acked (fl : List RxFlit) (rc : List SealRec) : doSeal p fl rc a k s =
    if !sealCounts fl rc then u.dropSeal p rc.length
    else match (u.setLink p ((u.link p).learn rc)).takeFrames p rc fl with
      | some t => t
      | none => u.protocolError p :=
  (State.onLink_runs h _).trans ((if_neg (by rw [hb]; decide)).trans (State.withAck_taken ha hu _))

theorem doSeal_badCount {fl : List RxFlit} {rc : List SealRec} (hbad : sealCounts fl rc = false) : doSeal p fl rc a k s =
    (u.setLink p { (u.link p) with sealLost := true }).bump (s.linkErr p) Fld.linkErrFrameBad rc.length := by
  rw [doSeal_acked h hb ha hu, hbad, if_pos (by decide), State.dropSeal, acked_linkErr hu]

/-- A SEAL of one record, by whether its frame came well. -/
theorem doSeal_single {fl : List RxFlit} {r : SealRec} {ok : Bool} (hn : r.nflits.toNat = fl.length) (hlo : 1 ≤ fl.length)
    (hhi : fl.length ≤ 8) (hv : v = u.setLink p ((u.link p).learn [r]))
    (hok : ok = (!(fl.any (fun x => s.badFlit p x))
      && frameCrc (fl.map (fun x => x.bytes)) r.seq.toNat r.hmap.toNat r.smap.toNat r.abort == r.crc.toNat)) :
    doSeal p fl [r] a k s = if ok then
      (v.acceptFrame p ⟨r.seq.toNat, fl.map (fun x => x.bytes), r.hmap.toNat, r.smap.toNat, r.abort, []⟩).getD (u.protocolError p)
    else v.bump (s.linkErr p) Fld.linkErrFrameBad 1 := by
  have hflit : v.badFlit p = s.badFlit p := by
    rw [hv, ← acked_badFlit hu]
    rfl
  have herr : v.linkErr p = s.linkErr p := by
    rw [hv, ← acked_linkErr hu]
    rfl
  rw [doSeal_acked h hb ha hu, sealCounts_single hn hlo hhi, if_neg (by decide), ← hv]
  simp only [State.takeFrames, hn, List.take_length, hflit, herr, ← hok]
  cases ok
  · simp only [Bool.false_eq_true, if_false]
  · simp only [if_true]
    cases v.acceptFrame p ⟨r.seq.toNat, fl.map (fun x => x.bytes), r.hmap.toNat, r.smap.toNat, r.abort, []⟩ <;> rfl

end Acked

/-- A frame whose number is an old one is discarded. -/
theorem State.acceptFrame_old {f : Frame} (hw : (v.link p).replayWait = none) (hne : f.seq ≠ (v.link p).nextExp)
    (hl : laterMod 16 f.seq (v.link p).nextExp = false) : v.acceptFrame p f = some v := by
  simp only [State.acceptFrame, hw, if_neg hne, hl, Bool.false_eq_true, if_false]

/-- The expected number, when it is neither held nor missing yet, is marked as missing by any later one. -/
theorem LinkSt.markMissing_marks {l : LinkSt} {n : Nat} (hw : l.replayWait = none) (hl : laterMod 16 n l.nextExp = true)
    (hlt : l.nextExp < 65536) (hr : ∀ e ∈ l.reorder, e.1.seq ≠ l.nextExp) :
    (l.markMissing n).missing.any (fun e => e.1 == l.nextExp) = true := by
  have hpos : 0 < subMod 16 n l.nextExp := by
    simp only [laterMod, decide_eq_true_eq] at hl
    exact hl.1
  have hheld : l.reorder.any (fun e => e.1.seq == l.nextExp) = false := by
    rw [List.any_eq_false]
    exact fun e he => by rw [beq_iff_eq]; exact hr e he
  simp only [LinkSt.markMissing, hw, Option.isSome_none, Bool.false_eq_true, if_false, List.any_append, Bool.or_eq_true]
  by_cases hm : l.missing.any (fun e => e.1 == l.nextExp) = true
  · exact .inl hm
  · refine .inr (List.any_eq_true.mpr ⟨(l.nextExp, 0), List.mem_map_of_mem (List.mem_filter.mpr ⟨?_, ?_⟩), beq_self_eq_true _⟩)
    · exact List.mem_map.mpr ⟨0, List.mem_range.mpr hpos, Nat.mod_eq_of_lt hlt⟩
    · rw [hheld, Bool.not_eq_true _ |>.mp hm]
      rfl

theorem LinkSt.markMissing_keeps (l : LinkSt) (n : Nat) : (l.markMissing n).nextExp = l.nextExp ∧ (l.markMissing n).reorder = l.reorder := by
  unfold LinkSt.markMissing
  dsimp only
  split <;> exact ⟨rfl, rfl⟩

/-- A frame after a gap waits in the reorder buffer, and the expected one is missing. -/
theorem State.acceptFrame_gap {f : Frame} (hw : (v.link p).replayWait = none) (hne : f.seq ≠ (v.link p).nextExp)
    (hl : laterMod 16 f.seq (v.link p).nextExp = true) (hroom : (v.link p).reorder.length < 64) (hlt : (v.link p).nextExp < 65536)
    (hr : ∀ e ∈ (v.link p).reorder, e.1.seq ≠ f.seq ∧ e.1.seq ≠ (v.link p).nextExp) :
    ∃ t, v.acceptFrame p f = some t ∧ (t.link p).nextExp = (v.link p).nextExp ∧ (t.link p).reorder = (v.link p).reorder ++ [(f, [])]
      ∧ (t.link p).missing.any (fun e => e.1 == (v.link p).nextExp) = true ∧ t.wait = v.wait ∧ t.out = v.out := by
  have hheld : (v.link p).reorder.any (fun e => e.1.seq == f.seq) = false := by
    rw [List.any_eq_false]
    exact fun e he => by rw [beq_iff_eq]; exact (hr e he).1
  obtain ⟨hexp, hreorder⟩ := (v.link p).markMissing_keeps f.seq
  have hmarks := LinkSt.markMissing_marks hw hl hlt fun e he => (hr e he).2
  simp only [State.acceptFrame, hw, if_neg hne, hl, hheld, Nat.not_le.mpr hroom, Bool.false_eq_true, if_false, if_true]
  refine ⟨_, rfl, ?_, ?_, ?_, rfl, rfl⟩
  · rw [State.link_setLink]
    exact hexp
  · rw [State.link_setLink]
    exact congrArg (· ++ [(f, [])]) hreorder
  · rw [State.link_setLink, List.any_filter]
    obtain ⟨e, he, hnum⟩ := List.any_eq_true.mp hmarks
    refine List.any_eq_true.mpr ⟨e, he, ?_⟩
    rw [hnum, Bool.and_true, bne_iff_ne, beq_iff_eq.mp hnum]
    exact fun hc => hne hc.symm

end Seals

/-! ## NAK, REPLAY and KEEPALIVE -/

section Pairs
variable {s u : State} {p a : Nat}

theorem doNak_acked {ns : List Nat} (h : s.linkRuns p = true) (ha : (s.link p).neverSent a = false)
    (hu : u = if laterMod 16 a (s.link p).lastAck = true then s.setLink p ((s.link p).retain a) else s) :
    doNak p ns a s = if ns.any (fun n => (u.link p).neverSent n) then u.protocolError p
      else u.setLink p { (u.link p) with retxQ := (u.link p).retxQ ++ ns.flatMap (fun n =>
        if laterMod 16 n (u.link p).lastAck then ((u.link p).store.find? (fun f => f.seq == n)).toList else []) } := by
  have hlist : ns.filterMap (fun n => if laterMod 16 n (u.link p).lastAck then (u.link p).store.find? (fun f => f.seq == n) else none) =
      ns.flatMap (fun n => if laterMod 16 n (u.link p).lastAck then ((u.link p).store.find? (fun f => f.seq == n)).toList else []) := by
    rw [List.filterMap_eq_flatMap_toList]
    refine List.flatMap_congr fun n _ => ?_
    split <;> rfl
  rw [← hlist]
  exact (State.onLink_runs h _).trans (State.withAck_taken ha hu _)

theorem doReplay_acked {n : Nat} (h : s.linkRuns p = true) (ha : (s.link p).neverSent a = false)
    (hu : u = if laterMod 16 a (s.link p).lastAck = true then s.setLink p ((s.link p).retain a) else s) :
    doReplay p n a s = if (u.link p).neverSent n then u.protocolError p
      else u.setLink p { (u.link p) with
        retxQ := (if (u.link p).curRetx = [] then [] else (u.link p).retxQ.take 1)
          ++ (u.link p).store.filter (fun f => atOrAfterMod 16 f.seq n) } := by
  simp only [← List.isEmpty_iff]
  exact (State.onLink_runs h _).trans (State.withAck_taken ha hu _)

end Pairs

/-- Settles O20, from what each pair does once its acknowledgement is taken. -/
theorem linkPairs : Obligations.LinkPairs := by
  intro s p a k hpow
  have seals {fl rc t} : doSeal p fl rc a.toNat k s = t → Does (.seal p fl rc a k) s t := does_of hpow (exec_seal p fl rc a k s)
  have credit {rc t} : doCredit p rc a.toNat s = t → Does (.credit p rc a) s t := does_of hpow (exec_credit p rc a s)
  have nak {ns t} : doNak p (ns.map (fun n => n.toNat)) a.toNat s = t → Does (.nak p ns a) s t := does_of hpow (exec_nak p ns a s)
  have replay {n : BitVec 16} {t} : doReplay p n.toNat a.toNat s = t → Does (.replay p n a) s t := does_of hpow (exec_replay p n a s)
  have alive {n : BitVec 16} {e t} : doKeepalive p n.toNat a.toNat e s = t → Does (.keepalive p n a e) s t :=
    does_of hpow (exec_keepalive p n a e s)
  refine ⟨fun h => ⟨?_, ?_, ?_, ?_, ?_⟩, fun h => ⟨?_, fun ha => ⟨?_, ?_, ?_, ?_, ?_⟩, fun ha u hu => ⟨?_, ?_, ?_, ?_, ?_, ?_⟩⟩⟩
  · exact fun fl rc => seals (State.onLink_stopped h _)
  · exact fun rc => credit (State.onLink_stopped h _)
  · exact fun ns => nak (State.onLink_stopped h _)
  · exact fun n => replay (State.onLink_stopped h _)
  · exact fun n e => alive (State.onLink_stopped h _)
  · exact fun hb fl rc => seals (doSeal_badBlock h hb fl rc)
  · exact fun hb fl rc => seals (doSeal_neverSent h hb ha fl rc)
  · exact fun rc => credit ((State.onLink_runs h _).trans (State.withAck_neverSent ha _))
  · exact fun ns => nak ((State.onLink_runs h _).trans (State.withAck_neverSent ha _))
  · exact fun n => replay ((State.onLink_runs h _).trans (State.withAck_neverSent ha _))
  · exact fun n e => alive ((State.onLink_runs h _).trans (State.withAck_neverSent ha _))
  · exact fun hb fl rc hbad => seals (doSeal_badCount h hb ha hu (sealCounts_bad hbad))
  · intro hb fl r v ok hn hlo hhi hv hok
    have hseal := doSeal_single h hb ha hu hn hlo hhi hv hok
    refine ⟨fun hbad => ?_, fun hgood => ?_, fun hgood hw hne hl => ?_, fun hgood hw hne hl hroom hlt hr => ?_⟩
    · exact seals (hseal.trans (if_neg (by rw [hbad]; decide)))
    · exact seals (hseal.trans (if_pos hgood))
    · refine seals ((hseal.trans (if_pos hgood)).trans ?_)
      rw [State.acceptFrame_old hw hne hl, Option.getD_some]
    · obtain ⟨t, hacc, hfacts⟩ := State.acceptFrame_gap
        (f := ⟨r.seq.toNat, fl.map (fun x => x.bytes), r.hmap.toNat, r.smap.toNat, r.abort, []⟩) hw hne hl hroom hlt hr
      refine yields_of hpow (exec_seal p fl [r] a k s) ?_
      rw [hseal, if_pos hgood, hacc, Option.getD_some]
      simpa only [State.finish_link, State.finish_wait, State.finish_out] using hfacts
  · exact fun rc => credit ((State.onLink_runs h _).trans (State.withAck_taken ha hu _))
  · intro ns
    have hany : (ns.map (fun n => n.toNat)).any (fun n => (u.link p).neverSent n) = ns.any (fun n => (u.link p).neverSent n.toNat) := by
      simp only [List.any_map, Function.comp_def]
    exact ⟨fun hn => nak ((doNak_acked h ha hu).trans (if_pos (hany.trans hn))),
      fun hn => nak ((doNak_acked h ha hu).trans (if_neg (by rw [hany, hn]; decide)))⟩
  · exact fun n => ⟨fun hn => replay ((doReplay_acked h ha hu).trans (if_pos hn)),
      fun hn => replay ((doReplay_acked h ha hu).trans (if_neg (Bool.not_eq_true _ ▸ hn)))⟩
  · exact fun n e => alive ((State.onLink_runs h _).trans (State.withAck_taken ha hu _))

/-! ## INIT -/

section Inits
variable {s u : State} {p sh cap nx : Nat} {res : List Nat}

theorem doInit_first (h : s.linkRuns p = true) :
    doInit p 0 res sh cap nx s = s.setLink p { (s.link p) with initIn0 := some (res, sh, cap, nx), initIn1 := none } :=
  State.onLink_runs h _

theorem doInit_alone (h : s.linkRuns p = true) (h0 : (s.link p).initIn0 = none) :
    doInit p 1 res sh cap nx s = s.setLink p { (s.link p) with initIn1 := some (res, sh, cap, nx) } := by
  refine (State.onLink_runs h _).trans ?_
  simp only [one_ne_zero, if_false, h0]

/-- The second part with the first: the pair fits the carving, or is an error. -/
theorem doInit_pair {x : List Nat × Nat × Nat × Nat} (h : s.linkRuns p = true) (h0 : (s.link p).initIn0 = some x)
    (hu : u = (s.setLink p { (s.link p) with initIn0 := none, initIn1 := none }).sendCtl p (.initAck 3)) :
    doInit p 1 res sh cap nx s = if s.initFits p (x.1 ++ res) sh then
      (if (s.link p).firstSent then u else u.adopt p (x.1 ++ res) sh cap nx)
    else (s.setLink p { (s.link p) with initIn1 := some (res, sh, cap, nx) }).protocolError p := by
  obtain ⟨r0, y⟩ := x
  have hfits : ∀ l : LinkSt, (s.setLink p l).initFits p (r0 ++ res) sh = s.initFits p (r0 ++ res) sh := fun l => rfl
  refine (State.onLink_runs h _).trans ?_
  simp only [one_ne_zero, if_false, h0, hfits, State.setLink_setLink, ← hu]
  cases s.initFits p (r0 ++ res) sh <;> rfl

theorem State.initFits_iff {all : List Nat} :
    s.initFits p all sh = true ↔ (∀ vc, vc < 24 → all.getD vc 0 ≤ s.reserve p vc) ∧ sh ≤ s.sharedPool p := by
  simp only [State.initFits, Bool.and_eq_true, List.all_eq_true, List.mem_range, decide_eq_true_eq]

theorem State.initFits_not {all : List Nat} (h : (∃ vc, vc < 24 ∧ s.reserve p vc < all.getD vc 0) ∨ s.sharedPool p < sh) :
    s.initFits p all sh = false := by
  rw [← Bool.not_eq_true, State.initFits_iff]
  rintro ⟨hres, hsh⟩
  rcases h with ⟨vc, hvc, hlt⟩ | hlt
  · exact Nat.not_le.mpr hlt (hres vc hvc)
  · exact Nat.not_le.mpr hlt hsh

end Inits

/-! ## Timers -/

section Timers
variable {s : State} {p : Nat}

theorem doNakTimeout_missing {n : Nat} {x : Nat × Nat} (h : (s.link p).missing.find? (fun e => e.1 == n) = some x) :
    doNakTimeout p n s = if 4 ≤ x.2 then s.setLink p { (s.link p) with replayDue := some (s.link p).nextExp }
      else if (s.link p).nakDue.contains n then s else s.setLink p { (s.link p) with nakDue := (s.link p).nakDue ++ [n] } := by
  obtain ⟨m, c⟩ := x
  simp only [doNakTimeout, h]
  by_cases hc : 4 ≤ c
  · rw [if_neg (Nat.not_lt.mpr hc), if_pos hc]
  · rw [if_pos (Nat.not_le.mp hc), if_neg hc]

theorem doReplayTimeout_waiting {n : Nat} (h : (s.link p).replayWait = some n) :
    doReplayTimeout p s = if (s.link p).replays < 4 then s.setLink p { (s.link p) with replayDue := some n } else s := by
  simp only [doReplayTimeout, h]

theorem doQuietMoment_window (hst : s.lstate p = 2) (hs : (s.link p).store = []) (ht : (s.link p).txPkts = [])
    (he : (s.link p).peerEmpty = true) : (doQuietMoment p s).get (s.linkStat p) Fld.linkStatWindow = (s.link p).window % 2 ^ 16 := by
  have hgate : ¬ (s.lstate p ≠ 2 ∨ (!(s.link p).store.isEmpty) = true ∨ (!(s.link p).txPkts.isEmpty) = true ∨ (!(s.link p).peerEmpty) = true) := by
    rw [hst, hs, ht, he]
    decide
  obtain ⟨t, hput⟩ : ∃ t, t = (s.put (s.linkStat p) Fld.linkStatWindow (s.link p).window).put (s.linkStat p) Fld.linkStatLossPct
    ((5120 - (s.link p).window) * 100 / 5120) := ⟨_, rfl⟩
  have hwin : t.get (s.linkStat p) Fld.linkStatWindow = (s.link p).window % 2 ^ 16 := by
    rw [hput, State.get_put_apart _ _ _ _ _ (by decide) (by decide), State.get_put _ _ _ _ (by decide)]
    rfl
  simp only [doQuietMoment, if_neg hgate, ← hput]
  split
  · rw [State.get_put_apart _ _ _ _ _ (by decide) (by decide), hwin]
  · exact hwin

theorem leakRetrain_pending (h : s.linkRuns p = true) (hp : s.flag (s.linkStat p) Fld.linkStatLeakPending = true)
    (he : s.flag (s.linkCtrl p) Fld.linkCtrlLeakEn = true) :
    leakRetrain p s = ((s.bump (s.linkErr p) Fld.linkErrLeakRetrain 1).noticePort p).askRetrain p := if_pos ⟨h, hp, he⟩

end Timers

/-- Settles O21, from what INIT and each timer of a link does. -/
theorem linkTimers : Obligations.LinkTimers := by
  intro s p hpow
  have init {part : Fin 2} {res sh cap} {n : BitVec 16} {t} : doInit p part res sh cap n.toNat s = t → Does (.init p part res sh cap n) s t :=
    does_of hpow (exec_init p part res sh cap n s)
  have nak {n : BitVec 16} {t} : doNakTimeout p n.toNat s = t → Does (.nakTimeout p n) s t := does_of hpow (exec_nakTimeout p n s)
  have leakIdle {t} : leakRetrain p s = t → Does (.leakIdle p) s t := does_of hpow (exec_leakIdle p s)
  have leakForce {t} : leakRetrain p s = t → Does (.leakForce p) s t := does_of hpow (exec_leakForce p s)
  refine ⟨?_, ?_, ?_, ?_, ?_, ?_, ?_, ?_, ?_, ?_, ?_, ?_, ?_, ?_, ?_, ?_, ?_⟩
  · exact fun part res sh cap n h => init (State.onLink_stopped h _)
  · exact fun res sh cap n h => init (doInit_first h)
  · exact fun res sh cap n h h0 => init (doInit_alone h h0)
  · intro res sh cap n x u h h0 hu
    exact ⟨fun hbad => init ((doInit_pair h h0 hu).trans (if_neg (by rw [State.initFits_not hbad]; decide))),
      fun hres hsh => init ((doInit_pair h h0 hu).trans (if_pos (State.initFits_iff.mpr ⟨hres, hsh⟩)))⟩
  · exact fun b => does_of hpow (exec_initAck p b s) rfl
  · exact does_of hpow (exec_initRepeat p s) rfl
  · exact does_of hpow (exec_initTimeout p s) rfl
  · exact does_of hpow (exec_keepaliveTimer p s) rfl
  · exact does_of hpow (exec_creditDue p s) rfl
  · exact fun n x h => nak (doNakTimeout_missing h)
  · exact fun n h => does_of hpow (exec_replayTimeout p s) (doReplayTimeout_waiting h)
  · exact does_of hpow (exec_replayEscalation p s) rfl
  · exact does_of hpow (exec_linkDownTimeout p s) rfl
  · intro hst hs ht he
    refine yields_of hpow (exec_quietMoment p s) ?_
    rw [State.finish_get]
    exact doQuietMoment_window hst hs ht he
  · exact leakIdle rfl
  · exact leakForce rfl
  · exact fun h hp he => ⟨leakIdle (leakRetrain_pending h hp he), leakForce (leakRetrain_pending h hp he)⟩

end Sys2Proof.Machine

end


section
/-! # Beacons, the group table, and directed discovery (R196 to R214) -/

namespace Sys2Proof.Machine

/-! ## Beacons and the group table's banks -/

section Routes
variable {s : State} {p : Nat}

theorem doRouteHop_unrouted {w : WaitPkt} (h : s.wait.find? (fun w => w.unrouted p) = some w) : doRouteHop p s = s.forward p w := by
  simp only [doRouteHop, h]

theorem doRouteHop_none (h : s.wait.find? (fun w => w.unrouted p) = none) :
    doRouteHop p s = s.rerouteWaiting (fun w => w.inPort == some p && w.held) := by
  simp only [doRouteHop, h]

/-- A pick among ports moves the round-robin place on, and nothing else. -/
theorem State.pickPort_frame (s : State) (key : Nat) (l : List Nat) :
    ∃ r, (s.pickPort key l).2 = { s with route := { s.route with rr := r } } := by
  unfold State.pickPort
  dsimp only
  split
  · exact ⟨s.route.rr, rfl⟩
  · exact ⟨s.route.rr, rfl⟩
  · exact ⟨_, rfl⟩

/-- The packets that wait at `s` still wait at `t`, and the beacons' number is the same. -/
structure Waits (s t : State) : Prop where
  bseq : t.route.bseq = s.route.bseq
  wait : ∀ w ∈ s.wait, w ∈ t.wait

theorem Waits.refl (s : State) : Waits s s := ⟨rfl, fun _ h => h⟩

theorem Waits.pickPort {s t : State} (h : Waits s t) (key : Nat) (l : List Nat) : Waits s (t.pickPort key l).2 := by
  obtain ⟨r, hr⟩ := t.pickPort_frame key l
  rw [hr]
  exact ⟨h.bseq, h.wait⟩

theorem Waits.addFromHub {s t : State} (h : Waits s t) (hub : Nat) (pk : Packet) (o : Option Nat) : Waits s (t.addFromHub hub pk o).2 :=
  ⟨h.bseq, fun w hw => List.mem_append_left _ (h.wait w hw)⟩

/-- A period's beacons are sent beside what waits. -/
theorem doBeaconPeriod_sends (h : s.enabled = true) : (doBeaconPeriod s).route.bseq = (s.route.bseq + 1) % 256
    ∧ ∀ w ∈ s.wait, ∃ x ∈ (doBeaconPeriod s).wait, x.id = w.id ∧ x.pkt = w.pkt := by
  obtain ⟨t, hsent, hwaits⟩ : ∃ t, doBeaconPeriod s = { t with route := { t.route with bseq := (t.route.bseq + 1) % 256 } } ∧ Waits s t := by
    refine ⟨_, if_neg (by rw [h]; decide), ?_⟩
    refine foldl_keeps (Waits s) _ _ _ (Waits.refl s) fun t i _ ht => ?_
    have hpick := ht.pickPort 36 (t.peerPorts i)
    revert hpick
    generalize t.pickPort 36 (t.peerPorts i) = x
    intro hpick
    obtain ⟨_ | q, v⟩ := x
    · exact hpick
    · exact hpick.addFromHub _ _ _
  rw [hsent]
  exact ⟨congrArg (fun n => (n + 1) % 256) hwaits.bseq, fun w hw => ⟨w, hwaits.wait w hw, rfl, rfl⟩⟩

theorem doBeacon_peer {b : BeaconRec} {u : State} {i : Nat} (hu : u = s.consumeOp p opBeacon) (hi : u.peerIndex p = some i)
    (hp : u.portActive p = true) :
    doBeacon p b s = { u with route := { u.route with beacons := Table.put u.route.beacons i ⟨some b, true⟩ } } := by
  simp only [doBeacon, ← hu, hi, hp, if_true]

theorem doBeacon_not {b : BeaconRec} {u : State} (hu : u = s.consumeOp p opBeacon)
    (h : u.peerIndex p = none ∨ u.portActive p = false) : doBeacon p b s = u := by
  simp only [doBeacon, ← hu]
  split
  · rename_i i hi
    rw [hi] at h
    exact if_neg (by rw [h.resolve_left (Option.some_ne_none i)]; decide)
  · rfl

section Banks
variable (hs : s.structured = true)
include hs

theorem doRouteCommit_refused (h : s.flag Reg.routeBank Fld.routeBankBusy = true
    ∨ s.changedSince (s.get Reg.routeBank Fld.routeBankShadowEpoch) = true) : doRouteCommit s =
    ((s.put Reg.routeBank Fld.routeBankCommitErr 1).bump Reg.routeStat Fld.routeStatCommitRefused 1).notice 59 Reg.routeBank :=
  (State.ifStructured_of hs).trans (if_pos (Bool.or_eq_true _ _ ▸ h))

theorem doRouteCommit_begins (hb : s.flag Reg.routeBank Fld.routeBankBusy = false)
    (hc : s.changedSince (s.get Reg.routeBank Fld.routeBankShadowEpoch) = false) : doRouteCommit s =
    { s.put Reg.routeBank Fld.routeBankBusy 1 with route := { s.route with bankOp := .swap } } :=
  (State.ifStructured_of hs).trans (if_neg (by rw [hb, hc]; decide))

theorem doRouteCopy_begins (hb : s.flag Reg.routeBank Fld.routeBankBusy = false) : doRouteCopy s =
    { s.put Reg.routeBank Fld.routeBankBusy 1 with route := { s.route with bankOp := .copy } } :=
  (State.ifStructured_of hs).trans (if_neg (by rw [hb]; decide))

theorem doRouteCopy_busy (hb : s.flag Reg.routeBank Fld.routeBankBusy = true) : doRouteCopy s = s :=
  (State.ifStructured_of hs).trans (if_pos hb)

end Banks

theorem doBankOpEnd_none (h : s.route.bankOp = .none) : doBankOpEnd s = s := by
  simp only [doBankOpEnd, h]

theorem doBankOpEnd_swap (h : s.route.bankOp = .swap) : doBankOpEnd s = (((({ s with route := { s.route with
    activeBank := s.route.shadowBank, shadowBank := s.route.activeBank, bankOp := .none } } : State).put Reg.routeBank Fld.routeBankActive
      (1 - s.get Reg.routeBank Fld.routeBankActive)).put Reg.routeBank Fld.routeBankBusy 0).rerouteWaiting WaitPkt.held) := by
  simp only [doBankOpEnd, h] <;> rfl

theorem doBankOpEnd_copy (h : s.route.bankOp = .copy) : doBankOpEnd s = ({ s with route := { s.route with
    shadowBank := s.route.activeBank, bankOp := .none } } : State).put Reg.routeBank Fld.routeBankBusy 0 := by
  simp only [doBankOpEnd, h]

end Routes

theorem State.flag_put_zero (s : State) (a : Nat) {f : Field} (hf : f.fits) : (s.put a f 0).flag a f = false := by
  rw [State.flag, State.get_put _ _ _ _ hf, Nat.zero_mod]
  rfl

/-- Settles O23, from what each event of routing and each command of the banks does. -/
theorem routeCommands : Obligations.RouteCommands := by
  intro s p hpow
  have hop {t} : doRouteHop p s = t → Does (.routeHop p) s t := does_of hpow (exec_routeHop p s)
  have beacon {b t} : doBeacon p b s = t → Does (.beacon p b) s t := does_of hpow (exec_beacon p b s)
  have commit {t} : doRouteCommit s = t → Does .routeCommit s t := does_of hpow (exec_routeCommit s)
  have copy {t} : doRouteCopy s = t → Does .routeCopy s t := does_of hpow (exec_routeCopy s)
  have bankEnd {t} : doBankOpEnd s = t → Does .bankOpEnd s t := does_of hpow (exec_bankOpEnd s)
  refine ⟨?_, ?_, ?_, ?_, ?_, ?_, ?_, ?_, ?_, ?_, ?_, ?_, ?_⟩
  · exact fun w h => hop (doRouteHop_unrouted h)
  · exact fun h => hop (doRouteHop_none h)
  · exact fun h => does_of hpow (exec_beaconPeriod s) (if_pos (by rw [h]; rfl))
  · intro h
    refine yields_of hpow (exec_beaconPeriod s) ?_
    simpa only [State.finish_route, State.finish_wait] using doBeaconPeriod_sends h
  · exact fun b u hu => ⟨fun i hi hp => beacon (doBeacon_peer hu hi hp), fun h => beacon (doBeacon_not hu h)⟩
  · exact fun i => does_of hpow (exec_beaconStale i s) rfl
  · exact fun off l => does_of hpow (exec_groupTableWrite off l s) rfl
  · exact fun hs => ⟨fun h => commit (doRouteCommit_refused hs h), fun hb hc => commit (doRouteCommit_begins hs hb hc),
      fun hb => copy (doRouteCopy_begins hs hb)⟩
  · exact fun hs => ⟨commit (State.ifStructured_not hs), copy (State.ifStructured_not hs)⟩
  · exact fun hb hs => copy (doRouteCopy_busy hs hb)
  · exact fun h => bankEnd (doBankOpEnd_none h)
  · exact fun h => bankEnd (doBankOpEnd_swap h)
  · intro h
    refine yields_of hpow (exec_bankOpEnd s) ?_
    rw [doBankOpEnd_copy h, State.finish_route, State.finish_flag]
    exact ⟨rfl, rfl, rfl, State.flag_put_zero _ _ (by decide)⟩

/-! ## Directed discovery -/

section Discovery
variable {s u : State} {p : Nat}

theorem State.raiseEpoch_cases (s : State) (e : Nat) : s.raiseEpoch e = s.put Reg.routeEpoch Fld.routeEpochCurEpoch e ∨ s.raiseEpoch e = s := by
  unfold State.raiseEpoch
  split
  · exact .inl rfl
  · exact .inr rfl

/-- Raising the epoch writes the epoch register alone. -/
theorem State.raiseEpoch_word (s : State) (e : Nat) {a : Nat} (h : a ≠ Reg.routeEpoch) : (s.raiseEpoch e).word a = s.word a := by
  rcases s.raiseEpoch_cases e with he | he <;> rw [he]
  exact State.word_put_other _ _ _ _ _ h

theorem State.raiseEpoch_fid (s : State) (e : Nat) : (s.raiseEpoch e).fid = s.fid := by
  rcases s.raiseEpoch_cases e with he | he <;> rw [he]
  rfl

/-- What `go` sends, or answers, along a path of ports that exist. -/
def State.discAlong (u : State) (fid e : Nat) (path : List Nat) : State :=
  match path with
  | [] => (u.discDone 0 u.discWords).clearChanged e
  | p :: rest =>
    if u.portActive p then
      ((u.put Reg.discCmd Fld.discCmdBusy 1).discSend p (.query ⟨BitVec.ofNat 18 fid,
        BitVec.ofNat 32 e, rest.map (fun n => BitVec.ofNat 8 n), []⟩)).2
    else u.discDone 2 []

section Go
variable {n : Nat} {path : List Nat} (hs : s.structured = true) (hu : u = s.raiseEpoch (s.get Reg.discCmd Fld.discCmdEpoch))
  (hn : n = s.get Reg.discCmd Fld.discCmdPathLen)
  (hpath : path = (List.range n).map (fun i => (s.word Reg.discPath).toNat / 2 ^ (8 * i) % 256))
include hs hu hn hpath

/-- What `go` does, in terms of the command's own length and path. -/
theorem doDiscGo_eq : doDiscGo s =
    if s.flag Reg.discCmd Fld.discCmdBusy then u
    else if 8 < n ∨ path.any (fun p => decide (144 ≤ p)) then u.discDone 3 []
    else u.discAlong s.fid (s.get Reg.discCmd Fld.discCmdEpoch) path := by
  have hget : ∀ f, u.get Reg.discCmd f = s.get Reg.discCmd f := fun f => by
    rw [State.get, hu, State.raiseEpoch_word _ _ (by decide), State.get]
  have hword : u.word Reg.discPath = s.word Reg.discPath := by rw [hu, State.raiseEpoch_word _ _ (by decide)]
  have hfid : u.fid = s.fid := by rw [hu, State.raiseEpoch_fid]
  have hbytes : path = (List.range n).map (fun i => bits (u.word Reg.discPath).toNat (8 * i + 7) (8 * i)) := by
    rw [hpath, hword]
    refine List.map_congr_left fun i _ => ?_
    rw [bits_eq, show 8 * i + 7 + 1 - 8 * i = 8 by omega]
    rfl
  have hbusy : u.flag Reg.discCmd Fld.discCmdBusy = s.flag Reg.discCmd Fld.discCmdBusy := by rw [State.flag, hget, State.flag]
  simp only [doDiscGo, State.ifStructured_of hs, ← hu, hbusy, ← hbytes, hget, ← hn, hfid]
  unfold State.discAlong
  clear hpath hbytes
  cases path <;> rfl

theorem doDiscGo_busy (hb : s.flag Reg.discCmd Fld.discCmdBusy = true) : doDiscGo s = u :=
  (doDiscGo_eq hs hu hn hpath).trans (if_pos hb)

variable (hb : s.flag Reg.discCmd Fld.discCmdBusy = false)
include hb

theorem doDiscGo_malformed (h : 8 < n ∨ ∃ x ∈ path, 144 ≤ x) : doDiscGo s = u.discDone 3 [] := by
  refine (doDiscGo_eq hs hu hn hpath).trans ((if_neg (by rw [hb]; decide)).trans (if_pos (h.imp_right ?_)))
  rintro ⟨x, hx, hlt⟩
  exact List.any_eq_true.mpr ⟨x, hx, decide_eq_true hlt⟩

theorem doDiscGo_here (h : n = 0) : doDiscGo s = (u.discDone 0 u.discWords).clearChanged (s.get Reg.discCmd Fld.discCmdEpoch) := by
  have hnil : path = [] := by
    rw [hpath, h]
    rfl
  rw [doDiscGo_eq hs hu hn hpath, hb, hnil, if_neg (by decide), if_neg (by rw [h]; decide)]
  rfl

theorem doDiscGo_port {x : Nat} {rest : List Nat} (hlen : n ≤ 8) (hx : path = x :: rest) (hports : ∀ y ∈ path, y < 144) : doDiscGo s =
    if u.portActive x then
      ((u.put Reg.discCmd Fld.discCmdBusy 1).discSend x (.query ⟨BitVec.ofNat 18 s.fid,
        BitVec.ofNat 32 (s.get Reg.discCmd Fld.discCmdEpoch), rest.map (fun n => BitVec.ofNat 8 n), []⟩)).2
    else u.discDone 2 [] := by
  have hok : ¬ (8 < n ∨ path.any (fun p => decide (144 ≤ p)) = true) := by
    rw [List.any_eq_true]
    rintro (hlt | ⟨y, hy, hbad⟩)
    · omega
    · exact Nat.not_le.mpr (hports y hy) (decide_eq_true_eq.mp hbad)
  rw [doDiscGo_eq hs hu hn hpath, hb, if_neg (by decide), if_neg hok, hx]
  rfl

end Go

section Query
variable {q : DiscQuery} {back : List Nat} (hu : u = (s.consumeOp p opDiscQ).raiseEpoch q.epoch.toNat)
  (hback : back = ((q.arrived ++ [BitVec.ofNat 8 p]).map (fun b => b.toNat)).reverse)
include hu hback

theorem doDiscQ_badPort {x : Byte} {rest : List Byte} (hq : q.path = x :: rest) (h : 144 ≤ x.toNat) :
    doDiscQ p q s = (u.sendAnswer back 3 []).2 := by
  simp only [doDiscQ, ← hu, ← hback, hq, if_pos h]

theorem doDiscQ_forwarded {x : Byte} {rest : List Byte} (hq : q.path = x :: rest) (h : x.toNat < 144) (hp : u.portActive x.toNat = true) :
    doDiscQ p q s = (u.discSend x.toNat (.query { q with path := rest, arrived := q.arrived ++ [BitVec.ofNat 8 p] })).2 := by
  simp only [doDiscQ, ← hu, ← hback, hq, if_neg (Nat.not_le.mpr h), hp, if_true]

theorem doDiscQ_portDown {x : Byte} {rest : List Byte} (hq : q.path = x :: rest) (h : x.toNat < 144) (hp : u.portActive x.toNat = false) :
    doDiscQ p q s = (u.sendAnswer back 2 []).2 := by
  simp only [doDiscQ, ← hu, ← hback, hq, if_neg (Nat.not_le.mpr h), hp, Bool.false_eq_true, if_false]

theorem doDiscQ_placed {t : State} (hq : q.path = []) (h : u.sendAnswer back 0 u.discWords = (true, t)) :
    doDiscQ p q s = t.clearChanged q.epoch.toNat := by
  simp only [doDiscQ, ← hu, ← hback, hq, h]

theorem doDiscQ_dropped {t : State} (hq : q.path = []) (h : u.sendAnswer back 0 u.discWords = (false, t)) : doDiscQ p q s = t := by
  simp only [doDiscQ, ← hu, ← hback, hq, h]

end Query

theorem doDiscA_here {a : DiscAnswer} (hu : u = s.consumeOp p opDiscA) (h : a.back = []) :
    doDiscA p a s = if u.flag Reg.discCmd Fld.discCmdBusy then u.discDone a.status.toNat a.words else u := by
  simp only [doDiscA, ← hu, h]

theorem doDiscA_back {a : DiscAnswer} (hu : u = s.consumeOp p opDiscA) (h : a.back ≠ []) :
    doDiscA p a s = (u.sendAnswer (a.back.map (fun n => n.toNat)) a.status.toNat a.words).2 := by
  simp only [doDiscA, ← hu]

theorem State.discSend_full {x : Nat} {m : DiscMsg} (h : 16 ≤ s.discHeld.length) : s.discSend x m = (false, s) := if_pos h

theorem State.discSend_placed {x : Nat} {m : DiscMsg} (h : s.discHeld.length < 16) : (s.discSend x m).1 = true
    ∧ ∃ w : WaitPkt, w.pkt = s.discPkt m ∧ w ∈ (s.discSend x m).2.wait ∧ (s.discSend x m).2.route.disc = s.discHeld ++ [⟨w.id, x, m⟩] := by
  have hsend : s.discSend x m = (true, { (s.addFromHub 0 (s.discPkt m) (some x)).2 with
      route := { s.route with disc := s.discHeld ++ [⟨(s.addFromHub 0 (s.discPkt m) (some x)).1.id, x, m⟩] } }) :=
    if_neg (Nat.not_le.mpr h)
  rw [hsend]
  exact ⟨rfl, (s.addFromHub 0 (s.discPkt m) (some x)).1, rfl, List.mem_append_right _ (List.mem_singleton_self _), rfl⟩

theorem State.sendAnswer_portDown {x n : Nat} {rest : List Nat} {l : List Word} (h : s.portActive x = false) :
    s.sendAnswer (x :: rest) n l = (false, s) := if_neg (by rw [h]; decide)

theorem State.sendAnswer_port {x n : Nat} {rest : List Nat} {l : List Word} (h : s.portActive x = true) : s.sendAnswer (x :: rest) n l =
    s.discSend x (.answer ⟨rest.map (fun n => BitVec.ofNat 8 n), BitVec.ofNat 4 n, l⟩) := if_pos h

/-- A discovery that ends without an answer shows its status and is over. -/
theorem State.discDone_status {n : Nat} (h : n ≠ 0) (l : List Word) :
    (s.discDone n l).get Reg.discCmd Fld.discCmdStatus = n % 2 ^ Fld.discCmdStatus.width
      ∧ (s.discDone n l).flag Reg.discCmd Fld.discCmdBusy = false := by
  have hdone : s.discDone n l = (s.put Reg.discCmd Fld.discCmdStatus n).put Reg.discCmd Fld.discCmdBusy 0 := by
    simp only [State.discDone, if_neg h]
  rw [hdone, State.get_put_apart _ _ _ _ _ (by decide) (by decide), State.get_put _ _ _ _ (by decide)]
  exact ⟨rfl, State.flag_put_zero _ _ (by decide)⟩

end Discovery

/-- Settles O24, from what `go`, each query, each answer and the timeout do. -/
theorem discoveryCommands : Obligations.DiscoveryCommands := by
  intro s p hpow
  have go {t} : doDiscGo s = t → Does .discGo s t := does_of hpow (exec_discGo s)
  have query {q t} : doDiscQ p q s = t → Does (.discQ p q) s t := does_of hpow (exec_discQ p q s)
  have answer {a t} : doDiscA p a s = t → Does (.discA p a) s t := does_of hpow (exec_discA p a s)
  refine ⟨?_, fun u n path hs hu hn hpath => ⟨?_, fun hb => ⟨?_, ?_, fun x rest hlen hx hports => ?_⟩⟩,
    fun q u back hu hback => ⟨fun x rest hq => ⟨?_, ?_, ?_⟩, ?_, ?_⟩, fun a u hu => ⟨?_, ?_⟩, fun x m => ⟨?_, ?_⟩,
    fun x rest n l => ⟨?_, ?_⟩, fun h => ?_, fun h => ?_⟩
  · exact fun hs => go (State.ifStructured_not hs)
  · exact fun hb => go (doDiscGo_busy hs hu hn hpath hb)
  · exact fun h => go (doDiscGo_malformed hs hu hn hpath hb h)
  · exact fun h => go (doDiscGo_here hs hu hn hpath hb h)
  · have hport := doDiscGo_port hs hu hn hpath hb hlen hx hports
    exact ⟨fun hp => go (hport.trans (if_neg (by rw [hp]; decide))), fun hp => go (hport.trans (if_pos hp))⟩
  · exact fun h => query (doDiscQ_badPort hu hback hq h)
  · exact fun h hp => query (doDiscQ_forwarded hu hback hq h hp)
  · exact fun h hp => query (doDiscQ_portDown hu hback hq h hp)
  · exact fun t hq h => query (doDiscQ_placed hu hback hq h)
  · exact fun t hq h => query (doDiscQ_dropped hu hback hq h)
  · exact fun h => answer (doDiscA_here hu h)
  · exact fun h => answer (doDiscA_back hu h)
  · exact State.discSend_full
  · exact State.discSend_placed
  · exact State.sendAnswer_portDown
  · exact State.sendAnswer_port
  · refine yields_of hpow (exec_discTimeout s) ?_
    have hdone := s.discDone_status one_ne_zero []
    rw [show doDiscTimeout s = s.discDone 1 [] from if_pos h, State.finish_get, State.finish_flag]
    exact hdone
  · exact does_of hpow (exec_discTimeout s) (if_neg (by rw [h]; decide))

end Sys2Proof.Machine

end


section
/-! # Requests, grants and held packets at an output (R148 to R175) -/

namespace Sys2Proof.Machine

/-! ## Requests -/

section Requests
variable {s : State} {o ep cls : Nat}

theorem State.queueReq_now (s : State) (o : Nat) (e : ReqEntry) : (s.queueReq o e).now = s.now := by
  unfold State.queueReq
  dsimp only
  split
  · exact State.raise_now _ _ _ _
  · exact (State.count_queue_out_now _ _).2.2

theorem doRequest_nothing (h : s.contenders o ep (s.newTcs o ep cls) = 0 ∨ s.epFenced ep = true) : doRequest o ep cls s = s :=
  if_pos (by rw [Bool.or_eq_true, decide_eq_true_eq]; exact h)

section Taken
variable (hn : s.contenders o ep (s.newTcs o ep cls) ≠ 0) (hep : s.epFenced ep = false)
include hn hep

theorem doRequest_fencedOut (ho : s.epFenced (s.outEp o) = true) : doRequest o ep cls s = s.refuseTransfer o ep cls := by
  simp only [doRequest, hn, hep, ho, decide_false, Bool.or_self, Bool.false_eq_true, if_false, if_true]

variable (ho : s.epFenced (s.outEp o) = false)
include ho

theorem doRequest_updates (hq : (s.outp o).queue.any (fun q => q.ep == ep && q.cls == cls) = true) : doRequest o ep cls s =
    s.setOut o { (s.outp o) with queue := (s.outp o).queue.map (fun q => if q.ep = ep ∧ q.cls = cls then
      { q with tcs := (q.tcs ++ s.newTcs o ep cls).dedup, count := s.contenders o ep (q.tcs ++ s.newTcs o ep cls).dedup } else q) } := by
  simp only [doRequest, hn, hep, ho, hq, decide_false, Bool.or_self, Bool.false_eq_true, if_false, if_true]

section New
variable {e : ReqEntry} (he : e = ⟨ep, cls, s.contenders o ep (s.newTcs o ep cls), 0, 0, false, false, s.newTcs o ep cls⟩)
include he

theorem doRequest_atOnce (hq : (s.outp o).queue = []) (hg : (s.outp o).grants = []) (hp : (s.outp o).paused = false)
    (hc : s.carries o = true) : doRequest o ep cls s = s.grantAtOnce o e := by
  simp only [doRequest, hn, hep, ho, hq, hg, hp, hc, he, decide_false, Bool.or_self, Bool.false_eq_true, if_false, List.any_nil,
    List.isEmpty_nil, Bool.not_false, Bool.and_self, if_true]

theorem doRequest_waits (hq : (s.outp o).queue.any (fun q => q.ep == ep && q.cls == cls) = false)
    (hw : (s.outp o).queue ≠ [] ∨ (s.outp o).grants ≠ [] ∨ (s.outp o).paused = true ∨ s.carries o = false) : doRequest o ep cls s =
    if cls = 0 ∧ (s.outp o).grants.any (fun g => g.open_ s.now) then doOpportunity o (s.queueReq o e) else s.queueReq o e := by
  have hbusy : ((s.outp o).queue.isEmpty && (s.outp o).grants.isEmpty && !(s.outp o).paused && s.carries o) = false := by
    rcases hw with h | h | h | h
    · rw [List.isEmpty_eq_false_iff.mpr h, Bool.false_and, Bool.false_and, Bool.false_and]
    · rw [List.isEmpty_eq_false_iff.mpr h, Bool.and_false, Bool.false_and, Bool.false_and]
    · rw [h, Bool.not_true, Bool.and_false, Bool.false_and]
    · rw [h, Bool.and_false]
  simp only [doRequest, hn, hep, ho, hq, hbusy, decide_false, Bool.or_self, Bool.false_eq_true, if_false, ← he, Bool.and_eq_true,
    beq_iff_eq, State.queueReq_now]

end New

end Taken

/-- The entry that a new request makes is not one of the kept ones unless it takes such a place. -/
theorem OutSt.enter_common {x : OutSt} {e : ReqEntry} (hk : e.kept = false) (h : (x.queue.filter (fun q => !q.kept)).length < 28) :
    x.enter e = some { x with queue := x.queue ++ [e] } := by
  have he : { e with kept := false } = e := by
    rw [← hk]
  exact (if_pos h).trans (by rw [he])

theorem length_filter_not {α : Type} (p : α → Bool) (l : List α) : l.length - (l.filter (fun x => !p x)).length = (l.filter p).length := by
  have hsum := List.length_eq_length_filter_add (l := l) p
  omega

theorem OutSt.enter_kept {x : OutSt} {e : ReqEntry} (h : 28 ≤ (x.queue.filter (fun q => !q.kept)).length) (hc : e.cls = 0)
    (hroom : (x.queue.filter (fun q => q.kept)).length < 4) : x.enter e = some { x with queue := x.queue ++ [{ e with kept := true }] } := by
  refine (if_neg (Nat.not_lt.mpr h)).trans (if_pos ⟨hc, ?_⟩)
  rw [length_filter_not]
  exact hroom

theorem OutSt.enter_none {x : OutSt} {e : ReqEntry} (h : 28 ≤ (x.queue.filter (fun q => !q.kept)).length)
    (hfull : e.cls ≠ 0 ∨ 4 ≤ (x.queue.filter (fun q => q.kept)).length) : x.enter e = none := by
  refine (if_neg (Nat.not_lt.mpr h)).trans (if_neg ?_)
  rw [length_filter_not]
  rintro ⟨hc, hlt⟩
  rcases hfull with hne | hle
  · exact hne hc
  · exact Nat.not_le.mpr hlt hle

theorem State.queueReq_enters {e f : ReqEntry} (h : (s.outp o).enter e = some { (s.outp o) with queue := (s.outp o).queue ++ [f] }) :
    s.queueReq o e = (s.setOut o { (s.outp o) with queue := (s.outp o).queue ++ [f] }).raise (Reg.outHwm o) Fld.outHwmPendHwm
      ((s.outp o).queue.length + 1) := by
  simp only [State.queueReq, h, List.length_append, List.length_singleton]

theorem State.queueReq_refused {e : ReqEntry} (h : (s.outp o).enter e = none) : s.queueReq o e = ((s.setOut o { (s.outp o) with
    refusedReqs := (s.outp o).refusedReqs.filter (fun r => r != (e.ep, e.cls)) ++ [(e.ep, e.cls)] }).bump
      (Reg.outCnt1 o) Fld.outCnt1Refused 1).count ⟨0x202, some o, none, none, e.tcs.head?, none, 1⟩ := by
  simp only [State.queueReq, h]

theorem doRequestRetry_refused (h : (s.outp o).refusedReqs.contains (ep, cls) = true) : doRequestRetry o ep cls s =
    doRequest o ep cls (s.setOut o { (s.outp o) with refusedReqs := (s.outp o).refusedReqs.filter (fun r => r != (ep, cls)) }) := if_pos h

theorem doRequestRetry_not (h : (s.outp o).refusedReqs.contains (ep, cls) = false) : doRequestRetry o ep cls s = s := if_neg (by rw [h]; decide)

theorem doCountUpdate_eq : doCountUpdate o ep cls s = s.setOut o ({ (s.outp o) with
    queue := ((s.outp o).queue.map (fun e => if e.ep = ep ∧ e.cls = cls then { e with count := s.contenders o ep e.tcs } else e)).filter
      (fun e => !(e.ep == ep && e.cls == cls && e.count == 0)) } : OutSt).endWindow := by
  simp only [doCountUpdate, Bool.and_eq_true, beq_iff_eq]

end Requests

/-! ## Grant opportunities and pauses -/

section Grants
variable {s : State} {o : Nat}

theorem doOpportunity_not (h : (s.outp o).paused = true ∨ s.epFenced (s.outEp o) = true ∨ s.carries o = false) : doOpportunity o s = s := by
  refine if_pos ?_
  rw [Bool.or_eq_true, Bool.or_eq_true, Bool.not_eq_true', or_assoc]
  exact h

theorem doOpportunity_offers {l r : List ReqEntry} (hp : (s.outp o).paused = false) (hf : s.epFenced (s.outEp o) = false)
    (hc : s.carries o = true) (hl : l = (s.outp o).order ((s.outp o).ageIn (s.get Reg.arbQuota Fld.arbQuotaAge)))
    (hr : r = l.filter (fun x => s.canStart o x)) :
    doOpportunity o s = if r.isEmpty then s else s.offer o (r.length == l.length) r := by
  rw [hr, hl]
  exact if_neg (by rw [hp, hf, hc]; decide)

theorem State.offer_declined {all : Bool} {e : ReqEntry} {l : List ReqEntry} (h : s.handTo o e = none) :
    s.offer o all (e :: l) = (s.bump (Reg.outCnt1 o) Fld.outCnt1Declined 1).offer o all l := by
  rw [State.offer, h]

theorem State.offer_granted {all a : Bool} {e : ReqEntry} {l : List ReqEntry} {w : WaitPkt} {k : Nat} (h : s.handTo o e = some (w, k, a)) :
    s.offer o all (e :: l) = s.grant o e w k a := by
  rw [State.offer, h]

theorem doGrantEnd_none {lane : Nat} (h : (s.outp o).grants.find? (fun g => g.lane == lane && !g.interrupted && !g.wp.part) = none) :
    doGrantEnd o lane s = s := by
  simp only [doGrantEnd, h]

theorem doGrantEnd_ends {lane : Nat} {g : Grant} (h : (s.outp o).grants.find? (fun g => g.lane == lane && !g.interrupted && !g.wp.part) = some g) :
    doGrantEnd o lane s = (((s.setOut o { (s.outp o) with grants := (s.outp o).grants.filter (fun y => y.wp.id != g.wp.id) }).onGrants
      (fun _ y => y.release g.wp.id s.now)).deliverOut o g).endTurn o g.wp.ep g.cls := by
  simp only [doGrantEnd, h, State.closeGrant]

/-! ## Handshake timeouts -/

theorem Table.find_map {α β : Type} (f : Nat × α → β) (t : Table α) (k : Nat) :
    Table.find (t.map (fun e => (e.1, f e))) k = (Table.find t k).map (fun v => f (k, v)) := by
  induction t with
  | nil => rfl
  | cons e t ih =>
    obtain ⟨j, v⟩ := e
    simp only [List.map_cons, Table.find]
    split
    · rename_i h
      rw [h]
      rfl
    · exact ih

/-- What a change of every grant makes of one output. -/
theorem State.outp_onGrants (s : State) (f : Nat → Grant → Grant) (o : Nat) :
    (s.onGrants f).outp o = { s.outp o with grants := (s.outp o).grants.map (f o) } := by
  unfold State.onGrants State.outp Table.getD
  rw [Table.find_map]
  cases Table.find s.outs o <;> rfl

theorem Grant.release_wp (g : Grant) (id now : Nat) : (g.release id now).wp = g.wp := by
  unfold Grant.release
  split <;> rfl

theorem State.closeGrant_outp (s : State) (o : Nat) (g : Grant) : (s.closeGrant o g).outp o = { s.outp o with
    grants := ((s.outp o).grants.filter (fun y => y.wp.id != g.wp.id)).map (fun y => y.release g.wp.id s.now) } := by
  simp only [State.closeGrant, State.outp_onGrants, State.outp_setOut]

/-- A closed grant is no longer among the grants. -/
theorem State.closeGrant_grants (s : State) (o : Nat) (g : Grant) : ∀ x ∈ ((s.closeGrant o g).outp o).grants, x.wp.id ≠ g.wp.id := by
  rw [State.closeGrant_outp]
  intro x hx
  obtain ⟨y, hy, rfl⟩ := List.mem_map.mp hx
  rw [Grant.release_wp]
  exact bne_iff_ne.mp (List.mem_filter.mp hy).2

theorem OutSt.endWindow_keeps (x : OutSt) : x.endWindow.grants = x.grants ∧ x.endWindow.queue = x.queue := by
  unfold OutSt.endWindow
  split <;> exact ⟨rfl, rfl⟩

theorem State.post_outs (s : State) (src kind cls addr : Nat) : (s.post src kind cls addr).outs = s.outs
    ∧ (s.post src kind cls addr).wait = s.wait := by
  unfold State.post
  split <;> exact ⟨rfl, rfl⟩

theorem State.outp_of_outs {s t : State} (h : t.outs = s.outs) (o : Nat) : t.outp o = s.outp o := by
  unfold State.outp
  rw [h]

theorem doHandshakeTimeout_none {ep : Nat} (h : ∀ g ∈ (s.outp o).grants, g.wp.ep = ep → g.interrupted = true) :
    doHandshakeTimeout o ep s = (s.bump (Reg.outCnt1 o) Fld.outCnt1Declined 1).post (604 + ep / 2) 3 2 ep := by
  have hnone : (s.outp o).grants.find? (fun g => g.wp.ep == ep && !g.interrupted) = none := by
    rw [List.find?_eq_none]
    intro g hg
    rw [Bool.and_eq_true, beq_iff_eq, Bool.not_eq_true', Bool.eq_false_iff]
    exact fun ⟨he, hi⟩ => hi (h g hg he)
  simp only [doHandshakeTimeout, hnone]

theorem doHandshakeTimeout_takesBack {ep : Nat} {g : Grant} (h : (s.outp o).grants.find? (fun g => g.wp.ep == ep && !g.interrupted) = some g) :
    (∀ x ∈ ((doHandshakeTimeout o ep s).outp o).grants, x.wp.id ≠ g.wp.id)
    ∧ (∀ e ∈ ((doHandshakeTimeout o ep s).outp o).queue, ¬ (e.ep = ep ∧ e.cls = g.cls))
    ∧ (doHandshakeTimeout o ep s).wait = s.wait ++ (if g.wp.aborted then [] else [g.wp]) := by
  obtain ⟨t, ht⟩ : ∃ t, t = (s.closeGrant o g).bump (Reg.outCnt1 o) Fld.outCnt1Declined 1 := ⟨_, rfl⟩
  obtain ⟨x, hx⟩ : ∃ x, x = ({ t.outp o with queue := (t.outp o).queue.filter (fun e => !(e.ep == ep && e.cls == g.cls)) } : OutSt) := ⟨_, rfl⟩
  have hend : doHandshakeTimeout o ep s = ({ t.setOut o x.endWindow with
      wait := (t.setOut o x.endWindow).wait ++ (if g.wp.aborted then [] else [g.wp]) } : State).post (604 + ep / 2) 3 2 ep := by
    simp only [doHandshakeTimeout, h, ← ht, ← hx]
  have hgrants : (t.outp o).grants = ((s.closeGrant o g).outp o).grants := by
    rw [ht]
    rfl
  obtain ⟨hxg, hxq⟩ := x.endWindow_keeps
  obtain ⟨houts, hwait⟩ := State.post_outs ({ t.setOut o x.endWindow with
    wait := (t.setOut o x.endWindow).wait ++ (if g.wp.aborted then [] else [g.wp]) } : State) (604 + ep / 2) 3 2 ep
  have hout : ((doHandshakeTimeout o ep s).outp o) = x.endWindow := by
    rw [hend, State.outp_of_outs houts]
    exact State.outp_setOut t o x.endWindow
  rw [hout, hxg, hxq]
  refine ⟨?_, ?_, ?_⟩
  · have hsame : x.grants = ((s.closeGrant o g).outp o).grants := by rw [hx, ← hgrants]
    rw [hsame]
    exact s.closeGrant_grants o g
  · rw [hx]
    intro e he ⟨hep, hcls⟩
    have hne := (List.mem_filter.mp he).2
    rw [hep, hcls, beq_self_eq_true, beq_self_eq_true] at hne
    exact absurd hne (by decide)
  · rw [hend, hwait, ht]
    rfl

/-! ## Held packets and announced credits -/

theorem doGraceExpiry_none {id : Nat} (h : s.wait.find? (fun w => w.id == id && w.held) = none) : doGraceExpiry id s = s := by
  simp only [doGraceExpiry, h]

theorem doGraceExpiry_flushes {id q : Nat} {w : WaitPkt} (h : s.wait.find? (fun w => w.id == id && w.held) = some w)
    (hq : w.out = some q ∧ q < 144 ∨ w.out = none ∧ w.inPort = some q ∨ q = 0 ∧ w.out = none ∧ w.inPort = none) : doGraceExpiry id s =
    ((s.bump (s.linkErr2 q) Fld.linkErr2Flushed 1).count ⟨0x103, some q, none, none, some w.pkt.tc, none, 1⟩).dropWait w 1 := by
  rcases hq with ⟨ho, hlt⟩ | ⟨ho, hi⟩ | ⟨hq, ho, hi⟩
  · simp only [doGraceExpiry, h, ho, if_pos hlt]
  · simp only [doGraceExpiry, h, ho, hi, Option.getD_some]
  · simp only [doGraceExpiry, h, ho, hi, hq, Option.getD_none]

theorem doCreditAnnounce_credits (p vc : Nat) : (doCreditAnnounce p vc s).credits p vc =
    max (Table.getD (s.link p).reserveFree 0 vc - s.aside p vc false)
      (min ((s.link p).sharedFree - s.aside p 24 true) ((s.link p).peerCap - (Table.getD (s.link p).sharedHeld 0 vc + s.aside p vc true))) :=
  Table.getD_put_same _ _ _ _

end Grants

/-- Settles O22, from what each command at an output does. -/
theorem exchangeCommands : Obligations.ExchangeCommands := by
  intro s o ep cls hpow
  have request {t} : (doRequest o ep cls s).waveSettle = t → Does (.request o ep cls) s t := does_of hpow (exec_request o ep cls s)
  have retry {t} : (doRequestRetry o ep cls s).waveSettle = t → Does (.requestRetry o ep cls) s t :=
    does_of hpow (exec_requestRetry o ep cls s)
  have opportunity {t} : (doOpportunity o s).waveSettle = t → Does (.grantOpportunity o) s t := does_of hpow (exec_grantOpportunity o s)
  have pauseEnd {t} : (doPauseEnd o s).waveSettle = t → Does (.declinePauseEnd o) s t := does_of hpow (exec_declinePauseEnd o s)
  have grantEnd {lane : Fin 8} {t} : doGrantEnd o lane s = t → Does (.grantEnd o lane) s t := does_of hpow (exec_grantEnd o lane s)
  have grace {id t} : doGraceExpiry id s = t → Does (.graceExpiry id) s t := does_of hpow (exec_graceExpiry id s)
  refine ⟨fun n e hn he => ⟨?_, ?_, fun h0 hep ho => ⟨?_, ?_, ?_⟩, ?_, ?_, ?_⟩, ?_, ?_, ?_, ?_, fun l r hp hf hc hl hr => ⟨?_, ?_⟩,
    fun all e l => ⟨?_, ?_, ?_⟩, ?_, ?_, ?_, ?_, ?_, ?_, ?_, ?_, ?_⟩
  · rw [hn]
    exact fun h => request (congrArg State.waveSettle (doRequest_nothing h))
  · rw [hn]
    exact fun h0 hep ho => request (congrArg State.waveSettle (doRequest_fencedOut h0 hep ho))
  · rw [hn] at h0
    exact fun hq => request (congrArg State.waveSettle (doRequest_updates h0 hep ho hq))
  · rw [hn] at h0 he
    exact fun hq hg hp hc => request (congrArg State.waveSettle (doRequest_atOnce h0 hep ho he hq hg hp hc))
  · rw [hn] at h0 he
    intro hq hw
    refine request ((congrArg State.waveSettle (doRequest_waits h0 hep ho he hq hw)).trans ?_)
    rw [apply_ite State.waveSettle]
    exact if_congr (and_congr_left' (by rw [Fin.ext_iff]; rfl)) rfl rfl
  · exact fun h => State.queueReq_enters (OutSt.enter_common (by rw [he]) h)
  · intro h hc hroom
    refine State.queueReq_enters (OutSt.enter_kept h ?_ hroom)
    rw [he, hc]
    rfl
  · intro h hfull
    have href := State.queueReq_refused (s := s) (o := o) (OutSt.enter_none (e := e) h (hfull.imp_left fun hc => ?_))
    · rw [href, he]
    · rw [he]
      exact fun h0 => hc (Fin.ext h0)
  · exact fun h => retry (congrArg State.waveSettle (doRequestRetry_refused h))
  · exact fun h => retry (congrArg State.waveSettle (doRequestRetry_not h))
  · exact does_of hpow (exec_countUpdate o ep cls s) doCountUpdate_eq
  · exact fun h => opportunity (congrArg State.waveSettle (doOpportunity_not h))
  · rintro rfl
    exact opportunity (congrArg State.waveSettle ((doOpportunity_offers hp hf hc hl hr).trans rfl))
  · intro hne
    refine opportunity (congrArg State.waveSettle ((doOpportunity_offers hp hf hc hl hr).trans (if_neg ?_)))
    rw [List.isEmpty_iff]
    exact hne
  · rfl
  · exact State.offer_declined
  · exact fun w k a h => State.offer_granted h
  · exact fun h => pauseEnd (congrArg State.waveSettle (if_pos h))
  · exact fun h => pauseEnd (congrArg State.waveSettle (if_neg (by rw [h]; decide)))
  · exact fun lane h => grantEnd (doGrantEnd_none h)
  · exact fun lane g h => grantEnd (doGrantEnd_ends h)
  · exact fun h => does_of hpow (exec_handshakeTimeout o ep s) (doHandshakeTimeout_none h)
  · intro g h
    refine yields_of hpow (exec_handshakeTimeout o ep s) ?_
    have hback := doHandshakeTimeout_takesBack h
    generalize doHandshakeTimeout o ep s = t at hback ⊢
    rwa [State.outp_of_outs (State.finish_outs s t), State.finish_wait]
  · exact fun id w q h hq => grace (doGraceExpiry_flushes h hq)
  · exact fun id h => grace (doGraceExpiry_none h)
  · intro p vc
    exact yields_of hpow (exec_creditAnnounce p vc s) (doCreditAnnounce_credits p vc)

end Sys2Proof.Machine

end


section
/-! # Packets that arrive for this device, and the timers of the transport (R216 to R256) -/

namespace Sys2Proof.Machine

/-! ## Packets -/

section Packets
variable {s t : State} {p : Packet}

theorem State.arrival_accepted {op : Nat} (hop : p.op = op) (h : s.accept p = (true, t)) : s.arrival op p = (t.serve p).goOn := by
  simp only [State.arrival, hop, ne_eq, not_true_eq_false, if_false, h]

theorem State.arrival_refused {op : Nat} (hop : p.op = op) (h : s.accept p = (false, t)) : s.arrival op p = t.goOn := by
  simp only [State.arrival, hop, ne_eq, not_true_eq_false, if_false, h]

theorem State.serve_put (h : p.op = opPut) : s.serve p = s.servePut p := by
  rw [State.serve, h]
  rfl

theorem State.serve_getReq (h : p.op = opGetReq) : s.serve p = s.serveGet p := by
  rw [State.serve, h]
  rfl

theorem State.serve_getRsp (h : p.op = opGetRsp) : s.serve p = s.serveRsp p := by
  rw [State.serve, h]
  rfl

theorem State.serve_atomic (h : p.op = opAtomic) : s.serve p = s.serveAtomic p := by
  rw [State.serve, h]
  rfl

theorem State.serve_atomicRsp (h : p.op = opAtomicRsp) : s.serve p = s.serveAtomRsp p := by
  rw [State.serve, h]
  rfl

theorem State.serve_send (h : p.op = opSend ∨ p.op = opSendRdv) : s.serve p = s.serveSend p := by
  rcases h with h | h <;>
    · rw [State.serve, h]
      rfl

theorem doComp_accepted (hop : p.op = opComp) (h : s.accept p = (true, t)) : doComp p s = (t.serveComp p).goOn := by
  simp only [doComp, hop, ne_eq, not_true_eq_false, if_false, h]

theorem doComp_refused (hop : p.op = opComp) (h : s.accept p = (false, t)) : doComp p s = t.goOn := by
  simp only [doComp, hop, ne_eq, not_true_eq_false, if_false, h]

theorem doNcomp_accepted (hop : p.op = opNcomp) (h : s.accept p = (true, t)) : doNcomp p s = (t.serveNcomp p).goOn := by
  simp only [doNcomp, hop, ne_eq, not_true_eq_false, if_false, h]

theorem doNcomp_refused (hop : p.op = opNcomp) (h : s.accept p = (false, t)) : doNcomp p s = t.goOn := by
  simp only [doNcomp, hop, ne_eq, not_true_eq_false, if_false, h]

theorem doAck_accepted (hop : p.op = opAck) (h : s.accept p = (true, t)) : doAck p s =
    (((((t.bringIn (peerIdx p.src p.tc)).2.touchPeer (peerIdx p.src p.tc)).syncDone (peerIdx p.src p.tc) p.ackNext).onAck
      (peerIdx p.src p.tc) p.ackNext p.limit (ackList p.ackNext p.payload)).windowSend (peerIdx p.src p.tc)).goOn := by
  simp only [doAck, hop, ne_eq, not_true_eq_false, if_false, h]

theorem doAck_refused (hop : p.op = opAck) (h : s.accept p = (false, t)) : doAck p s = t := by
  simp only [doAck, hop, ne_eq, not_true_eq_false, if_false, h]

theorem doSync_refused (hop : p.op = opSync) (h : s.accept p = (false, t)) : doSync p s = t := by
  simp only [doSync, hop, ne_eq, not_true_eq_false, if_false, h]

/-- What an accepted SYNC makes of the receive direction of its peer. -/
theorem doSync_accepted {u v : State} {i l : Nat} (hop : p.op = opSync) (h : s.accept p = (true, t)) (hi : i = peerIdx p.src p.tc)
    (hu : u = (t.bringIn i).2)
    (hv : v = if (u.peer i).valid ∧ (u.peer i).peerInc ≠ p.inc then (u.peerRestart i).forgetPeer i else u)
    (hl : l = (p.seq + v.get Reg.xportCtrl Fld.xportCtrlInitWin) % 2 ^ 24) : doSync p s =
    ((v.setPeer i { v.peer i with
      rxNext := p.seq, peerInc := p.inc, rxMap := [], rxWin := v.get Reg.xportCtrl Fld.xportCtrlInitWin, valid := true
      rxLimit := if (u.peer i).valid ∧ (u.peer i).peerInc = p.inc ∧ laterMod 24 l (u.peer i).rxLimit = false then (u.peer i).rxLimit else l
      lastUs := v.usSinceApply, hub := v.pktHub p }).sendAck i p.tc).goOn := by
  have hrestart : (if (u.peer i).valid && (u.peer i).peerInc != p.inc then (u.peerRestart i).forgetPeer i else u) = v := by
    rw [hv]
    exact if_congr (by rw [Bool.and_eq_true, bne_iff_ne]) rfl rfl
  have hlimit : ((u.peer i).valid && (u.peer i).peerInc == p.inc && !laterMod 24 l (u.peer i).rxLimit) = true ↔
      (u.peer i).valid = true ∧ (u.peer i).peerInc = p.inc ∧ laterMod 24 l (u.peer i).rxLimit = false := by
    rw [Bool.and_eq_true, Bool.and_eq_true, beq_iff_eq, Bool.not_eq_true', and_assoc]
  simp only [doSync, hop, ne_eq, not_true_eq_false, if_false, h, ← hi, ← hu, hrestart, ← hl, hlimit]

end Packets

/-- Settles O26, from what each packet does once it passes the transport's checks, or does not. -/
theorem transportPackets : Obligations.TransportPackets := by
  intro s p hpow
  have put {t} : s.arrival opPut p = t → Does (.put p) s t := does_of hpow (exec_put p s)
  have getReq {t} : s.arrival opGetReq p = t → Does (.getReq p) s t := does_of hpow (exec_getReq p s)
  have getRsp {t} : s.arrival opGetRsp p = t → Does (.getRsp p) s t := does_of hpow (exec_getRsp p s)
  have atomic {t} : (if s.atomFull p then s else s.arrival opAtomic p) = t → Does (.atomic p) s t := does_of hpow (exec_atomic p s)
  have atomicRsp {t} : s.arrival opAtomicRsp p = t → Does (.atomicRsp p) s t := does_of hpow (exec_atomicRsp p s)
  have send {t} : s.arrival opSend p = t → Does (.send p) s t := does_of hpow (exec_send p s)
  have sendRdv {t} : s.arrival opSendRdv p = t → Does (.sendRdv p) s t := does_of hpow (exec_sendRdv p s)
  have comp {t} : doComp p s = t → Does (.comp p) s t := does_of hpow (exec_comp p s)
  have ncomp {t} : doNcomp p s = t → Does (.ncomp p) s t := does_of hpow (exec_ncomp p s)
  have ack {t} : doAck p s = t → Does (.ack p) s t := does_of hpow (exec_ack p s)
  have sync {t} : doSync p s = t → Does (.sync p) s t := does_of hpow (exec_sync p s)
  have room (h : s.atomFull p = false) : (if s.atomFull p then s else s.arrival opAtomic p) = s.arrival opAtomic p :=
    if_neg (by rw [h]; decide)
  refine ⟨fun t h => ⟨?_, ?_, ?_, ?_, ?_, ?_, ?_, ?_, ?_, ?_, ?_⟩, fun t h => ⟨?_, ?_, ?_, ?_, ?_, ?_, ?_, ?_, ?_, ?_, ?_⟩, ?_⟩
  · exact fun hop => put ((State.arrival_accepted hop h).trans (congrArg State.goOn (State.serve_put hop)))
  · exact fun hop => getReq ((State.arrival_accepted hop h).trans (congrArg State.goOn (State.serve_getReq hop)))
  · exact fun hop => getRsp ((State.arrival_accepted hop h).trans (congrArg State.goOn (State.serve_getRsp hop)))
  · exact fun hop hroom => atomic ((room hroom).trans ((State.arrival_accepted hop h).trans (congrArg State.goOn (State.serve_atomic hop))))
  · exact fun hop => atomicRsp ((State.arrival_accepted hop h).trans (congrArg State.goOn (State.serve_atomicRsp hop)))
  · exact fun hop => send ((State.arrival_accepted hop h).trans (congrArg State.goOn (State.serve_send (.inl hop))))
  · exact fun hop => sendRdv ((State.arrival_accepted hop h).trans (congrArg State.goOn (State.serve_send (.inr hop))))
  · exact fun hop => comp (doComp_accepted hop h)
  · exact fun hop => ncomp (doNcomp_accepted hop h)
  · exact fun hop => ack (doAck_accepted hop h)
  · exact fun hop u v l hu hv hl => sync (doSync_accepted hop h rfl hu hv hl)
  · exact fun hop => put (State.arrival_refused hop h)
  · exact fun hop => getReq (State.arrival_refused hop h)
  · exact fun hop => getRsp (State.arrival_refused hop h)
  · exact fun hop hroom => atomic ((room hroom).trans (State.arrival_refused hop h))
  · exact fun hop => atomicRsp (State.arrival_refused hop h)
  · exact fun hop => send (State.arrival_refused hop h)
  · exact fun hop => sendRdv (State.arrival_refused hop h)
  · exact fun hop => comp (doComp_refused hop h)
  · exact fun hop => ncomp (doNcomp_refused hop h)
  · exact fun hop => ack (doAck_refused hop h)
  · exact fun hop => sync (doSync_refused hop h)
  · exact fun h => atomic (if_pos h)

/-! ## Timers -/

section Timers
variable {s t : State} {i : Nat}

theorem doPeerFetchDone_fetched (hw : (s.xp.cacheIn.any (fun e => e.1 == i) || s.xp.cacheOut.any (fun e => e.1 == i)) = true)
    (h : s.bringIn i = (true, t)) : doPeerFetchDone i s = (t.peerIn i).goOn := by
  simp only [doPeerFetchDone, hw, if_true, h]

theorem doPeerEvictable_evicts {j : Nat} {rest : List Nat}
    (h : (s.peerCached i && s.evictable i && decide (peerCacheSize ≤ s.xp.cache.length)) = true)
    (hj : s.xp.cacheIn.map (fun e => e.1) ++ s.xp.cacheOut.map (fun e => e.1) = j :: rest) (hc : s.peerCached j = false) : doPeerEvictable i s =
    ((({ s with xp := { s.xp with cache := s.xp.cache.filter (fun k => k != i) ++ [j] } } : State)).peerIn j).goOn := by
  simp only [doPeerEvictable, h, if_true, hj, List.head?_cons, hc, Bool.false_eq_true, if_false]

theorem doRetryTimeout_sync {q : Nat} (hp : (s.peer i).syncPending = true) (hq : (s.peer i).syncSeq = q) : doRetryTimeout i q s =
    if s.get Reg.xportCtrl Fld.xportCtrlRetryMax ≤ (s.peer i).syncTries then (s.syncFailed i).goOn
    else (s.setPeer i { (s.peer i) with syncTries := (s.peer i).syncTries + 1 }).sendSync i :=
  if_pos ⟨hp, hq⟩

theorem doRetryTimeout_packet {q : Nat} {x : SentPkt} (h : (s.peer i).syncPending = false ∨ (s.peer i).syncSeq ≠ q)
    (hx : s.xp.sent.find? (fun y => y.idx == i && y.seq == q) = some x) : doRetryTimeout i q s =
    if s.get Reg.xportCtrl Fld.xportCtrlRetryMax ≤ x.attempt then (s.peerDown x.idx).goOn else (s.resend x).goOn := by
  have hnot : ¬ ((s.peer i).syncPending = true ∧ (s.peer i).syncSeq = q) := by
    rintro ⟨hp, hq⟩
    rcases h with h | h
    · rw [hp] at h
      exact Bool.noConfusion h
    · exact h hq
  simp only [doRetryTimeout, if_neg hnot, hx, State.retry, apply_ite State.goOn]

theorem doNackResend_nacked {q : Nat} {x : SentPkt} (h : s.xp.sent.find? (fun y => y.idx == i && y.seq == q && y.nacked) = some x) :
    doNackResend i q s = (s.retry x).goOn := by
  simp only [doNackResend, h]

theorem doNackResend_none {q : Nat} (h : s.xp.sent.find? (fun y => y.idx == i && y.seq == q && y.nacked) = none) : doNackResend i q s = s := by
  simp only [doNackResend, h]

theorem doWindowUpdate_eq (ht : t = s.xp.cache.foldl (fun t k => if (t.peer k).valid then t.updateWindow k else t) s) : doWindowUpdate s =
    t.xp.peers.foldl (fun u e => if e.2.valid = true ∧ u.peerCached e.1 = false then u.setPeer e.1 { e.2 with missed := true } else u) t := by
  simp only [doWindowUpdate, ← ht, Bool.and_eq_true, Bool.not_eq_true']

section Idle
variable {k : XferKey}

theorem doXferIdle_none (h : s.xp.recs.find? (fun e => e.1 == k) = none) : doXferIdle k s = s := by
  simp only [doXferIdle, h]

variable {e : XferKey × XferRec} (h : s.xp.recs.find? (fun e => e.1 == k) = some e)
include h

theorem doXferIdle_freed (he : e.2.held = none) : doXferIdle k s = s.freeRec k e.2.isRsp := by
  simp only [doXferIdle, h, he, Option.isSome_none, Bool.false_eq_true, if_false]

theorem doXferIdle_dropped (he : e.2.held ≠ none) : doXferIdle k s = (s.freeRec k e.2.isRsp).bump
    (Reg.raeCnt1 ((s.freeRec k e.2.isRsp).rae ((s.freeRec k e.2.isRsp).servingEngine e.2.first))) Fld.raeCnt1FinalDrop 1 := by
  simp only [doXferIdle, h, Option.isSome_iff_ne_none.mpr he, if_true]

end Idle

section Placement
variable {k : XferKey} {n : Nat} {pl : Place}
  (h : s.xp.placing.find? (fun pl => pktKey pl.pkt == k && pl.pkt.pidx == n && pl.pkt.op != opAtomic) = some pl)
include h

theorem doPlacementDone_placed (ht : pl.todo = []) : doPlacementDone k n .placed s = ((s.dropPlace pl).placedPkt pl).goOn := by
  simp only [doPlacementDone, h, ht, List.isEmpty_nil, if_true]

theorem doPlacementDone_failed (r : Byte) : doPlacementDone k n (.failed r) s = (s.placeFail pl r.toNat).goOn := by
  simp only [doPlacementDone, h]

end Placement

theorem State.takeMark_facts (s : State) (a : Nat) {f : Field} (hf : f.fits) : (s.takeMark a f).get a f = 0
    ∧ (s.takeMark a f).out = s.out ++ [.readData (BitVec.ofNat 64 (s.get a f))] := by
  refine ⟨?_, rfl⟩
  rw [State.takeMark, State.get_put _ _ _ _ hf]
  exact Nat.zero_mod _

end Timers

/-- Settles O27, from what each timer does to what it names. -/
theorem transportTimers : Obligations.TransportTimers := by
  intro s i inst tc hpow
  have retry {q : BitVec 24} {t} : doRetryTimeout i q.toNat s = t → Does (.retryTimeout i q) s t := does_of hpow (exec_retryTimeout i q s)
  have nack {q : BitVec 24} {t} : doNackResend i q.toNat s = t → Does (.nackResend i q) s t := does_of hpow (exec_nackResend i q s)
  have idle {k t} : doXferIdle k s = t → Does (.xferIdle k) s t := does_of hpow (exec_xferIdle k s)
  have placement {k} {n : BitVec 20} {r t} : doPlacementDone k n.toNat r s = t → Does (.placementDone k n r) s t :=
    does_of hpow (exec_placementDone k n r s)
  refine ⟨?_, ?_, ?_, ?_, ?_, ?_, ?_, ?_, ?_, ?_, ?_, ?_, fun k e h => ⟨?_, ?_⟩, ?_, ?_, ?_, ?_⟩
  · exact does_of hpow (exec_shaperRelease inst tc s) rfl
  · exact does_of hpow (exec_policerBackoffEnd inst tc s) rfl
  · exact fun t hw h => does_of hpow (exec_peerFetchDone i s) (doPeerFetchDone_fetched hw h)
  · exact fun j rest h hj hc => does_of hpow (exec_peerEvictable i s) (doPeerEvictable_evicts h hj hc)
  · exact does_of hpow (exec_windowSend i s) rfl
  · exact does_of hpow (exec_ackTimer i s) rfl
  · exact fun q hp hq => retry (doRetryTimeout_sync hp hq)
  · exact fun q x h hx => retry (doRetryTimeout_packet h hx)
  · exact fun q x h => nack (doNackResend_nacked h)
  · exact fun q h => nack (doNackResend_none h)
  · exact fun t ht => does_of hpow (exec_windowUpdate s) (doWindowUpdate_eq ht)
  · exact fun k h => idle (doXferIdle_none h)
  · exact fun he => idle (doXferIdle_freed h he)
  · exact fun he => idle (doXferIdle_dropped h he)
  · exact fun x => does_of hpow (exec_responseTimeout x s) rfl
  · exact fun k n pl h ht => placement (doPlacementDone_placed h ht)
  · exact fun k n pl r h => placement (doPlacementDone_failed h r)
  · intro t8
    refine yields_of hpow (exec_hwmReadClear (.cls t8) s) ?_
    rw [State.finish_get, State.finish_out]
    exact s.takeMark_facts (Reg.classHwm t8) (by decide)

end Sys2Proof.Machine

end


section
/-! # Bring-up of a port (R66 to R86)

The statement gives each working lane of a port the loss that was measured on it. A port that no image maps has lane 0 at both of its
positions (`State.laneRec`), so there one lane would have to show both losses. -/

namespace Sys2Proof.Machine

/-- A device without an image in force, whose port 0 adapts with a lane at each of its two positions. -/
def adaptsUnmapped : State :=
  (State.reset.setPort 0 { PortSt.init with laneA := true, laneB := true }).putPortStat 0 Fld.portStatState 3

theorem adaptsUnmapped_adapts : adaptsUnmapped.portState 0 = 3 := by decide +kernel

theorem adaptsUnmapped_working : adaptsUnmapped.portWorking 0 = [0, 1] := by decide +kernel

theorem adaptsUnmapped_sameLane : adaptsUnmapped.portLane 0 1 = adaptsUnmapped.portLane 0 0 := rfl

/-- Refutes O14: on a port that no image maps, both positions are lane 0, which cannot show a loss of 0 dB and of 1 dB at once. -/
theorem not_laneBringUp : ¬ Obligations.LaneBringUp := by
  intro h
  obtain ⟨-, -, -, -, hready, -⟩ := h adaptsUnmapped 0 0 rfl
  obtain ⟨t, -, -, hloss⟩ := hready 0 1 adaptsUnmapped_adapts
  have hmem : ∀ pos ∈ [0, 1], pos ∈ adaptsUnmapped.portWorking 0 := fun pos hpos => adaptsUnmapped_working ▸ hpos
  have hfirst := hloss 0 (hmem 0 (by decide))
  have hsecond := hloss 1 (hmem 1 (by decide))
  rw [show ((0 : Fin 144) : Nat) = 0 from rfl] at hfirst hsecond
  rw [adaptsUnmapped_sameLane, hfirst] at hsecond
  exact absurd hsecond (by decide)

end Sys2Proof.Machine

end


section
/-! # What leaves the matching engines' state

The end of an operation, the replies and the placement of a message's data reach far, through the transport, the translation and the
host links, but none of it touches the matching engines' state. -/

namespace Sys2Proof.Machine

theorem ite_mt {c : Prop} [Decidable c] {s t u : State} (ht : t.mt = s.mt) (hu : u.mt = s.mt) : (if c then t else u).mt = s.mt := by
  split
  · exact ht
  · exact hu

theorem foldl_mt {α : Type} (l : List α) (f : State → α → State) (s : State) (h : ∀ t x, (f t x).mt = t.mt) : (l.foldl f s).mt = s.mt :=
  foldl_keeps (fun t : State => t.mt = s.mt) l f s rfl fun t x _ ht => (h t x).trans ht

/-! ## Counters, coded messages and what leaves on a host link -/

@[simp] theorem State.count_mt (s : State) (e : Evt) : (s.count e).mt = s.mt :=
  State.count_keeps (fun t => t.mt = s.mt) e s rfl fun _ _ _ _ h => h

@[simp] theorem State.post_mt (s : State) (src kind cls addr : Nat) : (s.post src kind cls addr).mt = s.mt := by
  unfold State.post
  split <;> rfl

@[simp] theorem State.writeOut_mt (s : State) (f : Func) (a : Nat) (l : List Byte) (ro : Bool) : (s.writeOut f a l ro).mt = s.mt := by
  unfold State.writeOut
  rw [State.count_mt, State.emit_mt]

@[simp] theorem State.issueRead_mt (s : State) (r : DmaReq) : (s.issueRead r).mt = s.mt := by
  unfold State.issueRead
  dsimp only
  split
  · split <;> simp
  all_goals simp

@[simp] theorem State.issue_mt (s : State) (r : DmaReq) : (s.issue r).mt = s.mt := by
  unfold State.issue
  split
  · exact s.writeOut_mt _ _ _ _
  · exact s.issueRead_mt r

@[simp] theorem State.pumpDma_mt (s : State) (n : Nat) : (s.pumpDma n).mt = s.mt :=
  foldl_mt _ _ _ fun t r => by
    split
    · exact t.issue_mt r
    · rfl

@[simp] theorem State.ask_mt (s : State) (r : DmaReq) : (s.ask r).mt = s.mt := State.pumpDma_mt _ _

@[simp] theorem State.signalVf_mt (s : State) (i v : Nat) : (s.signalVf i v).mt = s.mt := by
  unfold State.signalVf
  dsimp only
  split
  · rfl
  · split
    · rfl
    · split <;> simp

@[simp] theorem State.busWrite_mt (s : State) (f : Func) (a : Nat) (l : List Byte) (ro : Bool) : (s.busWrite f a l ro).mt = s.mt := by
  unfold State.busWrite
  dsimp only
  split
  · exact foldl_mt _ _ _ fun t c => t.writeOut_mt _ _ _ _
  · split <;> rfl

@[simp] theorem State.dlogMark_mt (s : State) (i p : Nat) : (s.dlogMark i p).mt = s.mt :=
  State.busWrite_mt _ _ _ _ _

@[simp] theorem State.logged_mt (s : State) (i a : Nat) (l : List Byte) (ro : Bool) (n : LogThen) : (s.logged i a l ro n).mt = s.mt := by
  unfold State.logged
  dsimp only
  split <;> simp

@[simp] theorem State.hostWriteThen_mt (s : State) (i a g : Nat) (l : List Byte) (ro : Bool) (n : LogThen) :
    (s.hostWriteThen i a g l ro n).mt = s.mt := by
  unfold State.hostWriteThen
  dsimp only
  split
  · split
    · simp
    · split
      · simp
      · split
        · rfl
        · rw [State.ask_mt]
  · exact s.logged_mt _ _ _ _ _

@[simp] theorem State.hostWrite_mt (s : State) (i a g : Nat) (l : List Byte) (ro : Bool) : (s.hostWrite i a g l ro).mt = s.mt :=
  s.hostWriteThen_mt _ _ _ _ _ _

/-! ## Translation -/

@[simp] theorem State.xlFault_mt (s : State) (i : Nat) (r : XlatReq) (kind stage level a : Nat) :
    (s.xlFault i r kind stage level a).mt = s.mt := by
  unfold State.xlFault
  cases r.who
  all_goals
    refine (State.post_mt _ _ _ _ _).trans (ite_mt ?_ ?_)
    all_goals exact ite_mt (s := s) (State.count_mt _ _) (State.count_mt _ _)

@[simp] theorem State.cacheDone_mt (s : State) (w : WalkSt) (bus : Nat) : (s.cacheDone w bus).mt = s.mt := by
  unfold State.cacheDone
  split <;> rfl

theorem State.walkAct_mt (s : State) (w : WalkSt) (a : WalkAct) : (s.walkAct w a).2.mt = s.mt := by
  cases a with
  | read bus => exact State.ask_mt _ _
  | mark m =>
    unfold State.walkAct
    dsimp only
    split
    · exact State.hostWriteThen_mt _ _ _ _ _ _ _
    · exact State.ask_mt _ _
  | fault kind stage level addr => exact s.xlFault_mt _ _ _ _ _ _
  | done bus => exact s.cacheDone_mt _ _

theorem State.startWalk_mt (s : State) (i : Nat) (r : XlatReq) : (s.startWalk i r).2.mt = s.mt :=
  (State.walkAct_mt _ _ _).trans (State.count_mt _ _)

theorem State.translate_mt (s : State) (i : Nat) (r : XlatReq) : (s.translate i r).2.mt = s.mt := by
  unfold State.translate
  dsimp only
  split
  · rfl
  · split
    · exact s.xlFault_mt _ _ _ _ _ _
    · split
      · exact s.count_mt _
      · split
        · rfl
        · split
          · rfl
          · have hwalk := s.startWalk_mt i r
            split
            · rename_i u hu
              rw [hu] at hwalk
              exact hwalk
            · rename_i d l u hu
              rw [hu] at hwalk
              split <;> exact hwalk

/-! ## Device memory -/

@[simp] theorem State.dirFound_mt (s : State) (l : Nat) : (s.dirFound l).mt = s.mt := by
  unfold State.dirFound
  split
  · rfl
  · exact State.post_mt _ _ _ _ _

@[simp] theorem State.dirCount_mt (s : State) (l : Nat) : (s.dirCount l).mt = s.mt := by
  unfold State.dirCount
  split
  · dsimp only [State.fresh]
    split <;> simp
  · exact s.count_mt _

@[simp] theorem State.fwdCount_mt (s : State) (l : Nat) : (s.fwdCount l).mt = s.mt := by
  unfold State.fwdCount
  split
  · simp
  · rfl

@[simp] theorem State.recall_mt (s : State) (l : Nat) : (s.recall l).mt = s.mt := by
  obtain ⟨u, hu⟩ : ∃ u, u = (s.dirCount l).fwdCount l := ⟨_, rfl⟩
  have hmt : u.mt = s.mt := by rw [hu, State.fwdCount_mt, State.dirCount_mt]
  simp only [State.recall, ← hu]
  split <;> exact hmt

@[simp] theorem State.devWrite_mt (s : State) (a : Nat) (l : List Byte) : (s.devWrite a l).mt = s.mt := by
  unfold State.devWrite
  dsimp only
  split
  · rfl
  · exact (State.count_mt _ _).trans (foldl_mt _ _ _ fun t x => t.recall_mt x)

/-! ## Operations, replies and transfers -/

@[simp] theorem State.dropUnsent_mt (s : State) (o : Nat) (b : Bool) : (s.dropUnsent o b).mt = s.mt := by
  unfold State.dropUnsent
  dsimp only
  exact foldl_mt _ _ _ fun t f => rfl

@[simp] theorem State.finishOp_mt (s : State) (o status : Nat) : (s.finishOp o status).mt = s.mt := by
  unfold State.finishOp
  split
  · rfl
  · split
    · rfl
    · dsimp only
      split <;> exact s.dropUnsent_mt _ _

@[simp] theorem State.settle_mt (s : State) (o : Nat) : (s.settle o).mt = s.mt := by
  unfold State.settle
  split
  · rfl
  · split
    · split
      · exact s.finishOp_mt _ _
      · rfl
    · rfl

@[simp] theorem State.failOp_mt (s : State) (o status : Nat) : (s.failOp o status).mt = s.mt := by
  unfold State.failOp
  split
  · rfl
  · split
    · rfl
    · dsimp only
      rw [State.settle_mt]
      split
      · exact State.dropUnsent_mt _ _ _
      · rfl

@[simp] theorem State.sendNcomp_mt (s : State) (p : Packet) (n : Nat) : (s.sendNcomp p n).mt = s.mt := by
  unfold State.sendNcomp
  split <;> rfl

@[simp] theorem State.sendComp_mt (s : State) (p : Packet) : (s.sendComp p).mt = s.mt := rfl

@[simp] theorem State.freeRec_mt (s : State) (k : XferKey) (b : Bool) : (s.freeRec k b).mt = s.mt := rfl

@[simp] theorem State.failRec_mt (s : State) (p : Packet) : (s.failRec p).mt = s.mt := by
  unfold State.failRec
  dsimp only
  split
  · rfl
  · split <;> rfl

@[simp] theorem State.winCount_mt (s : State) (p : Packet) : (s.winCount p).mt = s.mt := by
  unfold State.winCount
  split <;> rfl

@[simp] theorem State.fire_mt (s : State) (t : Nat) (a b c d : Word) : (s.fire t a b c d).mt = s.mt := by
  unfold State.fire
  dsimp only
  split <;> rfl

@[simp] theorem State.fireArrival_mt (s : State) (w : Nat) (p : Packet) : (s.fireArrival w p).mt = s.mt :=
  foldl_mt _ _ _ fun t k => by
    dsimp only
    split
    · exact t.fire_mt _ _ _ _ _
    · rfl

/-! ## Placement -/

@[simp] theorem State.placeFail_mt (s : State) (pl : Place) (n : Nat) : (s.placeFail pl n).mt = s.mt := by
  have hfail : ((((if n = 7 then s.winCount pl.pkt else s).dropPlace pl).sendNcomp pl.pkt n).failRec pl.pkt).mt = s.mt := by
    rw [State.failRec_mt, State.sendNcomp_mt]
    split
    · exact s.winCount_mt pl.pkt
    · rfl
  unfold State.placeFail
  dsimp only
  split
  · exact hfail
  · rw [State.failOp_mt, hfail]

theorem State.placePieces_mt (l : List (Nat × List Byte)) (s : State) (pl : Place) : (s.placePieces pl l).2.mt = s.mt := by
  induction l generalizing s pl with
  | nil => rfl
  | cons c l ih =>
    obtain ⟨va, data⟩ := c
    have htr := s.translate_mt pl.inst ⟨BitVec.ofNat 64 va, .wr, true, pl.who⟩
    unfold State.placePieces
    split
    · rename_i h
      rw [h] at htr
      exact (ih _ _).trans htr
    · rename_i h
      rw [h] at htr
      exact (ih _ _).trans htr
    · rename_i h
      rw [h] at htr
      exact htr

@[simp] theorem State.placeAll_mt (s : State) (pl : Place) : (s.placeAll pl).mt = s.mt := by
  unfold State.placeAll
  split
  · exact foldl_mt _ _ _ fun t c => t.hostWrite_mt _ _ _ _ _
  · rfl

@[simp] theorem State.startPlace_mt (s : State) (pl : Place) (spans : List (Nat × Nat)) (l : List Byte) :
    (s.startPlace pl spans l).mt = s.mt := by
  have hpieces := State.placePieces_mt ((pieces 0 spans).map (fun c => (c.2.1, (l.drop c.1).take c.2.2))) s pl
  unfold State.startPlace
  split
  · rename_i h
    rw [h] at hpieces
    exact (State.placeAll_mt _ _).trans hpieces
  · rename_i h
    rw [h] at hpieces
    exact (State.placeFail_mt _ _ _).trans hpieces

@[simp] theorem State.placeByOp_mt (s : State) (p : Packet) : (s.placeByOp p).mt = s.mt := by
  unfold State.placeByOp
  split
  · unfold State.placeRsp
    split
    · rfl
    · exact s.startPlace_mt _ _ _
  · unfold State.placePut
    dsimp only
    split
    · exact s.devWrite_mt _ _
    · exact s.startPlace_mt _ _ _

@[simp] theorem State.xferDone_mt (s : State) (p : Packet) (o : Nat) : (s.xferDone p o).mt = s.mt := by
  unfold State.xferDone
  dsimp only
  split
  · exact (State.fireArrival_mt _ _ _).trans (s.sendComp_mt p)
  · split
    · exact s.sendComp_mt p
    · rw [State.finishOp_mt]
      split
      · exact s.sendComp_mt p
      · exact s.sendComp_mt p

@[simp] theorem State.checkRec_mt (s : State) (k : XferKey) (b : Bool) : (s.checkRec k b).mt = s.mt := by
  unfold State.checkRec
  split
  · rfl
  · split
    · rfl
    · split
      · split
        · exact State.placeByOp_mt _ _
        · rfl
      · split
        · dsimp only
          split
          · rfl
          · exact State.xferDone_mt _ _ _
        · rfl

@[simp] theorem State.countPlaced_mt (s : State) (p : Packet) : (s.countPlaced p).mt = s.mt := by
  unfold State.countPlaced
  dsimp only
  split
  · split
    · exact State.checkRec_mt _ _ _
    · rfl
  · exact s.sendComp_mt p

end Sys2Proof.Machine

end


section
/-! # The order of a context's lists (R389, R395) -/

namespace Sys2Proof.Machine

/-! ## The first of a sorted list is the earliest -/

theorem find?_earliest {α : Type} {key : α → Nat} {p : α → Bool} {l : List α} {r : α} (hl : l.Pairwise (fun x y => key x < key y))
    (h : l.find? p = some r) : r ∈ l ∧ p r = true ∧ ∀ x ∈ l, p x = true → key r ≤ key x := by
  induction l with
  | nil => exact absurd h (by simp)
  | cons a l ih =>
    obtain ⟨ha, hl⟩ := List.pairwise_cons.mp hl
    cases hp : p a with
    | true =>
      rw [List.find?_cons_of_pos hp, Option.some.injEq] at h
      subst h
      refine ⟨List.mem_cons_self, hp, fun x hx _ => ?_⟩
      rcases List.mem_cons.mp hx with rfl | hx
      · exact Nat.le_refl _
      · exact Nat.le_of_lt (ha x hx)
    | false =>
      rw [List.find?_cons_of_neg (by rw [hp]; decide)] at h
      obtain ⟨hmem, hr, hmin⟩ := ih hl h
      refine ⟨List.mem_cons_of_mem a hmem, hr, fun x hx hpx => ?_⟩
      rcases List.mem_cons.mp hx with rfl | hx
      · rw [hp] at hpx
        exact absurd hpx (by decide)
      · exact hmin x hx hpx

/-! ## Which receive a message takes -/

section Picks
variable {c : CtxSt} {b : Word} {sid : BitVec 32}

/-- An exact receive matches the bits and the sender that it names, and no others. -/
theorem Posted.matches_of_exact {r : Posted} (h : r.exact = true) : r.matches b sid = (r.bits == b && r.sid == sid) := by
  obtain ⟨hi, hs⟩ := Bool.and_eq_true _ _ ▸ h
  rw [Posted.matches, beq_iff_eq.mp hi, beq_iff_eq.mp hs]
  simp only [BitVec.ofNat_eq_ofNat, BitVec.not_zero, BitVec.and_allOnes]
  congr 1 <;>
    · rw [Bool.eq_iff_iff, beq_iff_eq, beq_iff_eq]
      exact BitVec.xor_eq_zero_iff

theorem exact_hit_iff {r : Posted} : (r.exact && r.bits == b && r.sid == sid) = true ↔ r.exact = true ∧ r.matches b sid = true := by
  rw [Bool.and_assoc, Bool.and_eq_true]
  exact and_congr_right fun h => by rw [Posted.matches_of_exact h]

/-- The earliest exact receive that matches, if there is one. -/
def CtxSt.exactHit (c : CtxSt) (b : Word) (sid : BitVec 32) : Option Posted :=
  c.posted.find? (fun r => r.exact && r.bits == b && r.sid == sid)

/-- The earliest receive with wildcards that matches, if there is one. -/
def CtxSt.wildHit (c : CtxSt) (b : Word) (sid : BitVec 32) : Option Posted :=
  (c.posted.filter (fun r => !r.exact)).find? (fun r => r.matches b sid)

theorem CtxSt.arrivePick_eq (c : CtxSt) (m : Packet) : (c.arrivePick m).1 =
    ((c.wildHit (BitVec.ofNat 64 m.base) (srcId m)).filter (fun r =>
      match c.exactHit (BitVec.ofNat 64 m.base) (srcId m) with
      | some x => decide (r.pseq < x.pseq)
      | none => true)).or (c.exactHit (BitVec.ofNat 64 m.base) (srcId m)) := by
  rfl

theorem CtxSt.exactHit_none (h : c.exactHit b sid = none) : ∀ x ∈ c.posted, x.exact = true → x.matches b sid = false := by
  intro x hx he
  rw [← Bool.not_eq_true]
  exact fun hm => (List.find?_eq_none.mp h x hx) (exact_hit_iff.mpr ⟨he, hm⟩)

theorem CtxSt.wildHit_none (h : c.wildHit b sid = none) : ∀ x ∈ c.posted, x.exact = false → x.matches b sid = false := by
  intro x hx he
  rw [← Bool.not_eq_true]
  exact List.find?_eq_none.mp h x (List.mem_filter.mpr ⟨hx, by rw [he]; rfl⟩)

variable (hc : c.posted.Pairwise (fun x y => x.pseq < y.pseq))
include hc

theorem CtxSt.exactHit_some {r : Posted} (h : c.exactHit b sid = some r) : r ∈ c.posted ∧ r.matches b sid = true
    ∧ ∀ x ∈ c.posted, x.exact = true → x.matches b sid = true → r.pseq ≤ x.pseq := by
  obtain ⟨hmem, hr, hmin⟩ := find?_earliest hc h
  exact ⟨hmem, (exact_hit_iff.mp hr).2, fun x hx he hm => hmin x hx (exact_hit_iff.mpr ⟨he, hm⟩)⟩

theorem CtxSt.wildHit_some {r : Posted} (h : c.wildHit b sid = some r) : r ∈ c.posted ∧ r.matches b sid = true
    ∧ ∀ x ∈ c.posted, x.exact = false → x.matches b sid = true → r.pseq ≤ x.pseq := by
  obtain ⟨hmem, hr, hmin⟩ := find?_earliest (hc.filter _) h
  exact ⟨(List.mem_filter.mp hmem).1, hr, fun x hx he hm => hmin x (List.mem_filter.mpr ⟨hx, by rw [he]; rfl⟩) hm⟩

omit hc in
/-- A receive that is no later than the earliest of either kind is the earliest of all. -/
theorem earliest_of_both {n : Nat} (hexact : ∀ x ∈ c.posted, x.exact = true → x.matches b sid = true → n ≤ x.pseq)
    (hwild : ∀ x ∈ c.posted, x.exact = false → x.matches b sid = true → n ≤ x.pseq) :
    ∀ x ∈ c.posted, x.matches b sid = true → n ≤ x.pseq := by
  intro x hx hm
  cases he : x.exact with
  | true => exact hexact x hx he hm
  | false => exact hwild x hx he hm

/-- R389: a message takes the earliest receive that it matches. -/
theorem CtxSt.arrivePick_some {m : Packet} {r : Posted} (h : (c.arrivePick m).1 = some r) : r ∈ c.posted
    ∧ r.matches (BitVec.ofNat 64 m.base) (srcId m) = true
    ∧ ∀ x ∈ c.posted, x.matches (BitVec.ofNat 64 m.base) (srcId m) = true → r.pseq ≤ x.pseq := by
  rw [CtxSt.arrivePick_eq] at h
  cases hw : c.wildHit (BitVec.ofNat 64 m.base) (srcId m) with
  | none =>
    rw [hw, Option.filter_none, Option.none_or] at h
    obtain ⟨hmem, hm, hmin⟩ := CtxSt.exactHit_some hc h
    refine ⟨hmem, hm, earliest_of_both hmin fun x hx he hxm => ?_⟩
    rw [CtxSt.wildHit_none hw x hx he] at hxm
    exact absurd hxm (by decide)
  | some w =>
    obtain ⟨wmem, wm, wmin⟩ := CtxSt.wildHit_some hc hw
    cases he : c.exactHit (BitVec.ofNat 64 m.base) (srcId m) with
    | none =>
      rw [hw, he, Option.filter_some, if_pos rfl, Option.some_or, Option.some.injEq] at h
      subst h
      refine ⟨wmem, wm, earliest_of_both (fun x hx hex hxm => ?_) wmin⟩
      rw [CtxSt.exactHit_none he x hx hex] at hxm
      exact absurd hxm (by decide)
    | some e =>
      obtain ⟨emem, em, emin⟩ := CtxSt.exactHit_some hc he
      simp only [hw, he, Option.filter_some, decide_eq_true_eq] at h
      by_cases hlt : w.pseq < e.pseq
      · rw [if_pos hlt, Option.some_or, Option.some.injEq] at h
        subst h
        exact ⟨wmem, wm, earliest_of_both (fun x hx hex hxm => Nat.le_trans (Nat.le_of_lt hlt) (emin x hx hex hxm)) wmin⟩
      · rw [if_neg hlt, Option.none_or, Option.some.injEq] at h
        subst h
        exact ⟨emem, em, earliest_of_both emin fun x hx hex hxm => Nat.le_trans (Nat.not_lt.mp hlt) (wmin x hx hex hxm)⟩

omit hc in
theorem CtxSt.arrivePick_none {m : Packet} (h : (c.arrivePick m).1 = none) :
    ∀ x ∈ c.posted, x.matches (BitVec.ofNat 64 m.base) (srcId m) = false := by
  rw [CtxSt.arrivePick_eq, Option.or_eq_none_iff] at h
  obtain ⟨hwild, hexact⟩ := h
  have hw : c.wildHit (BitVec.ofNat 64 m.base) (srcId m) = none := by
    simp only [hexact] at hwild
    cases hw : c.wildHit (BitVec.ofNat 64 m.base) (srcId m) with
    | none => rfl
    | some w =>
      rw [hw, Option.filter_some, if_pos rfl] at hwild
      exact hwild
  intro x hx
  cases he : x.exact with
  | true => exact CtxSt.exactHit_none hexact x hx he
  | false => exact CtxSt.wildHit_none hw x hx he

end Picks

/-! ## The list operations keep the order -/

section Ordered
variable {c : CtxSt}

theorem pairwise_snoc {α : Type} {R : α → α → Prop} {l : List α} {a : α} (hl : l.Pairwise R) (h : ∀ x ∈ l, R x a) : (l ++ [a]).Pairwise R :=
  List.pairwise_append.mpr ⟨hl, List.pairwise_singleton R a, fun x hx _ hy => List.mem_singleton.mp hy ▸ h x hx⟩

theorem CtxSt.ordered_post (h : c.ordered) {r : Posted} (hr : r.pseq = c.nextPseq) :
    ({ c with posted := c.posted ++ [r], nextPseq := c.nextPseq + 1 } : CtxSt).ordered := by
  obtain ⟨hp, hnp, hu, hnu⟩ := h
  refine ⟨pairwise_snoc hp fun x hx => hr ▸ hnp x hx, fun x hx => ?_, hu, hnu⟩
  rcases List.mem_append.mp hx with hx | hx
  · exact Nat.lt_succ_of_lt (hnp x hx)
  · rw [List.mem_singleton.mp hx, hr]
    exact Nat.lt_succ_self _

theorem CtxSt.ordered_arrive (h : c.ordered) {u : Unexp} (hu : u.aseq = c.nextAseq) :
    ({ c with unexp := c.unexp ++ [u], nextAseq := c.nextAseq + 1 } : CtxSt).ordered := by
  obtain ⟨hp, hnp, hua, hnu⟩ := h
  refine ⟨hp, hnp, pairwise_snoc hua fun x hx => hu ▸ hnu x hx, fun x hx => ?_⟩
  rcases List.mem_append.mp hx with hx | hx
  · exact Nat.lt_succ_of_lt (hnu x hx)
  · rw [List.mem_singleton.mp hx, hu]
    exact Nat.lt_succ_self _

theorem CtxSt.ordered_unpost (h : c.ordered) (p : Posted → Bool) : ({ c with posted := c.posted.filter p } : CtxSt).ordered := by
  obtain ⟨hp, hnp, hu, hnu⟩ := h
  exact ⟨hp.filter p, fun x hx => hnp x (List.mem_filter.mp hx).1, hu, hnu⟩

theorem CtxSt.ordered_unarrive (h : c.ordered) (p : Unexp → Bool) : ({ c with unexp := c.unexp.filter p } : CtxSt).ordered := by
  obtain ⟨hp, hnp, hu, hnu⟩ := h
  exact ⟨hp, hnp, hu.filter p, fun x hx => hnu x (List.mem_filter.mp hx).1⟩

/-- A change of the waiting messages that keeps their places keeps the order. -/
theorem CtxSt.ordered_store (h : c.ordered) {f : Unexp → Unexp} (hf : ∀ u, (f u).aseq = u.aseq) :
    ({ c with unexp := c.unexp.map f } : CtxSt).ordered := by
  obtain ⟨hp, hnp, hu, hnu⟩ := h
  refine ⟨hp, hnp, List.pairwise_map.mpr (hu.imp fun hxy => ?_), fun x hx => ?_⟩
  · rw [hf, hf]
    exact hxy
  · obtain ⟨y, hy, rfl⟩ := List.mem_map.mp hx
    rw [hf]
    exact hnu y hy

end Ordered

section Lists
variable {s : State} {d : Nat}

theorem State.ctx_of_mt {s t : State} (h : t.mt = s.mt) (d : Nat) : t.ctx d = s.ctx d := by
  unfold State.ctx
  rw [h]

theorem ordered_of_mtCtx {s t : State} (hs : (s.ctx d).ordered) (h : t.mt.ctx = s.mt.ctx) : (t.ctx d).ordered := by
  unfold State.ctx at hs ⊢
  rw [h]
  exact hs

theorem State.setCtx_ordered (s : State) {c : CtxSt} (h : c.ordered) : ((s.setCtx d c).ctx d).ordered := by
  rw [State.ctx_setCtx]
  exact h

theorem ite_ordered {p : Prop} [Decidable p] {t u : State} (ht : (t.ctx d).ordered) (hu : (u.ctx d).ordered) :
    ((if p then t else u).ctx d).ordered := by
  split
  · exact ht
  · exact hu

/-- Filing a receive appends it, or ends its operation. -/
theorem State.filePosted_ordered (h : (s.ctx d).ordered) (o : Nat) : ((s.filePosted d o).ctx d).ordered := by
  unfold State.filePosted
  refine ite_ordered ?_ ?_
  · rw [State.ctx_of_mt (State.finishOp_mt _ _ _), State.ctx_of_mt (s.bump_mt _ _ _)]
    exact h
  · dsimp only
    exact ordered_of_mtCtx (s.setCtx_ordered (CtxSt.ordered_post h rfl)) rfl

/-- What has arrived of a message goes where the rest of it goes. -/
theorem State.routeMsg_ordered (h : (s.ctx d).ordered) (p : Packet) {t : MsgTo} (ht : t = .drop ∨ ∃ ix, t = .file d ix) :
    ((s.routeMsg p t).ctx d).ordered := by
  rcases ht with rfl | ⟨ix, rfl⟩
  · exact h
  · unfold State.routeMsg
    dsimp only
    rw [State.ctx_of_mt (State.countPlaced_mt _ p), State.ctx_setCtx]
    exact CtxSt.ordered_store h fun u => by split <;> rfl

theorem State.flushMsg_ordered (h : (s.ctx d).ordered) (k : XferKey) {t : MsgTo} (ht : t = .drop ∨ ∃ ix, t = .file d ix) :
    ((s.flushMsg k t).ctx d).ordered :=
  foldl_keeps (fun u : State => (u.ctx d).ordered) _ _ _ h fun _ p _ hu => State.routeMsg_ordered hu p ht

theorem State.refuseMsg_ordered (h : (s.ctx d).ordered) (m : Packet) (n : Nat) : ((s.refuseMsg m n).ctx d).ordered := by
  have hfail : (((s.sendNcomp m n).failRec m).ctx d).ordered := by
    rw [State.ctx_of_mt ((State.failRec_mt _ m).trans (s.sendNcomp_mt m n))]
    exact h
  unfold State.refuseMsg
  dsimp only
  split
  · exact State.flushMsg_ordered hfail _ (.inl rfl)
  · exact hfail

/-- Filing a message appends it, or refuses it. -/
theorem State.fileUnexp_ordered (h : (s.ctx d).ordered) (m : Packet) : ((s.fileUnexp d m).ctx d).ordered := by
  unfold State.fileUnexp
  dsimp only
  refine ite_ordered ?_ ?_
  · exact State.refuseMsg_ordered (by rw [State.ctx_of_mt (s.bump_mt _ _ _)]; exact h) m 25
  · refine ite_ordered ?_ (ite_ordered ?_ ?_)
    · refine State.flushMsg_ordered ?_ _ (.inl rfl)
      rw [State.ctx_of_mt (State.freeRec_mt _ _ _), State.ctx_of_mt (State.bump_mt _ _ _ _), State.ctx_of_mt (State.count_mt _ _),
        State.ctx_of_mt (State.bump_mt _ _ _ _)]
      exact ordered_of_mtCtx (s.setCtx_ordered (CtxSt.ordered_arrive h rfl)) rfl
    · rw [State.ctx_of_mt (State.count_mt _ _), State.ctx_of_mt (State.bump_mt _ _ _ _)]
      exact ordered_of_mtCtx (s.setCtx_ordered (CtxSt.ordered_arrive h rfl)) rfl
    · refine State.flushMsg_ordered ?_ _ (.inr ⟨_, rfl⟩)
      rw [State.ctx_of_mt (State.countPlaced_mt _ _), State.ctx_of_mt (State.count_mt _ _), State.ctx_of_mt (State.bump_mt _ _ _ _)]
      exact ordered_of_mtCtx (s.setCtx_ordered (CtxSt.ordered_arrive h rfl)) rfl

/-- Taking a match unlinks it. -/
theorem State.commitPick_ordered (h : (s.ctx d).ordered) (p : MatchPick) : ((s.commitPick d p).ctx d).ordered := by
  cases p with
  | posted r =>
    unfold State.commitPick
    dsimp only
    rw [State.ctx_of_mt (State.bump_mt _ _ _ _)]
    exact ordered_of_mtCtx (s.setCtx_ordered (CtxSt.ordered_unpost h _)) rfl
  | unexp u =>
    unfold State.commitPick
    dsimp only
    rw [State.ctx_of_mt (State.bump_mt _ _ _ _)]
    exact ordered_of_mtCtx (s.setCtx_ordered (CtxSt.ordered_unarrive h _)) rfl

end Lists

/-- Settles O40: the first match of a sorted list is the earliest, and what files, takes and stores keeps the lists sorted. -/
theorem matchingOrder : Obligations.MatchingOrder := by
  refine ⟨fun c hc => ?_, fun s d h => ⟨?_, ?_, ?_⟩⟩
  · obtain ⟨hposted, -, hunexp, -⟩ := hc
    refine ⟨fun m r hr => CtxSt.arrivePick_some hposted hr, fun m hr => CtxSt.arrivePick_none hr, fun r u hu => ?_, fun r hu x hx => ?_⟩
    · exact find?_earliest hunexp hu
    · rw [← Bool.not_eq_true]
      exact List.find?_eq_none.mp hu x hx
  · exact fun o => State.filePosted_ordered h o
  · exact fun m => State.fileUnexp_ordered h m
  · exact fun p => State.commitPick_ordered h p

end Sys2Proof.Machine

end
